-- ==== Sys2Proof/Word.lean ====
section
/-! DEFINITION. Word types of the NH-7400 and the small operand types that the syntax of its steps uses
(spec/00_scope.md R2 to R6, spec/01_work.md R16 to R18). -/

namespace Sys2Proof

/-- A 64-bit register or memory word. -/
abbrev Word := BitVec 64
/-- A byte of memory (R5). -/
abbrev Byte := BitVec 8
/-- A 128-byte memory line, the byte at its lowest address in bits 7:0 (R5). -/
abbrev Line := BitVec 1024
/-- A 12-bit global core index (R3). -/
abbrev CoreId := BitVec 12
/-- A strand number within its core (R3). -/
abbrev StrandId := BitVec 4
/-- A cluster, slice or router number, 8 * y + x (R2). -/
abbrev ClusterId := BitVec 6
/-- A resident job number (R16). -/
abbrev JobId := BitVec 4
/-- A launch-slot index within a job (R13). -/
abbrev Lslot := BitVec 16
/-- An x register number; 63 names nf (R103). -/
abbrev XReg := BitVec 6
/-- A job's key: its 64-byte AES-256-XTS key block (R72), the first byte in bits 7:0. -/
abbrev Key := BitVec 512

/-- The identity of a task message: device, origin core and sequence number (R18). -/
structure Ident where
  odev : BitVec 6
  origin : CoreId
  seq : BitVec 20
deriving DecidableEq, Repr

/-- A leaf of the GVT tree (R358). -/
inductive Leaf where
  | core (c : CoreId)
  | dispenser (cl : ClusterId)
  | decoder (d : BitVec 5)
  | mgmt
  | port (p : BitVec 4)
deriving DecidableEq, Repr

/-- Who writes a register (R67, R377): the host, the management core or a cluster supervisor. -/
inductive Agent where
  | host
  | mgmt
  | supervisor
deriving DecidableEq, Repr

/-- The register spaces a REGISTER_WRITE reaches: BAR 0 (R69), the management core's own registers
(R361, R391), the debug window's WCTL (R377), a route entry (R320), a measurement slot that firmware extends (R62), and the stores of a
supervisor or of the management core by physical address (R179, R200) and to the management core's private SRAM (R1). -/
inductive RegSpace where
  | bar0
  | gvtPeriod
  | prectl
  | presave
  | wctl (c : CoreId)
  | slotClear (i : BitVec 8)
  | route (dev : BitVec 6)
  | measure (slot : Nat)
  | phys (pa : BitVec 46) (bytes : Nat)
  | sram (off : BitVec 22)
  /-- The mailbox of a cluster, from which its supervisor takes the oldest packet (R375). -/
  | mailbox (cl : ClusterId)
deriving DecidableEq, Repr

/-- Where an uncorrectable error is found (R386). -/
inductive ErrSite where
  | memWord (pa : BitVec 52)
  | poolEntry (c : CoreId) (k : StrandId) (r : XReg)
  | tileEntry (c : CoreId) (slot : BitVec 9)
  | weightBlock (c : CoreId) (slot : BitVec 9)
  | accElement (c : CoreId) (acc : BitVec 2) (n : BitVec 10)
  | frameBoth (frame : BitVec 36)
  | versionState (job : JobId) (name : Word) (ver : Word)
  | flitHeader (router : ClusterId)
  /-- Reference data of a decoder (R279 code 6). -/
  | decoderRef (d : BitVec 5) (slot : BitVec 3)
deriving DecidableEq, Repr

end Sys2Proof
end

