-- ==== Sys2Proof/Machine/Crypt.lean ====
section
/-! DEFINITION. AES-256-XTS, under which the memory controllers hold lines (spec/09_memory.md R199, R200; spec/04_launch.md R72). The manual
names the cipher; its steps are those of FIPS 197 and of IEEE 1619 (PRESUMED; notes/assumptions/7.md). -/

namespace Sys2Proof.Machine

/-! ## Bytes -/

/-- The entry of a table of 256 bytes that is kept in rows of sixteen, the first byte of a row in bits 7:0. -/
def aesTable (rows : List (BitVec 128)) (b : Byte) : Byte := ((rows[b.toNat / 16]?).getD 0).extractLsb' (8 * (b.toNat % 16)) 8

/-- The substitution of FIPS 197. -/
def aesSub (b : Byte) : Byte := aesTable [
    0x76ABD7FE2B670130C56F6BF27B777C63#128,
    0xC072A49CAFA2D4ADF04759FA7DC982CA#128,
    0x1531D871F1E5A534CCF73F362693FDB7#128,
    0x75B227EBE28012079A059618C323C704#128,
    0x842FE329B3D63B52A05A6E1B1A2C8309#128,
    0xCF584C4A39BECB6A5BB1FC20ED00D153#128,
    0xA89F3C507F02F94585334D43FBAAEFD0#128,
    0xD2F3FF1021DAB6BCF5389D928F40A351#128,
    0x73195D643D7EA7C41744975FEC130CCD#128,
    0xDB0B5EDE14B8EE4688902A22DC4F8160#128,
    0x79E4959162ACD3C25C2406490A3A32E0#128,
    0x08AE7A65EAF4566CA94ED58D6D37C8E7#128,
    0x8A8BBD4B1F74DDE8C6B4A61C2E2578BA#128,
    0x9E1DC186B95735610EF6034866B53E70#128,
    0xDF2855CEE9871E9B948ED9691198F8E1#128,
    0x16BB54B00F2D99416842E6BF0D89A18C#128] b

/-- Its inverse. -/
def aesUnsub (b : Byte) : Byte := aesTable [
    0xFBD7F3819EA340BF38A53630D56A0952#128,
    0xCBE9DEC444438E3487FF2F9B8239E37C#128,
    0x4EC3FA420B954CEE3D23C2A632947B54#128,
    0x25D18B6D49A25B76B224D92866A12E08#128,
    0x92B6655DCC5CA4D41698688664F6F872#128,
    0x849D8DA75746155EDAB9EDFD5048706C#128,
    0x0645B3B80558E4F70AD3BC8C00ABD890#128,
    0x6B8A130103BDAFC1020F3FCA8F1E2CD0#128,
    0x73E6B4F0CECFF297EADC674F4111913A#128,
    0x6EDF751CE837F9E28535ADE72274AC96#128,
    0x1BBE18AA0E62B76F89C5291D711AF147#128,
    0xF45ACD78FEC0DB9A2079D2C64B3E56FC#128,
    0x5FEC8027591012B131C7078833A8DD1F#128,
    0xEF9CC9939F7AE52D0D4AB519A97F5160#128,
    0x619953833CBBEBC8B0F52AAE4D3BE0A0#128,
    0x7D0C2155631469E126D677BA7E042B17#128] b

/-- Multiplication by x in GF(2^8). -/
def aesX (b : Byte) : Byte := (b <<< 1) ^^^ (if b.msb then 0x1B#8 else 0#8)

/-! ## Columns and blocks -/

/-- A column of four bytes. -/
structure ACol where
  b0 : Byte
  b1 : Byte
  b2 : Byte
  b3 : Byte
deriving DecidableEq, Repr

/-- A block of four columns: sixteen bytes, in the order of memory. -/
structure ABlk where
  c0 : ACol
  c1 : ACol
  c2 : ACol
  c3 : ACol
deriving DecidableEq, Repr

def ACol.add (x y : ACol) : ACol := ⟨x.b0 ^^^ y.b0, x.b1 ^^^ y.b1, x.b2 ^^^ y.b2, x.b3 ^^^ y.b3⟩
def ACol.map (f : Byte → Byte) (x : ACol) : ACol := ⟨f x.b0, f x.b1, f x.b2, f x.b3⟩
def ABlk.add (x y : ABlk) : ABlk := ⟨x.c0.add y.c0, x.c1.add y.c1, x.c2.add y.c2, x.c3.add y.c3⟩
def ABlk.map (f : ACol → ACol) (x : ABlk) : ABlk := ⟨f x.c0, f x.c1, f x.c2, f x.c3⟩

/-- Row r of the block moves r columns to the left. -/
def ABlk.shift (x : ABlk) : ABlk :=
  ⟨⟨x.c0.b0, x.c1.b1, x.c2.b2, x.c3.b3⟩, ⟨x.c1.b0, x.c2.b1, x.c3.b2, x.c0.b3⟩,
   ⟨x.c2.b0, x.c3.b1, x.c0.b2, x.c1.b3⟩, ⟨x.c3.b0, x.c0.b1, x.c1.b2, x.c2.b3⟩⟩
def ABlk.unshift (x : ABlk) : ABlk :=
  ⟨⟨x.c0.b0, x.c3.b1, x.c2.b2, x.c1.b3⟩, ⟨x.c1.b0, x.c0.b1, x.c3.b2, x.c2.b3⟩,
   ⟨x.c2.b0, x.c1.b1, x.c0.b2, x.c3.b3⟩, ⟨x.c3.b0, x.c2.b1, x.c1.b2, x.c0.b3⟩⟩

/-- One byte of a mixed column: 2 a + 3 b + c + d. -/
def aesMix1 (a b c d : Byte) : Byte := aesX a ^^^ (aesX b ^^^ b) ^^^ c ^^^ d
def ACol.mix (x : ACol) : ACol :=
  ⟨aesMix1 x.b0 x.b1 x.b2 x.b3, aesMix1 x.b1 x.b2 x.b3 x.b0, aesMix1 x.b2 x.b3 x.b0 x.b1, aesMix1 x.b3 x.b0 x.b1 x.b2⟩
/-- One byte of an unmixed column: 14 a + 11 b + 13 c + 9 d. -/
def aesUnmix1 (a b c d : Byte) : Byte :=
  aesX (aesX (aesX a)) ^^^ aesX (aesX a) ^^^ aesX a ^^^ (aesX (aesX (aesX b)) ^^^ aesX b ^^^ b) ^^^
    (aesX (aesX (aesX c)) ^^^ aesX (aesX c) ^^^ c) ^^^ (aesX (aesX (aesX d)) ^^^ d)
def ACol.unmix (x : ACol) : ACol :=
  ⟨aesUnmix1 x.b0 x.b1 x.b2 x.b3, aesUnmix1 x.b1 x.b2 x.b3 x.b0, aesUnmix1 x.b2 x.b3 x.b0 x.b1, aesUnmix1 x.b3 x.b0 x.b1 x.b2⟩

/-! ## AES-256 -/

/-- The two round keys that follow two round keys, with a round constant. -/
def aesNext (k : ABlk × ABlk) (rc : Byte) : ABlk × ABlk :=
  let t := (⟨k.2.c3.b1, k.2.c3.b2, k.2.c3.b3, k.2.c3.b0⟩ : ACol).map aesSub
  let n0 := k.1.c0.add ⟨t.b0 ^^^ rc, t.b1, t.b2, t.b3⟩
  let n1 := k.1.c1.add n0
  let n2 := k.1.c2.add n1
  let n3 := k.1.c3.add n2
  let n4 := k.2.c0.add (n3.map aesSub)
  let n5 := k.2.c1.add n4
  let n6 := k.2.c2.add n5
  (⟨n0, n1, n2, n3⟩, ⟨n4, n5, n6, k.2.c3.add n6⟩)

/-- The round keys from two on. -/
def aesExpand (k : ABlk × ABlk) (rcs : List Byte) : List ABlk :=
  match rcs with
  | [] => [k.1]
  | rc :: r => k.1 :: k.2 :: aesExpand (aesNext k rc) r

/-- The fifteen round keys of a 256-bit key. -/
def aesKeys (k : ABlk × ABlk) : List ABlk := aesExpand k [0x01#8, 0x02#8, 0x04#8, 0x08#8, 0x10#8, 0x20#8, 0x40#8]

/-- The rounds behind the first key addition; the last round mixes no columns. -/
def aesRounds (ks : List ABlk) (b : ABlk) : ABlk :=
  match ks with
  | [] => b
  | [k] => (b.map (ACol.map aesSub)).shift.add k
  | k :: r => aesRounds r ((((b.map (ACol.map aesSub)).shift).map ACol.mix).add k)

/-- The rounds taken back. -/
def aesUnrounds (ks : List ABlk) (b : ABlk) : ABlk :=
  match ks with
  | [] => b
  | [k] => ((b.add k).unshift).map (ACol.map aesUnsub)
  | k :: r => ((((aesUnrounds r b).add k).map ACol.unmix).unshift).map (ACol.map aesUnsub)

/-- A block encrypted and decrypted under round keys. -/
def aesEnc (ks : List ABlk) (b : ABlk) : ABlk := match ks with | [] => b | k :: r => aesRounds r (b.add k)
def aesDec (ks : List ABlk) (b : ABlk) : ABlk := match ks with | [] => b | k :: r => (aesUnrounds r b).add k

/-! ## XTS over a data unit of 128 bytes -/

/-- Four bytes and sixteen bytes of a value, the first in bits 7:0. -/
def acol (v : BitVec 32) : ACol := ⟨v.extractLsb' 0 8, v.extractLsb' 8 8, v.extractLsb' 16 8, v.extractLsb' 24 8⟩
def ablk (v : BitVec 128) : ABlk := ⟨acol (v.extractLsb' 0 32), acol (v.extractLsb' 32 32), acol (v.extractLsb' 64 32), acol (v.extractLsb' 96 32)⟩
def ACol.bits (x : ACol) : BitVec 32 := x.b3 ++ x.b2 ++ x.b1 ++ x.b0
def ABlk.bits (x : ABlk) : BitVec 128 := x.c3.bits ++ x.c2.bits ++ x.c1.bits ++ x.c0.bits

/-- The tweak of the next block: multiplication by x in GF(2^128). -/
def xtsNext (t : BitVec 128) : BitVec 128 := (t <<< 1) ^^^ (if t.msb then 0x87#128 else 0#128)

/-- The tweaks of n blocks. -/
def xtsTweaks (t : BitVec 128) (n : Nat) : List (BitVec 128) :=
  match n with
  | 0 => []
  | k + 1 => t :: xtsTweaks (xtsNext t) k

/-- A key block's half as two round keys (R72: the data key in bytes 0 to 31, the tweak key in bytes 32 to 63). -/
def xtsHalf (k : Key) (h : Nat) : List ABlk := aesKeys (ablk (k.extractLsb' (256 * h) 128), ablk (k.extractLsb' (256 * h + 128) 128))

/-- The blocks of a line, each treated with its tweak. -/
def xtsBlocks (f : ABlk → ABlk) (ts : List (BitVec 128)) (l : Line) : List (BitVec 128) :=
  ts.zipIdx.map fun (t, i) => (f (ablk (l.extractLsb' (128 * i) 128 ^^^ t))).bits ^^^ t

/-- A line of eight blocks, the first in bits 127:0. -/
def lineOf (bs : List (BitVec 128)) : Line := bs.foldr (fun b (l : Line) => (l <<< 128) ||| b.setWidth 1024) 0

/-- The tweaks of a data unit: the encrypted unit number (R199: PA[51:7]). -/
def xtsUnit (k : Key) (unit : Nat) : List (BitVec 128) := xtsTweaks (aesEnc (xtsHalf k 1) (ablk (BitVec.ofNat 128 unit))).bits 8

/-- A line encrypted, and decrypted, as one data unit (R199). -/
def xtsEnc (k : Key) (unit : Nat) (l : Line) : Line := lineOf (xtsBlocks (aesEnc (xtsHalf k 0)) (xtsUnit k unit) l)
def xtsDec (k : Key) (unit : Nat) (l : Line) : Line := lineOf (xtsBlocks (aesDec (xtsHalf k 0)) (xtsUnit k unit) l)

end Sys2Proof.Machine
end

