-- ==== Sys2Proof/Config.lean ====
section
/-! DEFINITION. What the manual leaves open: free values (opaque constants without a body, so that nothing can be proved about
which value they take) and what one implementation fixes (spec/00_scope.md R9; notes/assumptions 6 to 8). -/

namespace Sys2Proof

/-- The n-th undefined 64-bit value (R9; assumption 6). -/
opaque Config.undef : Nat → Word
/-- The n-th undefined byte (R9; assumption 6). -/
opaque Config.undefByte : Nat → Byte
/-- The n-th undefined 16-byte mask register value (R9, R413; assumption 6). -/
opaque Config.undefMask : Nat → BitVec 128
/-- Where a retention ring of so many entries holds the k-th of its entries in use, at each step (R345; assumption 19). -/
opaque Config.ringPlace : Nat → Nat → Nat → Nat
/-- The version tiles that the HBM version storage of a job holds for a space in one slice's ephemeris (R194, R222; assumption 17). -/
opaque Config.versionTiles : Nat → Nat → Nat
/-- The device serial number (R63, R422; assumption 8). -/
opaque Config.serial : Word
/-- The save key that the n-th cold reset draws (R397; assumption 8). -/
opaque Config.saveKey : Nat → BitVec 256
/-- The 1,280-byte Falcon-1024 signature of a report body (R63; assumption 8). -/
opaque Config.falcon : List Byte → BitVec 10240
/-- What an AV1 bitstream says of one frame (R277, R279): its size, 10-bit samples, 4:4:4 chroma, a syntax error, a profile, bit depth or tool that
the decoders lack, the bytes of the stream read by its end, and of the eight reference slots those it predicts from and those it refreshes. -/
structure Av1Frame where
  rows : Nat
  cols : Nat
  deep : Bool
  full : Bool
  syntaxError : Bool
  unsupported : Bool
  upto : Nat
  refs : BitVec 8
  refresh : BitVec 8
deriving DecidableEq, Repr

/-- AV1 decoding (R277, R303; assumption 9): frame n of a bitstream in display order, none after the last. -/
opaque Config.av1Frame : List Byte → Nat → Option Av1Frame
/-- A sample of the reconstructed frame n (R277; assumption 9): by plane, row and column. -/
opaque Config.av1Sample : List Byte → Nat → Nat → Nat → Nat → Nat
/-- The SECDED code of a flit header over its other 120 bits, which the manual does not define (R306; assumption 13). -/
opaque Config.hecc : BitVec 120 → BitVec 8
/-- The credits that a Jenay link gives a class (R321; assumption 13). -/
opaque Config.linkCredits : Nat → Nat

end Sys2Proof
end

