-- ==== Sys2Proof/Machine/Sparse.lean ====
section
/-! DEFINITION. Tables held as lists of (index, value) pairs: an index that is not listed has the default value that the reader
names. -/

namespace Sys2Proof.Machine

/-- A table of values by number; unlisted numbers have a default that the reader names. -/
abbrev Tab (α : Type) := List (Nat × α)

/-- The value at an index, the default where none is listed. -/
def Tab.get {α : Type} (d : α) (t : Tab α) (k : Nat) : α :=
  match t with
  | [] => d
  | (k', v) :: r => if k' = k then v else Tab.get d r k

/-- Whether an index is listed. -/
def Tab.has {α : Type} (t : Tab α) (k : Nat) : Bool := t.any fun e => e.1 == k

/-- The listed value at an index. -/
def Tab.find {α : Type} (t : Tab α) (k : Nat) : Option α :=
  match t with
  | [] => none
  | (k', v) :: r => if k' = k then some v else Tab.find r k

/-- The table with a value at an index; a new index goes before the first greater one. -/
def Tab.put {α : Type} (t : Tab α) (k : Nat) (v : α) : Tab α :=
  match t with
  | [] => [(k, v)]
  | (k', v') :: r => if k' = k then (k, v) :: r else if k < k' then (k, v) :: (k', v') :: r else (k', v') :: Tab.put r k v

/-- The table without an index. -/
def Tab.del {α : Type} (t : Tab α) (k : Nat) : Tab α := t.filter fun e => e.1 != k

/-- The table with the value at an index changed by a function. -/
def Tab.upd {α : Type} (d : α) (t : Tab α) (k : Nat) (f : α → α) : Tab α := Tab.put t k (f (Tab.get d t k))

end Sys2Proof.Machine
end

