-- ==== Sys2Proof/Syntax.lean ====
section
/-! DEFINITION. The steps of the NH-7400: one constructor per row of spec/opcode_table.json. The rows with words are the
instructions (operands are the encoding fields of spec/06_encoding.md R101 to R116, named as the table names them, from the high
bit down). The rows without words are the device's own steps (spec/95_what_each_step_holds.md); which unit acts, which message is
served and what an outside agent writes are the operands that the state holds for the step that runs, in the field `arg`
(StepArg). -/

namespace Sys2Proof

/-- The operands of a device step (notes/assumptions/4.md). Each step reads the fields its constructor names. -/
structure StepArg where
  /-- The core. -/
  c : CoreId := 0
  /-- The strand of that core. -/
  k : StrandId := 0
  /-- The cluster, slice or router. -/
  cl : ClusterId := 0
  /-- The job. -/
  j : JobId := 0
  /-- The launch slot. -/
  l : Lslot := 0
  /-- A message number, an entry of an engine or another number that the step names. -/
  n : Nat := 0
  /-- A second number. -/
  v : Nat := 0
  /-- Whether an outside transfer succeeded, or writes. -/
  ok : Bool := false
  /-- Who writes. -/
  who : Agent := .host
  /-- The register space written. -/
  space : RegSpace := .bar0
  /-- Values. -/
  w0 : Word := 0
  w1 : Word := 0
  w2 : Word := 0
  /-- A line of data. -/
  line : Line := 0
  /-- Images. -/
  bytes : List Byte := []
  bytes2 : List Byte := []
  bytes3 : List Byte := []
  /-- Island caps that the firmware passes. -/
  caps : List (BitVec 12) := []
  /-- Route entries that the firmware passes. -/
  routes : List (BitVec 16) := []
  /-- A leaf of the GVT tree. -/
  leaf : Leaf := .mgmt
  /-- Where an error is found. -/
  site : ErrSite := .flitHeader 0
  /-- A task identity. -/
  t : Ident := ⟨0, 0, 0⟩
deriving DecidableEq, Repr

/-- A step of the device: an instruction or a device step. -/
inductive Instr where
  /-- ADD (R142). -/
  | add (w : Bool) (u : Bool) (b : BitVec 6) (a : BitVec 6) (d : BitVec 6)
  /-- SUB (R142). -/
  | sub (w : Bool) (u : Bool) (b : BitVec 6) (a : BitVec 6) (d : BitVec 6)
  /-- AND (R142). -/
  | and (w : Bool) (u : Bool) (b : BitVec 6) (a : BitVec 6) (d : BitVec 6)
  /-- OR (R142). -/
  | or (w : Bool) (u : Bool) (b : BitVec 6) (a : BitVec 6) (d : BitVec 6)
  /-- XOR (R142). -/
  | xor (w : Bool) (u : Bool) (b : BitVec 6) (a : BitVec 6) (d : BitVec 6)
  /-- ANDN (R142). -/
  | andn (w : Bool) (u : Bool) (b : BitVec 6) (a : BitVec 6) (d : BitVec 6)
  /-- SLL (R142). -/
  | sll (w : Bool) (u : Bool) (b : BitVec 6) (a : BitVec 6) (d : BitVec 6)
  /-- SRL (R142). -/
  | srl (w : Bool) (u : Bool) (b : BitVec 6) (a : BitVec 6) (d : BitVec 6)
  /-- SRA (R142). -/
  | sra (w : Bool) (u : Bool) (b : BitVec 6) (a : BitVec 6) (d : BitVec 6)
  /-- SLT (R142). -/
  | slt (w : Bool) (u : Bool) (b : BitVec 6) (a : BitVec 6) (d : BitVec 6)
  /-- SLTU (R142). -/
  | sltu (w : Bool) (u : Bool) (b : BitVec 6) (a : BitVec 6) (d : BitVec 6)
  /-- MIN (R142). -/
  | min (w : Bool) (u : Bool) (b : BitVec 6) (a : BitVec 6) (d : BitVec 6)
  /-- MAX (R142). -/
  | max (w : Bool) (u : Bool) (b : BitVec 6) (a : BitVec 6) (d : BitVec 6)
  /-- MINU (R142). -/
  | minu (w : Bool) (u : Bool) (b : BitVec 6) (a : BitVec 6) (d : BitVec 6)
  /-- MAXU (R142). -/
  | maxu (w : Bool) (u : Bool) (b : BitVec 6) (a : BitVec 6) (d : BitVec 6)
  /-- MUL (R142). -/
  | mul (w : Bool) (u : Bool) (b : BitVec 6) (a : BitVec 6) (d : BitVec 6)
  /-- MULH (R142). -/
  | mulh (w : Bool) (u : Bool) (b : BitVec 6) (a : BitVec 6) (d : BitVec 6)
  /-- MULHU (R142). -/
  | mulhu (w : Bool) (u : Bool) (b : BitVec 6) (a : BitVec 6) (d : BitVec 6)
  /-- DIV (R143). -/
  | div (w : Bool) (u : Bool) (b : BitVec 6) (a : BitVec 6) (d : BitVec 6)
  /-- DIVU (R143). -/
  | divu (w : Bool) (u : Bool) (b : BitVec 6) (a : BitVec 6) (d : BitVec 6)
  /-- REM (R143). -/
  | rem (w : Bool) (u : Bool) (b : BitVec 6) (a : BitVec 6) (d : BitVec 6)
  /-- REMU (R143). -/
  | remu (w : Bool) (u : Bool) (b : BitVec 6) (a : BitVec 6) (d : BitVec 6)
  /-- CLZ (R142). -/
  | clz (u : Bool) (a : BitVec 6) (d : BitVec 6)
  /-- CTZ (R142). -/
  | ctz (u : Bool) (a : BitVec 6) (d : BitVec 6)
  /-- POPC (R142). -/
  | popc (u : Bool) (a : BitVec 6) (d : BitVec 6)
  /-- SH1ADD (R142). -/
  | sh1add (w : Bool) (u : Bool) (b : BitVec 6) (a : BitVec 6) (d : BitVec 6)
  /-- SH2ADD (R142). -/
  | sh2add (w : Bool) (u : Bool) (b : BitVec 6) (a : BitVec 6) (d : BitVec 6)
  /-- SH3ADD (R142). -/
  | sh3add (w : Bool) (u : Bool) (b : BitVec 6) (a : BitVec 6) (d : BitVec 6)
  /-- ADDI (R144). -/
  | addi (i : BitVec 12) (u : Bool) (a : BitVec 6) (d : BitVec 6)
  /-- ANDI (R144). -/
  | andi (i : BitVec 12) (u : Bool) (a : BitVec 6) (d : BitVec 6)
  /-- ORI (R144). -/
  | ori (i : BitVec 12) (u : Bool) (a : BitVec 6) (d : BitVec 6)
  /-- XORI (R144). -/
  | xori (i : BitVec 12) (u : Bool) (a : BitVec 6) (d : BitVec 6)
  /-- SLTI (R144). -/
  | slti (i : BitVec 12) (u : Bool) (a : BitVec 6) (d : BitVec 6)
  /-- SLTIU (R144). -/
  | sltiu (i : BitVec 12) (u : Bool) (a : BitVec 6) (d : BitVec 6)
  /-- SLLI (R144). -/
  | slli (k : BitVec 6) (u : Bool) (a : BitVec 6) (d : BitVec 6)
  /-- SRLI (R144). -/
  | srli (k : BitVec 6) (u : Bool) (a : BitVec 6) (d : BitVec 6)
  /-- SRAI (R144). -/
  | srai (k : BitVec 6) (u : Bool) (a : BitVec 6) (d : BitVec 6)
  /-- LIM (R145). -/
  | lim (i : BitVec 16) (s : BitVec 2) (d : BitVec 6)
  /-- LIMK (R145). -/
  | limk (i : BitVec 16) (s : BitVec 2) (d : BitVec 6)
  /-- CHK (R146). -/
  | chk (w : Bool) (u : Bool) (b : BitVec 6) (a : BitVec 6) (c : BitVec 3) (n : BitVec 2)
  /-- CHKI (R146). -/
  | chki (i : BitVec 13) (a : BitVec 6) (u : Bool) (c : BitVec 3) (n : BitVec 2)
  /-- FCHK (R147). -/
  | fchk (w : Bool) (u : Bool) (b : BitVec 6) (a : BitVec 6) (c : BitVec 3) (n : BitVec 2)
  /-- BR (R148). -/
  | br (o : BitVec 25)
  /-- JL (R148). -/
  | jl (o : BitVec 19) (d : BitVec 6)
  /-- JLR (R149). -/
  | jlr (i : BitVec 12) (u : Bool) (a : BitVec 6) (d : BitVec 6)
  /-- FADD (R151). -/
  | fadd (w : Bool) (u : Bool) (b : BitVec 6) (a : BitVec 6) (d : BitVec 6)
  /-- FSUB (R151). -/
  | fsub (w : Bool) (u : Bool) (b : BitVec 6) (a : BitVec 6) (d : BitVec 6)
  /-- FMUL (R151). -/
  | fmul (w : Bool) (u : Bool) (b : BitVec 6) (a : BitVec 6) (d : BitVec 6)
  /-- FDIV (R151). -/
  | fdiv (w : Bool) (u : Bool) (b : BitVec 6) (a : BitVec 6) (d : BitVec 6)
  /-- FSQRT (R151). -/
  | fsqrt (u : Bool) (a : BitVec 6) (d : BitVec 6)
  /-- FMIN (R151). -/
  | fmin (w : Bool) (u : Bool) (b : BitVec 6) (a : BitVec 6) (d : BitVec 6)
  /-- FMAX (R151). -/
  | fmax (w : Bool) (u : Bool) (b : BitVec 6) (a : BitVec 6) (d : BitVec 6)
  /-- FMA (R151). -/
  | fma (w : Bool) (u : Bool) (b : BitVec 6) (a : BitVec 6) (d : BitVec 6)
  /-- FCVT_I_F (R151). -/
  | fcvtIF (u : Bool) (a : BitVec 6) (d : BitVec 6)
  /-- FCVT_F_I (R151). -/
  | fcvtFI (u : Bool) (a : BitVec 6) (d : BitVec 6)
  /-- FCLASS (R152). -/
  | fclass (u : Bool) (a : BitVec 6) (d : BitVec 6)
  /-- CTLR (R153). -/
  | ctlr (n : BitVec 9) (u : Bool) (d : BitVec 6)
  /-- CTLW (R153). -/
  | ctlw (n : BitVec 9) (u : Bool) (a : BitVec 6)
  /-- CTLX (R153). -/
  | ctlx (n : BitVec 9) (u : Bool) (a : BitVec 6) (d : BitVec 6)
  /-- CTLSET (R153). -/
  | ctlset (n : BitVec 9) (u : Bool) (a : BitVec 6)
  /-- CTLCLR (R153). -/
  | ctlclr (n : BitVec 9) (u : Bool) (a : BitVec 6)
  /-- TRAP (R155). -/
  | trap (k : BitVec 9) (u : Bool) (a : BitVec 6)
  /-- BRK (R156). -/
  | brk (k : BitVec 9)
  /-- ISYNC (R99). -/
  | isync
  /-- RESIZE (R157). -/
  | resize (u : Bool) (a : BitVec 6) (d : BitVec 6)
  /-- SPAWN (R159). -/
  | spawn (w : Bool) (u : Bool) (b : BitVec 6) (a : BitVec 6) (d : BitVec 6)
  /-- SPAWNA (R159). -/
  | spawna (w : Bool) (u : Bool) (b : BitVec 6) (a : BitVec 6) (d : BitVec 6)
  /-- MIGRATE (R160). -/
  | migrate (u : Bool) (a : BitVec 6)
  /-- EXIT (R161). -/
  | exit
  /-- WAITW (R164). -/
  | waitw (u : Bool) (a : BitVec 6)
  /-- YIELD (R161). -/
  | yield
  /-- SUSPEND (R163). -/
  | suspend (u : Bool) (a : BitVec 6)
  /-- RESUMEC (R165). -/
  | resumec (u : Bool) (a : BitVec 6) (d : BitVec 6)
  /-- LAUNCH (R166). -/
  | launch (u : Bool) (a : BitVec 6) (d : BitVec 6)
  /-- CANCEL (R167). -/
  | cancel (w : Bool) (u : Bool) (b : BitVec 6) (a : BitVec 6) (d : BitVec 6)
  /-- ITER (R168). -/
  | iter (u : Bool) (a : BitVec 6) (d : BitVec 6)
  /-- ITERN (R169). -/
  | itern (i : BitVec 12) (u : Bool) (a : BitVec 6) (d : BitVec 6)
  /-- LD (R209). -/
  | ld (o : BitVec 9) (z : BitVec 2) (u : Bool) (a : BitVec 6) (t : BitVec 6)
  /-- ST (R209). -/
  | st (o : BitVec 9) (z : BitVec 2) (v : Bool) (u : Bool) (a : BitVec 6) (t : BitVec 6)
  /-- LDB (R212). -/
  | ldb (w : Bool) (u : Bool) (b : BitVec 6) (a : BitVec 6) (d : BitVec 6)
  /-- STB (R212). -/
  | stb (w : Bool) (u : Bool) (b : BitVec 6) (a : BitVec 6)
  /-- PREF (R213). -/
  | pref (u : Bool) (a : BitVec 6)
  /-- FILLN (R193). -/
  | filln (w : Bool) (u : Bool) (b : BitVec 6) (a : BitVec 6)
  /-- FLUSH (R213). -/
  | flush (u : Bool) (a : BitVec 6)
  /-- INV (R213). -/
  | inv (u : Bool) (a : BitVec 6)
  /-- HINT (R213). -/
  | hint (w : Bool) (u : Bool) (b : BitVec 6) (a : BitVec 6)
  /-- FENCE (R214). -/
  | fence (s : BitVec 4) (k : BitVec 2)
  /-- PUTREG (R215). -/
  | putreg (w : Bool) (u : Bool) (b : BitVec 6) (a : BitVec 6)
  /-- DEFER_ST (R221). -/
  | deferSt (w : Bool) (u : Bool) (b : BitVec 6) (a : BitVec 6)
  /-- DEFER_SIG (R221). -/
  | deferSig (w : Bool) (u : Bool) (b : BitVec 6) (a : BitVec 6)
  /-- LD_M (R211). -/
  | ldM (u : Bool) (a : BitVec 6) (m : BitVec 3)
  /-- ST_M (R211). -/
  | stM (u : Bool) (a : BitVec 6) (m : BitVec 3)
  /-- LDFE (R216). -/
  | ldfe (u : Bool) (a : BitVec 6) (d : BitVec 6)
  /-- LDFF (R216). -/
  | ldff (u : Bool) (a : BitVec 6) (d : BitVec 6)
  /-- STEF (R216). -/
  | stef (w : Bool) (u : Bool) (b : BitVec 6) (a : BitVec 6)
  /-- STFF (R216). -/
  | stff (w : Bool) (u : Bool) (b : BitVec 6) (a : BitVec 6)
  /-- FEPURGE (R216). -/
  | fepurge (u : Bool) (a : BitVec 6)
  /-- AMO_ADD (R219). -/
  | amoAdd (w : Bool) (u : Bool) (b : BitVec 6) (a : BitVec 6) (d : BitVec 6)
  /-- AMO_AND (R219). -/
  | amoAnd (w : Bool) (u : Bool) (b : BitVec 6) (a : BitVec 6) (d : BitVec 6)
  /-- AMO_OR (R219). -/
  | amoOr (w : Bool) (u : Bool) (b : BitVec 6) (a : BitVec 6) (d : BitVec 6)
  /-- AMO_XOR (R219). -/
  | amoXor (w : Bool) (u : Bool) (b : BitVec 6) (a : BitVec 6) (d : BitVec 6)
  /-- AMO_MIN (R219). -/
  | amoMin (w : Bool) (u : Bool) (b : BitVec 6) (a : BitVec 6) (d : BitVec 6)
  /-- AMO_MAX (R219). -/
  | amoMax (w : Bool) (u : Bool) (b : BitVec 6) (a : BitVec 6) (d : BitVec 6)
  /-- AMO_MINU (R219). -/
  | amoMinu (w : Bool) (u : Bool) (b : BitVec 6) (a : BitVec 6) (d : BitVec 6)
  /-- AMO_MAXU (R219). -/
  | amoMaxu (w : Bool) (u : Bool) (b : BitVec 6) (a : BitVec 6) (d : BitVec 6)
  /-- AMO_SWAP (R219). -/
  | amoSwap (w : Bool) (u : Bool) (b : BitVec 6) (a : BitVec 6) (d : BitVec 6)
  /-- AMO_CAS (R219). -/
  | amoCas (w : Bool) (u : Bool) (b : BitVec 6) (a : BitVec 6) (d : BitVec 6)
  /-- AMO_FADD (R219). -/
  | amoFadd (w : Bool) (u : Bool) (b : BitVec 6) (a : BitVec 6) (d : BitVec 6)
  /-- RED_ADD (R220). -/
  | redAdd (w : Bool) (u : Bool) (b : BitVec 6) (a : BitVec 6)
  /-- RED_FADD (R220). -/
  | redFadd (w : Bool) (u : Bool) (b : BitVec 6) (a : BitVec 6)
  /-- BAR_INIT (R231). -/
  | barInit (n : BitVec 8) (u : Bool) (a : BitVec 6)
  /-- BAR_ARR (R231). -/
  | barArr (n : BitVec 8) (u : Bool) (a : BitVec 6) (d : BitVec 6)
  /-- BAR_WAIT (R231). -/
  | barWait (n : BitVec 8) (u : Bool) (a : BitVec 6)
  /-- BAR_ARW (R231). -/
  | barArw (n : BitVec 8) (d : BitVec 6)
  /-- MBAR_INIT (R233). -/
  | mbarInit (u : Bool) (a : BitVec 6) (d : BitVec 6)
  /-- MBAR_ARR (R233). -/
  | mbarArr (u : Bool) (a : BitVec 6) (d : BitVec 6)
  /-- MBAR_WAIT (R233). -/
  | mbarWait (u : Bool) (a : BitVec 6) (d : BitVec 6)
  /-- VERLD_EQ (R225). -/
  | verldEq (w : Bool) (u : Bool) (b : BitVec 6) (a : BitVec 6) (s : BitVec 9)
  /-- VERLD_ASOF (R226). -/
  | verldAsof (w : Bool) (u : Bool) (b : BitVec 6) (a : BitVec 6) (s : BitVec 9)
  /-- VERST (R224). -/
  | verst (k : Bool) (w : Bool) (u : Bool) (b : BitVec 6) (a : BitVec 6) (s : BitVec 9)
  /-- VERREL (R229). -/
  | verrel (w : Bool) (u : Bool) (b : BitVec 6) (a : BitVec 6)
  /-- VERQ (R229). -/
  | verq (w : Bool) (u : Bool) (b : BitVec 6) (a : BitVec 6) (d : BitVec 6)
  /-- VADD (R251). -/
  | vadd (s : Bool) (e : Bool) (m : BitVec 3) (y : BitVec 4) (b : BitVec 4) (a : BitVec 4) (d : BitVec 4)
  /-- VSUB (R251). -/
  | vsub (s : Bool) (e : Bool) (m : BitVec 3) (y : BitVec 4) (b : BitVec 4) (a : BitVec 4) (d : BitVec 4)
  /-- VMUL (R251). -/
  | vmul (s : Bool) (e : Bool) (m : BitVec 3) (y : BitVec 4) (b : BitVec 4) (a : BitVec 4) (d : BitVec 4)
  /-- VDIV (R251). -/
  | vdiv (s : Bool) (e : Bool) (m : BitVec 3) (y : BitVec 4) (b : BitVec 4) (a : BitVec 4) (d : BitVec 4)
  /-- VMIN (R251). -/
  | vmin (s : Bool) (e : Bool) (m : BitVec 3) (y : BitVec 4) (b : BitVec 4) (a : BitVec 4) (d : BitVec 4)
  /-- VMAX (R251). -/
  | vmax (s : Bool) (e : Bool) (m : BitVec 3) (y : BitVec 4) (b : BitVec 4) (a : BitVec 4) (d : BitVec 4)
  /-- VAND (R251). -/
  | vand (s : Bool) (e : Bool) (m : BitVec 3) (y : BitVec 4) (b : BitVec 4) (a : BitVec 4) (d : BitVec 4)
  /-- VOR (R251). -/
  | vor (s : Bool) (e : Bool) (m : BitVec 3) (y : BitVec 4) (b : BitVec 4) (a : BitVec 4) (d : BitVec 4)
  /-- VXOR (R251). -/
  | vxor (s : Bool) (e : Bool) (m : BitVec 3) (y : BitVec 4) (b : BitVec 4) (a : BitVec 4) (d : BitVec 4)
  /-- VSHL (R251). -/
  | vshl (s : Bool) (e : Bool) (m : BitVec 3) (y : BitVec 4) (b : BitVec 4) (a : BitVec 4) (d : BitVec 4)
  /-- VSHR (R251). -/
  | vshr (s : Bool) (e : Bool) (m : BitVec 3) (y : BitVec 4) (b : BitVec 4) (a : BitVec 4) (d : BitVec 4)
  /-- VDOT (R258). -/
  | vdot (s : Bool) (e : Bool) (m : BitVec 3) (y : BitVec 4) (b : BitVec 4) (a : BitVec 4) (d : BitVec 4)
  /-- VPERM (R257). -/
  | vperm (s : Bool) (e : Bool) (m : BitVec 3) (y : BitVec 4) (b : BitVec 4) (a : BitVec 4) (d : BitVec 4)
  /-- VGATH (R257). -/
  | vgath (s : Bool) (e : Bool) (m : BitVec 3) (y : BitVec 4) (b : BitVec 4) (a : BitVec 4) (d : BitVec 4)
  /-- VSCAT (R257). -/
  | vscat (s : Bool) (e : Bool) (m : BitVec 3) (y : BitVec 4) (b : BitVec 4) (a : BitVec 4) (d : BitVec 4)
  /-- VCOMPR (R256). -/
  | vcompr (s : Bool) (e : Bool) (m : BitVec 3) (y : BitVec 4) (b : BitVec 4) (a : BitVec 4) (d : BitVec 4)
  /-- VABS (R251). -/
  | vabs (s : Bool) (e : Bool) (m : BitVec 3) (y : BitVec 4) (a : BitVec 4) (d : BitVec 4)
  /-- VNEG (R251). -/
  | vneg (s : Bool) (e : Bool) (m : BitVec 3) (y : BitVec 4) (a : BitVec 4) (d : BitVec 4)
  /-- VSQRT (R252). -/
  | vsqrt (s : Bool) (e : Bool) (m : BitVec 3) (y : BitVec 4) (a : BitVec 4) (d : BitVec 4)
  /-- VRCP (R252). -/
  | vrcp (s : Bool) (e : Bool) (m : BitVec 3) (y : BitVec 4) (a : BitVec 4) (d : BitVec 4)
  /-- VRSQRT (R252). -/
  | vrsqrt (s : Bool) (e : Bool) (m : BitVec 3) (y : BitVec 4) (a : BitVec 4) (d : BitVec 4)
  /-- VEXP2 (R252). -/
  | vexp2 (s : Bool) (e : Bool) (m : BitVec 3) (y : BitVec 4) (a : BitVec 4) (d : BitVec 4)
  /-- VLOG2 (R252). -/
  | vlog2 (s : Bool) (e : Bool) (m : BitVec 3) (y : BitVec 4) (a : BitVec 4) (d : BitVec 4)
  /-- VTANH (R252). -/
  | vtanh (s : Bool) (e : Bool) (m : BitVec 3) (y : BitVec 4) (a : BitVec 4) (d : BitVec 4)
  /-- VSIGM (R252). -/
  | vsigm (s : Bool) (e : Bool) (m : BitVec 3) (y : BitVec 4) (a : BitVec 4) (d : BitVec 4)
  /-- VMOV (R251). -/
  | vmov (s : Bool) (e : Bool) (m : BitVec 3) (y : BitVec 4) (a : BitVec 4) (d : BitVec 4)
  /-- VREDSUM (R258). -/
  | vredsum (s : Bool) (e : Bool) (m : BitVec 3) (y : BitVec 4) (a : BitVec 4) (d : BitVec 4)
  /-- VREDMAX (R258). -/
  | vredmax (s : Bool) (e : Bool) (m : BitVec 3) (y : BitVec 4) (a : BitVec 4) (d : BitVec 4)
  /-- VREDMIN (R258). -/
  | vredmin (s : Bool) (e : Bool) (m : BitVec 3) (y : BitVec 4) (a : BitVec 4) (d : BitVec 4)
  /-- VSCAN (R259). -/
  | vscan (s : Bool) (e : Bool) (m : BitVec 3) (y : BitVec 4) (a : BitVec 4) (d : BitVec 4)
  /-- VNORM (R258). -/
  | vnorm (s : Bool) (e : Bool) (m : BitVec 3) (y : BitVec 4) (a : BitVec 4) (d : BitVec 4)
  /-- VIOTA (R253). -/
  | viota (e : Bool) (m : BitVec 3) (y : BitVec 4) (d : BitVec 4)
  /-- VFMA (R251). -/
  | vfma (s : Bool) (e : Bool) (m : BitVec 3) (y : BitVec 4) (c : BitVec 4) (b : BitVec 4) (a : BitVec 4) (d : BitVec 4)
  /-- VFMS (R251). -/
  | vfms (s : Bool) (e : Bool) (m : BitVec 3) (y : BitVec 4) (c : BitVec 4) (b : BitVec 4) (a : BitVec 4) (d : BitVec 4)
  /-- VSEL (R256). -/
  | vsel (s : Bool) (e : Bool) (m : BitVec 3) (y : BitVec 4) (c : BitVec 4) (b : BitVec 4) (a : BitVec 4) (d : BitVec 4)
  /-- VADAM (R260). -/
  | vadam (s : Bool) (e : Bool) (m : BitVec 3) (c : BitVec 4) (b : BitVec 4) (a : BitVec 4) (d : BitVec 4)
  /-- VCMP (R255). -/
  | vcmp (s : Bool) (e : Bool) (m : BitVec 3) (y : BitVec 4) (c : BitVec 4) (b : BitVec 4) (a : BitVec 4) (d : BitVec 4)
  /-- VCVT (R254). -/
  | vcvt (s : Bool) (e : Bool) (m : BitVec 3) (y : BitVec 4) (x : BitVec 4) (r : BitVec 3) (a : BitVec 4) (d : BitVec 4)
  /-- VEXPN (R256). -/
  | vexpn (s : Bool) (e : Bool) (m : BitVec 3) (y : BitVec 4) (b : BitVec 4) (a : BitVec 4) (d : BitVec 4)
  /-- VBCAST (R250). -/
  | vbcast (e : Bool) (m : BitVec 3) (y : BitVec 4) (w : Bool) (x : BitVec 6) (p : BitVec 4)
  /-- VSETP (R250). -/
  | vsetp (w : Bool) (x : BitVec 6) (p : BitVec 4)
  /-- VGETP (R250). -/
  | vgetp (x : BitVec 6) (p : BitVec 4)
  /-- VLEN (R250). -/
  | vlen (w : Bool) (x : BitVec 6)
  /-- VADD_COMPACT (R115). -/
  | vaddCompact (y : BitVec 3) (s : BitVec 4) (d : BitVec 4)
  /-- VSUB_COMPACT (R115). -/
  | vsubCompact (y : BitVec 3) (s : BitVec 4) (d : BitVec 4)
  /-- VMUL_COMPACT (R115). -/
  | vmulCompact (y : BitVec 3) (s : BitVec 4) (d : BitVec 4)
  /-- VMIN_COMPACT (R115). -/
  | vminCompact (y : BitVec 3) (s : BitVec 4) (d : BitVec 4)
  /-- VMAX_COMPACT (R115). -/
  | vmaxCompact (y : BitVec 3) (s : BitVec 4) (d : BitVec 4)
  /-- VAND_COMPACT (R115). -/
  | vandCompact (y : BitVec 3) (s : BitVec 4) (d : BitVec 4)
  /-- VOR_COMPACT (R115). -/
  | vorCompact (y : BitVec 3) (s : BitVec 4) (d : BitVec 4)
  /-- VXOR_COMPACT (R115). -/
  | vxorCompact (y : BitVec 3) (s : BitVec 4) (d : BitVec 4)
  /-- VSHL_COMPACT (R115). -/
  | vshlCompact (y : BitVec 3) (s : BitVec 4) (d : BitVec 4)
  /-- VSHR_COMPACT (R115). -/
  | vshrCompact (y : BitVec 3) (s : BitVec 4) (d : BitVec 4)
  /-- VMOV_COMPACT (R115). -/
  | vmovCompact (y : BitVec 3) (s : BitVec 4) (d : BitVec 4)
  /-- VABS_COMPACT (R115). -/
  | vabsCompact (y : BitVec 3) (s : BitVec 4) (d : BitVec 4)
  /-- VNEG_COMPACT (R115). -/
  | vnegCompact (y : BitVec 3) (s : BitVec 4) (d : BitVec 4)
  /-- VRCP_COMPACT (R115). -/
  | vrcpCompact (y : BitVec 3) (s : BitVec 4) (d : BitVec 4)
  /-- VEXP2_COMPACT (R115). -/
  | vexp2Compact (y : BitVec 3) (s : BitVec 4) (d : BitVec 4)
  /-- VREDSUM_COMPACT (R115). -/
  | vredsumCompact (y : BitVec 3) (s : BitVec 4) (d : BitVec 4)
  /-- TLOAD (R288). -/
  | tload (z : Bool) (x : Bool) (w : Bool) (u : Bool) (b : BitVec 6) (a : BitVec 6) (s : BitVec 9)
  /-- TSTORE (R291). -/
  | tstore (k : Bool) (w : Bool) (u : Bool) (b : BitVec 6) (a : BitVec 6) (s : BitVec 9)
  /-- TZERO (R294). -/
  | tzero (u : Bool) (a : BitVec 6) (s : BitVec 9)
  /-- TSTAT (R294). -/
  | tstat (d : BitVec 6) (s : BitVec 9)
  /-- TOWN (R294). -/
  | town (s : BitVec 9)
  /-- TFREE (R294). -/
  | tfree (s : BitVec 9)
  /-- TMUL (R296). -/
  | tmul (c : BitVec 2) (b : BitVec 9) (a : BitVec 9)
  /-- TMULK (R297). -/
  | tmulk (c : BitVec 2) (b : BitVec 9) (a : BitVec 9)
  /-- TACC (R300). -/
  | tacc (c : BitVec 2) (a : BitVec 9)
  /-- TMULS (R298). -/
  | tmuls (p : BitVec 4) (c : BitVec 2) (b : BitVec 9) (a : BitVec 9)
  /-- TWB (R301). -/
  | twb (y : BitVec 4) (h : Bool) (c : BitVec 2) (r : BitVec 3) (a : BitVec 9)
  /-- TRED (R302). -/
  | tred (w : Bool) (u : Bool) (b : BitVec 6) (a : BitVec 6) (c : BitVec 2)
  /-- TPROG (R299). -/
  | tprog (u : Bool) (a : BitVec 6)
  /-- CPY (R292). -/
  | cpy (w : Bool) (u : Bool) (b : BitVec 6) (a : BitVec 6) (s : BitVec 9)
  /-- CPY2 (R292). -/
  | cpy2 (w : Bool) (u : Bool) (b : BitVec 6) (a : BitVec 6) (s : BitVec 9)
  /-- CPYW (R292). -/
  | cpyw (w : Bool) (u : Bool) (b : BitVec 6) (a : BitVec 6) (s : BitVec 9)
  /-- DECODE (R303). -/
  | decode (u : Bool) (a : BitVec 6)
  /-- POWER_ON (R58). -/
  | powerOn
  /-- HOST_RESET (R58). -/
  | hostReset
  /-- WATCHDOG_EXPIRY (R58). -/
  | watchdogExpiry
  /-- ROM_MEASURE_FIRMWARE (R57): `bytes` the image. -/
  | romMeasureFirmware
  /-- STAGE2_FIRMWARE_LOAD (R57): `bytes` the supervisor image, `bytes2` the island image, `bytes3` the decoder image, `caps`, `n` the device number, `routes`. -/
  | stage2FirmwareLoad
  /-- STAGE3_REDUCED_SERVICE (R57). -/
  | stage3ReducedService
  /-- STACK_TRAINING_END (R59): `n` the stack, `ok`. -/
  | stackTrainingEnd
  /-- ISLCTL_LOCK (R65). -/
  | islctlLock
  /-- ISLAND_POWER_SAMPLE (R66): `n` the island, `w0` watts, `w1` temperature. -/
  | islandPowerSample
  /-- THERMAL_HALT (R390): `n` the island. -/
  | thermalHalt
  /-- UCIE_LINK_FAILURE (R390): `n` the link. -/
  | ucieLinkFailure
  /-- JENAY_PORT_FAILURE (R390): `n` the port. -/
  | jenayPortFailure
  /-- HBM_STACK_FAILURE (R390): `n` the stack. -/
  | hbmStackFailure
  /-- UNCORRECTABLE_ERROR (R386): `site`. -/
  | uncorrectableError
  /-- SUPERVISOR_TIMEOUT (R390): `cl`. -/
  | supervisorTimeout
  /-- REPCTL_GO (R63). -/
  | repctlGo
  /-- REPORT_COMPLETE (R63): `ok` whether the host memory write succeeded. -/
  | reportComplete
  /-- REGISTER_WRITE (R10): `who`, `space`, `n` the offset, `w0` the value. -/
  | registerWrite
  /-- CMDTAIL_WRITE (R70): `w0` the value. -/
  | cmdtailWrite
  /-- JOBSTART (R72). -/
  | jobstart
  /-- PHASEOPEN (R72). -/
  | phaseopen
  /-- CANCEL_COMMAND (R78). -/
  | cancelCommand
  /-- KEYDESTROY (R418). -/
  | keydestroy
  /-- RESERVED_COMMAND (R72). -/
  | reservedCommand
  /-- TEARDOWN (R418): `j`. -/
  | teardown
  /-- HOST_CXL_MEMORY_ACCESS (R335): `ok` a write, `w0` the physical address, `n` the byte count, `line` the data. -/
  | hostCxlMemoryAccess
  /-- BACK_INVALIDATE_RESPONSE (R68): `n` the line. -/
  | backInvalidateResponse
  /-- BIND (R74): `n` the BIND index, `w0`, `w1`, `w2` the record. -/
  | bind
  /-- STRAND_BECOMES_RESIDENT (R25): `c`, `j`, `l`. -/
  | strandBecomesResident
  /-- LAUNCH_COMPLETION (R76): `j`, `l`. -/
  | launchCompletion
  /-- GRAPH_COMPLETION (R76): `j`, `n` the graph. -/
  | graphCompletion
  /-- PHASE_COMPLETION (R31): `j`, `w0` the start. -/
  | phaseCompletion
  /-- TASK_MESSAGE_ARRIVAL (R81): `n` the message. -/
  | taskMessageArrival
  /-- ANTI_MESSAGE_ARRIVAL (R355): `n` the message. -/
  | antiMessageArrival
  /-- SPILL_REFILL (R81): `c`, `j`. -/
  | spillRefill
  /-- DISPENSE (R82): `c`, `k`. -/
  | dispense
  /-- SEND_BUFFER_DEPARTURE (R421): `c`, `n` the buffer entry. -/
  | sendBufferDeparture
  /-- TASK_MESSAGE_ACCEPTED (R421): `n` the message. -/
  | taskMessageAccepted
  /-- STEAL_REQUEST (R88): `cl`, `j`, `l`. -/
  | stealRequest
  /-- STEAL_REPLY (R89): `n` the message. -/
  | stealReply
  /-- SHIPPED_TASKS_ARRIVAL (R90): `n` the message. -/
  | shippedTasksArrival
  /-- STEAL_PAUSE_EXPIRY (R88): `cl`, `j`, `l`. -/
  | stealPauseExpiry
  /-- ITERATION_CLAIM (R93): `n` the message. -/
  | iterationClaim
  /-- FETCH_FILL (R97): `c`, `k`. -/
  | fetchFill
  /-- BARREL_CYCLE (R127): `c`. -/
  | barrelCycle
  /-- STRAND_WAKE (R126): `c`, `k`. -/
  | strandWake
  /-- PRODUCER_RESULT_WRITE (R140): `c`, `k`, `n` the register. -/
  | producerResultWrite
  /-- REPLY_ARRIVAL (R314): `n` the message. -/
  | replyArrival
  /-- PUTREG_FILL (R215): `n` the message. -/
  | putregFill
  /-- PAGE_WALK (R177): `c`, `k`. -/
  | pageWalk
  /-- TRANSLATION_INVALIDATION (R180): `cl`, `n` the line. -/
  | translationInvalidation
  /-- INVALIDATION_ACKNOWLEDGEMENT (R180): `cl`, `n` the line. -/
  | invalidationAcknowledgement
  /-- COHERENT_LOAD_RENEWAL (R184): `n` the message. -/
  | coherentLoadRenewal
  /-- COHERENT_STORE_AT_HOME (R185): `n` the message. -/
  | coherentStoreAtHome
  /-- PTS_TICK (R186). -/
  | ptsTick
  /-- NONCOHERENT_WRITEBACK (R190): `n` the message. -/
  | noncoherentWriteback
  /-- AMO_AT_HOME (R219): `n` the message. -/
  | amoAtHome
  /-- REDUCTION_AT_HOME (R220): `n` the message. -/
  | reductionAtHome
  /-- FULL_EMPTY_AT_HOME (R217): `n` the message. -/
  | fullEmptyAtHome
  /-- WAITER_WITHDRAWAL (R218): `c`, `k`. -/
  | waiterWithdrawal
  /-- WAITW_REGISTRATION (R164): `n` the message. -/
  | waitwRegistration
  /-- WAITW_WAKE (R164): `n` the message. -/
  | waitwWake
  /-- RESUMEC_REQUEST (R165): `n` the message. -/
  | resumecRequest
  /-- REMOTE_LOCAL_ACCESS (R182): `n` the message. -/
  | remoteLocalAccess
  /-- RESIZE_AT_SLICE (R157): `n` the message. -/
  | resizeAtSlice
  /-- FRAME_EXCHANGE (R196): `v` the die, `n` the capacity frame. -/
  | frameExchange
  /-- SCRUB_LINE (R387): `n` the line, `w0` the mask of unreadable words. -/
  | scrubLine
  /-- VERSION_STORE_AT_HOME (R224): `n` the message. -/
  | versionStoreAtHome
  /-- VERSION_LOAD_AT_HOME (R225): `n` the message. -/
  | versionLoadAtHome
  /-- VERSION_QUERY_AT_HOME (R229): `n` the message. -/
  | versionQueryAtHome
  /-- VERSION_RETRACTION (R223): `n` the message. -/
  | versionRetraction
  /-- EXACT_READ_RELEASE (R227): `n` the message. -/
  | exactReadRelease
  /-- READ_MARK_REMOVAL (R350): `n` the message. -/
  | readMarkRemoval
  /-- VERSION_COMMIT (R363): `n` the message. -/
  | versionCommit
  /-- BARRIER_OBJECT_OPERATION (R233): `n` the message. -/
  | barrierObjectOperation
  /-- BARRIER_OBJECT_NOTICE (R233): `n` the message. -/
  | barrierObjectNotice
  /-- MBAR_WAIT_TIMEOUT (R233): `c`, `k`. -/
  | mbarWaitTimeout
  /-- LANE_STEP (R241): `c`. -/
  | laneStep
  /-- LANE_INSTRUCTION_COMPLETE (R242): `c`. -/
  | laneInstructionComplete
  /-- COPY_ROW_TRANSFER (R287): `c`, `n` the engine entry. -/
  | copyRowTransfer
  /-- TRANSPOSE_ROW_READ (R290): `c`, `k`. -/
  | transposeRowRead
  /-- FILL_LANDING (R263): `c`, `n` the engine entry. -/
  | fillLanding
  /-- DRAIN_COMPLETE (R263): `c`, `n` the engine entry. -/
  | drainComplete
  /-- MATRIX_COMMAND_START (R271): `c`. -/
  | matrixCommandStart
  /-- MATRIX_COMMAND_COMPLETE (R271): `c`. -/
  | matrixCommandComplete
  /-- TMULK_STEP (R276): `c`, `k`. -/
  | tmulkStep
  /-- DECODE_REQUEST_START (R303): `n` the die. -/
  | decodeRequestStart
  /-- FRAME_DECODED (R278): `n` the decoder, `v` the plane count, `ok` 10-bit, `w0` rows, `w1` columns, `w2` the error code, `l` bit 0 4:4:4,
  bit 1 every reference is refreshed, bit 2 it predicts from a corrupt frame. -/
  | frameDecoded
  /-- DECODE_COMPLETE (R304): `n` the decoder, `w0` the status. -/
  | decodeComplete
  /-- ROUTER_CYCLE (R310): `cl` the router, `n` the plane. -/
  | routerCycle
  /-- COMET_ADVANCE (R311). -/
  | cometAdvance
  /-- FLIT_EJECTION (R315): `cl` the router, `n` the packet, `v` the flit index. -/
  | flitEjection
  /-- PACKET_REASSEMBLED (R313): `n` the message. -/
  | packetReassembled
  /-- RETRY_RECEIVE (R316): `n` the message. -/
  | retryReceive
  /-- BACKOFF_EXPIRY (R316): `n` the message. -/
  | backoffExpiry
  /-- THROTTLE_WINDOW_END (R317): `cl` the router. -/
  | throttleWindowEnd
  /-- JENAY_LINK_ARRIVAL (R322): `v` the port, `n` the message. -/
  | jenayLinkArrival
  /-- JENAY_ANSWER_RETURN (R322): `v` the port, `n` the message. -/
  | jenayAnswerReturn
  /-- GVT_ROUND_START (R360): `j`. -/
  | gvtRoundStart
  /-- COLOUR_FLIP (R359): `leaf`, `j`. -/
  | colourFlip
  /-- LEAF_REPORT (R360): `leaf`, `j`. -/
  | leafReport
  /-- GVT_WAVE_START (R360): `j`. -/
  | gvtWaveStart
  /-- GVT_ROUND_CLOSE (R360): `j`. -/
  | gvtRoundClose
  /-- GVT_BROADCAST_RECEIVE (R363): `leaf`, `j`. -/
  | gvtBroadcastReceive
  /-- COMMIT_STEP (R363): `c`, `t`. -/
  | commitStep
  /-- VERSION_ARRIVAL_NOTICE (R349): `n` the message. -/
  | versionArrivalNotice
  /-- ROLLBACK (R350): `c`, `t`. -/
  | rollback
  /-- RING_PRESSURE_ROLLBACK (R347): `c`, `j`, `l`. -/
  | ringPressureRollback
  /-- PACKET_DELIVERY (R375): `c`. -/
  | packetDelivery
  /-- RESUME (R381): `c`, `k`. -/
  | resume
  /-- RESUME_WITH_SKIP (R381): `c`, `k`. -/
  | resumeWithSkip
  /-- KILL (R381): `c`, `k`. -/
  | kill
  /-- CONTEXT_WRITE (R379): `who`, `c`, `n` the offset, `w0` the value. -/
  | contextWrite
  /-- TILE_TABLE_WRITE (R379): `c`, `n` the slot, `w0` the value. -/
  | tileTableWrite
  /-- ACCUMULATOR_WRITE (R379): `who`, `c`, `n` the element, `w0` the value. -/
  | accumulatorWrite
  /-- SIDE_LOG_DISCARD (R383): `c`, `n` the entry. -/
  | sideLogDiscard
  /-- REPLAY (R385): `who`, `c`. -/
  | replay
  /-- REPLAY_ENTRY_RESULT (R385): `c`, `n` the entry. -/
  | replayEntryResult
  /-- PRECTL_STOP (R394). -/
  | prectlStop
  /-- STOP_FLIP (R394): `leaf`. -/
  | stopFlip
  /-- ECLIPSE_CUT_CLOSE (R394). -/
  | eclipseCutClose
  /-- STRAND_SAVE (R399): `c`, `k`. -/
  | strandSave
  /-- CORE_SAVE (R398): `c`. -/
  | coreSave
  /-- PRECTL_RESTORE (R401). -/
  | prectlRestore
  /-- LAUNCH_REQUEST_AT_MANAGEMENT_CORE (R75): `n` the message. -/
  | launchRequestAtManagementCore
  /-- CANCEL_REQUEST_AT_MANAGEMENT_CORE (R167): `n` the message. -/
  | cancelRequestAtManagementCore
  /-- LINK_LEVEL_REPLAY (R319): `n` the link. -/
  | linkLevelReplay
  /-- LINK_CREDIT_RETURN (R321): `v` the port, `n` the class. -/
  | linkCreditReturn
deriving DecidableEq, Repr

end Sys2Proof
end

