-- ==== Sys2Proof/Machine/State.lean ====
section
/-! DEFINITION. The state of one NH-7400: everything the manual gives the machine, as plain data, and its value right after a
power-on (INVENTORY.md lists each field with its rule and its reset value). -/

namespace Sys2Proof.Machine

/-! ## Tasks and messages -/

/-- A task message: envelope and record (R13, R16). -/
structure Task where
  odev : BitVec 6 := 0
  origin : CoreId := 0
  seq : BitVec 20 := 0
  /-- SIGN: an anti-message. -/
  anti : Bool := false
  colour : Bool := false
  kind : BitVec 6 := 0
  job : JobId := 0
  /-- MODE: optimistic. -/
  opt : Bool := false
  dest : BitVec 48 := 0
  lslot : Lslot := 0
  pc : BitVec 48 := 0
  vt : Word := 0
  /-- ARG1 to ARG6. -/
  args : List Word := [0, 0, 0, 0, 0, 0]
deriving DecidableEq, Repr

/-- Why a queued entry is ineligible (R162): by SUSPEND or by WAITW. -/
inductive Hold where
  | none
  | suspend
  | waitw
deriving DecidableEq, Repr

/-- An entry of an arrival queue or a spill area (R79, R80). -/
structure QEntry where
  t : Task := {}
  /-- Dispensed only on its own core (R86). -/
  pinned : Bool := false
  hold : Hold := .none
  /-- A written-back or requeued optimistic task whose block the ring of this core holds (R347, R348). -/
  block : Bool := false
  /-- The pts of the creator's core (R332). -/
  pts : Word := 0
deriving DecidableEq, Repr

/-- Data, layout word and scales of a tile (R262, R266, R48). -/
structure Tile where
  bytes : List Byte := []
  layout : BitVec 16 := 0
  scales : List (BitVec 16) := []
  poison : Bool := false
deriving DecidableEq, Repr

/-- A fault as reported (R371, R374): class, address and auxiliary word. -/
structure Fault' where
  cls : Nat := 0
  addr : Word := 0
  aux : Word := 0
  info : BitVec 16 := 0
  /-- Its packet carries PIX 0 whatever PIX holds (R119). -/
  pix0 : Bool := false
deriving DecidableEq, Repr

/-- An endpoint of the package or the domain (R307). -/
structure Ep where
  dev : BitVec 6 := 0
  router : ClusterId := 0
  ep : Nat := 0
deriving DecidableEq, Repr

/-- What a request asks of the place that serves it (R308). -/
inductive ReqKind where
  | load | loadM | ldb | stb | pref | filln | store | storeM | hint | writeback | flush | inv
  | amo (op : Nat) | red (op : Nat) | ldfe | ldff | stef | stff | fepurge
  | claim (iter : Bool) | waitw | resumec | resize | launch | cancel
  | verst | verldEq | verldAsof | verrel | verq
  | retract | readRelease | markRemoval | verCommit
  | mbarInit | mbarArr | mbarWait | putreg
  /-- Parts of rows of the copy engine and of a TRED (R287, R302). -/
  | rowRead | rowWrite | rowRed (fmt : Nat) (int : Bool)
deriving DecidableEq, Repr

/-- Where the reply of a request goes. -/
inductive Dest where
  | none
  | x (r : XReg)
  | m (k : BitVec 3)
  | slot (s : BitVec 9)
deriving DecidableEq, Repr

/-- A request of a strand or an engine, held by its core until its reply is written (R204, R206, R314). -/
structure Req where
  id : Nat := 0
  kind : ReqKind := .load
  core : CoreId := 0
  strand : StrandId := 0
  job : JobId := 0
  lslot : Lslot := 0
  va : BitVec 48 := 0
  pa : BitVec 52 := 0
  /-- Non-coherent access (R188). -/
  nc : Bool := false
  /-- Made with no key (R200, PLN). -/
  pln : Bool := false
  /-- Hint group of its leaf (R176, R196). -/
  hg : BitVec 8 := 0
  size : Nat := 8
  w0 : Word := 0
  w1 : Word := 0
  w2 : Word := 0
  line : Line := 0
  mask : BitVec 128 := 0
  tile : Tile := {}
  dest : Dest := .none
  pts : Word := 0
  lease : Word := 0
  pc : BitVec 48 := 0
  insn : BitVec 32 := 0
  vt : Word := 0
  ident : Ident := ⟨0, 0, 0⟩
  opt : Bool := false
  /-- Holds a reply slot (R204). -/
  slot : Bool := false
  /-- Counts as a load, and as a store, for fences and releases (R214, R284). -/
  isLoad : Bool := false
  isStore : Bool := false
  /-- Requests that must be acknowledged before this one leaves the core (R330). -/
  after : List Nat := []
  /-- The strand is parked on the reply. -/
  parks : Bool := false
  /-- It has been performed at its target with a fault that waits for resume (R206). -/
  late : Bool := false
  /-- It waits in a table of its home (R218, R225). -/
  waiting : Bool := false
  /-- An INV of its line has been executed since it left: its reply installs no copy (R213, R336). -/
  stale : Bool := false
  /-- The request of the other part of its row, performed with it at its home (R287, R327). -/
  twin : Option Nat := none
  retries : Nat := 0
  /-- The tag that its packet carried in the mesh of the device that serves it (R306, R322). -/
  tag : BitVec 10 := 0
  /-- Where its reply goes when it came from another device: the endpoint of the port (R322). -/
  ret : Option Ep := none
  /-- Its source device, when it came from another one (R192, R322). -/
  sdev : BitVec 6 := 0
  /-- A tile that a decoder sends to another device, with its ERR (R278, R279). -/
  err : Option (BitVec 16) := none
deriving DecidableEq, Repr

/-- What a reply carries. -/
structure Rep where
  line : Line := 0
  w0 : Word := 0
  w1 : Word := 0
  wts : Word := 0
  rts : Word := 0
  poisoned : Bool := false
  fault : Option Fault' := none
  withdrawn : Bool := false
  tile : Tile := {}
deriving DecidableEq, Repr

/-- A notice of a version home to the core of a reader (R349). -/
structure Notice where
  straggler : Bool := false
  name : Word := 0
  ver : Word := 0
  t : Ident := ⟨0, 0, 0⟩
deriving DecidableEq, Repr

/-- What a message of the tree of a domain says (KIND 0x30; R360, R394): a flip to colour k, of a round or a stop; a wave; the sums of a device;
the value of a round that has closed, final for a stop; a stop or its end asked of the root, which gives the end on. The manual names the traffic
and not its messages (DESIGN CHOICE, log 19). -/
inductive Tree where
  | flip (k stop : Bool)
  | wave
  | report (lmin smin : Word) (cnt : Int) (out : Nat)
  | gvt (g : Word) (final : Bool)
  | ask
  | go
deriving DecidableEq, Repr

/-- What a message carries (R308). -/
inductive Body where
  | empty
  | req (r : Req)
  | reply (r : Req) (v : Rep)
  /-- A task message and its destination core. -/
  | task (t : QEntry) (c : CoreId)
  | accepted (n : Nat)
  | retry (n : Nat)
  | steal (thief : ClusterId) (l : Lslot)
  /-- One message of a steal reply of n tasks: a task, or none where the victim ships none (R89). -/
  | shipped (t : Option QEntry) (n : Nat) (l : Lslot)
  | wake (c : CoreId) (t : Ident)
  | barNotice (c : CoreId) (pa : BitVec 52)
  | notice (c : CoreId) (v : Notice)
  | invalidate (line : Nat)
  | invAck (line : Nat)
  | jenay (data : Line)
  /-- A packet of the data of a tile, of the message `n` (R305). -/
  | part (n : Nat)
  | tree (t : Tree)
deriving DecidableEq, Repr

/-- A message and its packet (R305 to R316). -/
structure Msg where
  src : Ep := {}
  dst : Ep := {}
  kind : BitVec 6 := 0
  job : JobId := 0
  colour : Bool := false
  body : Body := .empty
  /-- Plane of the packet once injected. -/
  plane : Nat := 0
  tag : BitVec 10 := 0
  fcnt : Nat := 1
  /-- Flits not yet injected. -/
  due : List Nat := []
  /-- Flits ejected and held at the destination (R313). -/
  got : List Nat := []
  /-- The packet is being refused (R315). -/
  refused : Bool := false
  /-- The Jenay port by which the packet leaves for another device (R320). -/
  via : Nat := 0
  /-- Tag that a reply answers (R306 INFO). -/
  answers : BitVec 10 := 0
  retries : Nat := 0
  /-- Positive task message of the send buffer of this core (R421). -/
  buffered : Option CoreId := none
  /-- Port whose proxy entry this packet holds (R322). -/
  proxy : Option (BitVec 4) := none
  /-- Packets of a message with a tile that have not arrived, this one among them (R305). -/
  parts : Nat := 0
  /-- Ports that have counted it, with its colours as received and as sent (R359). -/
  passes : List (Nat × Bool × Bool) := []
deriving DecidableEq, Repr

/-- The key of a packet (R309, R313): its source endpoint and its tag. -/
structure PKey where
  src : Ep := {}
  tag : BitVec 10 := 0
deriving DecidableEq, Repr

/-- Where a flit stands at its destination router (R310, R315): not ejected; ejected and accepted; ejected and dropped, with the RETRY still
due, as the last flit of its packet. -/
inductive Eject where
  | no
  | take
  | drop (retry last : Bool)
deriving DecidableEq, Repr

/-- An entry of a request pool (R315): its packet, whether it is the comet entry, and the message once the packet is whole. -/
structure PoolEntry where
  key : PKey := {}
  comet : Bool := false
  held : Option Nat := none
deriving DecidableEq, Repr

/-- A flit on a link or at a router input (R306, R310): its message, the fields of its header, and where and when it arrives. -/
structure Flit where
  m : Nat := 0
  key : PKey := {}
  /-- Destination endpoint in this device: the Jenay port for another device (R320). -/
  dst : Ep := {}
  /-- The destination that the header names. -/
  to' : Ep := {}
  col : Bool := false
  job : JobId := 0
  info : BitVec 40 := 0
  plane : Nat := 0
  kind : BitVec 6 := 0
  /-- A positive task message, a request or an anti-message (SIGN) may be refused or not (R315). -/
  anti : Bool := false
  fidx : Nat := 0
  fcnt : Nat := 1
  age : Nat := 0
  /-- Router and input port where it arrives, and when (network cycle). -/
  router : ClusterId := 0
  port : Nat := 0
  at' : Nat := 0
  eject : Eject := .no
  /-- Its packet holds a proxy entry, which keeps its tag (R322). -/
  proxied : Bool := false
deriving DecidableEq, Repr

/-! ## Strands and cores -/

/-- The states of a strand (R126). -/
inductive StrandSt where
  | idle | ready | parked | frozen
deriving DecidableEq, Repr

/-- A register with a full-empty bit (R130). -/
inductive RegRef where
  | x (r : XReg)
  | a (r : BitVec 4)
  | m (r : BitVec 3)
  | i (r : BitVec 2)
deriving DecidableEq, Repr

/-- What a parked strand waits for (R126). -/
inductive Park where
  | none
  /-- A register to become full (R131). -/
  | reg (r : RegRef)
  /-- The successor's forwarding slot to become empty (R133). -/
  | succ
  /-- An accumulator to become full (R131). -/
  | acc (k : BitVec 2)
  /-- The reply of a request, on a version, a barrier object, a memory word or an engine. -/
  | reply (id : Nat) (pcause : Nat)
  /-- A free reply slot (R204, R314). -/
  | replySlot
  /-- The generation of a hardware barrier to change (R231), for BAR.WAIT; and for BAR.ARW, which then writes a register. -/
  | bar (h : Nat) (gen : BitVec 16)
  | barArw (h : Nat) (gen : BitVec 16) (d : XReg)
  /-- The conditions of a fence (R214). -/
  | fence (kind : Nat) (scope : Nat)
  /-- The end-of-run conditions of R161. -/
  | quiet
  /-- A free sequence value (R18) and a free send-buffer entry (R421). -/
  | send
  /-- Free retention-ring entries (R346). -/
  | ring (n : Nat)
  /-- A free copy-engine entry (R269), matrix-queue entries (R271), side-log entry or block (R384). -/
  | copy | mqueue (n : Nat) | slog (block : Bool)
  /-- Side-log entries of the strand over these bytes to be performed (R384). -/
  | slogBytes (va : BitVec 48) (n : Nat)
  /-- A free decoder-queue entry (R303). -/
  | dqueue
deriving DecidableEq, Repr

/-- What holds a ready strand out of the rotation (R150, R206, R242). -/
inductive Held where
  | none
  | walk (va : BitVec 48)
  | lane
  | tmulk
  | transpose
  | dispense (till : Nat)
deriving DecidableEq, Repr

/-- A 16-byte group of a fetch buffer (R97, R98): its address, its bytes, or the fault of its fill. The buffer has eight parcels, so of two
groups it keeps only the bytes from `lo` below `hi`. -/
structure Group where
  va : BitVec 48 := 0
  bytes : BitVec 128 := 0
  lo : Nat := 0
  hi : Nat := 16
  /-- Poisoned words of the group (R388). -/
  poison : BitVec 2 := 0
  fault : Option Fault' := none
deriving DecidableEq, Repr

/-- A result that is written after issue (R140, R205): register, value and flags. -/
structure Pending where
  r : RegRef
  v : Word := 0
  v2 : BitVec 128 := 0
  flags : BitVec 5 := 0
deriving DecidableEq, Repr

/-- The 64-byte fault packet (R374). -/
structure Packet where
  /-- The core cycle in which the core generated it (R375). -/
  cyc : Nat := 0
  core : CoreId := 0
  strand : StrandId := 0
  job : JobId := 0
  cls : Nat := 0
  frozen : Bool := false
  slog : Bool := false
  defer : Bool := false
  autok : Bool := false
  late : Bool := false
  insn : BitVec 32 := 0
  lslot : Lslot := 0
  pc : BitVec 48 := 0
  addr : Word := 0
  pix : Word := 0
  vt : Word := 0
  sle : BitVec 6 := 0
  info : BitVec 16 := 0
  aux : Word := 0
  tstamp : Word := 0
deriving DecidableEq, Repr

/-- A TMULK that holds its strand (R276, R297): first slots of A and B, pairs, accumulator. -/
structure MulK where
  a : Nat := 0
  b : Nat := 0
  n : Nat := 0
  acc : BitVec 2 := 0
  /-- A step is queued or running. -/
  busy : Bool := false
deriving DecidableEq, Repr

/-- A strand (R126, R378). -/
structure Strand where
  st : StrandSt := .idle
  park : Park := .none
  held : Held := .none
  /-- Ring entries that its task waited for and takes at its next issue (R347; DEDUCED, log 20). -/
  wants : Nat := 0
  /-- Job and launch for which it is resident (R24, R82). -/
  res : Option (JobId × Lslot) := none
  /-- First tile slot, tile slots and scratch slots of its share (R25). -/
  base : Nat := 0
  ntile : Nat := 0
  nscr : Nat := 0
  /-- Pool entries (R129). -/
  pool : Nat := 0
  x : Tab Word := []
  xF : BitVec 64 := 0x7FFFFFFFFFFFFFFF#64
  a : Tab Word := []
  aF : BitVec 16 := 0xFFFF#16
  m : Tab (BitVec 128) := []
  mF : BitVec 8 := 0xFF#8
  i : Tab Word := []
  iF : BitVec 4 := 0
  /-- Registers that hold an uncorrectable error (R388). -/
  badX : List Nat := []
  pc : BitVec 48 := 0
  vt : Word := 0
  pix : Word := 0
  vl : Word := 0
  rm : Word := 4
  /-- STS bits 4:0, ANN and OPT (R136). -/
  flags : BitVec 5 := 0
  ann : Nat := 0
  opt : Bool := false
  scoff : Word := 0
  lease : Word := 256
  rslot : Nat := 8
  prog : Word := 0
  /-- Iteration state (R168). -/
  desc : Word := 0
  cur : Word := 0
  endv : Word := 0
  ext : Word := 0
  /-- The task that runs on it. -/
  task : Option QEntry := none
  /-- The fetch buffer (R97). -/
  buf : List Group := []
  /-- A fill of the fetch buffer is under way. -/
  filling : Bool := false
  /-- The core cycle of its last issue (R127), and whether one is recorded. -/
  last : Nat := 0
  issued : Bool := false
  pend : List Pending := []
  /-- Fills that wait behind the strand's own producers, in the order in which they apply, each with its place in that order: core cycle,
  source core and source strand (R132). -/
  fills : List (XReg × Word × Nat) := []
  /-- The place of the last fill applied to a register (R132). -/
  filled : Tab Nat := []
  /-- The packet that froze it (R380, R396). -/
  froze : Option Packet := none
  /-- Registers the faulting instruction marked empty (R381). -/
  marked : List RegRef := []
  /-- A walk that ended in a fault, for the access at that address (R177). -/
  walked : Option (BitVec 48 × Nat × Fault') := none
  /-- Limit of a running MBAR.WAIT as a core cycle (R233). -/
  waitTill : Option Nat := none
  /-- Kill at the next boundary (R373), by a CANCEL or not; roll back (R350), with requeue or not. -/
  killAt : Option Bool := none
  rollAt : Option Bool := none
  /-- The instruction that waits for its reply reads nf (R133). -/
  waitNf : Bool := false
  mulk : Option MulK := none
deriving DecidableEq, Repr

/-- A tile-table entry and the slot's scale store (R262, R48). -/
structure Slot where
  layout : BitVec 16 := 0
  scales : List (BitVec 16) := []
  rdc : Nat := 0
  jobtag : Nat := 16
  strand : StrandId := 0
  /-- 0 free, 1 tile, 2 scratch, 3 code or ring. -/
  use : Nat := 0
  poison : Bool := false
  /-- OWN: an engine owns the slot. -/
  own : Bool := false
  /-- A slot of a retention ring: its bytes are the device's own (R345). -/
  ring : Bool := false
  /-- 0 EMPTY, 1 FILLING, 2 READY, 3 DRAINING. -/
  st : Nat := 0
deriving DecidableEq, Repr

/-- An accumulator (R283): its elements by number (row-major), its full bit, type and tag. -/
structure Acc where
  el : Tab (BitVec 32) := []
  full : Bool := true
  int : Bool := false
  tag : Nat := 16
  /-- The elements that hold an uncorrectable error (R386). -/
  bad : List Nat := []
deriving DecidableEq, Repr

/-- A part of a row of a copy (R286): physical address, bytes, key use and coherence, and its virtual address. -/
structure Piece where
  pa : BitVec 52 := 0
  n : Nat := 0
  pln : Bool := false
  nc : Bool := false
  /-- Hint group of its leaf (R196). -/
  hg : BitVec 8 := 0
  va : BitVec 48 := 0
deriving DecidableEq, Repr

/-- A command of the matrix unit (R271). -/
inductive MOp where
  | tmul (a b : Nat)
  | tmuls (a b : Nat) (present : List Nat)
  | tacc (a : Nat)
  | twb (a : Nat) (ty : BitVec 4) (h : Bool) (mode : Nat) (keep : Bool)
  | tred (va : BitVec 48) (rows : List (List Piece)) (fmt : Nat)
deriving DecidableEq, Repr

/-- A queued matrix command and what it holds (R270, R271, R276, R296). -/
structure MCmd where
  op : MOp
  acc : BitVec 2 := 0
  job : JobId := 0
  strand : StrandId := 0
  prog : Word := 0
  sat : Bool := true
  /-- It is a step of a TMULK of its strand. -/
  step : Bool := false
  /-- The second of the two commands of a CPY2 (R293): the accumulator is set full by the last. -/
  more : Bool := false
  /-- Number of a TRED (R180), and the request of its instruction, from which those of its rows are made. -/
  id : Nat := 0
  req : Req := {}
deriving DecidableEq, Repr

/-- A block of the weight buffer (R55): its directory bit, set for a raw block, and the bytes of its block storage. -/
structure WbBlock where
  raw : Bool := true
  bytes : List Byte := []
deriving DecidableEq, Repr

/-- An operand in the weight buffer (R273): its tag, job and slot, and its blocks in order. -/
structure WbEntry where
  job : Nat := 16
  slot : Nat := 0
  blocks : List WbBlock := []
deriving DecidableEq, Repr

/-- What a copy-engine entry does (R269, R285, R291, R292). -/
inductive CopyOp where
  | fill | drain | verst | verld
deriving DecidableEq, Repr

/-- A copy-engine entry (R269): one or two slots, the rows' places, and what lands with them. -/
structure Copy where
  op : CopyOp := .fill
  slots : List Nat := []
  job : JobId := 0
  strand : StrandId := 0
  va : BitVec 48 := 0
  stride : BitVec 32 := 0
  /-- Rows moved. -/
  row : Nat := 0
  rows : List (List Piece) := []
  /-- A transposing TLOAD, which translates its rows one by one (R290). -/
  xp : Bool := false
  layout : BitVec 16 := 0
  /-- Scales by slot (R48). -/
  scales : List (List (BitVec 16)) := []
  keep : Bool := false
  /-- CPYW: install in the weight buffer (R292). -/
  weight : Bool := false
  /-- Follow-on commands (R293). -/
  fol : List MCmd := []
  /-- A slot is poisoned at landing: bit i for slot i (R49, R287). -/
  poison : List Bool := [false, false]
  /-- Source rows overlap the bytes of a slot that the copy fills (R286). -/
  undef : Bool := false
  id : Nat := 0
  /-- The request of its instruction, from which those of its rows are made (R287). -/
  req : Req := {}
deriving DecidableEq, Repr

/-- The operations of the lane unit (R248 to R260): the numbers of binary and unary ones are those of R114. -/
inductive LaneKind where
  | bin (n : Nat) | un (n : Nat)
  | dot | perm | gath | scat | compr | expn
  | redsum | redmax | redmin | scan | norm | iota
  | fma (neg : Bool) | sel | adam | cmp (cc : Nat) | cvt | bcast
deriving DecidableEq, Repr

/-- A lane instruction: operation, element type and source type, pointers, mask register, KS and KD (R114, R261). -/
structure LaneOp where
  kind : LaneKind
  ty : Nat := 8
  sty : Nat := 8
  d : BitVec 4 := 0
  a : BitVec 4 := 0
  b : BitVec 4 := 0
  c : BitVec 4 := 0
  m : BitVec 3 := 0
  ks : Bool := false
  kd : Bool := false
  rnd : BitVec 3 := 0
deriving DecidableEq, Repr

/-- The lane instruction that holds the lane unit (R242): its strand and what it read at issue. -/
structure LaneRun where
  strand : StrandId := 0
  op : LaneOp
  len : Nat := 4
  /-- The sixteen pointers at issue (R238). -/
  a0 : List Word := []
  mask : BitVec 128 := 0
  vl : Nat := 0
  /-- Rounding mode and saturation (R41). -/
  mode : Nat := 0
  sat : Bool := true
  /-- The scalar of VBCAST; the hyperparameters of VADAM (R260). -/
  sc : Word := 0
  hyp : List Nat := []
  /-- Packed position of VCOMPR and VEXPN (R256), and the running value of reductions and VSCAN (R258, R259). -/
  j : Nat := 0
  r : Nat := 0
  /-- No step has run since issue. -/
  fresh : Bool := true
  /-- What it writes is undefined by an overlap (R257, R258). -/
  undef : Bool := false
deriving DecidableEq, Repr

/-- A cached line of the data cache (R183): coherent under a lease, non-coherent with a mask, or counted. -/
structure DLine where
  line : Nat := 0
  data : Line := 0
  key : Option Key := none
  job : JobId := 0
  nc : Bool := false
  dirty : BitVec 128 := 0
  wts : Word := 0
  rts : Word := 0
  count : Nat := 0
  /-- Hint group of the leaf through which it was filled (R196). -/
  hg : BitVec 8 := 0
  /-- Words that were poisoned when the copy was made. -/
  poison : BitVec 16 := 0
deriving DecidableEq, Repr

/-- A cached instruction line (R96). -/
structure ILine where
  line : Nat := 0
  key : Option Key := none
  data : Line := 0
  poison : BitVec 16 := 0
deriving DecidableEq, Repr

/-- A translation (R174): job, virtual page number of its size, and the leaf. -/
structure TlbEntry where
  job : JobId := 0
  va : BitVec 48 := 0
  /-- log2 of the page size. -/
  size : Nat := 12
  pa : BitVec 52 := 0
  leaf : Word := 0
  /-- Page-table lines it was built from (R180). -/
  lines : List Nat := []
  /-- Cores that hold a copy, for an entry of a second-level TLB (R180). -/
  cores : List Nat := []
deriving DecidableEq, Repr

/-- A side-log entry (R383). -/
structure SlEntry where
  kind : Nat := 0
  strand : StrandId := 0
  /-- 0 free, 1 pending, 2 replaying. -/
  st : Nat := 0
  blk : Nat := 0
  sz : Nat := 0
  va : BitVec 48 := 0
  cls : Nat := 0
  job : JobId := 0
  pc : BitVec 48 := 0
  data : BitVec 128 := 0
  /-- Order of creation (R385), launch and VT of the task, instruction word. -/
  ord : Nat := 0
  lslot : Lslot := 0
  vt : Word := 0
  insn : BitVec 32 := 0
  /-- The task that issued the access (R373). -/
  ident : Ident := ⟨0, 0, 0⟩
  /-- Poisoned words of an STB's block (R207). -/
  pois : BitVec 16 := 0
deriving DecidableEq, Repr

/-- A hardware barrier of a core (R231): counters and the launch and number mapped onto it. -/
structure Bar where
  exp : BitVec 16 := 0
  arv : BitVec 16 := 0
  gen : BitVec 16 := 0
  owner : Option (JobId × Lslot × Nat) := none
deriving DecidableEq, Repr

/-- A log entry of a retention-ring block (R345). -/
inductive LogEntry where
  /-- `mg`: the launch was unbound and the message went to the management core (R86); `lslot`: the launch that the task joined, kept beside the
  entry's sixteen bytes for word 0 of its anti-message (R18; DEDUCED, log 19). -/
  | sent (vt : Word) (dcore : CoreId) (ddev : BitVec 6) (kind : BitVec 6) (seq : BitVec 20) (mg : Bool) (lslot : Lslot)
  | deferred (sig : Bool) (v : Word) (addr : BitVec 48) (pc : BitVec 48) (insn : BitVec 32)
  | created (name ver : Word)
  | exact (name ver : Word)
  | asof (tmark name ver : Word)
  | spawn (t : Task)
deriving DecidableEq, Repr

/-- Task states of a block (R345 TSTATE, R348). -/
inductive TState where
  | running | writtenBack | done | committing | rolling
deriving DecidableEq, Repr

/-- A block of a retention ring (R345): the task as first dispensed and its log. -/
structure Block where
  job : JobId := 0
  lslot : Lslot := 0
  t : QEntry := {}
  ts : TState := .running
  log : List LogEntry := []
  /-- It left by MIGRATE (R351). -/
  migrated : Bool := false
  /-- Requeue after the rollback (R350). -/
  requeue : Bool := true
  /-- Strand on which it runs. -/
  strand : Option StrandId := none
  /-- Commit: next action, and the request it waits for (R363). -/
  next : Nat := 0
  wait : Option Nat := none
deriving DecidableEq, Repr

/-- A share of a completed launch at a core that has not been zeroed yet (R415): its slots and its strands. -/
structure Freed where
  slots : List Nat := []
  strands : List StrandId := []
deriving DecidableEq, Repr

/-- An entry of a send buffer (R421). -/
structure SendEntry where
  m : Nat := 0
  t : QEntry := {}
  strand : StrandId := 0
  to' : Option CoreId := none
  /-- Requests of its creator that must be acknowledged before it leaves. -/
  after : List Nat := []
  left : Bool := false
deriving DecidableEq, Repr

/-- A core (R1, R2). -/
structure Core where
  p : StrandId := 15
  strands : Tab Strand := []
  tiles : Tab Slot := []
  acc : Tab Acc := []
  mq : List MCmd := []
  mrun : Option MCmd := none
  /-- Entries reserved by follow-ons (R270). -/
  mres : Nat := 0
  /-- Weight buffer, most recently used operand first (R55, R273). -/
  wb : List WbEntry := []
  /-- The cycle at which the load of the B operand of the queue's head began (R271). -/
  bload : Option Nat := none
  copies : List Copy := []
  lane : Option LaneRun := none
  dcache : List DLine := []
  icache : List ILine := []
  dtlb : List TlbEntry := []
  itlb : List TlbEntry := []
  pts : Word := 0
  bars : Tab Bar := []
  sendBuf : List SendEntry := []
  /-- The sequence counter of R18; its value after a cold reset is a DESIGN CHOICE (log 3). -/
  seq : BitVec 20 := 0
  reqs : List Req := []
  /-- Operations that wait on words of the local memory, in arrival order (R218). -/
  waiters : List Req := []
  slog : Tab SlEntry := []
  sblk : Tab Line := []
  sblkUsed : List Nat := []
  /-- A replay runs (R385): entries still to try. -/
  replay : List Nat := []
  pktq : List Packet := []
  rings : List Block := []
  xdrop : Word := 0
  /-- WCTL of the supervisor and of the management core (R377). -/
  wctlS : Word := 0
  wctlM : Word := 0
  /-- Arrival queue (R79) and spill areas by job (R80). -/
  queue : List QEntry := []
  spill : Tab (List QEntry) := []
  /-- The job no longer accepts positives here (R81). -/
  refuse : List JobId := []
  /-- Launches whose code, ring and barriers the core holds (R74). -/
  installed : List (JobId × Lslot) := []
  /-- Shares of completed launches that are zeroed before another launch takes the core (R415). -/
  freed : List Freed := []
deriving DecidableEq, Repr

/-! ## Clusters, slices and version homes -/

/-- States of an ephemeris entry (R223; an entry that is not listed is in state none). -/
inductive VSt where
  | absent | tentative | committed | poisoned | retracted | dead
deriving DecidableEq, Repr

/-- A version (R223 to R229). -/
structure Version where
  job : JobId := 0
  name : Word := 0
  ver : Word := 0
  st : VSt := .absent
  /-- Created with read count 0 (R227). -/
  unlimited : Bool := true
  r : Nat := 0
  p : Nat := 0
  creator : Ident := ⟨0, 0, 0⟩
  creatorVt : Word := 0
  /-- A decoder created it (R278). -/
  dec : Bool := false
  tile : Tile := {}
  near : Bool := false
  /-- The version-store way that holds a near version (R157, R194). -/
  vway : Nat := 0
  err : BitVec 16 := 0
  /-- The logical time that its creation releases (R330; DEDUCED, log 17). -/
  wts : Word := 0
  /-- Identities of readers that hold an exact read mark (R225, R228). -/
  marks : List (CoreId × Ident) := []
deriving DecidableEq, Repr

/-- An ASOF read mark on a tile (R226). -/
structure AsofMark where
  job : JobId := 0
  name : Word := 0
  core : CoreId := 0
  t : Ident := ⟨0, 0, 0⟩
  vt : Word := 0
  bound : Word := 0
  ver : Word := 0
deriving DecidableEq, Repr

/-- A line at its home slice (R184 to R186, R180, R194). -/
structure HomeLine where
  wts : Word := 0
  rts : Word := 0
  /-- The way that holds it, if the slice holds it, and the network cycle of its last use (R194; replacement: DESIGN CHOICE, log 11). -/
  way : Option Nat := none
  used : Nat := 0
  /-- Written since the slice took it from memory: what memory still holds of it (R199, R201). -/
  old : Option Line := none
  /-- The job of its key, 16 for none (R199). -/
  key : Nat := 16
  /-- Clusters whose walkers read it (R180). -/
  map : List Nat := []
  /-- Acknowledgements still due before the write completes, and the replies that wait for them. -/
  acks : List Nat := []
  held : List Nat := []
deriving DecidableEq, Repr

/-- The steal state of a launch in a cluster (R88). -/
structure Steal where
  job : JobId := 0
  lslot : Lslot := 0
  /-- Core cycle since which both conditions of R88 hold. -/
  since : Option Nat := none
  outstanding : Bool := false
  last : Nat := 0
  /-- Clusters asked in this scan, and whether one shipped. -/
  asked : Nat := 0
  shipped : Bool := false
  /-- Messages of the reply under way that have not arrived, once its first one has told how many it has (R89). -/
  left : Option Nat := none
  pausedTill : Nat := 0
deriving DecidableEq, Repr

/-- A forwarding entry (R91): a shipped task, its thief, its launch and its time. -/
structure Fwd where
  t : Ident := ⟨0, 0, 0⟩
  thief : ClusterId := 0
  job : JobId := 0
  lslot : Lslot := 0
  vt : Word := 0
deriving DecidableEq, Repr

/-- A cluster: supervisor mailbox, dispenser, slice, ephemeris, router (R2). -/
structure Cluster where
  mbox : List Packet := []
  fwd : List Fwd := []
  steals : List Steal := []
  l2 : List TlbEntry := []
  /-- Accesses of its cores that must be performed before it acknowledges the invalidation of a line (R180): line, core, number. -/
  invWait : List (Nat × CoreId × Nat) := []
  mts : Word := 0
  lines : Tab HomeLine := []
  /-- Ways that the ephemeris holds (R157, R183). -/
  vways : Nat := 0
  /-- Trace ring of the slice port, and the entry that is written next (R192). -/
  trace : Tab (Word × Word) := []
  traceHead : Nat := 0
  waiters : List Req := []
  waitw : List Req := []
  vers : List Version := []
  asof : List AsofMark := []
  /-- Waiting version requests in arrival order (R227). -/
  vwait : List Req := []
  /-- For each tile, the lowest version that has died and whose entry has returned to none (R226). -/
  died : List (JobId × Word × Word) := []
  level : Nat := 0
  routedNow : Nat := 0
  deflNow : Nat := 0
  routed : BitVec 16 := 0
  defl : BitVec 16 := 0
  /-- Packets that wait for injection, oldest first (R310); tags in use (R309). -/
  inj : List Nat := []
  tags : List Nat := []
  /-- The plane of its class that the next packet takes: the upper one (R305). -/
  reqPlane : Bool := false
  repPlane : Bool := false
  /-- Network cycle of the last request injection (R317). -/
  lastInj : Nat := 0
  /-- Request pools by endpoint; refusal filters by endpoint: packet and flits due (R315). -/
  pools : Tab (List PoolEntry) := []
  filters : Tab (List (PKey × Nat)) := []
deriving DecidableEq, Repr

/-! ## Jobs, launches, phases and GVT -/

/-- Completion counts of a level (R77, R376). -/
structure Counts where
  nfault : Nat := 0
  errsum : Word := 0
  first : Word := 0
  retired : Nat := 0
  killed : Bool := false
  cancelled : Bool := false
  tstart : Word := 0
deriving DecidableEq, Repr

/-- A launch of a job (R28, R29, R73, R75). -/
structure Launch where
  hdr : BitVec 48 := 0
  /-- Kernel-header fields (R21). -/
  nbar : Nat := 0
  maxs : Nat := 0
  opt : Bool := false
  nreg : Nat := 0
  entry : BitVec 32 := 0
  ntile : Nat := 0
  ringb : Nat := 0
  scrb : Nat := 0
  codeb : Nat := 0
  window : Word := 0
  /-- Descriptor fields (R75). -/
  crec : BitVec 48 := 0
  sigw : BitVec 48 := 0
  graph : Option (BitVec 16) := none
  ven : Bool := false
  vec : BitVec 7 := 0
  pred : List Lslot := []
  /-- Entry task until it is released. -/
  entryTask : Option QEntry := none
  /-- Tasks that wait for binding at the management core (R86). -/
  waiting : List QEntry := []
  /-- Tasks of it that the management core has sent on, and to which core (R86). -/
  released : List (Ident × CoreId) := []
  /-- A CANCEL of a phase took a task of it (R78). -/
  lost : Bool := false
  count : Nat := 0
  started : Bool := false
  /-- BADHDR, BADCODE (R77), or the status fixed at completion. -/
  bad : Option Nat := none
  complete : Bool := false
  status : Nat := 0
  /-- Bind record (R73): index, MAXS, CODEOFF, CMASK, CORES, PRIO. -/
  bound : Option Nat := none
  bmaxs : Nat := 0
  codeoff : Nat := 0
  cmask : BitVec 64 := 0
  cores : BitVec 64 := 0
  prio : Nat := 0
  /-- Code bytes read at the bind (R74), and the poisoned words among them. -/
  code : List Byte := []
  codePois : List Nat := []
  c : Counts := {}
deriving DecidableEq, Repr

/-- What the device has read for a launch that it creates (step 1 of R75): the descriptor's words, the header (none: rejected, R22), the
arguments. It is kept while the creation waits, so that everything is read once. -/
structure LaunchDesc where
  ws : List Word := []
  head : Option Launch := none
  args : List Word := []
deriving DecidableEq, Repr

/-- A graph of a job (R28, R30). -/
structure Graph where
  area : BitVec 48 := 0
  closed : Bool := false
  complete : Bool := false
  /-- Members in creation order, and those complete with their status, in completion order. -/
  members : List Lslot := []
  done : List (Lslot × Nat) := []
  c : Counts := {}
deriving DecidableEq, Repr

/-- A phase of a job (R31). -/
structure Phase where
  start : Word := 0
  stop : Word := 0
  crec : BitVec 48 := 0
  sigw : BitVec 48 := 0
  ven : Bool := false
  vec : BitVec 7 := 0
  count : Nat := 0
  complete : Bool := false
  c : Counts := {}
deriving DecidableEq, Repr

/-- The state of a GVT leaf for a job (R359). -/
structure LeafSt where
  colour : Bool := false
  cnt0 : Int := 0
  cnt1 : Int := 0
  smin : Word := 0xFFFFFFFFFFFFFFFF#64
  isOpen : Bool := false
  /-- Stopped by a stop flip (R394). -/
  stopped : Bool := false
  /-- GVT last received (R357). -/
  gvt : Word := 0
deriving DecidableEq, Repr

/-- A report of a leaf in a wave (R360, R394). -/
structure LeafRep where
  leaf : Nat := 0
  lmin : Word := 0
  smin : Word := 0
  cnt : Int := 0
  out : Nat := 0
deriving DecidableEq, Repr

/-- The root's round of a job (R360). -/
structure Round where
  active : Bool := false
  k : Bool := false
  stop : Bool := false
  reps : List LeafRep := []
  /-- Leaves of the running wave that have not reported. -/
  due : List Nat := []
  /-- A round is due as soon as the running one has closed, for a KEYDESTROY (R418). -/
  final : Bool := false
  /-- The period with which the round started, which the wait after it keeps, in network cycles (R361). -/
  period : Nat := 0
  /-- At the root of a domain: devices that have asked for a stop, and those whose stop has closed and not ended (R394). -/
  asked : List Nat := []
  held : List Nat := []
  /-- At the root of a domain: the other devices on which the job has been started. -/
  users : List Nat := []
deriving DecidableEq, Repr

/-- A DECODE request (R303, R304). -/
structure DecReq where
  job : JobId := 0
  lslot : Lslot := 0
  die : Nat := 0
  bs : Word := 0
  len : Word := 0
  tname : Word := 0
  base : Word := 0
  nframes : Nat := 0
  rcount : Nat := 0
  sigw : Word := 0
  vt : Word := 0
  frames : Nat := 0
  firsterr : Nat := 0
  confl : Nat := 0
  corrupt : Nat := 0
  cancelled : Bool := false
  paused : Bool := false
deriving DecidableEq, Repr

/-- What a stop saved (R398, R399): areas with the generations of their valid words, and, for a stop of whole cores, the tasks, rings and
other parts that the areas do not show (DEDUCED, log 20). -/
structure Saved where
  whole : Bool := false
  cores : List (CoreId × Nat) := []
  strands : List (CoreId × StrandId × Nat) := []
  tasks : List (CoreId × StrandId × QEntry × Park) := []
  rings : List (CoreId × Block) := []
  reqs : List Req := []
  slog : List (CoreId × SlEntry) := []
  scales : List (CoreId × Nat × List (BitVec 16)) := []
  /-- WAITW registrations withdrawn at the cut, to be made again (R393). -/
  waits : List Req := []
  /-- Marked registers and unreadable ones of its strands (R381, R388), and the launches that its cores held. -/
  regs : List (CoreId × StrandId × List RegRef × List Nat) := []
  inst : List (CoreId × Lslot) := []
deriving DecidableEq, Repr

/-- A resident job (R28, R72). -/
structure Job where
  resident : Bool := false
  ptroot : BitVec 52 := 0
  hintbase : BitVec 48 := 0
  jspill : BitVec 48 := 0
  carea : BitVec 48 := 0
  policy : Word := 0
  key : Option Key := none
  prio : Nat := 0
  share : Nat := 0
  ven : Bool := false
  vec : BitVec 7 := 0
  windows : List (Word × Word) := []
  near : BitVec 256 := 0
  gvt : Word := 0
  launches : Tab Launch := []
  graphs : Tab Graph := []
  phases : List Phase := []
  /-- Virtual times of live tasks that no opened phase contains (R31). -/
  early : List Word := []
  c : Counts := {}
  cancelled : Bool := false
  stopped : Bool := false
  /-- Teardown: step in progress, the command slot, and the TAG and OP of its acknowledgement (R418, R71). -/
  teardown : Option (Nat × Nat × Word) := none
  /-- Its JOBSTART waits for a sequence value, with what it has read (R72). -/
  starting : Option LaunchDesc := none
  /-- Ports its messages crossed (R390). -/
  ports : List Nat := []
  rootColour : Bool := false
  round : Round := {}
  leaves : Tab LeafSt := []
  /-- The model's own: the state of the leaves that are not listed (DESIGN CHOICE, log 4). -/
  idleLeaf : LeafSt := {}
  /-- What a stop of the job has saved (R394 to R400). -/
  saved : Saved := {}
deriving DecidableEq, Repr

/-! ## The board -/

/-- A power island (R64, R66, R67). -/
structure Island where
  cap : BitVec 12 := 0
  mhz : Nat := 0
  watts : BitVec 12 := 0
  temp : BitVec 8 := 0
  /-- The last samples, newest first (R66: average over 8). -/
  samples : List Nat := []
  below : Nat := 0
  hot : Bool := false
  halted : Bool := false
  throttled : Bool := false
deriving DecidableEq, Repr

/-- A bind record of the slot table (R73). -/
structure BindRec where
  v : Bool := false
  w0 : Word := 0
  w1 : Word := 0
  w2 : Word := 0
deriving DecidableEq, Repr

/-- A machine-check record (R389). -/
structure McRec where
  w0 : Word := 0
  w1 : Word := 0
  w2 : Word := 0
deriving DecidableEq, Repr

/-- A frame of the indirection tables (R196 to R198). -/
structure Frame where
  /-- Frame number where its bytes lie. -/
  at' : Nat := 0
  job : Option JobId := none
  hg : BitVec 8 := 0
  lost : Bool := false
deriving DecidableEq, Repr

/-- A proxy entry of a Jenay port (R322): the packet in the mesh, its original source and tag, its new tag, and whether its answer goes
back to the source. -/
structure Proxy where
  m : Nat := 0
  src : Ep := {}
  tag : BitVec 10 := 0
  /-- None until its packet is injected. -/
  new : Option (BitVec 10) := none
  back : Bool := true
deriving DecidableEq, Repr

/-- A Jenay port (R321, R322): proxy entries, packets sent on the link, packets that wait for credits, credits in use by class. -/
structure Port where
  failed : Bool := false
  proxies : List Proxy := []
  out : List Msg := []
  hold : List Msg := []
  used : Tab Nat := []
deriving DecidableEq, Repr

/-- A tile of a plane: plane, rows and columns of the plane, and the tile's row and column (R277). -/
structure FrameTile where
  plane : Nat := 0
  rows : Nat := 0
  cols : Nat := 0
  tr : Nat := 0
  tc : Nat := 0
deriving DecidableEq, Repr

/-- A frame whose versions are being created (R278, R279): its code, the tiles still to create, and the versions asked of other devices that have
not answered. -/
structure FrameWork where
  err : Nat := 0
  deep : Bool := false
  todo : List FrameTile := []
  waits : List Nat := []
deriving DecidableEq, Repr

/-- A video decoder (R303): the request it runs. -/
structure Decoder where
  run : Option DecReq := none
  /-- Reference slots that hold a corrupt frame, and those whose data hold an uncorrectable error (R279 codes 4 and 6). -/
  tainted : BitVec 8 := 0
  badRefs : BitVec 8 := 0
  /-- Bytes of the bitstream read so far. -/
  pos : Nat := 0
  /-- The decoded frame whose versions are being created (R278). -/
  work : Option FrameWork := none
deriving DecidableEq, Repr

/-- The operation of PRECTL (R391, R394, R401). -/
structure Cut where
  restore : Bool := false
  scope : Bool := false
  job : JobId := 0
  /-- 0 waiting for a round to close, 1 flips and waves, 2 saving. -/
  phase : Nat := 0
  /-- Strand and core areas still to save. -/
  strands : List (CoreId × StrandId) := []
  cores : List CoreId := []
deriving DecidableEq, Repr

/-- The whole machine. -/
structure State where
  /-- The model's own: the pending device steps with their due network cycles, and their operands (DESIGN CHOICE, log 4). -/
  agenda : List (Nat × Instr × StepArg)
  /-- The model's own: the operands of the device step that runs (DESIGN CHOICE, log 4). -/
  arg : StepArg
  /-- The strand that holds an issue slot, and the bytes of the instruction it issues (R127). -/
  offer : Option (CoreId × StrandId)
  /-- The model's own: index of the next free value (DEDUCED, log 6). -/
  fresh : Nat
  /-- The model's own: number of the next request or message (DESIGN CHOICE, log 4). -/
  nextId : Nat
  /-- Network cycles since the cold reset (R7). -/
  now : Nat
  stage : Nat
  trained : BitVec 12
  failed : BitVec 12
  /-- Stacks whose training has ended, trained or failed (R59). -/
  trainEnded : BitVec 12
  diesvc : BitVec 4
  trainFails : Tab Nat
  rstcause : Nat
  resets : Nat
  meas : List (BitVec 512)
  nonce : BitVec 256
  repaddr : Word
  repGo : Bool
  repDone : Bool
  repErr : Bool
  /-- The report that is being written: address and bytes (R63). -/
  report : Option (Word × List Byte)
  isl : Tab Island
  islock : Bool
  isdflt : Bool
  devnum : BitVec 6
  routes : Tab (BitVec 16)
  cmdtail : BitVec 8
  cmdhead : BitVec 8
  ackbase : Word
  ackRing : Word
  cmderr : Bool
  hostjob : BitVec 5
  cmdslots : Tab (BitVec 512)
  wraps : Nat
  /-- Host CXL.mem back-invalidations that wait for a response (R68): line and request that waits. -/
  backInv : List (Nat × Nat)
  hostLines : List Nat
  msix : List (BitVec 7)
  msixTable : Tab Word
  mcstat : Word
  mcWritten : BitVec 32
  mcHeadIdx : BitVec 5
  mcctl : BitVec 8
  mcrec : Tab McRec
  slotTable : Tab BindRec
  /-- What has been read for the LAUNCH requests that wait at the management core, by message (R75). -/
  descs : Tab LaunchDesc
  prectl : Word
  presave : Word
  prestat : Word
  treectl : Word
  cut : Option Cut
  saveKey : BitVec 256
  comet : Nat
  frames : Tab Frame
  frameHits : Tab (List Nat)
  evictOff : List Nat
  /-- Memory by physical address without the device bits (R172), as bytes that differ from the value of an unlisted byte; host memory beyond
  the 44 bits of the map by bus address, from 2^64. -/
  mem : List Host.Cell
  /-- 8-byte words (by number) whose full-empty bit is empty (R216), and words that are poisoned (R207). -/
  empties : List Nat
  poisons : List Nat
  /-- The management core's private SRAM (R1), as bytes that are not 0. -/
  sram : List Host.Cell
  jobs : Tab Job
  clusters : Tab Cluster
  cores : Tab Core
  /-- pts of a core that nothing has changed yet (R186). -/
  ptsIdle : Word
  /-- The model's own: the greatest logical time among the writers of host memory (DEDUCED, log 17). -/
  hostTs : Word
  /-- The bytes of the last host read through CXL.mem (R68, R200, R420). -/
  hostData : List Byte
  /-- Stores by physical address that have been acknowledged to their writers (R179, R410), oldest first. -/
  physDone : List (Agent × BitVec 46)
  decQueues : Tab (List DecReq)
  decoders : Tab Decoder
  ports : Tab Port
  msgs : Tab Msg
  flits : List Flit
deriving DecidableEq, Repr

/-- How a step can stop the model. -/
inductive Fault where
  /-- An instruction was executed although no strand holds an issue slot: raised by every instruction's meaning (it never
  happens under `step`); safe, because no state follows. -/
  | noOffer
deriving DecidableEq, Repr

/-- Why the model refuses a step. -/
inductive Refusal where
  /-- The step has no meaning in this model; raised by `exec` for an arm that is not written yet; safe. -/
  | notModelled (mnemonic : String)
deriving DecidableEq, Repr

/-- The islands with their default caps and ranges (R64): frequencies of network islands at their maximum, compute islands at
0.7 GHz (R57; DESIGN CHOICE, log 3). -/
def resetIslands : Tab Island :=
  (List.range 24).map fun k =>
    (k, { cap := if k < 16 then 90#12 else if k < 20 then 80#12 else if k < 22 then 230#12 else if k = 22 then 90#12 else 190#12,
          mhz := if k < 16 then 700 else if k < 20 then 2800 else 0 })

/-- The machine right after a power-on (R57, R58; notes/assumptions/1.md and 3.md). -/
def State.reset : State where
  agenda := []
  arg := {}
  offer := none
  fresh := 0
  nextId := 1
  now := 0
  stage := 0
  trained := 0
  failed := 0
  trainEnded := 0
  diesvc := 0
  trainFails := []
  rstcause := 0
  resets := 0
  meas := List.replicate 8 0#512
  nonce := 0
  repaddr := 0
  repGo := false
  repDone := false
  repErr := false
  report := none
  isl := resetIslands
  islock := false
  isdflt := false
  devnum := 0
  routes := []
  cmdtail := 0
  cmdhead := 0
  ackbase := 0
  ackRing := 0
  cmderr := false
  hostjob := 0
  cmdslots := []
  wraps := 0
  backInv := []
  hostLines := []
  msix := []
  msixTable := []
  mcstat := 0
  mcWritten := 0
  mcHeadIdx := 0
  mcctl := 0
  mcrec := []
  slotTable := []
  descs := []
  prectl := 0
  presave := 0
  prestat := 0
  treectl := 3
  cut := none
  saveKey := Config.saveKey 0
  comet := 0
  frames := []
  frameHits := []
  evictOff := []
  mem := []
  empties := []
  poisons := []
  sram := []
  jobs := []
  clusters := []
  cores := []
  ptsIdle := 0
  hostTs := 0
  hostData := []
  physDone := []
  decQueues := []
  decoders := []
  ports := []
  msgs := []
  flits := []

end Sys2Proof.Machine
end

