-- ==== Sys2Proof/Machine/Memory.lean ====
section
/-! DEFINITION. Memory by physical address: bytes, words, lines, full-empty bits, poison and the keys under which lines are written
(spec/09_memory.md R171, R172, R199, R200, spec/10_isa_memory.md R207, R216; notes/assumptions 2, 6, 7). -/

namespace Sys2Proof.Machine

/-! ## The byte list -/

/-- What an unlisted byte reads as (DESIGN CHOICE, log 2). -/
def Memory.blank : Byte := 0#8

/-- The byte at an address. -/
def Memory.get (m : List Host.Cell) (a : Nat) : Byte := Tab.get Memory.blank m a

/-- The memory with a byte at an address: a blank byte is not listed, another stands before the first greater address. -/
def Memory.set (m : List Host.Cell) (a : Nat) (b : Byte) : List Host.Cell := if b = Memory.blank then Tab.del m a else Tab.put m a b

/-- Every listed address is at least a bound, the addresses rise strictly and no byte is the blank one. -/
def Memory.wfFrom (lo : Nat) (m : List Host.Cell) : Bool :=
  match m with
  | [] => true
  | (a, b) :: r => decide (lo ≤ a) && decide (b ≠ Memory.blank) && Memory.wfFrom (a + 1) r

/-- The canonical form of a memory. -/
def Memory.wf (m : List Host.Cell) : Bool := Memory.wfFrom 0 m

/-- The n bytes from an address. -/
def Memory.read (m : List Host.Cell) (a n : Nat) : List Byte := (List.range n).map fun k => Memory.get m (a + k)

/-- The memory with bytes stored from an address. -/
def Memory.write (m : List Host.Cell) (a : Nat) (bs : List Byte) : List Host.Cell :=
  match bs with
  | [] => m
  | b :: r => Memory.write (Memory.set m a b) (a + 1) r

/-- The memory with the bytes of a list whose mask element is set stored from an address. -/
def Memory.writeMasked (m : List Host.Cell) (a : Nat) (bs : List (Byte × Bool)) : List Host.Cell :=
  match bs with
  | [] => m
  | (b, t) :: r => Memory.writeMasked (if t then Memory.set m a b else m) (a + 1) r

/-! ## Little-endian values (R5) -/

/-- The number that bytes hold, the first in bits 7:0. -/
def leNat (bs : List Byte) : Nat :=
  match bs with
  | [] => 0
  | b :: r => b.toNat + 256 * leNat r

/-- A little-endian value of w bits. -/
def leBits (w : Nat) (bs : List Byte) : BitVec w := BitVec.ofNat w (leNat bs)

/-- The n bytes of a number, lowest first. -/
def toBytes (n v : Nat) : List Byte :=
  match n with
  | 0 => []
  | k + 1 => BitVec.ofNat 8 v :: toBytes k (v / 256)

/-- The n bytes of a value. -/
def bytesOf {w : Nat} (n : Nat) (v : BitVec w) : List Byte := toBytes n v.toNat

/-! ## Words: full-empty bits and poison -/

/-- The 8-byte words that n bytes from an address touch. -/
def wordsOf (a n : Nat) : List Nat := if n = 0 then [] else (List.range ((a + n - 1) / 8 - a / 8 + 1)).map (a / 8 + ·)

/-- The words that n bytes from an address cover whole. -/
def wholeWords (a n : Nat) : List Nat := (wordsOf a n).filter fun w => decide (a ≤ 8 * w) && decide (8 * w + 8 ≤ a + n)

/-- Whether a word of a list of words is poisoned (R207). -/
def State.poisoned (s : State) (a n : Nat) : Bool := (wordsOf a n).any fun w => s.poisons.contains w

/-- The state in which words are poisoned, or not. -/
def State.setPoison (s : State) (ws : List Nat) (v : Bool) : State :=
  if v then { s with poisons := s.poisons ++ ws.filter fun w => !s.poisons.contains w }
  else if s.poisons = [] then s else { s with poisons := s.poisons.filter fun w => !ws.contains w }

/-- Whether the word at an address is full (R216). A poisoned word reads full (R387). -/
def State.full (s : State) (a : Nat) : Bool := !s.empties.contains (a / 8) || s.poisons.contains (a / 8)

/-- The state with the full-empty bit of the word at an address set. -/
def State.setFull (s : State) (a : Nat) (v : Bool) : State :=
  if v then { s with empties := s.empties.filter fun w => w != a / 8 }
  else if s.empties.contains (a / 8) then s else { s with empties := (a / 8) :: s.empties }

/-! ## Lines and keys -/

/-- The physical range of the fast tier and the capacity tier (R172). -/
def isHbm (pa : Nat) : Bool := decide (pa < 0x00C000000000)
def isCap (pa : Nat) : Bool := decide (0x100000000000 ≤ pa) && decide (pa < 0x120000000000)
def isTier (pa : Nat) : Bool := isHbm pa || isCap pa
def isHost (pa : Nat) : Bool := decide (0x200000000000 ≤ pa) && decide (pa < 0x300000000000)
def isLocal (pa : Nat) : Bool := decide (0x300000000000 ≤ pa) && decide (pa < 0x300100000000)

/-- First physical address of the local memory of a core (R172). -/
def localBase (c : CoreId) : Nat := 0x300000000000 + c.toNat * 0x100000

/-- The bytes of a line as they stand behind the memory controllers: ciphertext where it was written under a key (R199). -/
def State.rawLine (s : State) (ln : Nat) : Line := leBits 1024 (Memory.read s.mem (128 * ln) 128)

/-- The data-unit number of a line: bits 51:7 of its home physical address (R199). -/
def State.unitOf (s : State) (ln : Nat) : Nat := s.devnum.toNat * 2 ^ 39 + ln

/-- The line read under a key, or under none (R199, R200): decryption under a key other than the one it was written with yields what
it yields. -/
def State.readLine (s : State) (key : Option Key) (ln : Nat) : Line :=
  match key with
  | none => s.rawLine ln
  | some k => xtsDec k (s.unitOf ln) (s.rawLine ln)

/-- n bytes of a line from an offset. -/
def lineSlice (l : Line) (off n : Nat) : List Byte := (List.range n).map fun k => l.extractLsb' (8 * (off + k)) 8

/-- A line with bytes replaced from an offset. -/
def lineSet (l : Line) (off : Nat) (bs : List Byte) : Line :=
  match bs with
  | [] => l
  | b :: r =>
    lineSet ((l &&& ~~~((0xFF#1024) <<< (8 * off))) ||| ((b.setWidth 1024) <<< (8 * off))) (off + 1) r

/-- The bytes of a tier read under a key, line by line. -/
def State.tierRead (s : State) (key : Option Key) (pa n : Nat) : List Byte :=
  match key with
  | none => Memory.read s.mem pa n
  | some _ =>
    if pa % 128 + n ≤ 128 then lineSlice (s.readLine key (pa / 128)) (pa % 128) n
    else ((List.range ((pa % 128 + n + 127) / 128)).flatMap fun i => lineSlice (s.readLine key (pa / 128 + i)) 0 128).drop (pa % 128) |>.take n

/-- Bytes of one line of a tier stored under a key: the line is encrypted anew as one unit (R199). -/
def State.lineWrite (s : State) (k : Key) (ln off : Nat) (bs : List Byte) : State :=
  { s with mem := Memory.write s.mem (128 * ln) (bytesOf 128 (xtsEnc k (s.unitOf ln) (lineSet (s.readLine (some k) ln) off bs))) }

/-- The state with bytes of a tier written under a key, line by line. -/
def State.tierWrite (s : State) (key : Option Key) (pa : Nat) (bs : List Byte) : State :=
  match key with
  | none => { s with mem := Memory.write s.mem pa bs }
  | some k =>
    if pa % 128 + bs.length ≤ 128 then s.lineWrite k (pa / 128) (pa % 128) bs
    else (List.range ((pa % 128 + bs.length + 127) / 128)).foldl (fun s i =>
      s.lineWrite k (pa / 128 + i) (if i = 0 then pa % 128 else 0)
        (if i = 0 then bs.take (128 - pa % 128) else (bs.drop (128 * i - pa % 128)).take 128)) s

/-- A frame whose indirection entries are lost (R198). -/
def State.lostAt (s : State) (a : Nat) : Bool := isTier a && s.frames != [] && (Tab.get {} s.frames (a / 65536)).lost

/-- The poison rule of a write of bytes (R207): words written whole lose their poison, others keep it. -/
def State.clearPoison (s : State) (pa n : Nat) : State :=
  if s.poisons = [] then s else s.setPoison (wholeWords pa n) false

end Sys2Proof.Machine
end

