-- ==== Sys2Proof/Machine/Retention.lean ====
section
/-! DEFINITION. The formats of the retention rings of optimistic launches (spec/18_optimistic.md R345, R346; spec/01_work.md R13, R16): entries, their
words, and the slots of a ring. -/

namespace Sys2Proof.Machine

/-- The identity of a task (R18). -/
def Task.ident (t : Task) : Ident := ⟨t.odev, t.origin, t.seq⟩

/-- The two words of a task's envelope (R16). -/
def Task.envelope (t : Task) : List Word :=
  [t.origin ++ t.seq ++ t.odev ++ BitVec.ofBool t.anti ++ BitVec.ofBool t.colour ++ t.kind ++ t.job ++ BitVec.ofBool t.opt ++ 0#13, 0#16 ++ t.dest]

/-- Ring entries of a log entry (R346). -/
def LogEntry.size (e : LogEntry) : Nat :=
  match e with
  | .sent .. => 1
  | .deferred .. => 2
  | .created .. => 2
  | .exact .. => 2
  | .asof .. => 2
  | .spawn _ => 5

/-- The entries of a block (R345): header, envelope, record and log. -/
def Block.size (b : Block) : Nat := 6 + (b.log.map LogEntry.size).sum

/-- Version instructions under way hold the two entries that they write at the grant (R346). -/
def Req.ringEntries (r : Req) : Nat :=
  match r.kind with
  | .verst | .verldEq | .verldAsof | .verrel => if r.opt then 2 else 0
  | _ => 0

/-- The record of a task message as eight words (R13). -/
def Task.record (t : Task) : List Word := [t.lslot ++ (t.pc &&& ~~~1#48), t.vt] ++ t.args

/-- TSTATE of a block. -/
def TState.num (t : TState) : Nat := match t with | .running => 1 | .writtenBack => 2 | .done => 3 | .committing => 4 | .rolling => 5

/-- Words two by two. -/
def pairWords (ws : List Word) : List (Word × Word) :=
  match ws with
  | a :: b :: r => (a, b) :: pairWords r
  | _ => []

/-- The ring entries of a log entry, word 0 and word 1 of each. -/
def LogEntry.entries (e : LogEntry) : List (Word × Word) :=
  match e with
  | .sent vt dcore ddev kind seq _ _ => [(vt, 1#4 ++ ddev ++ dcore ++ kind ++ 0#16 ++ seq)]
  | .deferred sig v addr pc insn => [(v, (if sig then 3#4 else 2#4) ++ 0#12 ++ addr), (0#16 ++ pc, 0#32 ++ insn)]
  | .created name ver => [(0, 4#4 ++ 0#60), (name, ver)]
  | .exact name ver => [(0, 5#4 ++ 0#60), (name, ver)]
  | .asof tmark name ver => [(tmark, 6#4 ++ 0#60), (name, ver)]
  | .spawn t => (t.vt, 7#4 ++ t.lslot ++ t.kind ++ 0#38) :: pairWords t.record

/-- The entries of a task's block: header, envelope, record and log, with the number of entries that the task holds. -/
def Block.entries (b : Block) (held : Nat) : List (Word × Word) :=
  (BitVec.ofNat 32 held ++ 0#32, 0#4 ++ BitVec.ofNat 3 b.ts.num ++ 0#57) ::
    (pairWords (b.t.t.envelope ++ b.t.t.record) ++ b.log.flatMap LogEntry.entries)

/-- NENT of a block of a core: with the entries that the version instructions under way of its task have taken at issue (R345, R346). -/
def Core.nent (v : Core) (b : Block) : Nat := b.size + ((v.reqs.filter fun r => r.ident == b.t.t.ident).map Req.ringEntries).sum

/-- The entries that a core's ring of a launch holds (R345). -/
def Core.ringEntries (v : Core) (j : JobId) (l : Lslot) : List (Word × Word) :=
  (v.rings.filter fun b => b.job == j && b.lslot == l).flatMap fun b => b.entries (v.nent b)

/-- First slot of the retention ring of a launch (R25, R345). -/
def Launch.ringSlot (l : Launch) : Nat := l.codeoff / 2048 + (l.codeb + 2047) / 2048

end Sys2Proof.Machine
end

