-- ==== Sys2Proof/Machine/Access.lean ====
section
/-! DEFINITION. Reading and changing the parts of the state: cores, strands, clusters, jobs, launches, registers and their full-empty
bits, slots, the agenda, free values (spec/07_issue.md R126 to R133, spec/12_tiles.md R262; notes/assumptions 4 and 6). -/

namespace Sys2Proof.Machine

/-! ## Parts -/

def State.core (s : State) (c : CoreId) : Core := Tab.get { pts := s.ptsIdle } s.cores c.toNat
def State.setCore (s : State) (c : CoreId) (v : Core) : State := { s with cores := Tab.put s.cores c.toNat v }
def State.updCore (s : State) (c : CoreId) (f : Core → Core) : State := s.setCore c (f (s.core c))

def Core.strand (v : Core) (k : StrandId) : Strand := Tab.get {} v.strands k.toNat
def Core.setStrand (v : Core) (k : StrandId) (t : Strand) : Core := { v with strands := Tab.put v.strands k.toNat t }

def State.strand (s : State) (c : CoreId) (k : StrandId) : Strand := (s.core c).strand k
def State.setStrand (s : State) (c : CoreId) (k : StrandId) (t : Strand) : State := s.setCore c ((s.core c).setStrand k t)
def State.updStrand (s : State) (c : CoreId) (k : StrandId) (f : Strand → Strand) : State := s.setStrand c k (f (s.strand c k))

def State.cluster (s : State) (cl : ClusterId) : Cluster := Tab.get {} s.clusters cl.toNat
def State.updCluster (s : State) (cl : ClusterId) (f : Cluster → Cluster) : State :=
  { s with clusters := Tab.put s.clusters cl.toNat (f (s.cluster cl)) }

def State.job (s : State) (j : JobId) : Job := Tab.get {} s.jobs j.toNat
def State.updJob (s : State) (j : JobId) (f : Job → Job) : State := { s with jobs := Tab.put s.jobs j.toNat (f (s.job j)) }

def Job.launch (v : Job) (l : Lslot) : Launch := Tab.get {} v.launches l.toNat
def State.launch (s : State) (j : JobId) (l : Lslot) : Launch := (s.job j).launch l
def State.updLaunch (s : State) (j : JobId) (l : Lslot) (f : Launch → Launch) : State :=
  s.updJob j fun v => { v with launches := Tab.put v.launches l.toNat (f (v.launch l)) }

def State.island (s : State) (k : Nat) : Island := Tab.get {} s.isl k
def State.updIsland (s : State) (k : Nat) (f : Island → Island) : State := { s with isl := Tab.put s.isl k (f (s.island k)) }

/-- The island of a cluster (R64). -/
def islandOf (cl : ClusterId) : Nat :=
  let x := cl.toNat % 8
  let y := cl.toNat / 8
  4 * (x / 4 + 2 * (y / 4)) + (x % 4 / 2 + 2 * (y % 4 / 2))

/-- The cluster of a core (R3) and a core's number in it. -/
def clusterOf (c : CoreId) : ClusterId := c.extractLsb' 6 6
def coreIn (cl : ClusterId) (k : Nat) : CoreId := BitVec.ofNat 12 (cl.toNat * 64 + k % 64)

/-- The launch for which a strand is resident. -/
def Strand.job (t : Strand) : JobId := match t.res with | some (j, _) => j | none => 0
def Strand.lslot (t : Strand) : Lslot := match t.res with | some (_, l) => l | none => 0
def State.launchOf (s : State) (t : Strand) : Launch := s.launch t.job t.lslot

/-- Core cycles since the cold reset (R7, R117 CYCLE). -/
def State.cycle (s : State) : Nat := s.now / 2
/-- The time-stamp counter in nanoseconds at nominal clocks (R77; DESIGN CHOICE, log 14). -/
def State.tstamp (s : State) : Word := BitVec.ofNat 64 (s.now * 5 / 14)

/-- The issue slot taken (R127). -/
def State.took (s : State) : State := { s with offer := none }

/-! ## Agenda, numbers and free values -/

/-- The agenda with a step due at a network cycle, after those due no later. -/
def agendaInsert (a : List (Nat × Instr × StepArg)) (due : Nat) (i : Instr) (x : StepArg) : List (Nat × Instr × StepArg) :=
  match a with
  | [] => [(due, i, x)]
  | (d, e) :: r => if d ≤ due then (d, e) :: agendaInsert r due i x else (due, i, x) :: (d, e) :: r

/-- A step due after some network cycles. -/
def State.push (s : State) (delay : Nat) (i : Instr) (x : StepArg) : State :=
  { s with agenda := agendaInsert s.agenda (s.now + delay) i x }

/-- A step due at once. -/
def State.soon (s : State) (i : Instr) (x : StepArg) : State := s.push 0 i x

/-- Free values of this step (DEDUCED, log 6): the step's own number and a second index name each. -/
def State.freeWord (s : State) (k : Nat) : Word := Config.undef (s.fresh * 2 ^ 64 + k)
def State.freeByte (s : State) (k : Nat) : Byte := Config.undefByte (s.fresh * 2 ^ 64 + k)
def State.freeMask (s : State) (k : Nat) : BitVec 128 := Config.undefMask (s.fresh * 2 ^ 64 + k)
def State.newFresh (s : State) : State := { s with fresh := s.fresh + 1 }

/-! ## Registers (R129 to R133) -/

/-- A bit of a full-empty word set or cleared. -/
def setBit {n : Nat} (w : BitVec n) (k : Nat) (v : Bool) : BitVec n :=
  if v then w ||| (1#n <<< k) else w &&& ~~~(1#n <<< k)

/-- The value of an x register of a strand: x0 reads zero, x63 is its own forwarding slot. -/
def Strand.rx (t : Strand) (r : XReg) : Word := if r = 0 then 0 else Tab.get 0 t.x r.toNat
def Strand.ra (t : Strand) (r : BitVec 4) : Word := Tab.get 0 t.a r.toNat
/-- m0 is all ones; so is a mask register that nothing has written (R235; DESIGN CHOICE, log 3). -/
def Strand.rm' (t : Strand) (r : BitVec 3) : BitVec 128 := if r = 0 then BitVec.allOnes 128 else Tab.get (BitVec.allOnes 128) t.m r.toNat
def Strand.ri (t : Strand) (r : BitVec 2) : Word := Tab.get 0 t.i r.toNat

/-- Whether a register is full; x0 and m0 always are (R130). -/
def Strand.full (t : Strand) (r : RegRef) : Bool :=
  match r with
  | .x r => r == 0 || t.xF.getLsbD r.toNat
  | .a r => t.aF.getLsbD r.toNat
  | .m r => r == 0 || t.mF.getLsbD r.toNat
  | .i r => t.iF.getLsbD r.toNat

/-- The strand with the full-empty bit of a register set or cleared. -/
def Strand.setF (t : Strand) (r : RegRef) (v : Bool) : Strand :=
  match r with
  | .x r => if r = 0 then t else { t with xF := setBit t.xF r.toNat v }
  | .a r => { t with aF := setBit t.aF r.toNat v }
  | .m r => if r = 0 then t else { t with mF := setBit t.mF r.toNat v }
  | .i r => { t with iF := setBit t.iF r.toNat v }

/-- The strand with the value of an x register written; a write of the whole register replaces a poisoned entry (R388). -/
def Strand.putX (t : Strand) (r : XReg) (v : Word) : Strand :=
  if r = 0 then t else { t with x := Tab.put t.x r.toNat v, badX := t.badX.filter fun n => n != r.toNat }
/-- A pointer register written: bits 63:52 are reserved and read 0 (R8, R234). -/
def Strand.putA (t : Strand) (r : BitVec 4) (v : Word) : Strand := { t with a := Tab.put t.a r.toNat ((v.extractLsb' 0 52).setWidth 64) }
def Strand.putM (t : Strand) (r : BitVec 3) (v : BitVec 128) : Strand :=
  if r = 0 then t else { t with m := Tab.put t.m r.toNat v }
def Strand.putI (t : Strand) (r : BitVec 2) (v : Word) : Strand := { t with i := Tab.put t.i r.toNat v }

/-- The strand that a destination register of strand k lies in: nf is the slot of the successor (R133). -/
def destStrand (k : StrandId) (r : XReg) : StrandId := if r = 63#6 then k + 1 else k

/-- A result written to a destination register, which is full afterwards (R130, R133, R139). -/
def State.writeX (s : State) (c : CoreId) (k : StrandId) (r : XReg) (v : Word) : State :=
  if r = 0 then s else s.updStrand c (destStrand k r) fun t => (t.putX r v).setF (.x r) true

/-- A destination register marked empty by a producer (R130). -/
def State.emptyX (s : State) (c : CoreId) (k : StrandId) (r : XReg) : State :=
  if r = 0 then s else s.updStrand c (destStrand k r) fun t => t.setF (.x r) false

/-- The flags of a strand with more flags set (R46). -/
def State.orFlags (s : State) (c : CoreId) (k : StrandId) (f : BitVec 5) : State :=
  if f = 0 then s else s.updStrand c k fun t => { t with flags := t.flags ||| f }

/-! ## Slots of local memory -/

def Core.slot (v : Core) (n : Nat) : Slot := Tab.get {} v.tiles n
def Core.setSlot (v : Core) (n : Nat) (t : Slot) : Core := { v with tiles := Tab.put v.tiles n t }
def State.slot (s : State) (c : CoreId) (n : Nat) : Slot := (s.core c).slot n
def State.updSlot (s : State) (c : CoreId) (n : Nat) (f : Slot → Slot) : State :=
  s.updCore c fun v => v.setSlot n (f (v.slot n))

/-- A slot whose bytes are not the strands' (R243, R265, R345): FILLING, DRAINING or engine-owned, or of a retention ring. -/
def Slot.busy (t : Slot) : Bool := t.own || t.st == 1 || t.st == 3 || t.ring

/-- The slots that n bytes from a local offset touch. -/
def slotsOf (off n : Nat) : List Nat :=
  if n = 0 then [] else (List.range ((off + n - 1) / 2048 - off / 2048 + 1)).map (off / 2048 + ·)

/-- The check of R170 and R171 on n bytes of a core's local memory: the offset of the first byte that is unbacked, or lies in a slot
that is not tagged with the job, with the class of the fault. -/
def State.localCheck (s : State) (c : CoreId) (j : JobId) (off n : Nat) : Option Nat :=
  if off + n > 0xC0000 then some 6
  else if (slotsOf off n).all fun t => (s.slot c t).jobtag == j.toNat then none else some 9

/-- A byte of a retention ring (R345). Where an entry lies in its ring is the device's own choice, free here at each step; the rest of the ring is
undefined. -/
def State.ringByte (s : State) (c : CoreId) (off : Nat) : Byte :=
  let v := s.core c
  let hold := fun (e : JobId × Lslot) =>
    let x := s.launch e.1 e.2
    if x.opt && decide (2048 * x.ringSlot ≤ off) && decide (off < 2048 * x.ringSlot + x.ringb) then
      let es := v.ringEntries e.1 e.2
      let p := (off - 2048 * x.ringSlot) / 16
      (es.zipIdx.find? fun y => Config.ringPlace s.fresh (x.ringb / 16) y.2 == p).map fun y => (y.1.2 ++ y.1.1).extractLsb' (8 * (off % 16)) 8
    else none
  (v.installed.findSome? hold).getD (s.freeByte (localBase c + off))

/-- A byte of a busy slot as others read it: undefined, but for the entries of a retention ring (R265, R345). -/
def State.busyByte (s : State) (c : CoreId) (off : Nat) : Byte :=
  if (s.slot c (off / 2048)).ring then s.ringByte c off else s.freeByte (localBase c + off)

/-- The bytes of a core's local memory: undefined in a busy slot (R265). -/
def State.localRead (s : State) (c : CoreId) (off n : Nat) : List Byte :=
  if (slotsOf off n).any fun t => (s.slot c t).busy then
    (List.range n).map fun k =>
      if (s.slot c ((off + k) / 2048)).busy then s.busyByte c (off + k) else Memory.get s.mem (localBase c + off + k)
  else Memory.read s.mem (localBase c + off) n

/-- n bytes of a core's local memory touch a poisoned word: the undefined bytes of a busy slot carry no poison (R9, R265). -/
def State.localBad (s : State) (c : CoreId) (off n : Nat) : Bool :=
  s.poisons != [] && (wordsOf (localBase c + off) n).any fun w => s.poisons.contains w && !(s.slot c ((8 * w - localBase c) / 2048)).busy

/-- The core that owns a local address, and the offset there. -/
def localCore (a : Nat) : CoreId := BitVec.ofNat 12 ((a - 0x300000000000) / 0x100000)
def localOff (a : Nat) : Nat := (a - 0x300000000000) % 0x100000

/-- Words that a write leaves poisoned: those in a busy slot take undefined bytes and carry no poison (R9, R265). -/
def State.markBad (s : State) (ws : List Nat) : State :=
  s.setPoison (ws.filter fun w => !(isLocal (8 * w) && (s.slot (localCore (8 * w)) (localOff (8 * w) / 2048)).busy)) true

/-- The core without the weight-buffer entries of slots (R265, R273). -/
def Core.dropWb (v : Core) (ts : List Nat) : Core :=
  if v.wb = [] then v else { v with wb := v.wb.filter fun e => !ts.contains e.slot }

/-- Bytes written to a core's local memory by any agent but the engine that holds the slot (R265, R207): into a busy slot they
leave undefined bytes, and the slot's weight-buffer entry goes. -/
def State.localWrite (s : State) (c : CoreId) (off : Nat) (bs : List Byte) : State :=
  let bs' := if (slotsOf off bs.length).any fun t => (s.slot c t).busy then
      (bs.zipIdx).map fun (b, k) => if (s.slot c ((off + k) / 2048)).busy then s.freeByte (localBase c + off + k) else b
    else bs
  let s1 := if (s.core c).wb = [] then s else s.updCore c fun v => v.dropWb (slotsOf off bs.length)
  { s1.clearPoison (localBase c + off) bs.length with mem := Memory.write s.mem (localBase c + off) bs' }

/-- The slot that tile operand k of a strand names (R264), if its share has it. -/
def State.tileSlot (s : State) (c : CoreId) (k : StrandId) (op : Nat) : Option Nat :=
  let t := s.strand c k
  if op < (s.launchOf t).ntile && op < t.ntile then
    let n := t.base + op
    let e := s.slot c n
    if e.use = 1 && e.strand = k && e.jobtag = t.job.toNat then some n else none
  else none

end Sys2Proof.Machine
end

