-- ==== Sys2Proof/Machine/Flags.lean ====
section
/-! DEFINITION. The sticky flags of STS (spec/02_formats.md R45). -/

namespace Sys2Proof.Machine

/-- Invalid: bit 4. -/
def flagNV : BitVec 5 := 0b10000#5
/-- Division by zero: bit 3. -/
def flagDZ : BitVec 5 := 0b01000#5
/-- Overflow: bit 2. -/
def flagOF : BitVec 5 := 0b00100#5
/-- Underflow: bit 1. -/
def flagUF : BitVec 5 := 0b00010#5
/-- Inexact: bit 0. -/
def flagNX : BitVec 5 := 0b00001#5

/-- A flag where a condition holds. -/
def flagIf (b : Bool) (f : BitVec 5) : BitVec 5 := if b then f else 0#5

end Sys2Proof.Machine
end

