-- ==== Sys2Proof/Machine/Fp.lean ====
section
/-! DEFINITION. Number formats and rounding (spec/02_formats.md R32 to R52): exact values as signed dyadic numbers, conversion into each
format, the elementary operations and the functions of the lane unit (spec/11_isa_vector.md R249 to R254;
notes/assumptions/15.md). -/

namespace Sys2Proof.Machine

/-! ## Values -/

/-- A decoded element: NaN (signaling or not), infinity, or (-1)^neg * m * 2^e, with m = 0 a signed zero. -/
inductive Fv where
  | nan (sig : Bool)
  | inf (neg : Bool)
  | fin (neg : Bool) (m : Nat) (e : Int)
deriving DecidableEq, Repr

/-- An exact result: a value, and whether the true magnitude lies strictly between m and m + 1 units of 2^e. -/
structure Ex where
  v : Fv
  sticky : Bool := false
  /-- NV and DZ raised by the operation. -/
  fl : BitVec 5 := 0
deriving DecidableEq, Repr

def Fv.isNan (v : Fv) : Bool := match v with | .nan _ => true | _ => false
def Fv.isSig (v : Fv) : Bool := match v with | .nan s => s | _ => false
def Fv.isInf (v : Fv) : Bool := match v with | .inf _ => true | _ => false
def Fv.isZero (v : Fv) : Bool := match v with | .fin _ 0 _ => true | _ => false
def Fv.neg' (v : Fv) : Bool := match v with | .nan _ => false | .inf n => n | .fin n _ _ => n
def Fv.negate (v : Fv) : Fv := match v with | .nan s => .nan s | .inf n => .inf (!n) | .fin n m e => .fin (!n) m e

/-- The canonical NaN as an exact result, with flags. -/
def exNan (fl : BitVec 5) : Ex := { v := .nan false, fl := fl }

/-! ## Decoding (R35 to R39) -/

/-- An IEEE format of eb exponent bits and mb fraction bits. -/
def decodeIeee (eb mb : Nat) (w : Nat) : Fv :=
  let f := w % 2 ^ mb
  let ex := w / 2 ^ mb % 2 ^ eb
  let neg := w / 2 ^ (mb + eb) % 2 == 1
  let bias : Int := 2 ^ (eb - 1) - 1
  if ex = 2 ^ eb - 1 then (if f = 0 then .inf neg else .nan (f < 2 ^ (mb - 1)))
  else if ex = 0 then .fin neg f (1 - bias - mb)
  else .fin neg (2 ^ mb + f) ((ex : Int) - bias - mb)

/-- T8 (R35). -/
def decodeT8 (w : Nat) : Fv :=
  let neg := w / 128 % 2 == 1
  let t := w / 64 % 2
  let q := w % 64
  if q = 0 then (if t = 0 then (if neg then .nan false else .fin false 0 0) else .inf neg)
  else
    let lead := Nat.log2 q
    let z := 5 - lead
    let nb := lead
    let e := if nb ≥ 2 then q / 2 ^ (nb - 2) % 4 else if nb = 1 then q % 2 else 0
    let fb := nb - 2
    let f := if nb ≥ 2 then q % 2 ^ (nb - 2) else 0
    let base := if z = 5 then 18 else 4 * z
    let m : Int := (base + e : Nat)
    let ex : Int := if t = 0 then m else -(m + 1)
    .fin neg (2 ^ fb + f) (ex - fb)

/-- T4 (R36). -/
def decodeT4 (w : Nat) : Fv :=
  let neg := w / 8 % 2 == 1
  let t := w / 4 % 2
  let q := w % 4
  if q = 0 then (if t = 0 then (if neg then .nan false else .fin false 0 0) else .inf neg)
  else
    let m : Int := if q = 1 then 2 else (q - 2 : Nat)
    .fin neg 1 (if t = 0 then m else -(m + 1))

/-- An integer as an exact value. -/
def ofInt (v : Int) : Fv := .fin (decide (v < 0)) v.natAbs 0

/-- A two's-complement value of w bits. -/
def toInt (w v : Nat) : Int := if v % 2 ^ w < 2 ^ (w - 1) then (v % 2 ^ w : Nat) else (v % 2 ^ w : Nat) - 2 ^ w

/-- The width in bits of an element of a format (R32; raw counts as bytes). -/
def fmtBits (f : Nat) : Nat :=
  match f with
  | 2 => 16 | 3 => 32 | 4 => 4 | 6 => 16 | 7 => 16 | 8 => 32
  | _ => 8

/-- An element of a format (R32) from its bits. -/
def decodeFmt (f : Nat) (w : Nat) : Fv :=
  match f with
  | 1 => ofInt (toInt 8 w)
  | 2 => ofInt (toInt 16 w)
  | 3 => ofInt (toInt 32 w)
  | 4 => decodeT4 w
  | 5 => decodeT8 w
  | 6 => decodeIeee 5 10 w
  | 7 => decodeIeee 8 7 w
  | 8 => decodeIeee 8 23 w
  | _ => .fin false (w % 256) 0

/-! ## Rounding (R41 to R44) -/

/-- Whether a magnitude is rounded up: the kept part is odd or not, and the discarded part compares with half (0 none, 1 below,
2 half, 3 above). Modes 0 RNE, 1 RTZ, 2 RDN, 3 RUP. -/
def roundUp (mode : Nat) (neg odd : Bool) (rest : Nat) : Bool :=
  match mode with
  | 0 => rest == 3 || (rest == 2 && odd)
  | 1 => false
  | 2 => neg && rest != 0
  | _ => !neg && rest != 0

/-- A magnitude m * 2^e with a sticky part, as a multiple of 2^q: the integer part and the class of the rest. -/
def cutAt (m : Nat) (e : Int) (sticky : Bool) (q : Int) : Nat × Nat :=
  if q ≤ e then (m * 2 ^ (e - q).toNat, if sticky then 1 else 0)
  else
    let sh := (q - e).toNat
    let r := m % 2 ^ sh
    let half := 2 ^ (sh - 1)
    (m / 2 ^ sh, if r = 0 then (if sticky then 1 else 0) else if r < half then 1 else if r = half then (if sticky then 3 else 2) else 3)

/-- An exact magnitude made fine enough that its sticky part lies below every rounding position. -/
def widen (m : Nat) (e : Int) (sticky : Bool) : Nat × Int := if sticky then (m * 2 ^ 64 + 1, e - 64) else (m, e)

/-- Rounding of a finite value into an IEEE format: its bits and OF, UF, NX (R42). -/
def roundFin (eb mb mode : Nat) (neg : Bool) (m0 : Nat) (e0 : Int) (sticky : Bool) : Nat × BitVec 5 :=
  let (m, e) := widen m0 e0 sticky
  let sgn := if neg then 2 ^ (eb + mb) else 0
  if m = 0 then (sgn, 0) else
  let bias : Int := 2 ^ (eb - 1) - 1
  let emin : Int := 1 - bias
  let top : Int := (Nat.log2 m : Int) + e
  let q := max (top - mb) (emin - mb)
  let (k, rest) := cutAt m e false q
  let k' := if roundUp mode neg (k % 2 == 1) rest then k + 1 else k
  let (k2, q2) := if k' = 2 ^ (mb + 1) then (2 ^ mb, q + 1) else (k', q)
  -- tiny after rounding with an unbounded exponent
  let (ku, ru) := cutAt m e false (top - mb)
  let ku' := if roundUp mode neg (ku % 2 == 1) ru then ku + 1 else ku
  let tiny := decide (top < emin) && !(decide (top = emin - 1) && ku' == 2 ^ (mb + 1))
  let inex := rest != 0
  if k2 ≥ 2 ^ mb && q2 + mb > bias then
    let toInf := match mode with | 0 => true | 1 => false | 2 => neg | _ => !neg
    (sgn + (if toInf then (2 ^ eb - 1) * 2 ^ mb else (2 ^ eb - 1) * 2 ^ mb - 1), flagOF ||| flagNX)
  else
    let bits := if k2 < 2 ^ mb then k2 else ((q2 + mb + bias).toNat * 2 ^ mb + (k2 - 2 ^ mb))
    (sgn + bits, flagIf (tiny && inex) flagUF ||| flagIf inex flagNX)

/-- Rounding of an exact result into an IEEE format. -/
def roundIeee (eb mb mode : Nat) (x : Ex) : Nat × BitVec 5 :=
  match x.v with
  | .nan _ => ((2 ^ eb - 1) * 2 ^ mb + 2 ^ (mb - 1), x.fl)
  | .inf n => ((if n then 2 ^ (eb + mb) else 0) + (2 ^ eb - 1) * 2 ^ mb, x.fl)
  | .fin n m e =>
    let (b, f) := roundFin eb mb mode n m e x.sticky
    (b, f ||| x.fl)

/-- The nearest code among candidates for a magnitude (R43): codes with their values in units of 2^u. A tie goes to the code whose
bit 0 is 0, and where both agree there to the smaller magnitude. -/
def nearest (cands : List (Nat × Nat)) (m : Nat) (best : Nat × Nat) : Nat :=
  match cands with
  | [] => best.1
  | (c, v) :: r =>
    let d := fun (a : Nat) => if a ≤ m then m - a else a - m
    let better := d v < d best.2 ||
      (d v = d best.2 && (if c % 2 = best.1 % 2 then decide (v < best.2) else c % 2 == 0))
    nearest r m (if better then (c, v) else best)

/-- The magnitude codes of T8 and T4 with their values as multiples of 2^-19 and 2^-3. -/
def codesT8 : List (Nat × Nat) :=
  (List.range 128).filterMap fun c =>
    match decodeT8 c with
    | .fin _ m e => if m = 0 then none else some (c, m * 2 ^ (e + 19).toNat)
    | _ => none
def codesT4 : List (Nat × Nat) :=
  (List.range 8).filterMap fun c =>
    match decodeT4 c with
    | .fin _ m e => if m = 0 then none else some (c, m * 2 ^ (e + 3).toNat)
    | _ => none

/-- Conversion into a tapered format (R43): codes, the exponent of their unit, the code of the largest and smallest magnitude, the
code of infinity and of NaR, the sign bit. -/
def roundTaper (codes : List (Nat × Nat)) (u : Int) (big small infc nar sgn : Nat) (sat : Bool) (x : Ex) : Nat × BitVec 5 :=
  match x.v with
  | .nan _ => (nar, x.fl)
  | .inf n => (infc + (if n then sgn else 0), x.fl)
  | .fin n m0 e0 =>
    let (m, e) := widen m0 e0 x.sticky
    if m = 0 then (0, x.fl) else
    let s := if n then sgn else 0
    -- everything in units of 2^lo
    let lo := min e (u - 1)
    let k := m * 2 ^ (e - lo).toNat
    let scale := 2 ^ (u - lo).toNat
    let cs := codes.map fun (c, v) => (c, v * scale)
    let least := scale
    let largest := (cs.map (·.2)).foldl max 0
    if 2 * k < least then (0, x.fl ||| flagUF ||| flagNX)
    else if k < least then (s + small, x.fl ||| flagUF ||| flagNX)
    else if 2 * k ≥ 3 * largest then (s + (if sat then big else infc), x.fl ||| flagOF ||| flagNX)
    else
      let c := nearest cs k (cs.headD (0, 0))
      let exact := cs.contains (c, k)
      (s + c, x.fl ||| flagIf (!exact) flagNX)

def roundT8 (sat : Bool) (x : Ex) : Nat × BitVec 5 := roundTaper codesT8 (-19) 0x01 0x41 0x40 0x80 0x80 sat x
def roundT4 (sat : Bool) (x : Ex) : Nat × BitVec 5 := roundTaper codesT4 (-3) 0x1 0x5 0x4 0x8 0x8 sat x

/-- Conversion into an integer range (R44): the value and NV, NX. -/
def roundInt (lo hi : Int) (mode : Nat) (x : Ex) : Int × BitVec 5 :=
  match x.v with
  | .nan _ => (0, x.fl ||| flagNV)
  | .inf n => (if n then lo else hi, x.fl ||| flagNV)
  | .fin n m e =>
    let (k, rest) := cutAt m e x.sticky 0
    let k' : Int := (if roundUp mode n (k % 2 == 1) rest then k + 1 else k : Nat)
    let v := if n then -k' else k'
    if v < lo then (lo, x.fl ||| flagNV) else if v > hi then (hi, x.fl ||| flagNV)
    else (v, x.fl ||| flagIf (rest != 0) flagNX)

/-- The bits of an integer in w bits. -/
def intBits (w : Nat) (v : Int) : Nat := (v % 2 ^ w).toNat

/-- The signed value of 32 bits. -/
def val32 (r : Nat) : Int := toInt 32 r

/-- An exact result into any format (R42 to R44), with the mode and RM.SAT. -/
def encodeFmt (f mode : Nat) (sat : Bool) (x : Ex) : Nat × BitVec 5 :=
  match f with
  | 1 => let (v, g) := roundInt (-128) 127 mode x; (intBits 8 v, g)
  | 2 => let (v, g) := roundInt (-32768) 32767 mode x; (intBits 16 v, g)
  | 3 => let (v, g) := roundInt (-2147483648) 2147483647 mode x; (intBits 32 v, g)
  | 4 => roundT4 sat x
  | 5 => roundT8 sat x
  | 6 => roundIeee 5 10 mode x
  | 7 => roundIeee 8 7 mode x
  | 8 => roundIeee 8 23 mode x
  | _ => let (v, g) := roundInt 0 255 mode x; (intBits 8 v, g)

/-- NV of signaling operands (R42). -/
def sigFlag (vs : List Fv) : BitVec 5 := flagIf (vs.any Fv.isSig) flagNV

/-! ## Elementary operations -/

/-- The exact sum of finite values; an exact zero sum takes the sign that the mode gives it. -/
def addFin (mode : Nat) (n1 : Bool) (m1 : Nat) (e1 : Int) (n2 : Bool) (m2 : Nat) (e2 : Int) : Fv :=
  let e := min e1 e2
  let a : Int := (m1 * 2 ^ (e1 - e).toNat : Nat)
  let b : Int := (m2 * 2 ^ (e2 - e).toNat : Nat)
  let v := (if n1 then -a else a) + (if n2 then -b else b)
  if v = 0 then .fin (if m1 = 0 && m2 = 0 then (if n1 = n2 then n1 else mode == 2) else mode == 2) 0 0
  else .fin (decide (v < 0)) v.natAbs e

/-- a + b exactly. -/
def exAdd (mode : Nat) (a b : Fv) : Ex :=
  let sf := sigFlag [a, b]
  match a, b with
  | .nan _, _ => exNan sf
  | _, .nan _ => exNan sf
  | .inf n1, .inf n2 => if n1 = n2 then { v := .inf n1 } else exNan flagNV
  | .inf n, .fin _ _ _ => { v := .inf n }
  | .fin _ _ _, .inf n => { v := .inf n }
  | .fin n1 m1 e1, .fin n2 m2 e2 => { v := addFin mode n1 m1 e1 n2 m2 e2 }

/-- a × b exactly. -/
def exMul (a b : Fv) : Ex :=
  let sf := sigFlag [a, b]
  match a, b with
  | .nan _, _ => exNan sf
  | _, .nan _ => exNan sf
  | .inf n1, .inf n2 => { v := .inf (n1 != n2) }
  | .inf n1, .fin n2 m2 _ => if m2 = 0 then exNan flagNV else { v := .inf (n1 != n2) }
  | .fin n1 m1 _, .inf n2 => if m1 = 0 then exNan flagNV else { v := .inf (n1 != n2) }
  | .fin n1 m1 e1, .fin n2 m2 e2 => { v := .fin (n1 != n2) (m1 * m2) (e1 + e2) }

/-- a × b + c exactly. -/
def exFma (mode : Nat) (a b c : Fv) : Ex :=
  let p := exMul a b
  let s := exAdd mode p.v c
  { s with fl := s.fl ||| p.fl }

/-- a / b to more bits than any format keeps. -/
def exDiv (a b : Fv) : Ex :=
  let sf := sigFlag [a, b]
  match a, b with
  | .nan _, _ => exNan sf
  | _, .nan _ => exNan sf
  | .inf _, .inf _ => exNan flagNV
  | .inf n1, .fin n2 _ _ => { v := .inf (n1 != n2) }
  | .fin n1 _ _, .inf n2 => { v := .fin (n1 != n2) 0 0 }
  | .fin n1 m1 e1, .fin n2 m2 e2 =>
    if m2 = 0 then (if m1 = 0 then exNan flagNV else { v := .inf (n1 != n2), fl := flagDZ })
    else if m1 = 0 then { v := .fin (n1 != n2) 0 0 }
    else
      let sh := 80 + Nat.log2 m2
      { v := .fin (n1 != n2) (m1 * 2 ^ sh / m2) (e1 - e2 - sh), sticky := m1 * 2 ^ sh % m2 != 0 }

/-- Integer square root by bits, from a given bit down. -/
def isqrtFrom (n : Nat) (bits : Nat) (r : Nat) : Nat :=
  match bits with
  | 0 => r
  | b + 1 => isqrtFrom n b (if (r + 2 ^ b) * (r + 2 ^ b) ≤ n then r + 2 ^ b else r)

def isqrt (n : Nat) : Nat := isqrtFrom n (Nat.log2 n / 2 + 1) 0

/-- √a to more bits than any format keeps. -/
def exSqrt (a : Fv) : Ex :=
  match a with
  | .nan s => exNan (flagIf s flagNV)
  | .inf n => if n then exNan flagNV else { v := .inf false }
  | .fin n m e =>
    if m = 0 then { v := .fin n 0 0 }
    else if n then exNan flagNV
    else
      let sh : Nat := if e % 2 = 0 then 128 else 129
      let k := m * 2 ^ sh
      let r := isqrt k
      { v := .fin false r ((e - sh) / 2), sticky := r * r != k }

/-- 1 / √a. -/
def exRsqrt (a : Fv) : Ex :=
  match a with
  | .nan s => exNan (flagIf s flagNV)
  | .inf n => if n then exNan flagNV else { v := .fin false 0 0 }
  | .fin n m e =>
    if m = 0 then { v := .inf n, fl := flagDZ }
    else if n then exNan flagNV
    else
      -- 1/sqrt(m 2^e) = sqrt(2^t / m) 2^((-e-t)/2) with t of the parity of e
      let t : Nat := 200 + 2 * (Nat.log2 m) + (if e % 2 = 0 then 0 else 1)
      let k := 2 ^ t / m
      let r := isqrt k
      { v := .fin false r ((-e - t) / 2), sticky := r * r * m != 2 ^ t }

/-- Comparison of two values that are not NaN: -1, 0 or 1. -/
def fvCmp (a b : Fv) : Int :=
  match a, b with
  | .inf n1, .inf n2 => if n1 = n2 then 0 else if n1 then -1 else 1
  | .inf n, _ => if n then -1 else 1
  | _, .inf n => if n then 1 else -1
  | .fin n1 m1 e1, .fin n2 m2 e2 =>
    let e := min e1 e2
    let x : Int := (m1 * 2 ^ (e1 - e).toNat : Nat)
    let y : Int := (m2 * 2 ^ (e2 - e).toNat : Nat)
    let x := if n1 then -x else x
    let y := if n2 then -y else y
    if x < y then -1 else if x = y then 0 else 1
  | _, _ => 0

/-- The conditions of FCHK and VCMP on values (R147): 0 EQ, 1 NE, 2 LT, 3 GE, 4 LE, 5 GT, 6 UN, 7 OR. -/
def fvCond (cc : Nat) (a b : Fv) : Bool :=
  let un := a.isNan || b.isNan
  let c := fvCmp a b
  match cc with
  | 0 => !un && c = 0
  | 1 => un || c ≠ 0
  | 2 => !un && c < 0
  | 3 => !un && c ≥ 0
  | 4 => !un && c ≤ 0
  | 5 => !un && c > 0
  | 6 => un
  | _ => !un

/-- Whether a takes the place of b as the lesser (or greater) value: −0 orders below +0 (R151). -/
def fvLess (a b : Fv) : Bool :=
  let c := fvCmp a b
  c < 0 || (c = 0 && a.neg' && !b.neg')

/-- FMIN and FMAX on bits of a format (R151): one NaN is ignored, two give the canonical NaN. -/
def fvMinMax (mx : Bool) (f a b : Nat) : Nat × BitVec 5 :=
  let x := decodeFmt f a; let y := decodeFmt f b
  let fl := sigFlag [x, y]
  if x.isNan && y.isNan then ((encodeFmt f 0 true (exNan 0)).1, fl)
  else if x.isNan then (b, fl)
  else if y.isNan then (a, fl)
  else if mx then (if fvLess x y then b else a, fl) else (if fvLess y x then b else a, fl)

/-! ## Functions of the lane unit (R252) by fixed-point series of 384 bits -/

def fxBits : Nat := 384
/-- ln 2 to 512 bits. -/
def ln2Bits512 : Nat := 0xb17217f7d1cf79abc9e3b39803f2f6af40f343267298b62d8a0d175b8baafa2be7b876206debac98559552fb4afa1b10ed2eae35c138214427573b291169b825
def fxLn2 : Nat := ln2Bits512 / 2 ^ 128

/-- Σ z^k / k! from a term on, in fixed point. -/
def expSeries (z term : Nat) (k fuel : Nat) : Nat :=
  match fuel with
  | 0 => 0
  | n + 1 => term + expSeries z (term * z / 2 ^ fxBits / k) (k + 1) n

/-- 2^f for a fraction f in fixed point, as a fixed-point number of [1, 2). -/
def fxExp2 (f : Nat) : Nat := expSeries (f * fxLn2 / 2 ^ fxBits) (2 ^ fxBits) 1 90

/-- Σ t^(2k+1) / (2k+1), in fixed point: artanh t. -/
def atanhSeries (t2 pow : Nat) (k fuel : Nat) : Nat :=
  match fuel with
  | 0 => 0
  | n + 1 => pow / k + atanhSeries t2 (pow * t2 / 2 ^ fxBits) (k + 2) n

/-- A finite value in fixed point, rounded toward negative infinity. -/
def fxOf (neg : Bool) (m : Nat) (e : Int) : Int :=
  let sh : Int := e + fxBits
  let a : Int := if sh ≥ 0 then (m * 2 ^ sh.toNat : Nat) else (m / 2 ^ (-sh).toNat : Nat)
  if neg then (if sh ≥ 0 || m % 2 ^ (-sh).toNat = 0 then -a else -a - 1) else a

/-- 2^x of a finite x given in fixed point: mantissa of [1, 2) in fixed point, and exponent. -/
def exp2Parts (x : Int) : Nat × Int :=
  (fxExp2 (x % 2 ^ fxBits).toNat, x / 2 ^ fxBits)

/-- 2^x. -/
def exExp2 (a : Fv) : Ex :=
  match a with
  | .nan s => exNan (flagIf s flagNV)
  | .inf n => if n then { v := .fin false 0 0 } else { v := .inf false }
  | .fin n m e =>
    if m = 0 then { v := .fin false 1 0 }
    else if (Nat.log2 m : Int) + e > 13 then { v := .fin false 1 (if n then -5000 else 5000), sticky := true }
    else if (Nat.log2 m : Int) + e < -200 then
      (if n then { v := .fin false (2 ^ 100 - 1) (-100), sticky := true } else { v := .fin false 1 0, sticky := true })
    else
      let (y, k) := exp2Parts (fxOf n m e)
      if y = 2 ^ fxBits then { v := .fin false 1 k } else { v := .fin false y (k - fxBits), sticky := true }

/-- log₂ x. -/
def exLog2 (a : Fv) : Ex :=
  match a with
  | .nan s => exNan (flagIf s flagNV)
  | .inf n => if n then exNan flagNV else { v := .inf false }
  | .fin n m e =>
    if m = 0 then { v := .inf true, fl := flagDZ }
    else if n then exNan flagNV
    else
      let lg := Nat.log2 m
      let k : Int := ((lg : Nat) : Int) + e
      if m = 2 ^ lg then { v := ofInt k }
      else
        let y := m * 2 ^ (fxBits - lg)
        let one : Nat := 2 ^ fxBits
        let t := (y - one) * one / (y + one)
        let ln := 2 * atanhSeries (t * t / one) t 1 130
        let v : Int := k * (one : Int) + ((ln * one / fxLn2 : Nat) : Int)
        if v < 0 then { v := .fin true ((-v).toNat - 1) (-fxBits), sticky := true }
        else { v := .fin false v.toNat (-fxBits), sticky := true }

/-- A value just below a magnitude (same sign): magnitude minus a sliver. -/
def below (n : Bool) (m : Nat) (e : Int) : Ex := { v := .fin n (m * 2 ^ 64 - 1) (e - 64), sticky := true }

/-- log₂ e in fixed point. -/
def fxLog2e : Nat := 2 ^ (2 * fxBits) / fxLn2

/-- e^x in parts, for a finite x of magnitude below 2^14. -/
def expParts (n : Bool) (m : Nat) (e : Int) : Nat × Int := exp2Parts (fxOf n m e * fxLog2e / 2 ^ fxBits)

/-- tanh x. -/
def exTanh (a : Fv) : Ex :=
  match a with
  | .nan s => exNan (flagIf s flagNV)
  | .inf n => { v := .fin n 1 0 }
  | .fin n m e =>
    if m = 0 then { v := .fin n 0 0 }
    else
      let top : Int := (Nat.log2 m : Int) + e
      if top < -40 then below n m e
      else if top > 6 then below n 1 0
      else
        -- (E - 1) / (E + 1) with E = e^(2|x|) = y 2^k
        let (y, k) := expParts false m (e + 1)
        let E := y * 2 ^ k.toNat
        let one : Nat := 2 ^ fxBits
        { v := .fin n ((E - one) * one / (E + one)) (-fxBits), sticky := true }

/-- 1 / (1 + e^−x). -/
def exSigm (a : Fv) : Ex :=
  match a with
  | .nan s => exNan (flagIf s flagNV)
  | .inf n => if n then { v := .fin false 0 0 } else { v := .fin false 1 0 }
  | .fin n m e =>
    if m = 0 then { v := .fin false 1 (-1) }
    else
      let top : Int := (Nat.log2 m : Int) + e
      if top < -40 then
        -- 1/2 + x/4, moved toward 1/2 by a sliver
        let lo := e - 2
        let half := 2 ^ (-1 - lo).toNat
        if n then { v := .fin false (half - m) lo, sticky := true } else below false (half + m) lo
      else if top > 12 then
        (if n then { v := .fin false 1 (-5000), sticky := true } else below false 1 0)
      else
        let (y, k) := expParts true m e
        let one : Nat := 2 ^ fxBits
        -- E = e^-|x| = y 2^k with k ≤ 0; result E/(1+E) for x < 0, 1/(1+E) for x > 0
        let sh := (-k).toNat
        let den := one * 2 ^ sh + y
        if n then { v := .fin false (y * 2 ^ 128 * one / den) (-(fxBits : Int) - 128), sticky := true }
        else { v := .fin false (one * 2 ^ sh * one / den) (-fxBits), sticky := true }

/-! ## Scalar FP32 -/

/-- FP32 from bits 31:0 of a register. -/
def fp32 (w : Word) : Fv := decodeIeee 8 23 (w.toNat % 2 ^ 32)

/-- An exact result as an FP32 register value and flags. -/
def toFp32 (mode : Nat) (x : Ex) : Word × BitVec 5 :=
  let (b, f) := roundIeee 8 23 mode x
  (BitVec.ofNat 64 b, f)

/-- Rounding into FP32 bits. -/
def rnd32 (mode : Nat) (x : Ex) : Nat := (roundIeee 8 23 mode x).1

end Sys2Proof.Machine
end

