-- ==== Sys2Proof/WellFormed.lean ====
section
/-! DEFINITION. Which field values make an encoding an instruction (spec/06_encoding.md R103, R104, R107 to R118,
spec/08_isa_scalar.md R158, spec/11_isa_vector.md R248, R260, spec/13_isa_tile.md R280). A device step has no encoding and is
well formed. -/

namespace Sys2Proof

/-- FP32, BF16 or FP16 (R248: F). -/
def isF (y : BitVec 4) : Bool := y == 6#4 || y == 7#4 || y == 8#4

/-- INT8, INT16, INT32 or UINT8 (R248: I). -/
def isI (y : BitVec 4) : Bool := y == 1#4 || y == 2#4 || y == 3#4 || y == 9#4

/-- F, T or I (R248). -/
def isFTI (y : BitVec 4) : Bool := isF y || isI y || y == 5#4

/-- Any format code that names an element type (R32, R114: 0 and 10 to 15 are reserved). -/
def isType (y : BitVec 4) : Bool := isFTI y || y == 4#4

/-- A rounding field that is not reserved (R41: 0 takes RM.MODE, 4 to 7 name a mode). -/
def rndOk (r : BitVec 3) : Bool := r == 0#3 || decide (4#3 ≤ r)

/-- A tile operand below 384 (R103, R104). -/
def slotOk (s : BitVec 9) : Bool := decide (s < 384#9)

/-- A destination of a memory or task instruction that also reads RD to RD + 5 (R158). -/
def argsOk (d : BitVec 6) : Bool := decide (d ≤ 57#6)

/-- The control-register numbers of R117. -/
def ctlListed (n : BitVec 9) : Bool := decide (n ≤ 0x13#9) || (decide (0x20#9 ≤ n) && decide (n ≤ 0x23#9))

/-- The index registers I0 to I3 (R117). -/
def ctlIndex (n : BitVec 9) : Bool := decide (0x20#9 ≤ n) && decide (n ≤ 0x23#9)

/-- The control registers a strand may write (R117: PIX, VL, RM, STS, SCOFF, LEASE, RSLOT). -/
def ctlWritable (n : BitVec 9) : Bool :=
  n == 2#9 || n == 3#9 || n == 4#9 || n == 5#9 || n == 7#9 || n == 9#9 || n == 0xE#9

/-- The element types that TWB writes (R280). -/
def twbType (y : BitVec 4) (h : Bool) : Bool :=
  (isFTI y) && !(h && (y == 2#4 || y == 6#4 || y == 7#4))

/-- Whether an instruction's fields are all in range; false makes the encoding illegal (R104). -/
def Instr.wf (i : Instr) : Bool :=
  match i with
  | .chk _ _ _ _ _ n => n != 0#2
  | .chki e _ _ c n => n != 0#2 && (c != 6#3 && c != 7#3 || e.extractLsb' 6 7 == 0#7)
  | .fchk _ _ _ _ _ n => n != 0#2
  | .ctlr n u _ => ctlListed n && (!u || ctlIndex n)
  | .ctlw n _ _ => ctlWritable n
  | .ctlx n _ _ _ => ctlWritable n
  | .ctlset n _ _ => ctlWritable n
  | .ctlclr n _ _ => ctlWritable n
  | .spawn _ _ _ _ d => argsOk d
  | .spawna _ _ _ _ d => argsOk d
  | .fence s k => k != 0#2 && decide (s ≤ 3#4)
  | .verldEq _ _ _ _ s => slotOk s
  | .verldAsof _ _ _ _ s => slotOk s
  | .verst _ _ _ b _ s => slotOk s && !b.getLsbD 0
  | .vadd _ _ _ y _ _ _ => isFTI y
  | .vsub _ _ _ y _ _ _ => isFTI y
  | .vmul _ _ _ y _ _ _ => isFTI y
  | .vdiv _ _ _ y _ _ _ => isF y || isI y
  | .vmin _ _ _ y _ _ _ => isFTI y
  | .vmax _ _ _ y _ _ _ => isFTI y
  | .vand _ _ _ y _ _ _ => isFTI y
  | .vor _ _ _ y _ _ _ => isFTI y
  | .vxor _ _ _ y _ _ _ => isFTI y
  | .vshl _ _ _ y _ _ _ => isI y
  | .vshr _ _ _ y _ _ _ => isI y
  | .vdot _ _ _ y _ _ _ => isFTI y
  | .vperm _ _ _ y _ _ _ => isFTI y
  | .vgath _ _ _ y _ _ _ => isFTI y
  | .vscat _ _ _ y _ _ _ => isFTI y
  | .vcompr _ _ _ y _ _ _ => isFTI y
  | .vabs _ _ _ y _ _ => isFTI y
  | .vneg _ _ _ y _ _ => isFTI y
  | .vsqrt _ _ _ y _ _ => isF y
  | .vrcp _ _ _ y _ _ => isF y
  | .vrsqrt _ _ _ y _ _ => isF y
  | .vexp2 _ _ _ y _ _ => isF y
  | .vlog2 _ _ _ y _ _ => isF y
  | .vtanh _ _ _ y _ _ => isF y
  | .vsigm _ _ _ y _ _ => isF y
  | .vmov _ _ _ y _ _ => isType y
  | .vredsum _ _ _ y _ _ => isFTI y
  | .vredmax _ _ _ y _ _ => isFTI y
  | .vredmin _ _ _ y _ _ => isFTI y
  | .vscan _ _ _ y _ _ => isFTI y
  | .vnorm _ _ _ y _ _ => isF y || y == 5#4
  | .viota _ _ y _ => isFTI y
  | .vfma _ _ _ y _ _ _ _ => isFTI y
  | .vfms _ _ _ y _ _ _ _ => isFTI y
  | .vsel _ _ _ y _ _ _ _ => isFTI y
  | .vadam _ _ _ c _ _ _ => c != 15#4
  | .vcmp _ _ _ y c _ _ _ => isFTI y && decide (c < 8#4)
  | .vcvt _ _ _ y x r _ _ => isType y && isType x && rndOk r
  | .vexpn _ _ _ y _ _ _ => isFTI y
  | .vbcast _ _ y _ _ _ => isType y
  | .vlen w _ => !w
  | .vaddCompact y _ _ => y != 7#3
  | .vsubCompact y _ _ => y != 7#3
  | .vmulCompact y _ _ => y != 7#3
  | .vminCompact y _ _ => y != 7#3
  | .vmaxCompact y _ _ => y != 7#3
  | .vandCompact y _ _ => y != 7#3
  | .vorCompact y _ _ => y != 7#3
  | .vxorCompact y _ _ => y != 7#3
  | .vshlCompact y _ _ => y == 3#3 || y == 4#3 || y == 5#3
  | .vshrCompact y _ _ => y == 3#3 || y == 4#3 || y == 5#3
  | .vmovCompact y _ _ => y != 7#3
  | .vabsCompact y _ _ => y != 7#3
  | .vnegCompact y _ _ => y != 7#3
  | .vrcpCompact y _ _ => decide (y ≤ 2#3)
  | .vexp2Compact y _ _ => decide (y ≤ 2#3)
  | .vredsumCompact y _ _ => y != 7#3
  | .tload _ _ _ _ _ _ s => slotOk s
  | .tstore _ _ _ _ _ s => slotOk s
  | .tzero _ _ s => slotOk s
  | .tstat _ s => slotOk s
  | .town s => slotOk s
  | .tfree s => slotOk s
  | .tmul _ b a => slotOk b && slotOk a
  | .tmulk _ b a => slotOk b && slotOk a
  | .tacc _ a => slotOk a
  | .tmuls _ _ b a => slotOk b && slotOk a
  | .twb y h _ r a => twbType y h && rndOk r && slotOk a
  | .cpy _ _ _ _ s => slotOk s
  | .cpy2 _ _ _ _ s => slotOk s
  | .cpyw _ _ _ _ s => slotOk s
  | _ => true

end Sys2Proof
end

