-- ==== Sys2Proof/Decode.lean ====
section
/-! DEFINITION. Decoding and encoding of instruction words (spec/06_encoding.md R100 to R118, spec/10_isa_memory.md R202,
spec/11_isa_vector.md R261, spec/13_isa_tile.md R280). Decoding picks the row by major and sub-function, reads its fields, and
accepts the word only if the instruction is well formed and the word is exactly its encoding, so that a non-zero reserved or
unused field is refused (R104). -/

namespace Sys2Proof

/-- One bit of a word as a Bool. -/
def bitAt {n : Nat} (w : BitVec n) (i : Nat) : Bool := w.getLsbD i

/-- A Bool as a one-bit field. -/
def bit (b : Bool) : BitVec 1 := BitVec.ofBool b

/-- Major 0x01: sub-function by bits 31:27 (R106 to R116). -/
def rawInt (w : BitVec 32) : Option Instr :=
  match (w.extractLsb' 27 5).toNat with
  | 0 => some (.add (bitAt w 26) (bitAt w 25) (w.extractLsb' 19 6) (w.extractLsb' 13 6) (w.extractLsb' 7 6))
  | 1 => some (.sub (bitAt w 26) (bitAt w 25) (w.extractLsb' 19 6) (w.extractLsb' 13 6) (w.extractLsb' 7 6))
  | 2 => some (.and (bitAt w 26) (bitAt w 25) (w.extractLsb' 19 6) (w.extractLsb' 13 6) (w.extractLsb' 7 6))
  | 3 => some (.or (bitAt w 26) (bitAt w 25) (w.extractLsb' 19 6) (w.extractLsb' 13 6) (w.extractLsb' 7 6))
  | 4 => some (.xor (bitAt w 26) (bitAt w 25) (w.extractLsb' 19 6) (w.extractLsb' 13 6) (w.extractLsb' 7 6))
  | 5 => some (.andn (bitAt w 26) (bitAt w 25) (w.extractLsb' 19 6) (w.extractLsb' 13 6) (w.extractLsb' 7 6))
  | 6 => some (.sll (bitAt w 26) (bitAt w 25) (w.extractLsb' 19 6) (w.extractLsb' 13 6) (w.extractLsb' 7 6))
  | 7 => some (.srl (bitAt w 26) (bitAt w 25) (w.extractLsb' 19 6) (w.extractLsb' 13 6) (w.extractLsb' 7 6))
  | 8 => some (.sra (bitAt w 26) (bitAt w 25) (w.extractLsb' 19 6) (w.extractLsb' 13 6) (w.extractLsb' 7 6))
  | 9 => some (.slt (bitAt w 26) (bitAt w 25) (w.extractLsb' 19 6) (w.extractLsb' 13 6) (w.extractLsb' 7 6))
  | 10 => some (.sltu (bitAt w 26) (bitAt w 25) (w.extractLsb' 19 6) (w.extractLsb' 13 6) (w.extractLsb' 7 6))
  | 11 => some (.min (bitAt w 26) (bitAt w 25) (w.extractLsb' 19 6) (w.extractLsb' 13 6) (w.extractLsb' 7 6))
  | 12 => some (.max (bitAt w 26) (bitAt w 25) (w.extractLsb' 19 6) (w.extractLsb' 13 6) (w.extractLsb' 7 6))
  | 13 => some (.minu (bitAt w 26) (bitAt w 25) (w.extractLsb' 19 6) (w.extractLsb' 13 6) (w.extractLsb' 7 6))
  | 14 => some (.maxu (bitAt w 26) (bitAt w 25) (w.extractLsb' 19 6) (w.extractLsb' 13 6) (w.extractLsb' 7 6))
  | 15 => some (.mul (bitAt w 26) (bitAt w 25) (w.extractLsb' 19 6) (w.extractLsb' 13 6) (w.extractLsb' 7 6))
  | 16 => some (.mulh (bitAt w 26) (bitAt w 25) (w.extractLsb' 19 6) (w.extractLsb' 13 6) (w.extractLsb' 7 6))
  | 17 => some (.mulhu (bitAt w 26) (bitAt w 25) (w.extractLsb' 19 6) (w.extractLsb' 13 6) (w.extractLsb' 7 6))
  | 18 => some (.div (bitAt w 26) (bitAt w 25) (w.extractLsb' 19 6) (w.extractLsb' 13 6) (w.extractLsb' 7 6))
  | 19 => some (.divu (bitAt w 26) (bitAt w 25) (w.extractLsb' 19 6) (w.extractLsb' 13 6) (w.extractLsb' 7 6))
  | 20 => some (.rem (bitAt w 26) (bitAt w 25) (w.extractLsb' 19 6) (w.extractLsb' 13 6) (w.extractLsb' 7 6))
  | 21 => some (.remu (bitAt w 26) (bitAt w 25) (w.extractLsb' 19 6) (w.extractLsb' 13 6) (w.extractLsb' 7 6))
  | 22 => some (.clz (bitAt w 25) (w.extractLsb' 13 6) (w.extractLsb' 7 6))
  | 23 => some (.ctz (bitAt w 25) (w.extractLsb' 13 6) (w.extractLsb' 7 6))
  | 24 => some (.popc (bitAt w 25) (w.extractLsb' 13 6) (w.extractLsb' 7 6))
  | 25 => some (.sh1add (bitAt w 26) (bitAt w 25) (w.extractLsb' 19 6) (w.extractLsb' 13 6) (w.extractLsb' 7 6))
  | 26 => some (.sh2add (bitAt w 26) (bitAt w 25) (w.extractLsb' 19 6) (w.extractLsb' 13 6) (w.extractLsb' 7 6))
  | 27 => some (.sh3add (bitAt w 26) (bitAt w 25) (w.extractLsb' 19 6) (w.extractLsb' 13 6) (w.extractLsb' 7 6))
  | _ => none

/-- Major 0x08: sub-function by bits 31:30 (R106 to R116). -/
def rawShi (w : BitVec 32) : Option Instr :=
  match (w.extractLsb' 30 2).toNat with
  | 0 => some (.slli (w.extractLsb' 20 6) (bitAt w 19) (w.extractLsb' 13 6) (w.extractLsb' 7 6))
  | 1 => some (.srli (w.extractLsb' 20 6) (bitAt w 19) (w.extractLsb' 13 6) (w.extractLsb' 7 6))
  | 2 => some (.srai (w.extractLsb' 20 6) (bitAt w 19) (w.extractLsb' 13 6) (w.extractLsb' 7 6))
  | _ => none

/-- Major 0x09: sub-function by bits 15:15 (R106 to R116). -/
def rawLim (w : BitVec 32) : Option Instr :=
  match (w.extractLsb' 15 1).toNat with
  | 0 => some (.lim (w.extractLsb' 16 16) (w.extractLsb' 13 2) (w.extractLsb' 7 6))
  | 1 => some (.limk (w.extractLsb' 16 16) (w.extractLsb' 13 2) (w.extractLsb' 7 6))
  | _ => none

/-- Major 0x10: sub-function by bits 31:27 (R106 to R116). -/
def rawFp (w : BitVec 32) : Option Instr :=
  match (w.extractLsb' 27 5).toNat with
  | 0 => some (.fadd (bitAt w 26) (bitAt w 25) (w.extractLsb' 19 6) (w.extractLsb' 13 6) (w.extractLsb' 7 6))
  | 1 => some (.fsub (bitAt w 26) (bitAt w 25) (w.extractLsb' 19 6) (w.extractLsb' 13 6) (w.extractLsb' 7 6))
  | 2 => some (.fmul (bitAt w 26) (bitAt w 25) (w.extractLsb' 19 6) (w.extractLsb' 13 6) (w.extractLsb' 7 6))
  | 3 => some (.fdiv (bitAt w 26) (bitAt w 25) (w.extractLsb' 19 6) (w.extractLsb' 13 6) (w.extractLsb' 7 6))
  | 4 => some (.fsqrt (bitAt w 25) (w.extractLsb' 13 6) (w.extractLsb' 7 6))
  | 5 => some (.fmin (bitAt w 26) (bitAt w 25) (w.extractLsb' 19 6) (w.extractLsb' 13 6) (w.extractLsb' 7 6))
  | 6 => some (.fmax (bitAt w 26) (bitAt w 25) (w.extractLsb' 19 6) (w.extractLsb' 13 6) (w.extractLsb' 7 6))
  | 7 => some (.fma (bitAt w 26) (bitAt w 25) (w.extractLsb' 19 6) (w.extractLsb' 13 6) (w.extractLsb' 7 6))
  | 8 => some (.fcvtIF (bitAt w 25) (w.extractLsb' 13 6) (w.extractLsb' 7 6))
  | 9 => some (.fcvtFI (bitAt w 25) (w.extractLsb' 13 6) (w.extractLsb' 7 6))
  | 10 => some (.fclass (bitAt w 25) (w.extractLsb' 13 6) (w.extractLsb' 7 6))
  | _ => none

/-- Major 0x11: sub-function by bits 22:20 (R106 to R116). -/
def rawSys (w : BitVec 32) : Option Instr :=
  match (w.extractLsb' 20 3).toNat with
  | 0 => some (.ctlr (w.extractLsb' 23 9) (bitAt w 19) (w.extractLsb' 7 6))
  | 1 => some (.ctlw (w.extractLsb' 23 9) (bitAt w 19) (w.extractLsb' 13 6))
  | 2 => some (.ctlx (w.extractLsb' 23 9) (bitAt w 19) (w.extractLsb' 13 6) (w.extractLsb' 7 6))
  | 3 => some (.ctlset (w.extractLsb' 23 9) (bitAt w 19) (w.extractLsb' 13 6))
  | 4 => some (.ctlclr (w.extractLsb' 23 9) (bitAt w 19) (w.extractLsb' 13 6))
  | 5 => some (.trap (w.extractLsb' 23 9) (bitAt w 19) (w.extractLsb' 13 6))
  | 6 => some (.brk (w.extractLsb' 23 9))
  | 7 => match (w.extractLsb' 23 9).toNat with
    | 0 => some .isync
    | 1 => some (.resize (bitAt w 19) (w.extractLsb' 13 6) (w.extractLsb' 7 6))
    | _ => none
  | _ => none

/-- Major 0x12: sub-function by bits 31:27 (R106 to R116). -/
def rawTask (w : BitVec 32) : Option Instr :=
  match (w.extractLsb' 27 5).toNat with
  | 0 => some (.spawn (bitAt w 26) (bitAt w 25) (w.extractLsb' 19 6) (w.extractLsb' 13 6) (w.extractLsb' 7 6))
  | 1 => some (.spawna (bitAt w 26) (bitAt w 25) (w.extractLsb' 19 6) (w.extractLsb' 13 6) (w.extractLsb' 7 6))
  | 2 => some (.migrate (bitAt w 25) (w.extractLsb' 13 6))
  | 3 => some .exit
  | 4 => some (.waitw (bitAt w 25) (w.extractLsb' 13 6))
  | 5 => some .yield
  | 6 => some (.suspend (bitAt w 25) (w.extractLsb' 13 6))
  | 7 => some (.resumec (bitAt w 25) (w.extractLsb' 13 6) (w.extractLsb' 7 6))
  | 8 => some (.launch (bitAt w 25) (w.extractLsb' 13 6) (w.extractLsb' 7 6))
  | 9 => some (.cancel (bitAt w 26) (bitAt w 25) (w.extractLsb' 19 6) (w.extractLsb' 13 6) (w.extractLsb' 7 6))
  | 10 => some (.iter (bitAt w 25) (w.extractLsb' 13 6) (w.extractLsb' 7 6))
  | _ => none

/-- Major 0x16: sub-function by bits 31:27 (R106 to R116). -/
def rawMemr (w : BitVec 32) : Option Instr :=
  match (w.extractLsb' 27 5).toNat with
  | 0 => some (.ldb (bitAt w 26) (bitAt w 25) (w.extractLsb' 19 6) (w.extractLsb' 13 6) (w.extractLsb' 7 6))
  | 1 => some (.stb (bitAt w 26) (bitAt w 25) (w.extractLsb' 19 6) (w.extractLsb' 13 6))
  | 2 => some (.pref (bitAt w 25) (w.extractLsb' 13 6))
  | 3 => some (.filln (bitAt w 26) (bitAt w 25) (w.extractLsb' 19 6) (w.extractLsb' 13 6))
  | 4 => some (.flush (bitAt w 25) (w.extractLsb' 13 6))
  | 5 => some (.inv (bitAt w 25) (w.extractLsb' 13 6))
  | 6 => some (.hint (bitAt w 26) (bitAt w 25) (w.extractLsb' 19 6) (w.extractLsb' 13 6))
  | 7 => some (.fence (w.extractLsb' 21 4) (w.extractLsb' 19 2))
  | 8 => some (.putreg (bitAt w 26) (bitAt w 25) (w.extractLsb' 19 6) (w.extractLsb' 13 6))
  | 9 => some (.deferSt (bitAt w 26) (bitAt w 25) (w.extractLsb' 19 6) (w.extractLsb' 13 6))
  | 10 => some (.deferSig (bitAt w 26) (bitAt w 25) (w.extractLsb' 19 6) (w.extractLsb' 13 6))
  | 11 => some (.ldM (bitAt w 25) (w.extractLsb' 13 6) (w.extractLsb' 7 3))
  | 12 => some (.stM (bitAt w 25) (w.extractLsb' 13 6) (w.extractLsb' 7 3))
  | _ => none

/-- Major 0x17: sub-function by bits 31:27 (R106 to R116). -/
def rawFe (w : BitVec 32) : Option Instr :=
  match (w.extractLsb' 27 5).toNat with
  | 0 => some (.ldfe (bitAt w 25) (w.extractLsb' 13 6) (w.extractLsb' 7 6))
  | 1 => some (.ldff (bitAt w 25) (w.extractLsb' 13 6) (w.extractLsb' 7 6))
  | 2 => some (.stef (bitAt w 26) (bitAt w 25) (w.extractLsb' 19 6) (w.extractLsb' 13 6))
  | 3 => some (.stff (bitAt w 26) (bitAt w 25) (w.extractLsb' 19 6) (w.extractLsb' 13 6))
  | 4 => some (.fepurge (bitAt w 25) (w.extractLsb' 13 6))
  | _ => none

/-- Major 0x18: sub-function by bits 31:27 (R106 to R116). -/
def rawAmo (w : BitVec 32) : Option Instr :=
  match (w.extractLsb' 27 5).toNat with
  | 0 => some (.amoAdd (bitAt w 26) (bitAt w 25) (w.extractLsb' 19 6) (w.extractLsb' 13 6) (w.extractLsb' 7 6))
  | 1 => some (.amoAnd (bitAt w 26) (bitAt w 25) (w.extractLsb' 19 6) (w.extractLsb' 13 6) (w.extractLsb' 7 6))
  | 2 => some (.amoOr (bitAt w 26) (bitAt w 25) (w.extractLsb' 19 6) (w.extractLsb' 13 6) (w.extractLsb' 7 6))
  | 3 => some (.amoXor (bitAt w 26) (bitAt w 25) (w.extractLsb' 19 6) (w.extractLsb' 13 6) (w.extractLsb' 7 6))
  | 4 => some (.amoMin (bitAt w 26) (bitAt w 25) (w.extractLsb' 19 6) (w.extractLsb' 13 6) (w.extractLsb' 7 6))
  | 5 => some (.amoMax (bitAt w 26) (bitAt w 25) (w.extractLsb' 19 6) (w.extractLsb' 13 6) (w.extractLsb' 7 6))
  | 6 => some (.amoMinu (bitAt w 26) (bitAt w 25) (w.extractLsb' 19 6) (w.extractLsb' 13 6) (w.extractLsb' 7 6))
  | 7 => some (.amoMaxu (bitAt w 26) (bitAt w 25) (w.extractLsb' 19 6) (w.extractLsb' 13 6) (w.extractLsb' 7 6))
  | 8 => some (.amoSwap (bitAt w 26) (bitAt w 25) (w.extractLsb' 19 6) (w.extractLsb' 13 6) (w.extractLsb' 7 6))
  | 9 => some (.amoCas (bitAt w 26) (bitAt w 25) (w.extractLsb' 19 6) (w.extractLsb' 13 6) (w.extractLsb' 7 6))
  | 10 => some (.amoFadd (bitAt w 26) (bitAt w 25) (w.extractLsb' 19 6) (w.extractLsb' 13 6) (w.extractLsb' 7 6))
  | 16 => some (.redAdd (bitAt w 26) (bitAt w 25) (w.extractLsb' 19 6) (w.extractLsb' 13 6))
  | 17 => some (.redFadd (bitAt w 26) (bitAt w 25) (w.extractLsb' 19 6) (w.extractLsb' 13 6))
  | _ => none

/-- Major 0x19: sub-function by bits 31:28 (R106 to R116). -/
def rawBar (w : BitVec 32) : Option Instr :=
  match (w.extractLsb' 28 4).toNat with
  | 0 => some (.barInit (w.extractLsb' 20 8) (bitAt w 19) (w.extractLsb' 13 6))
  | 1 => some (.barArr (w.extractLsb' 20 8) (bitAt w 19) (w.extractLsb' 13 6) (w.extractLsb' 7 6))
  | 2 => some (.barWait (w.extractLsb' 20 8) (bitAt w 19) (w.extractLsb' 13 6))
  | 3 => some (.barArw (w.extractLsb' 20 8) (w.extractLsb' 7 6))
  | 4 => some (.mbarInit (bitAt w 19) (w.extractLsb' 13 6) (w.extractLsb' 7 6))
  | 5 => some (.mbarArr (bitAt w 19) (w.extractLsb' 13 6) (w.extractLsb' 7 6))
  | 6 => some (.mbarWait (bitAt w 19) (w.extractLsb' 13 6) (w.extractLsb' 7 6))
  | _ => none

/-- Major 0x1A: sub-function by bits 30:30 (R106 to R116). -/
def rawVerld (w : BitVec 32) : Option Instr :=
  match (w.extractLsb' 30 1).toNat with
  | 0 => some (.verldEq (bitAt w 29) (bitAt w 28) (w.extractLsb' 22 6) (w.extractLsb' 16 6) (w.extractLsb' 7 9))
  | 1 => some (.verldAsof (bitAt w 29) (bitAt w 28) (w.extractLsb' 22 6) (w.extractLsb' 16 6) (w.extractLsb' 7 9))
  | _ => none

/-- Major 0x1C: sub-function by bits 31:30 (R106 to R116). -/
def rawVerx (w : BitVec 32) : Option Instr :=
  match (w.extractLsb' 30 2).toNat with
  | 0 => some (.verrel (bitAt w 29) (bitAt w 28) (w.extractLsb' 22 6) (w.extractLsb' 16 6))
  | 1 => some (.verq (bitAt w 29) (bitAt w 28) (w.extractLsb' 22 6) (w.extractLsb' 16 6) (w.extractLsb' 7 6))
  | _ => none

/-- Major 0x20: sub-function by bits 22:19 (R106 to R116). -/
def rawVbin (w : BitVec 32) : Option Instr :=
  match (w.extractLsb' 19 4).toNat with
  | 0 => some (.vadd (bitAt w 31) (bitAt w 30) (w.extractLsb' 27 3) (w.extractLsb' 23 4) (w.extractLsb' 15 4) (w.extractLsb' 11 4) (w.extractLsb' 7 4))
  | 1 => some (.vsub (bitAt w 31) (bitAt w 30) (w.extractLsb' 27 3) (w.extractLsb' 23 4) (w.extractLsb' 15 4) (w.extractLsb' 11 4) (w.extractLsb' 7 4))
  | 2 => some (.vmul (bitAt w 31) (bitAt w 30) (w.extractLsb' 27 3) (w.extractLsb' 23 4) (w.extractLsb' 15 4) (w.extractLsb' 11 4) (w.extractLsb' 7 4))
  | 3 => some (.vdiv (bitAt w 31) (bitAt w 30) (w.extractLsb' 27 3) (w.extractLsb' 23 4) (w.extractLsb' 15 4) (w.extractLsb' 11 4) (w.extractLsb' 7 4))
  | 4 => some (.vmin (bitAt w 31) (bitAt w 30) (w.extractLsb' 27 3) (w.extractLsb' 23 4) (w.extractLsb' 15 4) (w.extractLsb' 11 4) (w.extractLsb' 7 4))
  | 5 => some (.vmax (bitAt w 31) (bitAt w 30) (w.extractLsb' 27 3) (w.extractLsb' 23 4) (w.extractLsb' 15 4) (w.extractLsb' 11 4) (w.extractLsb' 7 4))
  | 6 => some (.vand (bitAt w 31) (bitAt w 30) (w.extractLsb' 27 3) (w.extractLsb' 23 4) (w.extractLsb' 15 4) (w.extractLsb' 11 4) (w.extractLsb' 7 4))
  | 7 => some (.vor (bitAt w 31) (bitAt w 30) (w.extractLsb' 27 3) (w.extractLsb' 23 4) (w.extractLsb' 15 4) (w.extractLsb' 11 4) (w.extractLsb' 7 4))
  | 8 => some (.vxor (bitAt w 31) (bitAt w 30) (w.extractLsb' 27 3) (w.extractLsb' 23 4) (w.extractLsb' 15 4) (w.extractLsb' 11 4) (w.extractLsb' 7 4))
  | 9 => some (.vshl (bitAt w 31) (bitAt w 30) (w.extractLsb' 27 3) (w.extractLsb' 23 4) (w.extractLsb' 15 4) (w.extractLsb' 11 4) (w.extractLsb' 7 4))
  | 10 => some (.vshr (bitAt w 31) (bitAt w 30) (w.extractLsb' 27 3) (w.extractLsb' 23 4) (w.extractLsb' 15 4) (w.extractLsb' 11 4) (w.extractLsb' 7 4))
  | 11 => some (.vdot (bitAt w 31) (bitAt w 30) (w.extractLsb' 27 3) (w.extractLsb' 23 4) (w.extractLsb' 15 4) (w.extractLsb' 11 4) (w.extractLsb' 7 4))
  | 12 => some (.vperm (bitAt w 31) (bitAt w 30) (w.extractLsb' 27 3) (w.extractLsb' 23 4) (w.extractLsb' 15 4) (w.extractLsb' 11 4) (w.extractLsb' 7 4))
  | 13 => some (.vgath (bitAt w 31) (bitAt w 30) (w.extractLsb' 27 3) (w.extractLsb' 23 4) (w.extractLsb' 15 4) (w.extractLsb' 11 4) (w.extractLsb' 7 4))
  | 14 => some (.vscat (bitAt w 31) (bitAt w 30) (w.extractLsb' 27 3) (w.extractLsb' 23 4) (w.extractLsb' 15 4) (w.extractLsb' 11 4) (w.extractLsb' 7 4))
  | 15 => some (.vcompr (bitAt w 31) (bitAt w 30) (w.extractLsb' 27 3) (w.extractLsb' 23 4) (w.extractLsb' 15 4) (w.extractLsb' 11 4) (w.extractLsb' 7 4))
  | _ => none

/-- Major 0x21: sub-function by bits 22:19 (R106 to R116). -/
def rawVun (w : BitVec 32) : Option Instr :=
  match (w.extractLsb' 19 4).toNat with
  | 0 => some (.vabs (bitAt w 31) (bitAt w 30) (w.extractLsb' 27 3) (w.extractLsb' 23 4) (w.extractLsb' 11 4) (w.extractLsb' 7 4))
  | 1 => some (.vneg (bitAt w 31) (bitAt w 30) (w.extractLsb' 27 3) (w.extractLsb' 23 4) (w.extractLsb' 11 4) (w.extractLsb' 7 4))
  | 2 => some (.vsqrt (bitAt w 31) (bitAt w 30) (w.extractLsb' 27 3) (w.extractLsb' 23 4) (w.extractLsb' 11 4) (w.extractLsb' 7 4))
  | 3 => some (.vrcp (bitAt w 31) (bitAt w 30) (w.extractLsb' 27 3) (w.extractLsb' 23 4) (w.extractLsb' 11 4) (w.extractLsb' 7 4))
  | 4 => some (.vrsqrt (bitAt w 31) (bitAt w 30) (w.extractLsb' 27 3) (w.extractLsb' 23 4) (w.extractLsb' 11 4) (w.extractLsb' 7 4))
  | 5 => some (.vexp2 (bitAt w 31) (bitAt w 30) (w.extractLsb' 27 3) (w.extractLsb' 23 4) (w.extractLsb' 11 4) (w.extractLsb' 7 4))
  | 6 => some (.vlog2 (bitAt w 31) (bitAt w 30) (w.extractLsb' 27 3) (w.extractLsb' 23 4) (w.extractLsb' 11 4) (w.extractLsb' 7 4))
  | 7 => some (.vtanh (bitAt w 31) (bitAt w 30) (w.extractLsb' 27 3) (w.extractLsb' 23 4) (w.extractLsb' 11 4) (w.extractLsb' 7 4))
  | 8 => some (.vsigm (bitAt w 31) (bitAt w 30) (w.extractLsb' 27 3) (w.extractLsb' 23 4) (w.extractLsb' 11 4) (w.extractLsb' 7 4))
  | 9 => some (.vmov (bitAt w 31) (bitAt w 30) (w.extractLsb' 27 3) (w.extractLsb' 23 4) (w.extractLsb' 11 4) (w.extractLsb' 7 4))
  | 10 => some (.vredsum (bitAt w 31) (bitAt w 30) (w.extractLsb' 27 3) (w.extractLsb' 23 4) (w.extractLsb' 11 4) (w.extractLsb' 7 4))
  | 11 => some (.vredmax (bitAt w 31) (bitAt w 30) (w.extractLsb' 27 3) (w.extractLsb' 23 4) (w.extractLsb' 11 4) (w.extractLsb' 7 4))
  | 12 => some (.vredmin (bitAt w 31) (bitAt w 30) (w.extractLsb' 27 3) (w.extractLsb' 23 4) (w.extractLsb' 11 4) (w.extractLsb' 7 4))
  | 13 => some (.vscan (bitAt w 31) (bitAt w 30) (w.extractLsb' 27 3) (w.extractLsb' 23 4) (w.extractLsb' 11 4) (w.extractLsb' 7 4))
  | 14 => some (.vnorm (bitAt w 31) (bitAt w 30) (w.extractLsb' 27 3) (w.extractLsb' 23 4) (w.extractLsb' 11 4) (w.extractLsb' 7 4))
  | 15 => some (.viota (bitAt w 30) (w.extractLsb' 27 3) (w.extractLsb' 23 4) (w.extractLsb' 7 4))
  | _ => none

/-- Major 0x29: sub-function by bits 19:18 (R106 to R116). -/
def rawVs (w : BitVec 32) : Option Instr :=
  match (w.extractLsb' 18 2).toNat with
  | 0 => some (.vbcast (bitAt w 30) (w.extractLsb' 27 3) (w.extractLsb' 23 4) (bitAt w 17) (w.extractLsb' 11 6) (w.extractLsb' 7 4))
  | 1 => some (.vsetp (bitAt w 17) (w.extractLsb' 11 6) (w.extractLsb' 7 4))
  | 2 => some (.vgetp (w.extractLsb' 11 6) (w.extractLsb' 7 4))
  | 3 => some (.vlen (bitAt w 17) (w.extractLsb' 11 6))
  | _ => none

/-- Major 0x32: sub-function by bits 31:30 (R106 to R116). -/
def rawTslot (w : BitVec 32) : Option Instr :=
  match (w.extractLsb' 30 2).toNat with
  | 0 => some (.tzero (bitAt w 28) (w.extractLsb' 16 6) (w.extractLsb' 7 9))
  | 1 => some (.tstat (w.extractLsb' 16 6) (w.extractLsb' 7 9))
  | 2 => some (.town (w.extractLsb' 7 9))
  | 3 => some (.tfree (w.extractLsb' 7 9))
  | _ => none

/-- Major 0x33: sub-function by bits 31:27 (R106 to R116). -/
def rawTmm (w : BitVec 32) : Option Instr :=
  match (w.extractLsb' 27 5).toNat with
  | 0 => some (.tmul (w.extractLsb' 25 2) (w.extractLsb' 16 9) (w.extractLsb' 7 9))
  | 1 => some (.tmulk (w.extractLsb' 25 2) (w.extractLsb' 16 9) (w.extractLsb' 7 9))
  | 2 => some (.tacc (w.extractLsb' 25 2) (w.extractLsb' 7 9))
  | _ => none

/-- Major 0x38: sub-function by bits 31:30 (R106 to R116). -/
def rawCopy (w : BitVec 32) : Option Instr :=
  match (w.extractLsb' 30 2).toNat with
  | 0 => some (.cpy (bitAt w 29) (bitAt w 28) (w.extractLsb' 22 6) (w.extractLsb' 16 6) (w.extractLsb' 7 9))
  | 1 => some (.cpy2 (bitAt w 29) (bitAt w 28) (w.extractLsb' 22 6) (w.extractLsb' 16 6) (w.extractLsb' 7 9))
  | 2 => some (.cpyw (bitAt w 29) (bitAt w 28) (w.extractLsb' 22 6) (w.extractLsb' 16 6) (w.extractLsb' 7 9))
  | _ => none

/-- The row and fields of a 32-bit word, by its major (R106). -/
def raw32 (w : BitVec 32) : Option Instr :=
  match (w.extractLsb' 1 6).toNat with
  | 1 => rawInt w
  | 2 => some (.addi (w.extractLsb' 20 12) (bitAt w 19) (w.extractLsb' 13 6) (w.extractLsb' 7 6))
  | 3 => some (.andi (w.extractLsb' 20 12) (bitAt w 19) (w.extractLsb' 13 6) (w.extractLsb' 7 6))
  | 4 => some (.ori (w.extractLsb' 20 12) (bitAt w 19) (w.extractLsb' 13 6) (w.extractLsb' 7 6))
  | 5 => some (.xori (w.extractLsb' 20 12) (bitAt w 19) (w.extractLsb' 13 6) (w.extractLsb' 7 6))
  | 6 => some (.slti (w.extractLsb' 20 12) (bitAt w 19) (w.extractLsb' 13 6) (w.extractLsb' 7 6))
  | 7 => some (.sltiu (w.extractLsb' 20 12) (bitAt w 19) (w.extractLsb' 13 6) (w.extractLsb' 7 6))
  | 8 => rawShi w
  | 9 => rawLim w
  | 10 => some (.chk (bitAt w 26) (bitAt w 25) (w.extractLsb' 19 6) (w.extractLsb' 13 6) (w.extractLsb' 9 3) (w.extractLsb' 7 2))
  | 11 => some (.chki (w.extractLsb' 19 13) (w.extractLsb' 13 6) (bitAt w 12) (w.extractLsb' 9 3) (w.extractLsb' 7 2))
  | 12 => some (.fchk (bitAt w 26) (bitAt w 25) (w.extractLsb' 19 6) (w.extractLsb' 13 6) (w.extractLsb' 9 3) (w.extractLsb' 7 2))
  | 13 => some (.br (w.extractLsb' 7 25))
  | 14 => some (.jl (w.extractLsb' 13 19) (w.extractLsb' 7 6))
  | 15 => some (.jlr (w.extractLsb' 20 12) (bitAt w 19) (w.extractLsb' 13 6) (w.extractLsb' 7 6))
  | 16 => rawFp w
  | 17 => rawSys w
  | 18 => rawTask w
  | 19 => some (.itern (w.extractLsb' 20 12) (bitAt w 19) (w.extractLsb' 13 6) (w.extractLsb' 7 6))
  | 20 => some (.ld (w.extractLsb' 23 9) (w.extractLsb' 21 2) (bitAt w 19) (w.extractLsb' 13 6) (w.extractLsb' 7 6))
  | 21 => some (.st (w.extractLsb' 23 9) (w.extractLsb' 21 2) (bitAt w 20) (bitAt w 19) (w.extractLsb' 13 6) (w.extractLsb' 7 6))
  | 22 => rawMemr w
  | 23 => rawFe w
  | 24 => rawAmo w
  | 25 => rawBar w
  | 26 => rawVerld w
  | 27 => some (.verst (bitAt w 30) (bitAt w 29) (bitAt w 28) (w.extractLsb' 22 6) (w.extractLsb' 16 6) (w.extractLsb' 7 9))
  | 28 => rawVerx w
  | 32 => rawVbin w
  | 33 => rawVun w
  | 34 => some (.vfma (bitAt w 31) (bitAt w 30) (w.extractLsb' 27 3) (w.extractLsb' 23 4) (w.extractLsb' 19 4) (w.extractLsb' 15 4) (w.extractLsb' 11 4) (w.extractLsb' 7 4))
  | 35 => some (.vfms (bitAt w 31) (bitAt w 30) (w.extractLsb' 27 3) (w.extractLsb' 23 4) (w.extractLsb' 19 4) (w.extractLsb' 15 4) (w.extractLsb' 11 4) (w.extractLsb' 7 4))
  | 36 => some (.vsel (bitAt w 31) (bitAt w 30) (w.extractLsb' 27 3) (w.extractLsb' 23 4) (w.extractLsb' 19 4) (w.extractLsb' 15 4) (w.extractLsb' 11 4) (w.extractLsb' 7 4))
  | 37 => some (.vadam (bitAt w 31) (bitAt w 30) (w.extractLsb' 27 3) (w.extractLsb' 19 4) (w.extractLsb' 15 4) (w.extractLsb' 11 4) (w.extractLsb' 7 4))
  | 38 => some (.vcmp (bitAt w 31) (bitAt w 30) (w.extractLsb' 27 3) (w.extractLsb' 23 4) (w.extractLsb' 19 4) (w.extractLsb' 15 4) (w.extractLsb' 11 4) (w.extractLsb' 7 4))
  | 39 => some (.vcvt (bitAt w 31) (bitAt w 30) (w.extractLsb' 27 3) (w.extractLsb' 23 4) (w.extractLsb' 19 4) (w.extractLsb' 15 3) (w.extractLsb' 11 4) (w.extractLsb' 7 4))
  | 40 => some (.vexpn (bitAt w 31) (bitAt w 30) (w.extractLsb' 27 3) (w.extractLsb' 23 4) (w.extractLsb' 15 4) (w.extractLsb' 11 4) (w.extractLsb' 7 4))
  | 41 => rawVs w
  | 48 => some (.tload (bitAt w 31) (bitAt w 30) (bitAt w 29) (bitAt w 28) (w.extractLsb' 22 6) (w.extractLsb' 16 6) (w.extractLsb' 7 9))
  | 49 => some (.tstore (bitAt w 30) (bitAt w 29) (bitAt w 28) (w.extractLsb' 22 6) (w.extractLsb' 16 6) (w.extractLsb' 7 9))
  | 50 => rawTslot w
  | 51 => rawTmm w
  | 52 => some (.tmuls (w.extractLsb' 28 4) (w.extractLsb' 25 2) (w.extractLsb' 16 9) (w.extractLsb' 7 9))
  | 53 => some (.twb (w.extractLsb' 28 4) (bitAt w 27) (w.extractLsb' 25 2) (w.extractLsb' 16 3) (w.extractLsb' 7 9))
  | 54 => some (.tred (bitAt w 29) (bitAt w 28) (w.extractLsb' 22 6) (w.extractLsb' 16 6) (w.extractLsb' 7 2))
  | 55 => some (.tprog (bitAt w 28) (w.extractLsb' 16 6))
  | 56 => rawCopy w
  | 57 => some (.decode (bitAt w 28) (w.extractLsb' 16 6))
  | _ => none

/-- The row and fields of a 16-bit compact lane word, by OP4 (R102, R115). -/
def raw16 (w : BitVec 16) : Option Instr :=
  match (w.extractLsb' 1 4).toNat with
  | 0 => some (.vaddCompact (w.extractLsb' 13 3) (w.extractLsb' 9 4) (w.extractLsb' 5 4))
  | 1 => some (.vsubCompact (w.extractLsb' 13 3) (w.extractLsb' 9 4) (w.extractLsb' 5 4))
  | 2 => some (.vmulCompact (w.extractLsb' 13 3) (w.extractLsb' 9 4) (w.extractLsb' 5 4))
  | 3 => some (.vminCompact (w.extractLsb' 13 3) (w.extractLsb' 9 4) (w.extractLsb' 5 4))
  | 4 => some (.vmaxCompact (w.extractLsb' 13 3) (w.extractLsb' 9 4) (w.extractLsb' 5 4))
  | 5 => some (.vandCompact (w.extractLsb' 13 3) (w.extractLsb' 9 4) (w.extractLsb' 5 4))
  | 6 => some (.vorCompact (w.extractLsb' 13 3) (w.extractLsb' 9 4) (w.extractLsb' 5 4))
  | 7 => some (.vxorCompact (w.extractLsb' 13 3) (w.extractLsb' 9 4) (w.extractLsb' 5 4))
  | 8 => some (.vshlCompact (w.extractLsb' 13 3) (w.extractLsb' 9 4) (w.extractLsb' 5 4))
  | 9 => some (.vshrCompact (w.extractLsb' 13 3) (w.extractLsb' 9 4) (w.extractLsb' 5 4))
  | 10 => some (.vmovCompact (w.extractLsb' 13 3) (w.extractLsb' 9 4) (w.extractLsb' 5 4))
  | 11 => some (.vabsCompact (w.extractLsb' 13 3) (w.extractLsb' 9 4) (w.extractLsb' 5 4))
  | 12 => some (.vnegCompact (w.extractLsb' 13 3) (w.extractLsb' 9 4) (w.extractLsb' 5 4))
  | 13 => some (.vrcpCompact (w.extractLsb' 13 3) (w.extractLsb' 9 4) (w.extractLsb' 5 4))
  | 14 => some (.vexp2Compact (w.extractLsb' 13 3) (w.extractLsb' 9 4) (w.extractLsb' 5 4))
  | 15 => some (.vredsumCompact (w.extractLsb' 13 3) (w.extractLsb' 9 4) (w.extractLsb' 5 4))
  | _ => none

/-- The 32-bit word of an instruction (R101), none for a compact instruction or a device step. -/
def encode32 (i : Instr) : Option (BitVec 32) :=
  match i with
  | .add w u b a d => some (0#5 ++ bit w ++ bit u ++ b ++ a ++ d ++ 3#7)
  | .sub w u b a d => some (1#5 ++ bit w ++ bit u ++ b ++ a ++ d ++ 3#7)
  | .and w u b a d => some (2#5 ++ bit w ++ bit u ++ b ++ a ++ d ++ 3#7)
  | .or w u b a d => some (3#5 ++ bit w ++ bit u ++ b ++ a ++ d ++ 3#7)
  | .xor w u b a d => some (4#5 ++ bit w ++ bit u ++ b ++ a ++ d ++ 3#7)
  | .andn w u b a d => some (5#5 ++ bit w ++ bit u ++ b ++ a ++ d ++ 3#7)
  | .sll w u b a d => some (6#5 ++ bit w ++ bit u ++ b ++ a ++ d ++ 3#7)
  | .srl w u b a d => some (7#5 ++ bit w ++ bit u ++ b ++ a ++ d ++ 3#7)
  | .sra w u b a d => some (8#5 ++ bit w ++ bit u ++ b ++ a ++ d ++ 3#7)
  | .slt w u b a d => some (9#5 ++ bit w ++ bit u ++ b ++ a ++ d ++ 3#7)
  | .sltu w u b a d => some (10#5 ++ bit w ++ bit u ++ b ++ a ++ d ++ 3#7)
  | .min w u b a d => some (11#5 ++ bit w ++ bit u ++ b ++ a ++ d ++ 3#7)
  | .max w u b a d => some (12#5 ++ bit w ++ bit u ++ b ++ a ++ d ++ 3#7)
  | .minu w u b a d => some (13#5 ++ bit w ++ bit u ++ b ++ a ++ d ++ 3#7)
  | .maxu w u b a d => some (14#5 ++ bit w ++ bit u ++ b ++ a ++ d ++ 3#7)
  | .mul w u b a d => some (15#5 ++ bit w ++ bit u ++ b ++ a ++ d ++ 3#7)
  | .mulh w u b a d => some (16#5 ++ bit w ++ bit u ++ b ++ a ++ d ++ 3#7)
  | .mulhu w u b a d => some (17#5 ++ bit w ++ bit u ++ b ++ a ++ d ++ 3#7)
  | .div w u b a d => some (18#5 ++ bit w ++ bit u ++ b ++ a ++ d ++ 3#7)
  | .divu w u b a d => some (19#5 ++ bit w ++ bit u ++ b ++ a ++ d ++ 3#7)
  | .rem w u b a d => some (20#5 ++ bit w ++ bit u ++ b ++ a ++ d ++ 3#7)
  | .remu w u b a d => some (21#5 ++ bit w ++ bit u ++ b ++ a ++ d ++ 3#7)
  | .clz u a d => some (44#6 ++ bit u ++ 0#6 ++ a ++ d ++ 3#7)
  | .ctz u a d => some (46#6 ++ bit u ++ 0#6 ++ a ++ d ++ 3#7)
  | .popc u a d => some (48#6 ++ bit u ++ 0#6 ++ a ++ d ++ 3#7)
  | .sh1add w u b a d => some (25#5 ++ bit w ++ bit u ++ b ++ a ++ d ++ 3#7)
  | .sh2add w u b a d => some (26#5 ++ bit w ++ bit u ++ b ++ a ++ d ++ 3#7)
  | .sh3add w u b a d => some (27#5 ++ bit w ++ bit u ++ b ++ a ++ d ++ 3#7)
  | .addi i u a d => some (i ++ bit u ++ a ++ d ++ 5#7)
  | .andi i u a d => some (i ++ bit u ++ a ++ d ++ 7#7)
  | .ori i u a d => some (i ++ bit u ++ a ++ d ++ 9#7)
  | .xori i u a d => some (i ++ bit u ++ a ++ d ++ 11#7)
  | .slti i u a d => some (i ++ bit u ++ a ++ d ++ 13#7)
  | .sltiu i u a d => some (i ++ bit u ++ a ++ d ++ 15#7)
  | .slli k u a d => some (0#6 ++ k ++ bit u ++ a ++ d ++ 17#7)
  | .srli k u a d => some (16#6 ++ k ++ bit u ++ a ++ d ++ 17#7)
  | .srai k u a d => some (32#6 ++ k ++ bit u ++ a ++ d ++ 17#7)
  | .lim i s d => some (i ++ 0#1 ++ s ++ d ++ 19#7)
  | .limk i s d => some (i ++ 1#1 ++ s ++ d ++ 19#7)
  | .chk w u b a c n => some (0#5 ++ bit w ++ bit u ++ b ++ a ++ 0#1 ++ c ++ n ++ 21#7)
  | .chki i a u c n => some (i ++ a ++ bit u ++ c ++ n ++ 23#7)
  | .fchk w u b a c n => some (0#5 ++ bit w ++ bit u ++ b ++ a ++ 0#1 ++ c ++ n ++ 25#7)
  | .br o => some (o ++ 27#7)
  | .jl o d => some (o ++ d ++ 29#7)
  | .jlr i u a d => some (i ++ bit u ++ a ++ d ++ 31#7)
  | .fadd w u b a d => some (0#5 ++ bit w ++ bit u ++ b ++ a ++ d ++ 33#7)
  | .fsub w u b a d => some (1#5 ++ bit w ++ bit u ++ b ++ a ++ d ++ 33#7)
  | .fmul w u b a d => some (2#5 ++ bit w ++ bit u ++ b ++ a ++ d ++ 33#7)
  | .fdiv w u b a d => some (3#5 ++ bit w ++ bit u ++ b ++ a ++ d ++ 33#7)
  | .fsqrt u a d => some (8#6 ++ bit u ++ 0#6 ++ a ++ d ++ 33#7)
  | .fmin w u b a d => some (5#5 ++ bit w ++ bit u ++ b ++ a ++ d ++ 33#7)
  | .fmax w u b a d => some (6#5 ++ bit w ++ bit u ++ b ++ a ++ d ++ 33#7)
  | .fma w u b a d => some (7#5 ++ bit w ++ bit u ++ b ++ a ++ d ++ 33#7)
  | .fcvtIF u a d => some (16#6 ++ bit u ++ 0#6 ++ a ++ d ++ 33#7)
  | .fcvtFI u a d => some (18#6 ++ bit u ++ 0#6 ++ a ++ d ++ 33#7)
  | .fclass u a d => some (20#6 ++ bit u ++ 0#6 ++ a ++ d ++ 33#7)
  | .ctlr n u d => some (n ++ 0#3 ++ bit u ++ 0#6 ++ d ++ 35#7)
  | .ctlw n u a => some (n ++ 1#3 ++ bit u ++ a ++ 35#13)
  | .ctlx n u a d => some (n ++ 2#3 ++ bit u ++ a ++ d ++ 35#7)
  | .ctlset n u a => some (n ++ 3#3 ++ bit u ++ a ++ 35#13)
  | .ctlclr n u a => some (n ++ 4#3 ++ bit u ++ a ++ 35#13)
  | .trap k u a => some (k ++ 5#3 ++ bit u ++ a ++ 35#13)
  | .brk k => some (k ++ 6291491#23)
  | .isync => some (7340067#32)
  | .resize u a d => some (15#12 ++ bit u ++ a ++ d ++ 35#7)
  | .spawn w u b a d => some (0#5 ++ bit w ++ bit u ++ b ++ a ++ d ++ 37#7)
  | .spawna w u b a d => some (1#5 ++ bit w ++ bit u ++ b ++ a ++ d ++ 37#7)
  | .migrate u a => some (4#6 ++ bit u ++ 0#6 ++ a ++ 37#13)
  | .exit => some (402653221#32)
  | .waitw u a => some (8#6 ++ bit u ++ 0#6 ++ a ++ 37#13)
  | .yield => some (671088677#32)
  | .suspend u a => some (12#6 ++ bit u ++ 0#6 ++ a ++ 37#13)
  | .resumec u a d => some (14#6 ++ bit u ++ 0#6 ++ a ++ d ++ 37#7)
  | .launch u a d => some (16#6 ++ bit u ++ 0#6 ++ a ++ d ++ 37#7)
  | .cancel w u b a d => some (9#5 ++ bit w ++ bit u ++ b ++ a ++ d ++ 37#7)
  | .iter u a d => some (20#6 ++ bit u ++ 0#6 ++ a ++ d ++ 37#7)
  | .itern i u a d => some (i ++ bit u ++ a ++ d ++ 39#7)
  | .ld o z u a t => some (o ++ z ++ 0#1 ++ bit u ++ a ++ t ++ 41#7)
  | .st o z v u a t => some (o ++ z ++ bit v ++ bit u ++ a ++ t ++ 43#7)
  | .ldb w u b a d => some (0#5 ++ bit w ++ bit u ++ b ++ a ++ d ++ 45#7)
  | .stb w u b a => some (1#5 ++ bit w ++ bit u ++ b ++ a ++ 45#13)
  | .pref u a => some (4#6 ++ bit u ++ 0#6 ++ a ++ 45#13)
  | .filln w u b a => some (3#5 ++ bit w ++ bit u ++ b ++ a ++ 45#13)
  | .flush u a => some (8#6 ++ bit u ++ 0#6 ++ a ++ 45#13)
  | .inv u a => some (10#6 ++ bit u ++ 0#6 ++ a ++ 45#13)
  | .hint w u b a => some (6#5 ++ bit w ++ bit u ++ b ++ a ++ 45#13)
  | .fence s k => some (28#7 ++ s ++ k ++ 45#19)
  | .putreg w u b a => some (8#5 ++ bit w ++ bit u ++ b ++ a ++ 45#13)
  | .deferSt w u b a => some (9#5 ++ bit w ++ bit u ++ b ++ a ++ 45#13)
  | .deferSig w u b a => some (10#5 ++ bit w ++ bit u ++ b ++ a ++ 45#13)
  | .ldM u a m => some (22#6 ++ bit u ++ 0#6 ++ a ++ 0#3 ++ m ++ 45#7)
  | .stM u a m => some (24#6 ++ bit u ++ 0#6 ++ a ++ 0#3 ++ m ++ 45#7)
  | .ldfe u a d => some (0#6 ++ bit u ++ 0#6 ++ a ++ d ++ 47#7)
  | .ldff u a d => some (2#6 ++ bit u ++ 0#6 ++ a ++ d ++ 47#7)
  | .stef w u b a => some (2#5 ++ bit w ++ bit u ++ b ++ a ++ 47#13)
  | .stff w u b a => some (3#5 ++ bit w ++ bit u ++ b ++ a ++ 47#13)
  | .fepurge u a => some (8#6 ++ bit u ++ 0#6 ++ a ++ 47#13)
  | .amoAdd w u b a d => some (0#5 ++ bit w ++ bit u ++ b ++ a ++ d ++ 49#7)
  | .amoAnd w u b a d => some (1#5 ++ bit w ++ bit u ++ b ++ a ++ d ++ 49#7)
  | .amoOr w u b a d => some (2#5 ++ bit w ++ bit u ++ b ++ a ++ d ++ 49#7)
  | .amoXor w u b a d => some (3#5 ++ bit w ++ bit u ++ b ++ a ++ d ++ 49#7)
  | .amoMin w u b a d => some (4#5 ++ bit w ++ bit u ++ b ++ a ++ d ++ 49#7)
  | .amoMax w u b a d => some (5#5 ++ bit w ++ bit u ++ b ++ a ++ d ++ 49#7)
  | .amoMinu w u b a d => some (6#5 ++ bit w ++ bit u ++ b ++ a ++ d ++ 49#7)
  | .amoMaxu w u b a d => some (7#5 ++ bit w ++ bit u ++ b ++ a ++ d ++ 49#7)
  | .amoSwap w u b a d => some (8#5 ++ bit w ++ bit u ++ b ++ a ++ d ++ 49#7)
  | .amoCas w u b a d => some (9#5 ++ bit w ++ bit u ++ b ++ a ++ d ++ 49#7)
  | .amoFadd w u b a d => some (10#5 ++ bit w ++ bit u ++ b ++ a ++ d ++ 49#7)
  | .redAdd w u b a => some (16#5 ++ bit w ++ bit u ++ b ++ a ++ 49#13)
  | .redFadd w u b a => some (17#5 ++ bit w ++ bit u ++ b ++ a ++ 49#13)
  | .barInit n u a => some (0#4 ++ n ++ bit u ++ a ++ 51#13)
  | .barArr n u a d => some (1#4 ++ n ++ bit u ++ a ++ d ++ 51#7)
  | .barWait n u a => some (2#4 ++ n ++ bit u ++ a ++ 51#13)
  | .barArw n d => some (3#4 ++ n ++ 0#7 ++ d ++ 51#7)
  | .mbarInit u a d => some (1024#12 ++ bit u ++ a ++ d ++ 51#7)
  | .mbarArr u a d => some (1280#12 ++ bit u ++ a ++ d ++ 51#7)
  | .mbarWait u a d => some (1536#12 ++ bit u ++ a ++ d ++ 51#7)
  | .verldEq w u b a s => some (0#2 ++ bit w ++ bit u ++ b ++ a ++ s ++ 53#7)
  | .verldAsof w u b a s => some (1#2 ++ bit w ++ bit u ++ b ++ a ++ s ++ 53#7)
  | .verst k w u b a s => some (0#1 ++ bit k ++ bit w ++ bit u ++ b ++ a ++ s ++ 55#7)
  | .verrel w u b a => some (0#2 ++ bit w ++ bit u ++ b ++ a ++ 57#16)
  | .verq w u b a d => some (1#2 ++ bit w ++ bit u ++ b ++ a ++ 0#3 ++ d ++ 57#7)
  | .vadd s e m y b a d => some (bit s ++ bit e ++ m ++ y ++ 0#4 ++ b ++ a ++ d ++ 65#7)
  | .vsub s e m y b a d => some (bit s ++ bit e ++ m ++ y ++ 1#4 ++ b ++ a ++ d ++ 65#7)
  | .vmul s e m y b a d => some (bit s ++ bit e ++ m ++ y ++ 2#4 ++ b ++ a ++ d ++ 65#7)
  | .vdiv s e m y b a d => some (bit s ++ bit e ++ m ++ y ++ 3#4 ++ b ++ a ++ d ++ 65#7)
  | .vmin s e m y b a d => some (bit s ++ bit e ++ m ++ y ++ 4#4 ++ b ++ a ++ d ++ 65#7)
  | .vmax s e m y b a d => some (bit s ++ bit e ++ m ++ y ++ 5#4 ++ b ++ a ++ d ++ 65#7)
  | .vand s e m y b a d => some (bit s ++ bit e ++ m ++ y ++ 6#4 ++ b ++ a ++ d ++ 65#7)
  | .vor s e m y b a d => some (bit s ++ bit e ++ m ++ y ++ 7#4 ++ b ++ a ++ d ++ 65#7)
  | .vxor s e m y b a d => some (bit s ++ bit e ++ m ++ y ++ 8#4 ++ b ++ a ++ d ++ 65#7)
  | .vshl s e m y b a d => some (bit s ++ bit e ++ m ++ y ++ 9#4 ++ b ++ a ++ d ++ 65#7)
  | .vshr s e m y b a d => some (bit s ++ bit e ++ m ++ y ++ 10#4 ++ b ++ a ++ d ++ 65#7)
  | .vdot s e m y b a d => some (bit s ++ bit e ++ m ++ y ++ 11#4 ++ b ++ a ++ d ++ 65#7)
  | .vperm s e m y b a d => some (bit s ++ bit e ++ m ++ y ++ 12#4 ++ b ++ a ++ d ++ 65#7)
  | .vgath s e m y b a d => some (bit s ++ bit e ++ m ++ y ++ 13#4 ++ b ++ a ++ d ++ 65#7)
  | .vscat s e m y b a d => some (bit s ++ bit e ++ m ++ y ++ 14#4 ++ b ++ a ++ d ++ 65#7)
  | .vcompr s e m y b a d => some (bit s ++ bit e ++ m ++ y ++ 15#4 ++ b ++ a ++ d ++ 65#7)
  | .vabs s e m y a d => some (bit s ++ bit e ++ m ++ y ++ 0#8 ++ a ++ d ++ 67#7)
  | .vneg s e m y a d => some (bit s ++ bit e ++ m ++ y ++ 16#8 ++ a ++ d ++ 67#7)
  | .vsqrt s e m y a d => some (bit s ++ bit e ++ m ++ y ++ 32#8 ++ a ++ d ++ 67#7)
  | .vrcp s e m y a d => some (bit s ++ bit e ++ m ++ y ++ 48#8 ++ a ++ d ++ 67#7)
  | .vrsqrt s e m y a d => some (bit s ++ bit e ++ m ++ y ++ 64#8 ++ a ++ d ++ 67#7)
  | .vexp2 s e m y a d => some (bit s ++ bit e ++ m ++ y ++ 80#8 ++ a ++ d ++ 67#7)
  | .vlog2 s e m y a d => some (bit s ++ bit e ++ m ++ y ++ 96#8 ++ a ++ d ++ 67#7)
  | .vtanh s e m y a d => some (bit s ++ bit e ++ m ++ y ++ 112#8 ++ a ++ d ++ 67#7)
  | .vsigm s e m y a d => some (bit s ++ bit e ++ m ++ y ++ 128#8 ++ a ++ d ++ 67#7)
  | .vmov s e m y a d => some (bit s ++ bit e ++ m ++ y ++ 144#8 ++ a ++ d ++ 67#7)
  | .vredsum s e m y a d => some (bit s ++ bit e ++ m ++ y ++ 160#8 ++ a ++ d ++ 67#7)
  | .vredmax s e m y a d => some (bit s ++ bit e ++ m ++ y ++ 176#8 ++ a ++ d ++ 67#7)
  | .vredmin s e m y a d => some (bit s ++ bit e ++ m ++ y ++ 192#8 ++ a ++ d ++ 67#7)
  | .vscan s e m y a d => some (bit s ++ bit e ++ m ++ y ++ 208#8 ++ a ++ d ++ 67#7)
  | .vnorm s e m y a d => some (bit s ++ bit e ++ m ++ y ++ 224#8 ++ a ++ d ++ 67#7)
  | .viota e m y d => some (0#1 ++ bit e ++ m ++ y ++ 3840#12 ++ d ++ 67#7)
  | .vfma s e m y c b a d => some (bit s ++ bit e ++ m ++ y ++ c ++ b ++ a ++ d ++ 69#7)
  | .vfms s e m y c b a d => some (bit s ++ bit e ++ m ++ y ++ c ++ b ++ a ++ d ++ 71#7)
  | .vsel s e m y c b a d => some (bit s ++ bit e ++ m ++ y ++ c ++ b ++ a ++ d ++ 73#7)
  | .vadam s e m c b a d => some (bit s ++ bit e ++ m ++ 8#4 ++ c ++ b ++ a ++ d ++ 75#7)
  | .vcmp s e m y c b a d => some (bit s ++ bit e ++ m ++ y ++ c ++ b ++ a ++ d ++ 77#7)
  | .vcvt s e m y x r a d => some (bit s ++ bit e ++ m ++ y ++ x ++ 0#1 ++ r ++ a ++ d ++ 79#7)
  | .vexpn s e m y b a d => some (bit s ++ bit e ++ m ++ y ++ 0#4 ++ b ++ a ++ d ++ 81#7)
  | .vbcast e m y w x p => some (0#1 ++ bit e ++ m ++ y ++ 0#5 ++ bit w ++ x ++ p ++ 83#7)
  | .vsetp w x p => some (1#14 ++ bit w ++ x ++ p ++ 83#7)
  | .vgetp x p => some (4#15 ++ x ++ p ++ 83#7)
  | .vlen w x => some (3#14 ++ bit w ++ x ++ 83#11)
  | .tload z x w u b a s => some (bit z ++ bit x ++ bit w ++ bit u ++ b ++ a ++ s ++ 97#7)
  | .tstore k w u b a s => some (0#1 ++ bit k ++ bit w ++ bit u ++ b ++ a ++ s ++ 99#7)
  | .tzero u a s => some (0#3 ++ bit u ++ 0#6 ++ a ++ s ++ 101#7)
  | .tstat d s => some (256#10 ++ d ++ s ++ 101#7)
  | .town s => some (32768#16 ++ s ++ 101#7)
  | .tfree s => some (49152#16 ++ s ++ 101#7)
  | .tmul c b a => some (0#5 ++ c ++ b ++ a ++ 103#7)
  | .tmulk c b a => some (1#5 ++ c ++ b ++ a ++ 103#7)
  | .tacc c a => some (2#5 ++ c ++ 0#9 ++ a ++ 103#7)
  | .tmuls p c b a => some (p ++ 0#1 ++ c ++ b ++ a ++ 105#7)
  | .twb y h c r a => some (y ++ bit h ++ c ++ 0#6 ++ r ++ a ++ 107#7)
  | .tred w u b a c => some (0#2 ++ bit w ++ bit u ++ b ++ a ++ 0#7 ++ c ++ 109#7)
  | .tprog u a => some (0#3 ++ bit u ++ 0#6 ++ a ++ 111#16)
  | .cpy w u b a s => some (0#2 ++ bit w ++ bit u ++ b ++ a ++ s ++ 113#7)
  | .cpy2 w u b a s => some (1#2 ++ bit w ++ bit u ++ b ++ a ++ s ++ 113#7)
  | .cpyw w u b a s => some (2#2 ++ bit w ++ bit u ++ b ++ a ++ s ++ 113#7)
  | .decode u a => some (0#3 ++ bit u ++ 0#6 ++ a ++ 115#16)
  | _ => none

/-- The parcel of a compact lane instruction (R102), none otherwise. -/
def encode16 (i : Instr) : Option (BitVec 16) :=
  match i with
  | .vaddCompact y s d => some (y ++ s ++ d ++ 0#5)
  | .vsubCompact y s d => some (y ++ s ++ d ++ 2#5)
  | .vmulCompact y s d => some (y ++ s ++ d ++ 4#5)
  | .vminCompact y s d => some (y ++ s ++ d ++ 6#5)
  | .vmaxCompact y s d => some (y ++ s ++ d ++ 8#5)
  | .vandCompact y s d => some (y ++ s ++ d ++ 10#5)
  | .vorCompact y s d => some (y ++ s ++ d ++ 12#5)
  | .vxorCompact y s d => some (y ++ s ++ d ++ 14#5)
  | .vshlCompact y s d => some (y ++ s ++ d ++ 16#5)
  | .vshrCompact y s d => some (y ++ s ++ d ++ 18#5)
  | .vmovCompact y s d => some (y ++ s ++ d ++ 20#5)
  | .vabsCompact y s d => some (y ++ s ++ d ++ 22#5)
  | .vnegCompact y s d => some (y ++ s ++ d ++ 24#5)
  | .vrcpCompact y s d => some (y ++ s ++ d ++ 26#5)
  | .vexp2Compact y s d => some (y ++ s ++ d ++ 28#5)
  | .vredsumCompact y s d => some (y ++ s ++ d ++ 30#5)
  | _ => none

/-- Decoding of a 32-bit word: refused where the encoding is no instruction under R104. -/
def decode32 (w : BitVec 32) : Option Instr :=
  match raw32 w with
  | some i => if i.wf && decide (encode32 i = some w) then some i else none
  | none => none

/-- Decoding of a 16-bit parcel. The parcel 0x0000 is not an instruction (R100). -/
def decode16 (w : BitVec 16) : Option Instr :=
  if w = 0 then none else
  match raw16 w with
  | some i => if i.wf && decide (encode16 i = some w) then some i else none
  | none => none

/-- Decoding of the parcels at a program counter: bit 0 of the first parcel frames the instruction (R100). -/
def decodeParcels (p0 p1 : BitVec 16) : Option Instr :=
  if bitAt p0 0 then decode32 (p1 ++ p0) else decode16 p0

/-- The length in bytes of the instruction whose first parcel this is (R100). -/
def parcelLen (p0 : BitVec 16) : Nat := if bitAt p0 0 then 4 else 2

/-- Decoding of a byte stream, parcels little-endian (R5): the instruction and the bytes after it. -/
def decodeBytes (bs : List Byte) : Option (Instr × List Byte) :=
  match bs with
  | b0 :: b1 :: rest =>
    if bitAt b0 0 then
      match rest with
      | b2 :: b3 :: rest' => (decode32 (b3 ++ b2 ++ b1 ++ b0)).map (·, rest')
      | _ => none
    else (decode16 (b1 ++ b0)).map (·, rest)
  | _ => none

/-- The bytes of an instruction as memory holds them (R5), none for a device step. -/
def encodeBytes (i : Instr) : Option (List Byte) :=
  match encode32 i with
  | some w => some [w.extractLsb' 0 8, w.extractLsb' 8 8, w.extractLsb' 16 8, w.extractLsb' 24 8]
  | none => (encode16 i).map fun w => [w.extractLsb' 0 8, w.extractLsb' 8 8]

/-- The instruction the decoder reads from bits numbered as the opcode table numbers them, bits above `nbits` zero. -/
def decodeTableWord (nbits w : Nat) : Option Instr :=
  let v := BitVec.ofNat 32 (w % 2 ^ nbits)
  decodeParcels (v.extractLsb' 0 16) (v.extractLsb' 16 16)

end Sys2Proof
end

