-- ==== Sys2Proof/Machine/Slice.lean ====
section
/-! DEFINITION. The slices of the shared cache and the frames of the tiers: where a line has its home, which lines a slice holds, what an
access to a tier leaves there (spec/09_memory.md R181, R184 to R186, R194, R196; notes/assumptions 11). -/

namespace Sys2Proof.Machine

/-- The home slice of a tier address (R181). -/
def homeSlice (pa : Nat) : ClusterId :=
  BitVec.ofNat 6 ((List.range 7).foldl (fun a k => a ^^^ (((pa / 128) >>> (6 * k)) % 64)) 0)

/-- The times of a line at its home: mts where the slice does not hold it (R186). -/
def Cluster.line (v : Cluster) (ln : Nat) : HomeLine :=
  let h := Tab.get {} v.lines ln
  if h.way.isSome then h else { h with wts := v.mts, rts := v.mts }

def State.updLine (s : State) (ln : Nat) (f : HomeLine → HomeLine) : State :=
  s.updCluster (homeSlice (128 * ln)) fun v => { v with lines := Tab.put v.lines ln (f (v.line ln)) }

def State.homeLine (s : State) (ln : Nat) : HomeLine := (s.cluster (homeSlice (128 * ln))).line ln

/-- The greater of two words. -/
def wmax (a b : Word) : Word := if a < b then b else a

/-! ## What a slice holds (R186, R194) -/

/-- The set of a line in its slice (DESIGN CHOICE, log 11): of 16,384, by the line number above the bits that choose the slice. -/
def sliceSet (ln : Nat) : Nat := ln / 64 % 16384

/-- A line leaves its slice (R186): mts rises, and a dirty line stands in memory from then on. Its map of clusters and the replies that wait
for it stay (R180; DEDUCED, log 11). -/
def Cluster.evictLine (v : Cluster) (ln : Nat) : Cluster :=
  let h := Tab.get {} v.lines ln
  if h.way.isNone then v
  else
    { v with
      mts := wmax v.mts (wmax h.rts h.wts)
      lines := if h.map = [] ∧ h.acks = [] ∧ h.held = [] then Tab.del v.lines ln
               else Tab.put v.lines ln { map := h.map, acks := h.acks, held := h.held } }

/-- The lines of a set that the slice holds. -/
def Cluster.setLines (v : Cluster) (set : Nat) : List (Nat × HomeLine) := v.lines.filter fun e => sliceSet e.1 == set && e.2.way.isSome

/-- The least recently used of some lines, the one in the lowest way among several (DESIGN CHOICE, log 11). -/
def oldestLine (l : List (Nat × HomeLine)) : Option (Nat × HomeLine) :=
  l.foldl (fun b e => match b with
    | some x => if decide (e.2.used < x.2.used) || (e.2.used == x.2.used && decide (e.2.way.getD 0 < x.2.way.getD 0)) then some e else some x
    | none => some e) none

/-- A line that is accessed stands in its slice afterwards (R186, R194): it is there, or is filled from memory into a free cache way of its set,
or takes the way of the line that its set used longest ago. At least one way is a cache way (R157). A line that is filled carries the job of the key
of the access, 16 for none (R199). -/
def Cluster.reside (v : Cluster) (now ln key : Nat) : Cluster :=
  let h := v.line ln
  match h.way with
  | some _ => { v with lines := Tab.put v.lines ln { h with used := now } }
  | none =>
    let mine := v.setLines (sliceSet ln)
    let fill := fun (v : Cluster) (w : Nat) => { v with lines := Tab.put v.lines ln { v.line ln with way := some w, used := now, key := key } }
    match (List.range (max 1 (16 - v.vways))).find? fun w => !mine.any fun e => e.2.way == some w with
    | some w => fill v w
    | none => match oldestLine mine with
      | some e => fill (v.evictLine e.1) (e.2.way.getD 0)
      | none => v

/-- A frame of the tiers (R196). -/
def State.frame (s : State) (f : Nat) : Frame := Tab.get { at' := f } s.frames f

/-- An access to a tier frame: the job and HG of its last access by a leaf, and, while its bytes lie in the capacity tier, the times of its last
sixteen accesses (R196). -/
def State.touchFrame (s : State) (by' : Option (JobId × BitVec 8)) (a : Nat) : State :=
  let n := a / 65536
  let f := s.frame n
  { s with frames := match by' with
             | some (j, hg) => Tab.put s.frames n { f with job := some j, hg := hg }
             | none => s.frames,
           frameHits := if isCap (f.at' * 65536) then Tab.put s.frameHits n ((s.now :: Tab.get [] s.frameHits n).take 16) else s.frameHits }

/-- AN ACCESS TO A TIER AT ITS HOME: by an agent of a job through a leaf with a hint group, or by physical address, under the key of a job or
(16) under none. The frame's records follow (R196), and the line stands in its slice (R186, R194, R199). -/
def State.visit (s : State) (by' : Option (JobId × BitVec 8)) (a key : Nat) : State :=
  if !isTier a then s
  else (s.touchFrame by' a).updCluster (homeSlice a) fun v => v.reside s.now (a / 128) key

end Sys2Proof.Machine
end

