-- ==== Sys2Proof/Machine/Translate.lean ====
section
/-! DEFINITION. Translation: page walks, TLBs and where a virtual address leads (spec/09_memory.md R170 to R181; spec/03_bringup.md
R61; spec/02_formats.md R33; notes/assumptions 10, 11). -/

namespace Sys2Proof.Machine

/-- What an access needs of its leaf (R176). -/
inductive Need where
  | r | w | x
deriving DecidableEq, Repr

def Need.num (n : Need) : Nat := match n with | .r => 1 | .w => 2 | .x => 3
/-- The permission bit of a leaf. -/
def Need.ok (n : Need) (leaf : Word) : Bool := leaf.getLsbD n.num

/-- The result of a walk: an entry, or the class of its fault and the lines that it read. -/
inductive WalkRes where
  | leaf (e : TlbEntry)
  | fault (cls : Nat) (lines : List Nat)
deriving DecidableEq, Repr

/-- The device number and the offset within the device of a physical address (R172). -/
def devOf (pa : BitVec 52) : BitVec 6 := pa.extractLsb' 46 6
def offOf (pa : BitVec 52) : Nat := (pa.extractLsb' 0 46).toNat

/-- The memory that holds a physical address of the own device (R172). -/
def State.ownTier (s : State) (pa : BitVec 52) : Bool := devOf pa == s.devnum && isTier (offOf pa)

/-- A page-table entry, read at its physical address with no key (R175, R200). -/
def State.pte (s : State) (pa : BitVec 52) : Word := leBits 64 (s.tierRead none (offOf pa) 8)

/-- PPN as an address. -/
def ppn (e : Word) : BitVec 52 := (e.extractLsb' 12 40) ++ 0#12

/-- The HBM stack of a physical offset is usable (R61). -/
def State.stackOk (s : State) (off : Nat) : Bool := !isHbm off || s.trained.getLsbD (off / 0x1000000000)

/-- The checks of a leaf of a size that do not depend on the access (R177, R178), given whether its group agrees. -/
def State.leafCheck (s : State) (e : Word) (lvl : Nat) (group : Bool) : Option Nat :=
  let w := e.getLsbD 2; let r := e.getLsbD 1; let c := e.getLsbD 7
  if w && !r then some 7
  else if lvl = 3 && c then some 7
  else if lvl = 3 && e.extractLsb' 12 18 != 0#18 then some 7
  else if lvl = 2 && e.extractLsb' 12 9 != 0#9 then some 7
  else if c && !group then some 7
  else if e.extractLsb' 8 4 ≥ 10#4 || e.extractLsb' 52 2 == 3#2 then some 3
  else if devOf (ppn e) == s.devnum && !s.stackOk (offOf (ppn e)) then some 8
  else none

/-- The entries of the aligned 128-byte line of an entry agree as one large page in every field but PPN, reserved ones aside (R8, R178);
`page` is the size of one. -/
def State.groupOk (s : State) (pa : BitVec 52) (page : Nat) : Bool :=
  let base := (pa >>> 7) <<< 7
  let es := (List.range 16).map fun i => s.pte (base + BitVec.ofNat 52 (8 * i))
  let e0 := es.headD 0
  let strip := fun (e : Word) => e &&& 0x7FF0000000000FEF#64
  (es.zipIdx).all (fun (e, i) => e.getLsbD 7 && decide (strip e = strip e0) &&
    decide ((ppn e).toNat = (ppn e0).toNat + i * page)) && decide ((ppn e0).toNat % (16 * page) = 0)

/-- The end of a walk at a leaf. -/
def State.walkLeaf (s : State) (j : JobId) (va : BitVec 48) (e : Word) (at' : BitVec 52) (lvl : Nat) (lines : List Nat) : WalkRes :=
  let sz := if lvl = 3 then 30 else if lvl = 2 then 21 else 12
  let c := e.getLsbD 7 && lvl ≠ 3
  let group := c && s.groupOk at' (2 ^ sz)
  match s.leafCheck e lvl group with
  | some cls => .fault cls lines
  | none =>
    let size := if c then sz + 4 else sz
    let base := ((ppn e).toNat / 2 ^ size) * 2 ^ size
    .leaf { job := j, va := BitVec.ofNat 48 (va.toNat / 2 ^ size * 2 ^ size), size := size, pa := BitVec.ofNat 52 base, leaf := e, lines := lines }

/-- A walk from a table of some level downward; the levels above are done. -/
def State.walkFrom (s : State) (j : JobId) (va : BitVec 48) (fuel : Nat) (table : BitVec 52) (lines : List Nat) : WalkRes :=
  match fuel with
  | 0 => .fault 7 lines
  | lvl' + 1 =>
    let lvl := lvl' + 1
    if !s.ownTier table then .fault 7 lines else
    let idx := (va.toNat / 2 ^ (12 + 9 * (lvl - 1))) % 512
    let pa := table + BitVec.ofNat 52 (8 * idx)
    let e := s.pte pa
    let lines' := lines ++ [offOf pa / 128]
    if !e.getLsbD 0 then .fault 6 lines'
    else if lvl = 1 then s.walkLeaf j va e pa 1 lines'
    else if e.getLsbD 6 then (if lvl = 4 then .fault 7 lines' else s.walkLeaf j va e pa lvl lines')
    else s.walkFrom j va lvl' (ppn e) lines'

/-- The page walk of a virtual address of a job (R175 to R178). -/
def State.walk (s : State) (j : JobId) (va : BitVec 48) : WalkRes := s.walkFrom j va 4 (s.job j).ptroot []

/-- Whether an entry translates an address of a job. -/
def TlbEntry.hits (e : TlbEntry) (j : JobId) (va : BitVec 48) : Bool :=
  e.job == j && decide (va.toNat / 2 ^ e.size = e.va.toNat / 2 ^ e.size)

def TlbEntry.phys (e : TlbEntry) (va : BitVec 48) : BitVec 52 := e.pa + BitVec.ofNat 52 (va.toNat % 2 ^ e.size)

/-- A TLB with an entry installed in front; the list is kept to its size, the least recently installed entry goes (DESIGN CHOICE, log 11). -/
def tlbInstall (t : List TlbEntry) (n : Nat) (e : TlbEntry) : List TlbEntry :=
  (e :: t.filter fun x => !(x.job == e.job && x.va == e.va && x.size == e.size)).take n

/-- The set of a second-level entry (DESIGN CHOICE, log 11): page number mod 512. -/
def tlbSet (e : TlbEntry) : Nat := e.va.toNat / 2 ^ e.size % 512

/-- The second-level TLB of a cluster with an entry: eight ways a set, 512 sets. -/
def l2Install (t : List TlbEntry) (e : TlbEntry) : List TlbEntry :=
  let others := t.filter fun x => tlbSet x != tlbSet e
  let mine := t.filter fun x => tlbSet x == tlbSet e && !(x.job == e.job && x.va == e.va && x.size == e.size)
  (e :: mine.take 7) ++ others

/-- The lines that a walk read are accessed at their home slices, with no leaf, and marked with the walker's cluster (R180). -/
def State.markLines (s : State) (cl : ClusterId) (lines : List Nat) : State :=
  lines.foldl (fun s ln => (s.visit none (128 * ln) 16).updLine ln fun x =>
    { x with map := if x.map.contains cl.toNat then x.map else x.map ++ [cl.toNat] }) s

/-- What a TLB lookup and, behind it, a walk give an access. -/
inductive TrRes where
  | ok (pa : BitVec 52) (leaf : Word)
  | fault (cls : Nat)
  | miss
deriving DecidableEq, Repr

/-- A lookup in a core TLB alone: an entry that grants the access (a missing permission is never held, R177). -/
def lookup (t : List TlbEntry) (j : JobId) (va : BitVec 48) (need : Need) : TrRes :=
  match t.find? (fun e => e.hits j va) with
  | some e => if need.ok e.leaf then .ok (e.phys va) e.leaf else .miss
  | none => .miss

/-- Translation with its walk: the second-level TLB of the core's cluster, else the page tables; the entry is installed at both
levels (R174), faults are not. Every line that the walker has read keeps its cluster (R180), also where the walk ends in a fault. -/
def State.fill (s : State) (c : CoreId) (code : Bool) (j : JobId) (va : BitVec 48) (need : Need) : TrRes × State :=
  let cl := clusterOf c
  let inst := fun (s : State) (e : TlbEntry) =>
    let s := s.updCluster cl fun v => { v with l2 := l2Install v.l2 { e with cores := (c.toNat % 64) :: (e.cores.filter (· ≠ c.toNat % 64)) } }
    s.updCore c fun v => if code then { v with itlb := tlbInstall v.itlb 32 e } else { v with dtlb := tlbInstall v.dtlb 64 e }
  match (s.cluster cl).l2.find? (fun e => e.hits j va && need.ok e.leaf) with
  | some e => (.ok (e.phys va) e.leaf, inst s e)
  | none =>
    match s.walk j va with
    | .fault cls lines => (.fault cls, s.markLines cl lines)
    | .leaf e =>
      if need.ok e.leaf then (.ok (e.phys va) e.leaf, inst (s.markLines cl e.lines) e)
      else (.fault 9, s.markLines cl e.lines)

/-- A translation of one address of a multi-address instruction or of a fetch: the core TLB, else the walk in the same step
(DESIGN CHOICE, log 10). -/
def State.translateNow (s : State) (c : CoreId) (code : Bool) (j : JobId) (va : BitVec 48) (need : Need) : TrRes × State :=
  match lookup (if code then (s.core c).itlb else (s.core c).dtlb) j va need with
  | .ok pa leaf => (.ok pa leaf, s)
  | _ => s.fill c code j va need

/-- Where an access is performed (R170, R172, R203). -/
inductive Target where
  /-- A core's local memory: core and offset; by its fixed window, or through a translation. -/
  | loc (c : CoreId) (off : Nat)
  | own (pa : BitVec 52)
  | host (pa : BitVec 52)
  | peer (pa : BitVec 52)
deriving DecidableEq, Repr

/-- The fixed windows (R170): the core and offset that an address names. -/
def windowOf (c : CoreId) (va : BitVec 48) : Option (CoreId × Nat) :=
  if 0x7FFFFFF00000#48 ≤ va && va < 0x800000000000#48 then some (c, va.toNat % 0x100000)
  else if 0x7FFE00000000#48 ≤ va && va < 0x7FFF00000000#48 then
    some (BitVec.ofNat 12 ((va.toNat - 0x7FFE00000000) / 0x100000), va.toNat % 0x100000)
  else none

/-- The place of a translated address, or the class of its fault (R172, R320). -/
def State.place (s : State) (pa : BitVec 52) : Target ⊕ Nat :=
  if devOf pa != s.devnum then
    (if Tab.get 0#16 s.routes (devOf pa).toNat = 0#16 then .inr 6 else .inl (.peer pa))
  else if isTier (offOf pa) then (if s.stackOk (offOf pa) then .inl (.own pa) else .inr 8)
  else if isHost (offOf pa) then .inl (.host pa)
  else if isLocal (offOf pa) then
    .inl (.loc (BitVec.ofNat 12 ((offOf pa - 0x300000000000) / 0x100000)) (offOf pa % 0x100000))
  else .inr 6

/-- Whether an access to a tier address is non-coherent: by its leaf or by a window of the job (R188). -/
def State.nonCoherent (s : State) (j : JobId) (va : BitVec 48) (leaf : Word) : Bool :=
  leaf.getLsbD 62 || (s.job j).windows.any fun (w0, w1) =>
    w0.getLsbD 63 && decide (w0.extractLsb' 16 32 ≤ va.extractLsb' 16 32) && decide (va.extractLsb' 16 32 ≤ w1.extractLsb' 16 32)

/-- The key of an access of a job through a leaf (R200). -/
def State.keyOf (s : State) (j : JobId) (pln : Bool) : Option Key := if pln then none else (s.job j).key
/-- The tag of that key in a slice: its job, or 16 for none (R199). -/
def State.keyTag (s : State) (j : JobId) (pln : Bool) : Nat := if (s.keyOf j pln).isSome then j.toNat else 16

end Sys2Proof.Machine
end

