-- ==== Sys2Proof/Machine/Fetch.lean ====
section
/-! DEFINITION. Fetching: where parcels come from, the fetch buffer and the instruction cache (spec/06_encoding.md R96 to R100;
notes/assumptions 11, 12). -/

namespace Sys2Proof.Machine

/-- The poisoned words of a 16-byte group at a physical address. -/
def State.groupPoison (s : State) (pa : Nat) : BitVec 2 :=
  if s.poisons = [] then 0 else
  (if s.poisons.contains (pa / 8) then 1#2 else 0#2) ||| (if s.poisons.contains (pa / 8 + 1) then 2#2 else 0#2)

/-- A group read from a core's local memory (R96): an unbacked offset or a slot of another job raises the instruction-fetch fault. -/
def State.fetchLocal (s : State) (c : CoreId) (j : JobId) (va : BitVec 48) (off : Nat) : Group :=
  match s.localCheck c j off 16 with
  | some _ => { va := va, fault := some { cls := 5, addr := va.setWidth 64 } }
  | none =>
    { va := va, bytes := leBits 128 (s.localRead c off 16), poison := s.groupPoison (localBase c + off) }

/-- The instruction cache with a line in front of its set of four (DESIGN CHOICE, log 11). -/
def icInstall (t : List ILine) (l : ILine) : List ILine :=
  let same := fun (x : ILine) => x.line % 32 == l.line % 32
  let mine := t.filter fun x => same x && !(x.line == l.line && x.key == l.key)
  (l :: mine.take 3) ++ t.filter fun x => !same x

/-- A group read through the instruction cache of a core (R96); a line that is filled is an access at its home by the job through the
leaf's hint group (R196). -/
def State.fetchCached (s : State) (c : CoreId) (by' : JobId × BitVec 8) (pln : Bool) (va : BitVec 48) (pa : Nat) : Group × State :=
  let ln := pa / 128
  let key := s.keyOf by'.1 pln
  let take := fun (l : ILine) =>
    ({ va := va, bytes := l.data.extractLsb' (8 * (pa % 128)) 128, poison := l.poison.extractLsb' (pa % 128 / 8) 2 } : Group)
  match (s.core c).icache.find? (fun l => l.line == ln && l.key == key) with
  | some l => (take l, s.updCore c fun v => { v with icache := icInstall v.icache l })
  | none =>
    let l : ILine := { line := ln, key := key, data := s.readLine key ln,
                       poison := if s.lostAt pa then BitVec.allOnes 16 else BitVec.ofNat 16 ((List.range 16).foldl (fun a k => if s.poisons.contains (16 * ln + k) then a + 2 ^ k else a) 0) }
    (take l, (s.visit (some by') pa (s.keyTag by'.1 pln)).updCore c fun v => { v with icache := icInstall v.icache l })

/-- The 16-byte group at an aligned address (R96). A fault is recorded in the group and raised only at issue (R98). -/
def State.fetchGroup (s : State) (c : CoreId) (j : JobId) (va : BitVec 48) : Group × State :=
  let bad := fun (cls : Nat) => ({ va := va, fault := some { cls := cls, addr := va.setWidth 64 } } : Group)
  match windowOf c va with
  | some (c', off) => (s.fetchLocal c' j va off, s)
  | none =>
    match s.translateNow c true j va .x with
    | (.miss, s') => (bad 6, s')
    | (.fault cls, s') => (bad (if cls = 9 then 5 else cls), s')
    | (.ok pa leaf, s') =>
      if devOf pa != s'.devnum then (bad 5, s') else
      match s'.place pa with
      | .inr cls => (bad cls, s')
      | .inl (.loc c' off) => (s'.fetchLocal c' j va off, s')
      | .inl (.own pa) => s'.fetchCached c (j, leaf.extractLsb' 54 8) (leaf.getLsbD 5) va (offOf pa)
      | .inl _ => (bad 5, s')

/-- The group holds neither a fault nor poison. -/
def Group.sound (g : Group) : Bool := g.fault.isNone && g.poison == 0

/-- The group that contains an address. -/
def groupVa (va : BitVec 48) : BitVec 48 := (va >>> 4) <<< 4

/-- What the fetch buffer holds at an address: nothing, a fault, or a parcel. -/
inductive Parcel where
  | absent
  | fault (f : Fault')
  | word (p : BitVec 16)
deriving DecidableEq, Repr

/-- A group holds the parcel at an address. -/
def Group.holds (g : Group) (va : BitVec 48) : Bool :=
  g.va == groupVa va && decide (g.lo ≤ va.toNat % 16) && decide (va.toNat % 16 < g.hi)

/-- The parcel at an address, as it was fetched (R97, R98). -/
def Strand.rawParcel (t : Strand) (va : BitVec 48) : Parcel :=
  match t.buf.find? (fun g => g.holds va) with
  | none => .absent
  | some g =>
    match g.fault with
    | some f => .fault { f with addr := va.setWidth 64 }
    | none => .word (g.bytes.extractLsb' (8 * (va.toNat % 16)) 16)

/-- Whether the parcel held at an address is poisoned. -/
def Strand.badParcel (t : Strand) (va : BitVec 48) : Bool :=
  match t.buf.find? (fun g => g.holds va) with
  | none => false
  | some g => g.poison.getLsbD (va.toNat % 16 / 8)

/-- The parcel at an address for an instruction that would issue: a poisoned one raises the data-error fault at issue (R388). -/
def Strand.parcel (t : Strand) (va : BitVec 48) : Parcel :=
  match t.rawParcel va with
  | .word p => if t.badParcel va then .fault { cls := 13, addr := va.setWidth 64, info := 0x8000#16 } else .word p
  | r => r

/-- The next instruction of a strand in its buffer. -/
inductive Fetched where
  | absent
  | fault (f : Fault')
  /-- Parcels and length in bytes. -/
  | instr (p0 p1 : BitVec 16) (len : Nat)
deriving DecidableEq, Repr

/-- The instruction at the pc, whole (R97, R98, R100). -/
def Strand.fetched (t : Strand) : Fetched :=
  match t.parcel t.pc with
  | .absent => .absent
  | .fault f => .fault f
  | .word p0 =>
    if bitAt p0 0 then
      match t.parcel (t.pc + 2) with
      | .absent => .absent
      | .fault f => .fault f
      | .word p1 => .instr p0 p1 4
    else .instr p0 0 2

/-- The first parcel alone, for the length of a skipped instruction (R381): poison raises its fault at issue only (R388; DEDUCED, log 20). -/
def Strand.firstLen (t : Strand) : Option Nat :=
  match t.rawParcel t.pc with
  | .word p0 => some (parcelLen p0)
  | _ => none

/-- The instruction word for a fault packet: a 16-bit instruction in bits 15:0, 0 when unreadable (R374). -/
def Strand.insn (t : Strand) : BitVec 32 :=
  match t.fetched with
  | .instr p0 p1 _ => p1 ++ p0
  | _ => 0

/-- The strand's buffer lacks the second parcel of its next instruction. -/
def Strand.lacks (t : Strand) : Bool :=
  match t.rawParcel t.pc with
  | .word p0 => bitAt p0 0 && t.rawParcel (t.pc + 2) == .absent
  | _ => false

/-- The strand's buffer lacks a group of its next instruction. -/
def Strand.needsFill (t : Strand) : Bool := t.rawParcel t.pc == .absent || t.lacks

/-- A fill of a strand's buffer (R97): the group of the pc, and where the instruction there straddles two groups, both, read in
the same step: of the eight parcels that the buffer holds then, one lies in the first group and seven in the second. -/
def State.fillBuffer (s : State) (c : CoreId) (k : StrandId) : State :=
  let t := s.strand c k
  let (g0, s1) := s.fetchGroup c t.job (groupVa t.pc)
  let t1 := { t with buf := [g0] }
  let straddles := t.pc.toNat % 16 = 14 && t1.lacks
  if straddles then
    let (g1, s2) := s1.fetchGroup c t.job (groupVa (t.pc + 2))
    s2.updStrand c k fun t => { t with buf := [{ g0 with lo := 14 }, { g1 with hi := 14 }], filling := false }
  else s1.updStrand c k fun t => { t with buf := [g0], filling := false }

/-- A strand that lacks its next instruction asks for it: two cycles from local memory, three through the cache (R97). -/
def State.wantFetch (s : State) (c : CoreId) (k : StrandId) : State :=
  let t := s.strand c k
  if t.filling || !t.needsFill then s
  else (s.updStrand c k fun t => { t with filling := true }).push 4 .fetchFill { c := c, k := k }

end Sys2Proof.Machine
end

