-- ==== Sys2Proof/Machine/Ops.lean ====
section
/-! DEFINITION. The shared operations of instructions: the checks at issue and the full-empty rules (spec/06_encoding.md R119,
spec/07_issue.md R128 to R133), completion, taking a fault, resuming and skipping (spec/20_faults.md R371 to R376, R381). -/

namespace Sys2Proof.Machine

/-- The identity of the task on a strand. -/
def Strand.ident (t : Strand) : Ident := match t.task with | some e => e.t.ident | none => ⟨0, 0, 0⟩

/-! ## Fault classes (R371) -/

def clsIllegalInsn : Nat := 1
def clsIllegalReg : Nat := 2
def clsIllegalFormat : Nat := 3
def clsEmptyReg : Nat := 4
def clsFetch : Nat := 5
def clsTranslation : Nat := 6
def clsPermission : Nat := 9
def clsAlign : Nat := 10
def clsOperand : Nat := 11
def clsUnsupported : Nat := 12
def clsData : Nat := 13
def clsVerConflict : Nat := 14
def clsVerDead : Nat := 15
def clsBarOverrun : Nat := 16
def clsCausality : Nat := 17
def clsIrrevocable : Nat := 18
def clsPrivileged : Nat := 19
def clsTrap : Nat := 20
def clsBreak : Nat := 21

/-- A fault of a class with no address. -/
def mkFault (cls : Nat) : Fault' := { cls := cls }
/-- A fault of a class at a virtual address. -/
def faultAt (cls : Nat) (va : BitVec 48) : Fault' := { cls := cls, addr := va.setWidth 64 }

/-! ## Counting faults (R376) -/

/-- The counts of a level with one more fault. -/
def Counts.fault (x : Counts) (cls : Nat) (first : Word) : Counts :=
  { x with nfault := min (x.nfault + 1) 0xFFFFFFFF, errsum := x.errsum ||| (1#64 <<< cls), first := if x.first = 0 then first else x.first }

/-- FIRST of a fault (R77). -/
def firstWord (c : CoreId) (k : StrandId) (pc : BitVec 48) : Word := c ++ k ++ pc

/-- A phase contains a virtual time (R31). -/
def Phase.has (p : Phase) (vt : Word) : Bool := decide (p.start ≤ vt) && decide (vt < p.stop)

/-- One more fault counted without a class: a discarded side-log entry (R383). -/
def Counts.discard (x : Counts) : Counts := { x with nfault := min (x.nfault + 1) 0xFFFFFFFF }

def State.countDiscard (s : State) (j : JobId) (l : Lslot) (vt : Word) : State :=
  let g := (s.launch j l).graph
  (s.updLaunch j l fun x => { x with c := x.c.discard }).updJob j fun v =>
    { v with graphs := match g with | some g => Tab.upd {} v.graphs g.toNat fun x => { x with c := x.c.discard } | none => v.graphs
             phases := v.phases.map fun p => if p.has vt then { p with c := p.c.discard } else p
             c := v.c.discard }

/-- One more fault in the records of a task's launch, graph, phase and job. -/
def State.countFault (s : State) (j : JobId) (l : Lslot) (vt : Word) (cls : Nat) (first : Word) : State :=
  let g := (s.launch j l).graph
  s.updJob j fun v =>
    { v with
      launches := if Tab.has v.launches l.toNat then Tab.put v.launches l.toNat { v.launch l with c := (v.launch l).c.fault cls first } else v.launches
      graphs := match g with
        | some g => Tab.upd {} v.graphs g.toNat fun x => { x with c := x.c.fault cls first }
        | none => v.graphs
      phases := v.phases.map fun p => if p.has vt then { p with c := p.c.fault cls first } else p
      c := v.c.fault cls first }

/-! ## Packets (R374, R375) -/

/-- A packet queued at its core, which sends the packets of a cycle in the next one. -/
def State.sendPacket (s : State) (p : Packet) : State :=
  (s.updCore p.core fun v => { v with pktq := v.pktq ++ [p] }).push 2 .packetDelivery { c := p.core }

/-- Whether the trap policy of a job kills on a class (R373). -/
def State.autokill (s : State) (j : JobId) (cls : Nat) : Bool := decide (1 ≤ cls) && decide (cls ≤ 21) && (s.job j).policy.getLsbD cls

/-- The packet of a fault of a strand. -/
def State.packet (s : State) (c : CoreId) (k : StrandId) (f : Fault') : Packet :=
  let t := s.strand c k
  { cyc := s.cycle, core := c, strand := k, job := t.job, cls := f.cls, autok := s.autokill t.job f.cls, insn := t.insn, lslot := t.lslot, pc := t.pc,
    addr := f.addr, pix := if f.pix0 then 0 else t.pix, vt := t.vt, info := f.info, aux := f.aux, tstamp := s.tstamp }

/-- TAKING A FAULT (R372 to R376): the strand freezes with its pc at the faulting instruction, a packet goes to its supervisor, the
fault counts in the records, and a class that the trap policy names kills the task at once. The fetch buffer keeps its groups (R126) but those that
hold a fault or poison, so that a resume fetches and translates these anew (R61). -/
def State.raise (s : State) (c : CoreId) (k : StrandId) (f : Fault') : State :=
  let p := { s.packet c k f with frozen := true }
  let t := s.strand c k
  let s := s.updStrand c k fun t => { t with st := .frozen, park := .none, held := .none, walked := none, froze := some p, buf := t.buf.filter Group.sound }
  let s := s.countFault t.job t.lslot t.vt f.cls (firstWord c k p.pc)
  let s := s.sendPacket p
  if p.autok then s.soon .kill { c := c, k := k, t := t.ident, ok := true } else s

/-! ## Outcomes of an instruction's body -/

/-- What the body of an instruction does once the checks at issue have passed. -/
inductive Res where
  /-- It completes; the pc moves past it. -/
  | done (s : State)
  /-- It completes and the strand continues at an address (R148, R149). -/
  | jump (s : State) (pc : BitVec 48)
  /-- It parks with no state changed (R126, R131). -/
  | park (p : Park)
  /-- It loses its slot and is examined again (R128). -/
  | forfeit
  /-- It faults with no state changed (R372). -/
  | fault (f : Fault')
  /-- It faults with the given state. -/
  | faultIn (f : Fault') (s : State)
  /-- It is not issued; the strand is held (R206). -/
  | hold (h : Held) (s : State)
  /-- It has issued, and the state says how the strand goes on. -/
  | issued (s : State)
  /-- It has issued and parks on its reply; the pc moves past it when the reply is written (R206, R217, R225). -/
  | waits (p : Park) (s : State)
deriving DecidableEq, Repr

/-- A source register and its W bit. -/
abbrev Src := RegRef × Bool

/-- Source x register with its W bit. -/
def sx (r : XReg) (w : Bool) : Src := (.x r, w)
/-- Source register without a W bit. -/
def s0 (r : RegRef) : Src := (r, false)

/-- Registers that an instruction names for check 3, its sources, and its destinations (R119, R131). -/
structure Uses where
  names : List XReg := []
  srcs : List Src := []
  dsts : List XReg := []
  /-- Destinations that are pointer, mask or index registers. -/
  dregs : List RegRef := []
  /-- Accumulators that must be full: sources and destinations (R131, R283). -/
  accs : List (BitVec 2) := []
deriving DecidableEq, Repr

/-- Check 3 of R119: xk with NREG < k ≤ 62 is illegal (R23). -/
def Uses.legal (u : Uses) (nreg : Nat) : Bool := u.names.all fun r => r == 63#6 || decide (r.toNat ≤ nreg)

/-- Check 5 of R119: an empty source with W = 1. -/
def Uses.emptyFault (u : Uses) (t : Strand) : Bool := u.srcs.any fun (r, w) => w && !t.full r

/-- An own producer of the strand has a result for an x register outstanding (R130, R205). -/
def State.producing (s : State) (c : CoreId) (k : StrandId) (r : XReg) : Bool :=
  let t := s.strand c k
  t.pend.any (fun p => p.r == .x r) || ((s.core c).reqs.any fun q => q.strand == k && q.dest == .x r) ||
    (match t.park with | .barArw _ _ d => d == r | _ => false)

/-- A destination may be written: a register of the strand is full; for nf the successor's slot is empty, and the strand has no result for it
outstanding (R131, R133). -/
def State.dstOk (s : State) (c : CoreId) (k : StrandId) (r : XReg) : Bool :=
  if r = 63#6 then !(s.strand c (k + 1)).full (.x 63#6) && !s.producing c k r else (s.strand c k).full (.x r)

/-- An accumulator of a core (R283). -/
def Core.accAt (v : Core) (a : BitVec 2) : Acc := Tab.get {} v.acc a.toNat

/-- What an instruction parks on under R131, if anything. -/
def State.parks (s : State) (c : CoreId) (k : StrandId) (u : Uses) : Option Park :=
  let t := s.strand c k
  match u.srcs.find? (fun x => !t.full x.1) with
  | some (r, _) => some (.reg r)
  | none =>
    match u.dsts.find? (fun r => !s.dstOk c k r) with
    | some r => some (if r = 63#6 then .succ else .reg (.x r))
    | none =>
      match u.dregs.find? (fun r => !t.full r) with
      | some r => some (.reg r)
      | none => (u.accs.find? (fun a => !((s.core c).accAt a).full)).map .acc

/-- A source whose pool entry holds an uncorrectable error (R388). -/
def Uses.badSource (u : Uses) (t : Strand) : Option XReg :=
  if t.badX = [] then none else
  (u.srcs.filterMap fun (r, _) => match r with | .x r => if t.badX.contains r.toNat then some r else none | _ => none).head?

/-- Reading nf empties the strand's own slot (R133). -/
def Uses.readsNf (u : Uses) : Bool := u.srcs.any fun (r, _) => r == RegRef.x 63#6

/-- The strand parks; a park clears under STRAND_WAKE (R126). -/
def State.parkStrand (s : State) (c : CoreId) (k : StrandId) (p : Park) : State :=
  s.updStrand c k fun t => { t with st := .parked, park := p }

/-- The strand issued in this cycle, and reading nf emptied its slot. -/
def State.markIssued (s : State) (c : CoreId) (k : StrandId) (u : Uses) : State :=
  s.updStrand c k fun t =>
    let t := { t with last := s.cycle, issued := true, marked := [], walked := none, wants := 0 }
    if u.readsNf then t.setF (.x 63#6) false else t

/-- The pc of a strand moved past an instruction; the fetch buffer keeps its groups (R97). -/
def Strand.advance (t : Strand) (len : Nat) : Strand := { t with pc := t.pc + BitVec.ofNat 48 len }

/-- A taken branch empties the fetch buffer (R97). -/
def Strand.goto (t : Strand) (pc : BitVec 48) : Strand := { t with pc := pc, buf := [] }

/-- The end of an instruction that completes. -/
def State.complete (s : State) (c : CoreId) (k : StrandId) (u : Uses) (len : Nat) : State :=
  (s.markIssued c k u).updStrand c k fun t => t.advance len

/-- The end of an instruction that continues elsewhere. -/
def State.completeJump (s : State) (c : CoreId) (k : StrandId) (u : Uses) (pc : BitVec 48) : State :=
  (s.markIssued c k u).updStrand c k fun t => t.goto pc

/-- The state that the result of a body leads to. -/
def State.settle (s : State) (c : CoreId) (k : StrandId) (u : Uses) (len : Nat) (r : Res) : State :=
  match r with
  | .done s' => s'.complete c k u len
  | .jump s' pc => s'.completeJump c k u pc
  | .park p => s.parkStrand c k p
  | .forfeit => s
  | .fault f => s.raise c k f
  | .faultIn f s' => s'.raise c k f
  | .hold h s' => s'.updStrand c k fun t => { t with held := h }
  | .issued s' => s'.markIssued c k u
  | .waits p s' =>
    s'.updStrand c k fun t => { t with st := .parked, park := p, last := s.cycle, issued := true, waitNf := u.readsNf, walked := none }

/-- The body of an instruction: what it does for a strand. -/
abbrev Body' := CoreId → StrandId → State → Res

/-- The checks of R119 from check 3 on, the full-empty rules of R131, then the body. `pre` is check 4. -/
def State.issueAt (s : State) (c : CoreId) (k : StrandId) (len : Nat) (u : Uses) (pre : CoreId → StrandId → State → Option Res)
    (body : Body') : State :=
  let t := s.strand c k
  if !u.legal (s.launchOf t).nreg then s.raise c k (mkFault clsIllegalReg)
  else match pre c k s with
  | some r => s.settle c k u len r
  | none =>
    if u.emptyFault t then s.raise c k (mkFault clsEmptyReg)
    else match s.parks c k u with
    | some p => s.parkStrand c k p
    | none =>
      match u.badSource t with
      | some r => s.raise c k { cls := clsData, info := r.setWidth 16 }
      | none => s.settle c k u len (body c k s)

/-- An instruction of a length with its registers, its check 4 and its body, executed by the strand that holds the slot (R127). -/
def issuePre (len : Nat) (u : Uses) (pre : CoreId → StrandId → State → Option Res) (body : Body') (s : State) :
    Host.Outcome State Fault Refusal :=
  match s.offer with
  | none => .fault .noOffer
  | some (c, k) => .next (s.took.issueAt c k len u pre body)

/-- An instruction without operands in memory for check 4. -/
def issue (len : Nat) (u : Uses) (body : Body') (s : State) : Host.Outcome State Fault Refusal :=
  issuePre len u (fun _ _ _ => none) body s

/-- A body that an optimistic task may not run (R141): the irrevocable-in-optimistic fault, else the body. -/
def irrevocable (body : Body') : Body' := fun c k s =>
  if (s.strand c k).opt then .fault (mkFault clsIrrevocable) else body c k s

/-! ## Instructions that compute a register from registers -/

/-- x[RD] := f(x[RS1], x[RS2]). -/
def opRR (w u : Bool) (b a d : XReg) (f : Word → Word → Word) (s : State) : Host.Outcome State Fault Refusal :=
  issue 4 { names := [a, b, d], srcs := [sx a u, sx b w], dsts := [d] }
    (fun c k s => .done (s.writeX c k d (f ((s.strand c k).rx a) ((s.strand c k).rx b)))) s

/-- x[RD] := f(x[RS1]). -/
def opR (u : Bool) (a d : XReg) (f : Word → Word) (s : State) : Host.Outcome State Fault Refusal :=
  issue 4 { names := [a, d], srcs := [sx a u], dsts := [d] }
    (fun c k s => .done (s.writeX c k d (f ((s.strand c k).rx a)))) s

/-! ## Producers within the core (R140) -/

/-- The number of a register in PRODUCER_RESULT_WRITE: x registers as they are, mask registers from 64. -/
def regNum (r : RegRef) : Nat := match r with | .x r => r.toNat | .m r => 64 + r.toNat | .a r => 80 + r.toNat | .i r => 96 + r.toNat

/-- A producer of an x register whose result is known at issue and written some core cycles later: the destination is marked empty,
the result waits at the strand. It arrives late in its cycle: an instruction offered in that cycle still finds the register empty (R131). -/
def State.produce (s : State) (c : CoreId) (k : StrandId) (d : XReg) (v : Word) (fl : BitVec 5) (cycles : Nat) : State :=
  ((s.emptyX c k d).updStrand c k fun t => { t with pend := t.pend ++ [{ r := .x d, v := v, flags := fl }] }).push (2 * cycles + 1)
    .producerResultWrite { c := c, k := k, n := d.toNat }

/-- A producer of a mask register. -/
def State.produceM (s : State) (c : CoreId) (k : StrandId) (m : BitVec 3) (v : BitVec 128) (cycles : Nat) : State :=
  (s.updStrand c k fun t => { t.setF (.m m) false with pend := t.pend ++ [{ r := .m m, v2 := v }] }).push (2 * cycles + 1)
    .producerResultWrite { c := c, k := k, n := 64 + m.toNat }

/-- A fill applied to a register (R132): of two fills of one cycle the later in the order of their sources stands. -/
def Strand.applyFill (t : Strand) (r : XReg) (v : Word) (at' : Nat) : Strand :=
  let last := Tab.get 0 t.filled r.toNat
  let t := if at' < last && last / 0x10000 == at' / 0x10000 then t else { (t.putX r v) with filled := Tab.put t.filled r.toNat at' }
  t.setF (.x r) true

/-- The waiting fills with one more, in the order in which they apply. -/
def fillInsert (l : List (XReg × Word × Nat)) (e : XReg × Word × Nat) : List (XReg × Word × Nat) :=
  match l with
  | [] => [e]
  | x :: r => if x.2.2 ≤ e.2.2 then x :: fillInsert r e else e :: x :: r

/-- A fill of a register by another agent (R132): it waits behind the strand's own outstanding producer of that register, and
otherwise writes the value and sets F full. `src` names the core and strand it comes from. -/
def State.fillX (s : State) (c : CoreId) (k : StrandId) (r : XReg) (v : Word) (src : BitVec 16) : State :=
  let at' := s.cycle * 0x10000 + src.toNat
  if (s.strand c k).full (.x r) || !s.producing c k r then s.updStrand c k fun t => t.applyFill r v at'
  else s.updStrand c k fun t => { t with fills := fillInsert t.fills (r, v, at') }

/-- The fills of a register that waited behind a producer applied, the last of their order standing (R132). -/
def Strand.applyFills (t : Strand) (r : XReg) : Strand :=
  let t' := (t.fills.filter fun f => f.1 == r).foldl (fun t f => t.putX r f.2.1) t
  { t' with fills := t.fills.filter fun f => f.1 != r }

/-- A result of a strand's own producer written to its x destination, and after it the fills that waited (R132). -/
def State.resultX (s : State) (c : CoreId) (k : StrandId) (r : XReg) (v : Word) : State :=
  if r = 0 then s else s.updStrand c (destStrand k r) fun t => ((t.putX r v).setF (.x r) true).applyFills r

/-- PRODUCER_RESULT_WRITE (R140): the oldest pending result of the register is written, its flags with it. -/
def State.writePending (s : State) (c : CoreId) (k : StrandId) (n : Nat) : State :=
  match (s.strand c k).pend.find? (fun p => regNum p.r == n) with
  | none => s
  | some p =>
    let s := s.updStrand c k fun t => { t with pend := t.pend.eraseP fun q => regNum q.r == n, flags := t.flags ||| p.flags }
    match p.r with
    | .x r => s.resultX c k r p.v
    | .m r => s.updStrand c k fun t => (t.putM r p.v2).setF (.m r) true
    | .a _ => s
    | .i _ => s

/-! ## Resuming a frozen strand (R381) -/

/-- The registers that the faulting instruction marked empty set full, with their contents unchanged, and the fills that waited behind them
applied (R132). The successor's slot for nf was empty before the instruction and stays so (R133). -/
def State.fillMarked (s : State) (c : CoreId) (k : StrandId) : State :=
  let ms := (s.strand c k).marked
  (ms.foldl (fun s r => match r with
      | .x x => if x = 63#6 then s else s.updStrand c k fun t => (t.setF r true).applyFills x
      | _ => s.updStrand c k fun t => t.setF r true) s).updStrand c k
    fun t => { t with marked := [] }

/-- A park of an instruction that has issued and completes when it ends (R206, R231). -/
def Park.issued (p : Park) : Bool := match p with | .reply _ _ => true | .barArw _ _ _ => true | _ => false

/-- The strand becomes ready at its pc, or waits on for an instruction that had issued. -/
def State.thaw (s : State) (c : CoreId) (k : StrandId) : State :=
  s.updStrand c k fun t =>
    { t with st := if t.park.issued then .parked else .ready, froze := none, marked := [], park := if t.park.issued then t.park else .none }

/-- Resume: the registers marked empty are full again, and the strand becomes ready at its pc. -/
def State.resumeStrand (s : State) (c : CoreId) (k : StrandId) : State := (s.fillMarked c k).thaw c k

/-- Resume with skip: PIX := 0 and the pc moves past the instruction at the pc, whose first parcel is fetched now; if that fetch
faults the command acts as resume. -/
def State.skipStrand (s : State) (c : CoreId) (k : StrandId) : State :=
  let s := s.updStrand c k fun t => { t with buf := [] }
  let s := s.fillBuffer c k
  match (s.strand c k).firstLen with
  | none => s.resumeStrand c k
  | some n => (s.resumeStrand c k).updStrand c k fun t => { (t.goto (t.pc + BitVec.ofNat 48 n)) with pix := 0 }

end Sys2Proof.Machine
end

