-- ==== Sys2Proof/Machine/Operands.lean ====
section
/-! DEFINITION. Operand forms: how immediates decode and how addresses are formed (spec/06_encoding.md R101, R103, R105). -/

namespace Sys2Proof.Machine

/-- A sign-extended immediate (R105). -/
def simm {n : Nat} (v : BitVec n) : Word := v.signExtend 64

/-- Branch targets count parcels from the address of the instruction itself (R105). -/
def branchTarget {n : Nat} (pc : BitVec 48) (off : BitVec n) : BitVec 48 := pc + (off.signExtend 48) <<< 1

/-- Bits 47:0 of a register as a virtual address. -/
def vaOf (w : Word) : BitVec 48 := w.extractLsb' 0 48

/-- The address of LD and ST: base and OFF9 scaled by the access size (R105, R209). -/
def memAddr (base : Word) (off : BitVec 9) (z : BitVec 2) : BitVec 48 := vaOf (base + (simm off) <<< z.toNat)

/-- A boolean as a register value. -/
def boolWord (b : Bool) : Word := if b then 1 else 0

end Sys2Proof.Machine
end

