-- ==== Sys2Proof/Machine/ScalarFp.lean ====
section
/-! DEFINITION. Scalar floating point (spec/08_isa_scalar.md R140, R151, R152; spec/02_formats.md R41 to R46). -/

namespace Sys2Proof.Machine

/-- RM.MODE of a strand (R41). -/
def Strand.mode (t : Strand) : Nat := (t.rm.extractLsb' 0 2).toNat
/-- RM.SAT of a strand (R41). -/
def Strand.sat (t : Strand) : Bool := t.rm.getLsbD 2

/-- A two-source operation that rounds in RM.MODE within the pipeline. -/
def opFF (w u : Bool) (b a d : XReg) (f : Nat → Fv → Fv → Ex) (s : State) : Host.Outcome State Fault Refusal :=
  issue 4 { names := [a, b, d], srcs := [sx a u, sx b w], dsts := [d] }
    (fun c k s =>
      let t := s.strand c k
      let r := toFp32 t.mode (f t.mode (fp32 (t.rx a)) (fp32 (t.rx b)))
      .done ((s.orFlags c k r.2).writeX c k d r.1)) s

/-- FADD (R151). -/
def execFadd (w u : Bool) (b a d : BitVec 6) (s : State) : Host.Outcome State Fault Refusal := opFF w u b a d exAdd s
/-- FSUB (R151). -/
def execFsub (w u : Bool) (b a d : BitVec 6) (s : State) : Host.Outcome State Fault Refusal :=
  opFF w u b a d (fun m x y => exAdd m x y.negate) s
/-- FMUL (R151). -/
def execFmul (w u : Bool) (b a d : BitVec 6) (s : State) : Host.Outcome State Fault Refusal := opFF w u b a d (fun _ x y => exMul x y) s

/-- FDIV (R151): written with its flags 16 cycles after issue (R140, R46). -/
def execFdiv (w u : Bool) (b a d : BitVec 6) (s : State) : Host.Outcome State Fault Refusal :=
  issue 4 { names := [a, b, d], srcs := [sx a u, sx b w], dsts := [d] }
    (fun c k s =>
      let t := s.strand c k
      let r := toFp32 t.mode (exDiv (fp32 (t.rx a)) (fp32 (t.rx b)))
      .done (s.produce c k d r.1 r.2 16)) s

/-- FSQRT (R151): written with its flags 16 cycles after issue (R140, R46). -/
def execFsqrt (u : Bool) (a d : BitVec 6) (s : State) : Host.Outcome State Fault Refusal :=
  issue 4 { names := [a, d], srcs := [sx a u], dsts := [d] }
    (fun c k s =>
      let t := s.strand c k
      let r := toFp32 t.mode (exSqrt (fp32 (t.rx a)))
      .done (s.produce c k d r.1 r.2 16)) s

/-- FMIN and FMAX. -/
def opMinMax (mx : Bool) (w u : Bool) (b a d : XReg) (s : State) : Host.Outcome State Fault Refusal :=
  issue 4 { names := [a, b, d], srcs := [sx a u, sx b w], dsts := [d] }
    (fun c k s =>
      let t := s.strand c k
      let r := fvMinMax mx 8 ((t.rx a).toNat % 2 ^ 32) ((t.rx b).toNat % 2 ^ 32)
      .done ((s.orFlags c k r.2).writeX c k d (BitVec.ofNat 64 r.1))) s

/-- FMIN (R151). -/
def execFmin (w u : Bool) (b a d : BitVec 6) (s : State) : Host.Outcome State Fault Refusal := opMinMax false w u b a d s
/-- FMAX (R151). -/
def execFmax (w u : Bool) (b a d : BitVec 6) (s : State) : Host.Outcome State Fault Refusal := opMinMax true w u b a d s

/-- FMA (R151): RD is the addend and the destination; it has no W bit. -/
def execFma (w u : Bool) (b a d : BitVec 6) (s : State) : Host.Outcome State Fault Refusal :=
  issue 4 { names := [a, b, d], srcs := [sx a u, sx b w, s0 (.x d)], dsts := [d] }
    (fun c k s =>
      let t := s.strand c k
      let r := toFp32 t.mode (exFma t.mode (fp32 (t.rx a)) (fp32 (t.rx b)) (fp32 (t.rx d)))
      .done ((s.orFlags c k r.2).writeX c k d r.1)) s

/-- FCVT.I.F (R151, R44): to a signed 64-bit integer. -/
def execFcvtIF (u : Bool) (a d : BitVec 6) (s : State) : Host.Outcome State Fault Refusal :=
  issue 4 { names := [a, d], srcs := [sx a u], dsts := [d] }
    (fun c k s =>
      let t := s.strand c k
      let r := roundInt (-9223372036854775808) 9223372036854775807 t.mode { v := fp32 (t.rx a) }
      .done ((s.orFlags c k r.2).writeX c k d (BitVec.ofInt 64 r.1))) s

/-- FCVT.F.I (R151): from a signed 64-bit integer. -/
def execFcvtFI (u : Bool) (a d : BitVec 6) (s : State) : Host.Outcome State Fault Refusal :=
  issue 4 { names := [a, d], srcs := [sx a u], dsts := [d] }
    (fun c k s =>
      let t := s.strand c k
      let r := toFp32 t.mode { v := ofInt (t.rx a).toInt }
      .done ((s.orFlags c k r.2).writeX c k d r.1)) s

/-- The class mask of FCLASS (R152). -/
def fclass (w : Word) : Word :=
  let b := w.toNat % 2 ^ 32
  let bit : Nat := match fp32 w with
    | .nan sig => if sig then 8 else 9
    | .inf n => if n then 0 else 7
    | .fin n m _ =>
      if m = 0 then (if n then 3 else 4)
      else if b / 2 ^ 23 % 256 = 0 then (if n then 2 else 5) else (if n then 1 else 6)
  BitVec.ofNat 64 (2 ^ bit)

/-- FCLASS (R152). -/
def execFclass (u : Bool) (a d : BitVec 6) (s : State) : Host.Outcome State Fault Refusal := opR u a d fclass s

end Sys2Proof.Machine
end

