-- ==== Sys2Proof/Machine/Control.lean ====
section
/-! DEFINITION. Control registers, traps and breakpoints (spec/06_encoding.md R117, R118, spec/08_isa_scalar.md R153 to R156). -/

namespace Sys2Proof.Machine

/-- The number of a leaf in the table of leaves (R358): cores, dispensers, decoders, the management core, Jenay ports. -/
def leafNum (x : Leaf) : Nat :=
  match x with
  | .core c => c.toNat
  | .dispenser cl => 4096 + cl.toNat
  | .decoder d => 4160 + d.toNat
  | .mgmt => 4192
  | .port p => 4193 + p.toNat

def Job.leaf (v : Job) (x : Leaf) : LeafSt := Tab.get v.idleLeaf v.leaves (leafNum x)

/-- A strand is to stop at its next boundary: for a kill (R373), a rollback (R350) or an eclipse cut (R393, R394). -/
def State.stopAsked (s : State) (c : CoreId) (k : StrandId) : Bool :=
  let t := s.strand c k
  t.killAt.isSome || t.rollAt.isSome || ((s.job t.job).leaf (.core c)).stopped

/-- CONG (R318). -/
def Cluster.cong (v : Cluster) : Word :=
  (v.routed.setWidth 64 <<< 24) ||| (v.defl.setWidth 64 <<< 8) ||| BitVec.ofNat 64 (v.level % 4)

/-- A control register of a strand as the strand reads it (R117). ANN reads 0 to the strand itself (R136). -/
def State.ctlRead (s : State) (c : CoreId) (k : StrandId) (n : BitVec 9) : Word :=
  let t := s.strand c k
  let j := s.job t.job
  let l := s.launchOf t
  match n.toNat with
  | 0x000 => t.vt
  | 0x001 => (j.leaf (.core c)).gvt
  | 0x002 => t.pix
  | 0x003 => t.vl
  | 0x004 => t.rm
  | 0x005 => (t.flags.setWidth 64) ||| (if t.opt then 0x100#64 else 0)
  | 0x006 => (s.devnum.setWidth 64 <<< 16) ||| (c.setWidth 64 <<< 4) ||| k.setWidth 64
  | 0x007 => t.scoff
  | 0x008 => 0x7FFE00000000#64
  | 0x009 => t.lease
  | 0x00A => (s.cluster (clusterOf c)).cong
  | 0x00B => l.window
  | 0x00C => j.jspill.setWidth 64 + BitVec.ofNat 64 (0x80000 * c.toNat)
  | 0x00D => if l.opt then BitVec.ofNat 64 (0x7FFFFFF00000 + 2048 * l.ringSlot) else 0
  | 0x00E => BitVec.ofNat 64 t.rslot
  | 0x00F => (s.core c).xdrop
  | 0x010 => BitVec.ofNat 64 s.cycle
  | 0x011 => s.tstamp
  | 0x012 => if t.ntile = 0 then 0 else BitVec.ofNat 64 t.base
  | 0x013 => if t.nscr = 0 then 0 else BitVec.ofNat 64 (2048 * (t.base + t.ntile))
  | 0x020 => t.ri 0
  | 0x021 => t.ri 1
  | 0x022 => t.ri 2
  | _ => t.ri 3

/-- A written control register as it is stored (R154). -/
def Strand.ctlWrite (t : Strand) (n : BitVec 9) (v : Word) : Strand :=
  match n.toNat with
  | 0x002 => { t with pix := v }
  | 0x003 => { t with vl := if v.toNat < 65536 then v else 65536 }
  | 0x004 => { t with rm := v &&& 7 }
  | 0x005 => { t with flags := v.extractLsb' 0 5 }
  | 0x007 => { t with scoff := v }
  | 0x009 => { t with lease := (v.extractLsb' 0 32).setWidth 64 }
  | 0x00E => { t with rslot := min (max v.toNat 4) 16 }
  | _ => t

/-- CTLR (R153): reading an empty index register parks, or faults with W1. -/
def execCtlr (n : BitVec 9) (u : Bool) (d : BitVec 6) (s : State) : Host.Outcome State Fault Refusal :=
  issue 4 { names := [d], srcs := if ctlIndex n then [(.i (n.extractLsb' 0 2), u)] else [], dsts := [d] }
    (fun c k s => .done (s.writeX c k d (s.ctlRead c k n))) s

/-- A CTL instruction that writes its register (R153). -/
def opCtl (n : BitVec 9) (u : Bool) (a : XReg) (f : Word → Word → Word) (s : State) : Host.Outcome State Fault Refusal :=
  issue 4 { names := [a], srcs := [sx a u] }
    (fun c k s => .done (s.updStrand c k fun t => t.ctlWrite n (f (s.ctlRead c k n) (t.rx a)))) s

/-- CTLW (R153). -/
def execCtlw (n : BitVec 9) (u : Bool) (a : BitVec 6) (s : State) : Host.Outcome State Fault Refusal := opCtl n u a (fun _ x => x) s
/-- CTLSET (R153). -/
def execCtlset (n : BitVec 9) (u : Bool) (a : BitVec 6) (s : State) : Host.Outcome State Fault Refusal := opCtl n u a (fun o x => o ||| x) s
/-- CTLCLR (R153). -/
def execCtlclr (n : BitVec 9) (u : Bool) (a : BitVec 6) (s : State) : Host.Outcome State Fault Refusal := opCtl n u a (fun o x => o &&& ~~~x) s

/-- CTLX (R153): the old value is read, the new one written. -/
def execCtlx (n : BitVec 9) (u : Bool) (a d : BitVec 6) (s : State) : Host.Outcome State Fault Refusal :=
  issue 4 { names := [a, d], srcs := [sx a u], dsts := [d] }
    (fun c k s =>
      let old := s.ctlRead c k n
      let x := (s.strand c k).rx a
      .done ((s.updStrand c k fun t => t.ctlWrite n x).writeX c k d old)) s

/-- TRAP (R155): it completes, the pc moves on, and the strand freezes with a packet that names the TRAP. -/
def execTrap (code : BitVec 9) (u : Bool) (a : BitVec 6) (s : State) : Host.Outcome State Fault Refusal :=
  issue 4 { names := [a], srcs := [sx a u] }
    (fun c k s =>
      let x := (s.strand c k).rx a
      .issued ((s.raise c k { cls := clsTrap, addr := x, info := code.setWidth 16 }).updStrand c k fun t => t.advance 4)) s

/-- BRK (R156): it does not complete; the strand freezes with its pc at the BRK. -/
def execBrk (code : BitVec 9) (s : State) : Host.Outcome State Fault Refusal :=
  issue 4 {} (fun _ _ _ => .fault { cls := clsBreak, info := code.setWidth 16 }) s

end Sys2Proof.Machine
end

