-- ==== Sys2Proof/Machine/Message.lean ====
section
/-! DEFINITION. Messages, requests and replies: how a request leaves its core and how its reply is written (spec/14_network.md R305
to R316, spec/10_isa_memory.md R204 to R206, spec/16_consistency.md R330, spec/18_optimistic.md R359; notes/assumptions 4, 13). -/

namespace Sys2Proof.Machine

/-! ## Numbers and endpoints -/

def State.bumpId (s : State) : State := { s with nextId := s.nextId + 1 }

/-- The endpoint of a core, of a slice, of a dispenser, of the management core, of the host port (R307). -/
def State.epCore (s : State) (c : CoreId) : Ep := { dev := s.devnum, router := clusterOf c, ep := c.toNat % 64 }
def State.epSlice (s : State) (cl : ClusterId) : Ep := { dev := s.devnum, router := cl, ep := 65 }
def State.epDispenser (s : State) (cl : ClusterId) : Ep := { dev := s.devnum, router := cl, ep := 66 }
def State.epMgmt (s : State) : Ep := { dev := s.devnum, router := 0, ep := 67 }
def State.epHost (s : State) : Ep := { dev := s.devnum, router := 0, ep := 69 }

/-- The endpoint of decoder n: decoder 8d + j is at the router of the j-th cluster of die d (R307). -/
def State.epDecoder (s : State) (n : Nat) : Ep :=
  { dev := s.devnum, router := BitVec.ofNat 6 (8 * (4 * (n / 16) + n % 8 / 4) + 4 * (n / 8 % 2) + n % 4), ep := 70 }

/-- The router of a Jenay port (R307). -/
def portRouter (p : Nat) : ClusterId := if p < 8 then BitVec.ofNat 6 p else BitVec.ofNat 6 (56 + p - 8)

/-- The set bits of a mask, lowest first. -/
def bitsOf {n : Nat} (m : BitVec n) : List Nat := (List.range n).filter fun k => m.getLsbD k

/-- The port toward a device (R320): chosen among the ports of its route entry. -/
def State.portTo (s : State) (dev : BitVec 6) (src : ClusterId) (tag : Nat) : Option Nat :=
  let ps := (bitsOf (Tab.get 0#16 s.routes dev.toNat)).filter fun p => !(Tab.get {} s.ports p).failed
  if ps = [] then none else ps[((src.toNat ^^^ tag) % ps.length)]?

/-! ## GVT leaves (R359) -/

def State.updLeaf (s : State) (j : JobId) (x : Leaf) (f : LeafSt → LeafSt) : State :=
  s.updJob j fun v => { v with leaves := Tab.put v.leaves (leafNum x) (f (v.leaf x)) }

/-- The flip of a leaf. -/
def LeafSt.flip (v : LeafSt) (k : Bool) : LeafSt :=
  if v.isOpen then v else
  { v with colour := k, isOpen := true, smin := 0xFFFFFFFFFFFFFFFF#64, cnt0 := if k then v.cnt0 else 0, cnt1 := if k then 0 else v.cnt1 }

/-- A counted message sent. -/
def LeafSt.send (v : LeafSt) (vt : Word) : LeafSt :=
  { v with cnt0 := if v.colour then v.cnt0 else v.cnt0 + 1, cnt1 := if v.colour then v.cnt1 + 1 else v.cnt1,
           smin := if vt < v.smin then vt else v.smin }

/-- A counted message received. -/
def LeafSt.recv (v : LeafSt) (colour : Bool) : LeafSt :=
  let v := if colour != v.colour && !v.isOpen then v.flip colour else v
  { v with cnt0 := if colour then v.cnt0 else v.cnt0 - 1, cnt1 := if colour then v.cnt1 - 1 else v.cnt1 }

/-! ## Sending -/

/-- The plane class of a kind: requests on planes 0 and 1, replies on planes 2 and 3 (R305, R308). -/
def isReplyKind (k : BitVec 6) : Bool := decide (0x20#6 ≤ k) && decide (k < 0x30#6)

/-- A message given to its source router for injection (R310); a message of an endpoint to itself needs no network. -/
def State.inject (s : State) (id : Nat) (m : Msg) : State :=
  let s : State := { s with msgs := Tab.put s.msgs id { m with due := List.range m.fcnt, got := [], refused := false } }
  if m.src = m.dst then s.soon .packetReassembled { n := id }
  else s.updCluster m.src.router fun v => { v with inj := v.inj ++ [id] }

/-- A packet has flits in the mesh, or has begun and not all of its flits are injected. -/
def State.inMesh (s : State) (n : Nat) : Bool :=
  s.flits.any (fun f => f.m == n) || match Tab.find s.msgs n with | some m => m.due != [] && decide (m.due.length < m.fcnt) | none => false

/-- The leaf at an endpoint of this device (R358); the others, slices and the host port, keep no colour. -/
def State.leafAt (s : State) (e : Ep) : Option Leaf :=
  if e.ep < 64 then some (.core (coreIn e.router e.ep))
  else if e.ep = 66 then some (.dispenser e.router)
  else if e.ep = 67 then some .mgmt
  else if e.ep = 68 then ((List.range 16).find? fun p => portRouter p == e.router).map fun p => .port (BitVec.ofNat 4 p)
  else if e.ep = 70 then ((List.range 32).find? fun n => (s.epDecoder n).router == e.router).map fun n => .decoder (BitVec.ofNat 5 n)
  else none

/-- The colour that an endpoint stamps on what it sends for a job (R306, R359); 0 where it is no leaf (DESIGN CHOICE, log 13). -/
def State.colourOf (s : State) (e : Ep) (j : JobId) : Bool := match s.leafAt e with | some x => ((s.job j).leaf x).colour | none => false

/-- A new message, with its sender's colour. -/
def State.sendNew (s : State) (m : Msg) : State := (s.inject s.nextId { m with colour := s.colourOf m.src m.job }).bumpId

/-- The data of the tile that goes with message `n`: four packets of four flits beside its own (R305; DESIGN CHOICE, log 13). -/
def State.sendParts (s : State) (n : Nat) (m : Msg) : State :=
  (List.range 4).foldl (fun s _ => s.sendNew { src := m.src, dst := m.dst, kind := m.kind, job := m.job, fcnt := 4, body := .part n, answers := m.answers }) s

/-- A new message with a tile: its own packet of three flits, with the layout and the scales, and those of the data. -/
def State.sendTile (s : State) (m : Msg) : State :=
  let n := s.nextId
  (s.sendNew { m with fcnt := 3, parts := 5 }).sendParts n m

/-- The kind of a request's packet (R308). A RESIZE, for which the table has no row, goes as a version request (DESIGN CHOICE, log 13). -/
def ReqKind.kind (k : ReqKind) (remote : Bool) : BitVec 6 :=
  match k with
  | .load | .loadM | .ldb | .pref | .filln | .rowRead => if remote then 0x04#6 else 0x01#6
  | .stb | .store | .storeM | .hint | .writeback | .flush | .inv | .rowWrite => if remote then 0x04#6 else 0x02#6
  | .amo _ | .red _ | .rowRed .. | .ldfe | .ldff | .stef | .stff | .fepurge => if remote then 0x04#6 else 0x03#6
  | .verst | .verldEq | .verldAsof | .verrel | .verq | .readRelease | .markRemoval | .verCommit | .resize => 0x05#6
  | .mbarInit | .mbarArr | .mbarWait => 0x06#6
  | .putreg => 0x07#6
  | .waitw | .resumec => 0x08#6
  | .claim _ => 0x0A#6
  | .launch | .cancel => 0x0B#6
  | .retract => 0x15#6

/-- The flits of a request (DESIGN CHOICE, log 13): three beside the data of a tile, two where 128 bytes of data go with it, otherwise one. -/
def ReqKind.flits (k : ReqKind) : Nat :=
  match k with
  | .verst => 3
  | .stb | .writeback | .rowWrite | .rowRed .. => 2
  | _ => 1

/-- The home slice of a tile name for a job (R222). -/
def verHome (j : JobId) (nm : Word) : ClusterId :=
  let h := (List.range 9).foldl (fun a k => a ^^^ ((nm >>> (6 * k)).extractLsb' 0 6)) (j.setWidth 6)
  h ^^^ (nm.extractLsb' 56 6) ^^^ ((nm.extractLsb' 62 2).setWidth 6)

/-- The device of a tile name. -/
def verDev (nm : Word) : BitVec 6 := nm.extractLsb' 50 6

/-- The endpoint that serves a request: version requests at the home slice of the name, the others at the place of their physical
address, the owner named by the request, or the management core. -/
def State.servedAt (s : State) (r : Req) : Ep :=
  match r.kind with
  | .verst | .verldEq | .verldAsof | .verrel | .verq | .readRelease | .markRemoval | .verCommit | .retract =>
    if verDev r.w0 = s.devnum then s.epSlice (verHome r.job r.w0) else { dev := verDev r.w0, router := verHome r.job r.w0, ep := 65 }
  | .resize => s.epSlice (clusterOf r.core)
  | .launch | .cancel => s.epMgmt
  | .putreg => { dev := r.w1.extractLsb' 16 6, router := clusterOf (r.w1.extractLsb' 4 12), ep := (r.w1.extractLsb' 4 12).toNat % 64 }
  | .resumec => { dev := r.w0.extractLsb' 58 6, router := clusterOf (r.w0.extractLsb' 46 12), ep := 66 }
  | _ =>
    let off := offOf r.pa
    if devOf r.pa != s.devnum then { dev := devOf r.pa, router := homeSlice off, ep := 65 }
    else if isTier off then s.epSlice (homeSlice off)
    else if isHost off then s.epHost
    else s.epCore (BitVec.ofNat 12 ((off - 0x300000000000) / 0x100000))

/-- The packet of a request leaves its core. -/
def State.launchReq (s : State) (r : Req) : State :=
  let r := { r with pts := (s.core r.core).pts }
  let dst := s.servedAt r
  let tile := r.kind == .verst
  let m : Msg := { src := s.epCore r.core, dst := dst, kind := r.kind.kind (dst.ep < 64), job := r.job, fcnt := r.kind.flits, body := .req r,
                   colour := ((s.job r.job).leaf (.core r.core)).colour, parts := if tile then 5 else 0 }
  let s := s.inject r.id m
  if tile then s.sendParts r.id m else s

/-- A new request of a core: it leaves at once, or waits until the requests it is ordered after are acknowledged (R330). -/
def State.request (s : State) (r : Req) : State :=
  let r := { r with id := s.nextId }
  let s := (s.bumpId).updCore r.core fun v => { v with reqs := v.reqs ++ [r] }
  if r.after = [] then s.launchReq r else s

/-- The outstanding requests of a strand. -/
def State.strandReqs (s : State) (c : CoreId) (k : StrandId) : List Req := (s.core c).reqs.filter fun r => r.strand == k

/-- The pending side-log entries of a strand (R383). -/
def State.slogOf (s : State) (c : CoreId) (k : StrandId) : List (Nat × SlEntry) :=
  (s.core c).slog.filter fun e => e.2.st != 0 && e.2.strand == k && e.2.kind != 8 && e.2.kind != 9

/-- A request whose data reply carries a tile. -/
def ReqKind.loadsTile (k : ReqKind) : Bool := k == .verldEq || k == .verldAsof

/-- A request that carries dirty bytes home. -/
def ReqKind.carriesDirty (k : ReqKind) : Bool := k == .writeback || k == .flush || k == .inv

/-- What a release or a task message must follow: every access of the strand that is outstanding or in the side log, and the
write-backs under way from its core (R330, R331, R336). -/
def State.earlier (s : State) (c : CoreId) (k : StrandId) : List Nat :=
  ((s.core c).reqs.filter fun r => (r.strand == k && (r.isLoad || r.isStore)) || r.kind.carriesDirty).map (·.id) ++
    (s.slogOf c k).map (·.2.ord)

/-- A part of a row of a copy or a TRED (R287, R302). -/
def ReqKind.isRow (k : ReqKind) : Bool := match k with | .rowRead | .rowWrite | .rowRed .. => true | _ => false

/-- A matrix command's rows in memory (R302). -/
def MCmd.rows (m : MCmd) : List (List Piece) := match m.op with | .tred _ rows _ => rows | _ => []

/-- The copies and TREDs of a strand with a row in the line of an address, by their numbers. -/
def Core.rowsIn (v : Core) (k : StrandId) (pa : BitVec 52) : List Nat :=
  let touch := fun (rows : List (List Piece)) => rows.any fun ps => ps.any fun p => p.pa.toNat / 128 == pa.toNat / 128
  (v.copies.filter fun e => e.strand == k && touch e.rows).map (·.id) ++
    ((v.mq ++ v.mrun.toList).filter fun m => m.strand == k && touch m.rows).map (·.id)

/-- Outstanding requests of a strand to the same line, the write-backs of the line that its core has under way, whose bytes may be the strand's,
and the strand's copies and TREDs with a row there: overlapping accesses stay in program order (R328, R336). -/
def State.sameLine (s : State) (c : CoreId) (k : StrandId) (pa : BitVec 52) : List Nat :=
  ((s.core c).reqs.filter fun r => (r.strand == k || r.kind.carriesDirty) && r.pa.toNat / 128 == pa.toNat / 128).map (·.id) ++
    (s.core c).rowsIn k pa

/-- The write-backs of a line that a core has under way: a further one follows them, and nothing else, so that dirty bytes reach home before any
reduction or row that comes after them (R190, R191). -/
def Core.dirtyOut (v : Core) (ln : Nat) : List Nat := (v.reqs.filter fun r => r.kind.carriesDirty && offOf r.pa / 128 == ln).map (·.id)

/-- The fills of a line that the core has under way: what they read may be older than the core's own bytes, and they install no copy when their
replies come (R189, R213, R336). One that brings a store reads the line again. -/
def Core.outdate (v : Core) (ln : Nat) : Core :=
  { v with reqs := v.reqs.map fun r =>
      if (r.kind == .load || r.kind == .loadM || r.kind == .filln || r.kind == .pref) && offOf r.pa / 128 == ln then { r with stale := true } else r }

/-- What a row of the copy or TRED `id` of a strand follows in a line (R328, R302, R191): the strand's earlier requests there, write-backs of the
line, and its own earlier rows. -/
def State.rowAfter (s : State) (c : CoreId) (k : StrandId) (id : Nat) (pa : BitVec 52) : List Nat :=
  let v := s.core c
  (v.reqs.filter fun r => r.pa.toNat / 128 == pa.toNat / 128 &&
    ((r.strand == k && decide (r.id < id) && !r.kind.isRow) || r.kind.carriesDirty || (r.kind.isRow && r.w0.toNat == id))).map (·.id)

/-- The reply slots of a strand that are in use, and those of its core (R314). -/
def State.slotsUsed (s : State) (c : CoreId) (k : StrandId) : Nat := ((s.strandReqs c k).filter (·.slot)).length

/-- A strand may take a reply slot (R314): fewer than RSLOT held, and beyond its first only while more slots are free than resident
strands hold none. -/
def State.slotFree (s : State) (c : CoreId) (k : StrandId) : Bool :=
  let mine := s.slotsUsed c k
  let free := 64 - ((s.core c).reqs.filter (·.slot)).length
  let poor := ((List.range 16).filter fun n =>
    (s.strand c (BitVec.ofNat 4 n)).res.isSome && s.slotsUsed c (BitVec.ofNat 4 n) = 0).length
  decide (mine < (s.strand c k).rslot) && decide (0 < free) && (mine == 0 || decide (poor < free))

/-! ## Ending a request -/

/-- What waited for a number alone goes on: the requests that leave now, and the task messages that depart (R330, R421). `by'` puts
another number in its place instead. -/
def State.settleId (s : State) (c : CoreId) (id : Nat) (by' : Option Nat) : State :=
  let v := s.core c
  let strip := fun (l : List Nat) => match by' with | some n => l.map fun x => if x = id then n else x | none => l.filter (· ≠ id)
  let go := v.reqs.filter fun r => r.after != [] && strip r.after == []
  let dep := v.sendBuf.filter fun e => e.after != [] && strip e.after == []
  let s := s.setCore c { v with reqs := v.reqs.map fun r => { r with after := strip r.after },
                                sendBuf := v.sendBuf.map fun e => { e with after := strip e.after } }
  let s := go.foldl (fun s r => s.launchReq { r with after := [] }) s
  dep.foldl (fun s e => s.soon .sendBufferDeparture { c := c, n := e.m }) s

/-- The pool entry that the packet of a message holds at its destination is freed (R315). -/
def State.freePool (s : State) (n : Nat) (m : Msg) : State :=
  let pool := Tab.get [] (s.cluster m.dst.router).pools m.dst.ep
  if pool.any fun x => x.held == some n then
    s.updCluster m.dst.router fun v => { v with pools := Tab.put v.pools m.dst.ep (pool.filter fun x => x.held != some n) }
  else s

/-- A message leaves the machine: its packet has been taken in. -/
def State.dropMsg (s : State) (n : Nat) : State :=
  match Tab.find s.msgs n with
  | some m => ({ s with msgs := Tab.del s.msgs n } : State).freePool n m
  | none => s

/-- The packets of the data of message `n` are forgotten. -/
def State.dropParts (s : State) (n : Nat) : State :=
  (s.msgs.filter fun (e : Nat × Msg) => e.2.body == .part n).foldl (fun s (e : Nat × Msg) => s.dropMsg e.1) s

/-- A request is over: it leaves the list of its core, and its packets, where they were kept for a refusal on another device, are forgotten. -/
def State.endReq (s : State) (c : CoreId) (id : Nat) : State :=
  (((s.dropMsg id).dropParts id).updCore c fun v => { v with reqs := v.reqs.filter fun r => r.id ≠ id }).settleId c id none

/-- A parked strand whose instruction completes with its reply: ready, past the instruction, nf consumed if it was read. -/
def State.replyDone (s : State) (c : CoreId) (k : StrandId) (len : Nat) : State :=
  s.updStrand c k fun t =>
    let t := if t.waitNf then t.setF (.x 63#6) false else t
    { (t.advance len) with st := if t.st = .parked then .ready else t.st, park := .none, waitNf := false }

/-- A parked strand whose instruction was withdrawn: it issues the instruction again (R218). -/
def State.replyAgain (s : State) (c : CoreId) (k : StrandId) : State :=
  s.updStrand c k fun t => { t with st := if t.st = .parked then .ready else t.st, park := .none, waitNf := false }

/-- A reply sent from an endpoint to the core of a request (KIND 0x20 with data, 0x21 without, 0x23 withdrawn); it names the tag that it answers
(R322). -/
def State.replyTo (s : State) (from' : Ep) (r : Req) (v : Rep) (data : Bool) : State :=
  let m : Msg := { src := from', dst := r.ret.getD (s.epCore r.core), kind := if v.withdrawn then 0x23#6 else if data then 0x20#6 else 0x21#6, job := r.job,
                   fcnt := if data then 2 else 1, body := .reply r v, answers := r.tag }
  if data && r.kind.loadsTile then s.sendTile m else s.sendNew m

/-- A request's poisoned words (of an STB) and a reply's (of an LDB or a line). -/
def Req.pois (r : Req) : BitVec 16 := r.w2.extractLsb' 0 16
def Rep.pois (v : Rep) : BitVec 16 := v.w1.extractLsb' 0 16

/-- The faults of a late request freeze the strand with LATE = 1 and name the request's instruction (R206). What the strand waits for
by an instruction that has issued stands. -/
def State.raiseLate (s : State) (c : CoreId) (k : StrandId) (r : Req) (f : Fault') : State :=
  let t := s.strand c k
  let p := { s.packet c k f with frozen := true, late := true, insn := r.insn, pc := r.pc }
  let s := s.updStrand c k fun t => { t with st := .frozen, froze := some p }
  let s := (s.countFault t.job t.lslot t.vt f.cls (firstWord c k r.pc)).sendPacket p
  if p.autok then s.soon .kill { c := c, k := k, t := t.ident, ok := true } else s

end Sys2Proof.Machine
end

