-- ==== Sys2Proof/Machine/Cache.lean ====
section
/-! DEFINITION. The data cache of a core (spec/09_memory.md R183 to R193) and how a virtual address of one access is reached
(spec/10_isa_memory.md R203, R206; spec/20_faults.md R383, R384). -/

namespace Sys2Proof.Machine

/-- The cached copy of a line under a key. -/
def Core.dfind (v : Core) (ln : Nat) (key : Option Key) : Option DLine := v.dcache.find? fun d => d.line == ln && d.key == key

/-- The cache without the copy of a line under a key; copies under other keys stay. -/
def Core.ddrop (v : Core) (ln : Nat) (key : Option Key) : Core := { v with dcache := v.dcache.filter fun d => !(d.line == ln && d.key == key) }

/-- A cached copy changed in place. -/
def Core.dset (v : Core) (d : DLine) : Core :=
  { v with dcache := v.dcache.map fun e => if e.line == d.line && e.key == d.key then d else e }

/-- The write-back of the dirty bytes of a non-coherent copy (R189): its own request, acknowledged by the home, behind the core's earlier
write-backs of the line (R328). -/
def State.writeback (s : State) (c : CoreId) (k : StrandId) (d : DLine) : State :=
  let pa := s.devnum ++ BitVec.ofNat 46 (128 * d.line)
  (s.updCore c fun v => v.outdate d.line).request
    { kind := .writeback, core := c, strand := k, job := d.job, pa := pa, nc := true, hg := d.hg,
              pln := d.key.isNone, size := 128, line := d.data, mask := d.dirty, w2 := d.poison.setWidth 64, isStore := true,
              after := (s.core c).dirtyOut d.line }

/-- A line installed as the most recently used of its set; the line it displaces is written back if dirty (R183, R189). -/
def State.cacheInstall (s : State) (c : CoreId) (k : StrandId) (d : DLine) : State :=
  let v := s.core c
  let same := fun (x : DLine) => x.line % 32 == d.line % 32
  let mine := v.dcache.filter fun x => same x && !(x.line == d.line && x.key == d.key)
  let out := (mine.drop 3).filter fun x => x.dirty != 0
  let s := s.setCore c { v with dcache := (d :: mine.take 3) ++ v.dcache.filter fun x => !same x }
  out.foldl (fun s x => s.writeback c k x) s

/-- A copy made the most recently used of its set. -/
def Core.dtouch (v : Core) (d : DLine) : Core :=
  { v with dcache := d :: v.dcache.filter fun x => !(x.line == d.line && x.key == d.key) }

/-- A mask of n bytes from an offset of a line. -/
def byteMask (off n : Nat) : BitVec 128 := BitVec.ofNat 128 ((2 ^ n - 1) * 2 ^ off)

/-- A line with the bytes of another where a mask is set. -/
def mergeLine (old new : Line) (mask : BitVec 128) : Line :=
  (List.range 128).foldl (fun l k => if mask.getLsbD k then lineSet l k [new.extractLsb' (8 * k) 8] else l) old

/-! ## Reaching an address -/

/-- How an access of a strand fares up to its target. -/
inductive Reach where
  | at' (t : Target) (leaf : Word)
  /-- It faults with a class of steps 4 (R206). -/
  | bad (cls : Nat)
  /-- Its translation is walked; the strand is held and issues the instruction again. -/
  | walk (s : State)
deriving DecidableEq, Repr

/-- The place of an access of n aligned bytes, with the checks of R170, R171 and R177. A translation that misses holds the strand
while it is walked (R206); a walk that ended in a fault for this access is reported. -/
def State.reach (s : State) (c : CoreId) (k : StrandId) (va : BitVec 48) (n : Nat) (need : Need) : Reach :=
  let t := s.strand c k
  let loc := fun (c' : CoreId) (off : Nat) (leaf : Word) =>
    match s.localCheck c' t.job off n with
    | some cls => Reach.bad cls
    | none => .at' (.loc c' off) leaf
  match windowOf c va with
  | some (c', off) => loc c' off 0
  | none =>
    match lookup (s.core c).dtlb t.job va need with
    | .ok pa leaf =>
      match s.place pa with
      | .inr cls => .bad cls
      | .inl (.loc c' off) => loc c' off leaf
      | .inl x => .at' x leaf
    | _ =>
      match t.walked with
      | some (va', n', f) => if va' = va && n' = need.num then .bad f.cls else .walk (s.push 16 .pageWalk { c := c, k := k, w0 := va.setWidth 64, n := need.num })
      | none => .walk (s.push 16 .pageWalk { c := c, k := k, w0 := va.setWidth 64, n := need.num })

/-- PAGE_WALK of the access that holds a strand (R177). -/
def State.pageWalk (s : State) (c : CoreId) (k : StrandId) (va : BitVec 48) (n : Nat) : State :=
  let need : Need := if n = 2 then .w else if n = 3 then .x else .r
  let (r, s) := s.fill c false (s.strand c k).job va need
  s.updStrand c k fun t =>
    { t with held := .none, walked := match r with | .fault cls => some (va, n, faultAt cls va) | _ => t.walked }

/-- The private scratch of a strand holds n bytes from a virtual address (R208). -/
def State.inScratch (s : State) (c : CoreId) (k : StrandId) (va : BitVec 48) (n : Nat) : Bool :=
  match windowOf c va with
  | some (c', off) =>
    let t := s.strand c k
    decide (c' = c) && decide (2048 * (t.base + t.ntile) ≤ off) && decide (off + n ≤ 2048 * (t.base + t.ntile + t.nscr))
  | none => false

/-! ## The side log (R383, R384) -/

/-- A pending entry of the strand lies in the page of an address: its class. -/
def State.slogPage (s : State) (c : CoreId) (k : StrandId) (va : BitVec 48) : Option Nat :=
  ((s.slogOf c k).find? fun e => e.2.va.toNat / 4096 == va.toNat / 4096).map (·.2.cls)

/-- A pending entry of the strand overlaps n bytes. -/
def State.slogOverlap (s : State) (c : CoreId) (k : StrandId) (va : BitVec 48) (n : Nat) : Bool :=
  (s.slogOf c k).any fun e => decide (e.2.va.toNat < va.toNat + n) && decide (va.toNat < e.2.va.toNat + 2 ^ e.2.sz)

/-- The lowest free entry, and the lowest free block. -/
def Core.slFree (v : Core) : Option Nat := (List.range 64).find? fun i => (Tab.get {} v.slog i).st == 0
def Core.blkFree (v : Core) : Option Nat := (List.range 8).find? fun i => !v.sblkUsed.contains i

/-- A store-class access enters the side log; `quiet` entries lie behind another and send no packet. With AUTOKILL the entry is
discarded, which counts once more in NFAULT (R383), and the strand is killed at its next boundary (R373). None when no entry, or no block for an STB, is free. -/
def State.sideLog (s : State) (c : CoreId) (k : StrandId) (kind sz : Nat) (va : BitVec 48) (data : BitVec 128) (blk : Option (Line × BitVec 16))
    (cls : Nat) (quiet : Bool) : Option State :=
  let v := s.core c
  let t := s.strand c k
  match v.slFree, (if blk.isSome then v.blkFree else some 0) with
  | some i, some b =>
    let kill := !quiet && s.autokill t.job cls
    let e : SlEntry := { kind := kind, strand := k, st := 1, blk := b, sz := sz, va := va, cls := cls, job := t.job, pc := t.pc, data := data,
                         ord := s.nextId, lslot := t.lslot, vt := t.vt, insn := t.insn, ident := t.ident,
                         pois := match blk with | some l => l.2 | none => 0 }
    let s1 := if kill then s else (s.bumpId).updCore c fun v =>
      { v with slog := Tab.put v.slog i e,
               sblk := match blk with | some l => Tab.put v.sblk b l.1 | none => v.sblk,
               sblkUsed := if blk.isSome then v.sblkUsed ++ [b] else v.sblkUsed }
    if quiet then some s1 else
      let p := { s.packet c k (faultAt cls va) with slog := true, sle := BitVec.ofNat 6 i }
      let s2 := (s1.countFault t.job t.lslot t.vt cls (firstWord c k t.pc)).sendPacket p
      some (if kill then (s2.countDiscard t.job t.lslot t.vt).soon .kill { c := c, k := k, t := t.ident, ok := true } else s2)
  | _, _ => none

/-- Classes that a store-class access side-logs (R371). -/
def sideLogged (cls : Nat) : Bool := cls == 3 || cls == 6 || cls == 7 || cls == 8 || cls == 9

end Sys2Proof.Machine
end

