-- ==== Sys2Proof/Machine/Ring.lean ====
section
/-! DEFINITION. The retention rings of optimistic launches (spec/18_optimistic.md R345 to R347): how many entries a task holds and
its log. -/

namespace Sys2Proof.Machine

/-- Free entries of the ring of a launch at a core (R345, R346). -/
def State.ringFree (s : State) (c : CoreId) (j : JobId) (l : Lslot) : Nat :=
  let v := s.core c
  (s.launch j l).ringb / 16 - ((v.rings.filter fun b => b.job == j && b.lslot == l).map Block.size).sum -
    ((v.reqs.filter fun r => r.job == j && r.lslot == l).map Req.ringEntries).sum

/-- A strand's optimistic task has room for n more entries. -/
def State.ringRoom (s : State) (c : CoreId) (k : StrandId) (n : Nat) : Bool :=
  decide (n ≤ s.ringFree c (s.strand c k).job (s.strand c k).lslot)

/-- An entry appended to the log of the task on a strand. -/
def State.logAppend (s : State) (c : CoreId) (k : StrandId) (e : LogEntry) : State :=
  s.updCore c fun v => { v with rings := v.rings.map fun b => if b.strand = some k then { b with log := b.log ++ [e] } else b }

/-- The block of a task in the rings of a core. -/
def Core.blockOf (v : Core) (t : Ident) : Option Block := v.rings.find? fun b => b.t.t.ident == t

/-- A block of a core changed. -/
def State.updBlock (s : State) (c : CoreId) (t : Ident) (f : Block → Block) : State :=
  s.updCore c fun v => { v with rings := v.rings.map fun b => if b.t.t.ident == t then f b else b }

end Sys2Proof.Machine
end

