-- ==== Sys2Proof/Machine/Loads.lean ====
section
/-! DEFINITION. Loads: LD, LD.m, LDB and the touch (spec/10_isa_memory.md R203 to R212; spec/09_memory.md R184 to R193). -/

namespace Sys2Proof.Machine

/-- The physical address of a target. -/
def State.paOf (s : State) (t : Target) : BitVec 52 :=
  match t with
  | .loc c off => s.devnum ++ BitVec.ofNat 46 (localBase c + off)
  | .own pa => pa
  | .host pa => pa
  | .peer pa => pa

/-- A request of the instruction that a strand executes, without its operands. It follows the strand's outstanding requests to the
same line (R328). -/
def State.newReq (s : State) (c : CoreId) (k : StrandId) (kind : ReqKind) (va : BitVec 48) (pa : BitVec 52) : Req :=
  let t := s.strand c k
  { kind := kind, core := c, strand := k, job := t.job, lslot := t.lslot, va := va, pa := pa, lease := t.lease, pc := t.pc, insn := t.insn,
    vt := t.vt, ident := t.ident, opt := t.opt, after := s.sameLine c k pa }

/-- An earlier access of the strand to bytes among n at an address of a tier is under way, a copy or TRED of their line included (R209, R328): a
request for the whole line counts for each of them, but dirty bytes on their way home have been copied. -/
def State.pending (s : State) (c : CoreId) (k : StrandId) (pa : BitVec 52) (n : Nat) : Bool :=
  ((s.strandReqs c k).any fun r => !r.kind.carriesDirty && r.pa.toNat / 128 == pa.toNat / 128 &&
    (r.size == 128 || (decide (r.pa.toNat < pa.toNat + n) && decide (pa.toNat < r.pa.toNat + r.size)))) || (s.core c).rowsIn k pa != []

/-- The use of a leaf by a request: key or none, and the hint group (R176, R200). -/
def Req.by (r : Req) (leaf : Word) : Req := { r with pln := leaf.getLsbD 5, hg := leaf.extractLsb' 54 8 }

/-- A store that waits for its line to be filled (R189): operations on the line wait for it. -/
def State.filling (s : State) (c : CoreId) (k : StrandId) (pa : BitVec 52) : Bool :=
  (s.strandReqs c k).any fun r => r.kind == .pref && r.mask != 0 && r.pa.toNat / 128 == pa.toNat / 128

/-- A row of the strand that its copy engine or matrix unit has yet to move lies among n own local bytes from an offset. -/
def Core.rowAt (v : Core) (c : CoreId) (k : StrandId) (off n : Nat) : Bool :=
  let touch := fun (rows : List (List Piece)) => rows.any fun ps => ps.any fun p =>
    decide (offOf p.pa < localBase c + off + n) && decide (localBase c + off < offOf p.pa + p.n)
  (v.copies.any fun e => e.strand == k && !e.xp && touch (e.rows.drop e.row)) || (v.mq ++ v.mrun.toList).any fun m => m.strand == k && touch m.rows

/-- An LDB, a full-empty operation, a copy or a TRED of the strand that is under way acts on own local bytes among n from an offset: an access to
them comes after it (R328). -/
def State.blockInto (s : State) (c : CoreId) (k : StrandId) (off n : Nat) : Bool :=
  (s.core c).rowAt c k off n ||
  (s.strandReqs c k).any fun r =>
    (r.kind == .ldb && decide (r.w1.toNat < off + n) && decide (off < r.w1.toNat + 128)) ||
    (isLocal (offOf r.pa) && decide (offOf r.pa < localBase c + off + n) && decide (localBase c + off < offOf r.pa + r.size))

/-- An LDB or STB of the strand is outstanding: its next lane instruction does not qualify (R242). -/
def State.blockMove (s : State) (c : CoreId) (k : StrandId) : Bool := (s.strandReqs c k).any fun r => r.kind == .ldb || r.kind == .stb

/-- A destination marked empty at issue (R130, R205); x0 and m0 never are. -/
def State.emptyDest (s : State) (c : CoreId) (k : StrandId) (d : Dest) : State :=
  match d with
  | .x r => s.emptyX c k r
  | .m r => s.updStrand c k fun t => t.setF (.m r) false
  | _ => s

/-- A value that is known at issue, written some cycles later (R205). -/
def State.deliver (s : State) (c : CoreId) (k : StrandId) (d : Dest) (bs : List Byte) (cycles : Nat) : State :=
  match d with
  | .x r => if r = 0 then s else s.produce c k r (leBits 64 bs) 0 cycles
  | .m r => if r = 0 then s else s.produceM c k r (leBits 128 bs) cycles
  | _ => s

/-- The copy that an access hits (R184, R189, R193): non-coherent, counted, or under a lease that has not expired. -/
def State.hit (s : State) (c : CoreId) (pa : BitVec 52) (key : Option Key) : Option DLine :=
  match (s.core c).dfind (offOf pa / 128) key with
  | some d => if d.nc || d.count != 0 || decide ((s.core c).pts ≤ d.rts) then some d else none
  | none => none

/-- The cache after a load hits a copy: most recently used, and a counted line loses one, at 0 the line goes (R193). -/
def State.hitLoad (s : State) (c : CoreId) (d : DLine) : State :=
  s.updCore c fun v =>
    if d.count = 1 then { v with dcache := v.dcache.filter fun x => !(x.line == d.line && x.key == d.key) }
    else v.dtouch { d with count := d.count - 1 }

/-- n bytes at an address in a copy are poisoned. -/
def DLine.poisoned (d : DLine) (pa : BitVec 52) (n : Nat) : Bool :=
  d.poison != 0 && (wordsOf (pa.toNat % 128) n).any fun w => d.poison.getLsbD w

/-- A load's request (R204). -/
def State.sendLoad (s : State) (c : CoreId) (k : StrandId) (kind : ReqKind) (n : Nat) (d : Dest) (va : BitVec 48) (x : Target)
    (nc : Bool) (leaf : Word) : Res :=
  if !s.slotFree c k then .park .replySlot
  else .done ((s.emptyDest c k d).request
    ({ s.newReq c k kind va (s.paOf x) with size := n, dest := d, nc := nc, slot := true, isLoad := true }.by leaf))

/-- A load of n bytes, aligned to n, to a destination (R206, R209, R211). Where the own bank or a copy holds poison the load goes through a
reply slot, as its fault is a late one (R206, R207). -/
def loadBody (kind : ReqKind) (n : Nat) (d : Dest) (va : BitVec 48) : Body' := fun c k s =>
  if va.toNat % n ≠ 0 then .fault (faultAt clsAlign va)
  else if s.slogOverlap c k va n then .park (.slogBytes va n)
  else match s.reach c k va n .r with
  | .bad cls => .fault (faultAt cls va)
  | .walk s' => .hold (.walk va) s'
  | .at' (.loc c' off) leaf =>
    if c' = c then
      if s.blockInto c k off n then .forfeit
      else if s.localBad c off n then s.sendLoad c k kind n d va (.loc c off) false leaf
      else .done (s.deliver c k d (s.localRead c off n) 3)
    else s.sendLoad c k kind n d va (.loc c' off) false leaf
  | .at' (.own pa) leaf =>
    let job := (s.strand c k).job
    match s.hit c pa (s.keyOf job (leaf.getLsbD 5)), s.pending c k pa n with
    | some l, false =>
      if l.poisoned pa n then s.sendLoad c k kind n d va (.own pa) l.nc leaf
      else .done ((s.hitLoad c l).deliver c k d (lineSlice l.data (pa.toNat % 128) n) 4)
    | _, _ => s.sendLoad c k kind n d va (.own pa) (s.nonCoherent job va leaf) leaf
  | .at' x leaf => s.sendLoad c k kind n d va x false leaf

/-- A dropped touch (R210). -/
def State.dropTouch (s : State) (c : CoreId) : State := s.updCore c fun v => { v with xdrop := v.xdrop + 1 }

/-- The touch: LD to x0 (R210). What a load would do with its value is left out; whatever would fault or park drops it. -/
def touchBody (n : Nat) (va : BitVec 48) : Body' := fun c k s =>
  match loadBody .load n .none va c k s with
  | .fault _ => .done (s.dropTouch c)
  | .park _ => .done (s.dropTouch c)
  | r => r

/-- LD (R209): zero-extended; to x0 it is a touch (R210). -/
def execLd (o : BitVec 9) (z : BitVec 2) (u : Bool) (a : BitVec 6) (t : BitVec 6) (s : State) : Host.Outcome State Fault Refusal :=
  issue 4 { names := [a, t], srcs := [sx a u], dsts := [t] }
    (fun c k s =>
      let va := memAddr ((s.strand c k).rx a) o z
      if t = 0 then touchBody (2 ^ z.toNat) va c k s else loadBody .load (2 ^ z.toNat) (.x t) va c k s) s

/-- LD.m (R211); LD.m m0 is a probe. -/
def execLdM (u : Bool) (a : BitVec 6) (m : BitVec 3) (s : State) : Host.Outcome State Fault Refusal :=
  issue 4 { names := [a], srcs := [sx a u], dregs := [.m m] }
    (fun c k s => loadBody .loadM 16 (.m m) (vaOf ((s.strand c k).rx a)) c k s) s

/-! ## LDB and the local side of block copies -/

/-- The offset of a local address of a block copy in the executing core's own local memory, or the class of the fault (R212). -/
def State.blockLocal (s : State) (c : CoreId) (k : StrandId) (va : BitVec 48) : Nat ⊕ Nat :=
  match windowOf c va with
  | some (c', off) =>
    if c' = c then (match s.localCheck c (s.strand c k).job off 128 with | some cls => .inr cls | none => .inl off) else .inr clsPermission
  | none => .inr clsPermission

/-- Poisoned words of 128 aligned bytes of memory. -/
def State.pois128 (s : State) (a : Nat) : BitVec 16 :=
  if s.poisons = [] then 0
  else BitVec.ofNat 16 ((List.range 16).foldl (fun x k => if s.poisons.contains (a / 8 + k) then x + 2 ^ k else x) 0)

/-- Poisoned words of 128 aligned bytes of a core's local memory; a busy slot shows none (R9). -/
def State.localPois (s : State) (c : CoreId) (off : Nat) : BitVec 16 :=
  if (s.slot c (off / 2048)).busy then 0 else s.pois128 (localBase c + off)

/-- 128 aligned bytes of memory given the poison of a copied block (R207). -/
def State.putPois (s : State) (a : Nat) (p : BitVec 16) : State :=
  let s := s.setPoison (wordsOf a 128) false
  if p = 0 then s else s.markBad ((bitsOf p).map (a / 8 + ·))

/-- A block of 128 bytes with its poison written to a core's local memory. -/
def State.putBlock (s : State) (c : CoreId) (off : Nat) (bs : List Byte) (p : BitVec 16) : State :=
  (s.localWrite c off bs).putPois (localBase c + off) p

/-- LDB (R212): 128 bytes from the global to the local address; x[RS1] is written when they lie there. -/
def execLdb (w u : Bool) (b a d : BitVec 6) (s : State) : Host.Outcome State Fault Refusal :=
  issue 4 { names := [a, b, d], srcs := [sx a u, sx b w], dsts := [d] }
    (fun c k s =>
      let t := s.strand c k
      let g := vaOf (t.rx a); let l := vaOf (t.rx b)
      if t.opt && !s.inScratch c k l 128 then .fault (mkFault clsIrrevocable)
      else if g.toNat % 128 ≠ 0 then .fault (faultAt clsAlign g)
      else if l.toNat % 128 ≠ 0 then .fault (faultAt clsAlign l)
      else if s.slogOverlap c k g 128 then .park (.slogBytes g 128)
      else if s.slogOverlap c k l 128 then .park (.slogBytes l 128)
      else match s.blockLocal c k l with
      | .inr cls => .fault (faultAt cls l)
      | .inl lo =>
        if s.blockInto c k lo 128 then .forfeit else
        let put := fun (s : State) (bs : List Byte) (p : BitVec 16) (cyc : Nat) =>
          Res.done ((s.putBlock c lo bs p).deliver c k (.x d) (bytesOf 8 (t.rx a)) cyc)
        let send := fun (x : Target) (nc : Bool) (leaf : Word) =>
          if !s.slotFree c k then Res.park .replySlot
          else .done ((s.emptyDest c k (.x d)).request
            ({ s.newReq c k .ldb g (s.paOf x) with size := 128, dest := .x d, nc := nc, slot := true, isLoad := true,
                                                   w0 := t.rx a, w1 := BitVec.ofNat 64 lo }.by leaf))
        match s.reach c k g 128 .r with
        | .bad cls => .fault (faultAt cls g)
        | .walk s' => .hold (.walk g) s'
        | .at' (.loc c' off) leaf =>
          if c' = c then if s.blockInto c k off 128 then .forfeit else put s (s.localRead c off 128) (s.localPois c off) 3 else send (.loc c' off) false leaf
        | .at' (.own pa) leaf =>
          match (s.core c).dfind (offOf pa / 128) (s.keyOf t.job (leaf.getLsbD 5)), s.pending c k pa 128 with
          | some x, false => if x.nc then put (s.hitLoad c x) (bytesOf 128 x.data) x.poison 4
                             else send (.own pa) (s.nonCoherent t.job g leaf) leaf
          | _, _ => send (.own pa) (s.nonCoherent t.job g leaf) leaf
        | .at' x leaf => send x false leaf) s

end Sys2Proof.Machine
end

