-- ==== Sys2Proof/Machine/Stores.lean ====
section
/-! DEFINITION. Stores: ST, ST.m, STB, HINT (spec/10_isa_memory.md R203 to R213; spec/09_memory.md R183, R189, R195; side log:
spec/20_faults.md R383, R384). -/

namespace Sys2Proof.Machine

/-- A non-coherent copy with bytes stored into it (R189): dirty where they lie, an ordinary line from now on (R193), and words
written whole lose their poison (R207). -/
def DLine.store (d : DLine) (off : Nat) (bs : List Byte) : DLine :=
  let ws := wholeWords off bs.length
  { d with data := lineSet d.data off bs, dirty := d.dirty ||| byteMask off bs.length, count := 0,
           poison := ws.foldl (fun p w => setBit p w false) d.poison }

/-- A store of the core to a line drops the read count of its copies, and that of a FILLN under way (R193, R334). -/
def Core.uncount (v : Core) (ln : Nat) : Core :=
  { v with dcache := v.dcache.map fun d => if d.line == ln then { d with count := 0 } else d,
           reqs := v.reqs.map fun r => if r.kind == .filln && offOf r.pa / 128 == ln then { r with w0 := 0 } else r }

/-- A store enters the side log, or parks when it finds no free entry (R383, R384). -/
def State.logStore (s : State) (c : CoreId) (k : StrandId) (kind sz : Nat) (va : BitVec 48) (data : BitVec 128)
    (blk : Option (Line × BitVec 16)) (cls : Nat) (quiet : Bool) : Res :=
  match s.sideLog c k kind sz va data blk cls quiet with
  | some s' => .done s'
  | none => .park (.slog blk.isSome)

/-- A store that leaves its core as a request (R204), in a reply slot unless it is a deferred action. -/
def State.sendStore (s : State) (c : CoreId) (k : StrandId) (kind : ReqKind) (slot : Bool) (n : Nat) (data : BitVec 128) (va : BitVec 48)
    (x : Target) (nc : Bool) (leaf : Word) : Res :=
  if slot && !s.slotFree c k then .park .replySlot
  else .done (s.request
    ({ s.newReq c k kind va (s.paOf x) with size := n, w0 := data.extractLsb' 0 64, w1 := data.extractLsb' 64 64, nc := nc,
                                            slot := slot, isStore := true }.by leaf))

/-- Bytes stored to a non-coherent line as a request says (R189): into the copy, where `free` says that no earlier access of the strand stands
before it; else the request that fills the line and brings the bytes. -/
def State.intoCopy (s : State) (r : Req) (bs : List Byte) (free : Bool) : State × Option Req :=
  let off := r.pa.toNat % 128
  let ln := offOf r.pa / 128
  let key := s.keyOf r.job r.pln
  let s := s.updCore r.core fun v => v.uncount ln
  let fill := some { r with kind := .pref, size := 128, line := lineSet 0 off bs, mask := byteMask off bs.length, nc := true, isStore := true }
  match (s.core r.core).dfind ln key with
  | some d =>
    if d.nc && free then (s.updCore r.core fun v => v.dtouch (d.store off bs), none)
    else (s.updCore r.core fun v => if d.nc then v else v.ddrop ln key, fill)
  | none => (s, fill)

/-- A store to a non-coherent line as it issues (R189). -/
def State.storeNc (s : State) (c : CoreId) (k : StrandId) (va : BitVec 48) (pa : BitVec 52) (bs : List Byte) (leaf : Word) : State :=
  match s.intoCopy ((s.newReq c k .pref va pa).by leaf) bs (!s.pending c k pa bs.length) with
  | (s, some r) => s.request r
  | (s, none) => s

/-- A store of n aligned bytes whose address and mode are allowed: side log, translation, target (R206). -/
def storeGo (kind : ReqKind) (slot : Bool) (slk sz n : Nat) (data : BitVec 128) (va : BitVec 48) : Body' := fun c k s =>
  if va.toNat % n ≠ 0 then .fault (faultAt clsAlign va)
  else match s.slogPage c k va with
  | some cls => s.logStore c k slk sz va data none cls true
  | none =>
    match s.reach c k va n .w with
    | .bad cls => if sideLogged cls then s.logStore c k slk sz va data none cls false else .fault (faultAt cls va)
    | .walk s' => .hold (.walk va) s'
    | .at' (.loc c' off) leaf =>
      if c' = c then if s.blockInto c k off n then .forfeit else .done (s.localWrite c off (bytesOf n data))
      else s.sendStore c k kind slot n data va (.loc c' off) false leaf
    | .at' (.own pa) leaf =>
      if s.nonCoherent (s.strand c k).job va leaf then .done (s.storeNc c k va pa (bytesOf n data) leaf)
      else (s.updCore c fun v => v.uncount (offOf pa / 128)).sendStore c k kind slot n data va (.own pa) false leaf
    | .at' x leaf => s.sendStore c k kind slot n data va x false leaf

/-- A store that an optimistic task may make only within its private scratch (R208). -/
def storeBody (kind : ReqKind) (slk sz n : Nat) (data : BitVec 128) (va : BitVec 48) : Body' := fun c k s =>
  if (s.strand c k).opt && !s.inScratch c k va n then .fault (mkFault clsIrrevocable) else storeGo kind true slk sz n data va c k s

/-- ST (R209). -/
def execSt (o : BitVec 9) (z : BitVec 2) (v u : Bool) (a t : BitVec 6) (s : State) : Host.Outcome State Fault Refusal :=
  issue 4 { names := [a, t], srcs := [sx a u, sx t v] }
    (fun c k s =>
      let r := s.strand c k
      storeBody .store 0 z.toNat (2 ^ z.toNat) ((r.rx t).setWidth 128) (memAddr (r.rx a) o z) c k s) s

/-- ST.m (R211); ST.m m0 stores ones. -/
def execStM (u : Bool) (a : BitVec 6) (m : BitVec 3) (s : State) : Host.Outcome State Fault Refusal :=
  issue 4 { names := [a], srcs := [sx a u, s0 (.m m)] }
    (fun c k s =>
      let r := s.strand c k
      storeBody .storeM 1 4 16 (r.rm' m) (vaOf (r.rx a)) c k s) s

/-- STB (R212): 128 bytes from the local to the global address. -/
def execStb (w u : Bool) (b a : BitVec 6) (s : State) : Host.Outcome State Fault Refusal :=
  issue 4 { names := [a, b], srcs := [sx a u, sx b w] }
    (irrevocable fun c k s =>
      let t := s.strand c k
      let g := vaOf (t.rx a); let l := vaOf (t.rx b)
      if g.toNat % 128 ≠ 0 then .fault (faultAt clsAlign g)
      else if l.toNat % 128 ≠ 0 then .fault (faultAt clsAlign l)
      else if s.slogOverlap c k l 128 then .park (.slogBytes l 128)
      else match s.blockLocal c k l with
      | .inr cls => .fault (faultAt cls l)
      | .inl lo =>
        if s.blockInto c k lo 128 then .forfeit else
        let bs := s.localRead c lo 128
        let p := s.localPois c lo
        let line : Line := leBits 1024 bs
        match s.slogPage c k g with
        | some cls => s.logStore c k 2 7 g 0 (some (line, p)) cls true
        | none =>
          let send := fun (s : State) (x : Target) (nc : Bool) (leaf : Word) =>
            if !s.slotFree c k then Res.park .replySlot
            else .done (s.request
              ({ s.newReq c k .stb g (s.paOf x) with size := 128, line := line, mask := BitVec.allOnes 128, w2 := p.setWidth 64, nc := nc,
                                                     slot := true, isStore := true }.by leaf))
          match s.reach c k g 128 .w with
          | .bad cls => if sideLogged cls then s.logStore c k 2 7 g 0 (some (line, p)) cls false else .fault (faultAt cls g)
          | .walk s' => .hold (.walk g) s'
          | .at' (.loc c' off) leaf =>
            if c' = c then if s.blockInto c k off 128 then .forfeit else .done (s.putBlock c off bs p) else send s (.loc c' off) false leaf
          | .at' (.own pa) leaf =>
            match (s.core c).dfind (offOf pa / 128) (s.keyOf t.job (leaf.getLsbD 5)) with
            | some d =>
              if d.nc then
                if s.pending c k pa 128 then .forfeit
                else .done (s.updCore c fun v =>
                  (v.uncount d.line).dtouch { d with data := line, dirty := BitVec.allOnes 128, count := 0, poison := p })
              else send (s.updCore c fun v => v.uncount (offOf pa / 128)) (.own pa) (s.nonCoherent t.job g leaf) leaf
            | none => send s (.own pa) (s.nonCoherent t.job g leaf) leaf
          | .at' x leaf => send s x false leaf) s

/-- HINT (R213): a plain store to NEXTUSE of a hint-table entry. -/
def execHint (w u : Bool) (b a : BitVec 6) (s : State) : Host.Outcome State Fault Refusal :=
  issue 4 { names := [a, b], srcs := [sx a u, sx b w] }
    (fun c k s =>
      let t := s.strand c k
      let g := (t.rx a).extractLsb' 0 8
      storeGo .hint true 7 3 8 ((t.rx b).setWidth 128) ((s.job t.job).hintbase + (g.setWidth 48 <<< 4) + 8) c k s) s

end Sys2Proof.Machine
end

