-- ==== Sys2Proof/Machine/Atomic.lean ====
section
/-! DEFINITION. Full-empty operations, atomics and reductions as they issue (spec/10_isa_memory.md R203 to R208, R216, R219, R220;
spec/09_memory.md R191; spec/16_consistency.md R330). -/

namespace Sys2Proof.Machine

/-! ## New values (R219, R220) -/

/-- Two FP32 lanes added, rounded to nearest even, without flags. -/
def fadd2 (a b : Word) : Word :=
  let lane := fun (k : Nat) => (toFp32 0 (exAdd 0 (fp32 (a >>> (32 * k))) (fp32 (b >>> (32 * k))))).1.extractLsb' 0 32
  (lane 1) ++ (lane 0)

/-- The new value of AMO number op; none where CAS writes nothing. -/
def amoNew (op : Nat) (a b cas : Word) : Option Word :=
  match op with
  | 0 => some (a + b)
  | 1 => some (a &&& b)
  | 2 => some (a ||| b)
  | 3 => some (a ^^^ b)
  | 4 => some (if a.slt b then a else b)
  | 5 => some (if a.slt b then b else a)
  | 6 => some (if a.ult b then a else b)
  | 7 => some (if a.ult b then b else a)
  | 8 => some b
  | 9 => if a = cas then some b else none
  | _ => some (fadd2 a b)

/-- The new value of a reduction: RED.ADD is 16, RED.FADD 17. -/
def redNew (op : Nat) (a b : Word) : Word := if op = 16 then a + b else fadd2 a b

/-! ## Reaching a word -/

/-- The dirty bytes of a non-coherent line are written back and the copy goes, before an operation at home (R191). -/
def State.surrender (s : State) (c : CoreId) (k : StrandId) (ln : Nat) : State :=
  let out := (s.core c).dcache.filter fun d => d.line == ln && d.dirty != 0
  out.foldl (fun s d => s.writeback c k d) (s.updCore c fun v => { v with dcache := v.dcache.filter fun d => d.line != ln })

/-- What an 8-byte operation at home does once its word is reached: at the own bank, or as a request with the given key use. -/
structure AtHome where
  /-- At the own bank, at a local offset. -/
  bank : Nat → State → Res
  /-- As a request from the state, to a physical address, non-coherent or not, through a leaf. -/
  send : State → BitVec 52 → Bool → Word → Res
  /-- A translation fault retires into the side log (R206) with this kind and operand. -/
  log : Option (Nat × Word)
  need : Need

/-- An 8-byte operation at home: alignment, side log, translation, host memory, non-coherent copies (R203, R206, R384, R191). -/
def homeOp (x : AtHome) (va : BitVec 48) : Body' := fun c k s =>
  if va.toNat % 8 ≠ 0 then .fault (faultAt clsAlign va)
  else
    match x.log, s.slogPage c k va, s.slogOverlap c k va 8 with
    | some (kind, v), some cls, _ => s.logStore c k kind 3 va (v.setWidth 128) none cls true
    | none, _, true => .park (.slogBytes va 8)
    | _, _, _ =>
      match s.reach c k va 8 x.need with
      | .bad cls =>
        match x.log with
        | some (kind, v) => if sideLogged cls then s.logStore c k kind 3 va (v.setWidth 128) none cls false else .fault (faultAt cls va)
        | none => .fault (faultAt cls va)
      | .walk s' => .hold (.walk va) s'
      | .at' (.loc c' off) leaf =>
        if c' = c then (if s.blockInto c k off 8 then .forfeit else x.bank off s)
        else x.send s (s.paOf (.loc c' off)) false leaf
      | .at' (.own pa) leaf =>
        if s.nonCoherent (s.strand c k).job va leaf then
          if s.filling c k pa then .forfeit else x.send (s.surrender c k (offOf pa / 128)) pa true leaf
        else x.send s pa false leaf
      | .at' (.host _) _ => .fault (faultAt clsUnsupported va)
      | .at' (.peer pa) leaf => x.send s pa false leaf

/-- The dirty bytes of a line of the core sent home by a request of the strand; the copy stays, clean (R213). -/
def State.cleanLine (s : State) (c : CoreId) (k : StrandId) (kind : ReqKind) (slot : Bool) (d : DLine) : State :=
  (s.updCore c fun v => (v.dset { d with dirty := 0 }).outdate d.line).request
    { s.newReq c k kind 0 (s.devnum ++ BitVec.ofNat 46 (128 * d.line)) with
      after := (s.core c).dirtyOut d.line, job := d.job, nc := true, hg := d.hg, pln := d.key.isNone, size := 128, line := d.data, mask := d.dirty, w2 := d.poison.setWidth 64, slot := slot, isStore := true }

/-- A release of cluster scope or wider sends the core's dirty bytes home (R336) and follows everything before it (R330): the state,
and what it waits for. -/
def State.beforeRelease (s : State) (c : CoreId) (k : StrandId) : State × List Nat :=
  let s' := ((s.core c).dcache.filter fun d => d.dirty != 0).foldl (fun s d => s.cleanLine c k .writeback false d) s
  (s', s'.earlier c k)

/-! ## Atomics and reductions -/

/-- AMO number op at an address. -/
def amoBody (op : Nat) (va : BitVec 48) (b cas : Word) (d : XReg) : Body' := fun c k s =>
  let send := fun (s : State) (pa : BitVec 52) (nc : Bool) (leaf : Word) =>
    if !s.slotFree c k then Res.park .replySlot
    else .done ((s.emptyDest c k (.x d)).request
      ({ s.newReq c k (.amo op) va pa with size := 8, dest := .x d, w0 := b, w1 := cas, nc := nc, slot := true, isLoad := true }.by leaf))
  homeOp
    { log := none, need := .w,
      bank := fun off s =>
        -- the fault of a poisoned word is a late one (R206)
        if s.localBad c off 8 then send s (s.paOf (.loc c off)) false 0
        else
          let old : Word := leBits 64 (s.localRead c off 8)
          let s := match amoNew op old b cas with | some v => s.localWrite c off (bytesOf 8 v) | none => s
          .done (s.deliver c k (.x d) (bytesOf 8 old) 3),
      send := send }
    va c k s

/-- An AMO instruction (R219). -/
def opAmo (op : Nat) (w u : Bool) (b a d : XReg) (s : State) : Host.Outcome State Fault Refusal :=
  issue 4 { names := [a, b, d], srcs := [sx a u, sx b w] ++ (if op = 9 then [s0 (.x d)] else []), dsts := [d] }
    (irrevocable fun c k s =>
      let t := s.strand c k
      amoBody op (vaOf (t.rx a)) (t.rx b) (t.rx d) d c k s) s

/-- AMO.ADD (R219). -/
def execAmoAdd (w u : Bool) (b a d : BitVec 6) (s : State) : Host.Outcome State Fault Refusal := opAmo 0 w u b a d s
/-- AMO.AND (R219). -/
def execAmoAnd (w u : Bool) (b a d : BitVec 6) (s : State) : Host.Outcome State Fault Refusal := opAmo 1 w u b a d s
/-- AMO.OR (R219). -/
def execAmoOr (w u : Bool) (b a d : BitVec 6) (s : State) : Host.Outcome State Fault Refusal := opAmo 2 w u b a d s
/-- AMO.XOR (R219). -/
def execAmoXor (w u : Bool) (b a d : BitVec 6) (s : State) : Host.Outcome State Fault Refusal := opAmo 3 w u b a d s
/-- AMO.MIN (R219). -/
def execAmoMin (w u : Bool) (b a d : BitVec 6) (s : State) : Host.Outcome State Fault Refusal := opAmo 4 w u b a d s
/-- AMO.MAX (R219). -/
def execAmoMax (w u : Bool) (b a d : BitVec 6) (s : State) : Host.Outcome State Fault Refusal := opAmo 5 w u b a d s
/-- AMO.MINU (R219). -/
def execAmoMinu (w u : Bool) (b a d : BitVec 6) (s : State) : Host.Outcome State Fault Refusal := opAmo 6 w u b a d s
/-- AMO.MAXU (R219). -/
def execAmoMaxu (w u : Bool) (b a d : BitVec 6) (s : State) : Host.Outcome State Fault Refusal := opAmo 7 w u b a d s
/-- AMO.SWAP (R219). -/
def execAmoSwap (w u : Bool) (b a d : BitVec 6) (s : State) : Host.Outcome State Fault Refusal := opAmo 8 w u b a d s
/-- AMO.CAS (R219): x[RD] is compared and receives the old value. -/
def execAmoCas (w u : Bool) (b a d : BitVec 6) (s : State) : Host.Outcome State Fault Refusal := opAmo 9 w u b a d s
/-- AMO.FADD (R219). -/
def execAmoFadd (w u : Bool) (b a d : BitVec 6) (s : State) : Host.Outcome State Fault Refusal := opAmo 10 w u b a d s

/-- A reduction on a word of the own bank (R207, R220): dropped on a poisoned word. -/
def State.redLocal (s : State) (c : CoreId) (off op : Nat) (b : Word) : State :=
  if s.localBad c off 8 then s
  else s.localWrite c off (bytesOf 8 (redNew op (leBits 64 (s.localRead c off 8)) b))

/-- RED number op at an address. -/
def redBody (op : Nat) (va : BitVec 48) (b : Word) : Body' := fun c k s =>
  homeOp
    { log := some (if op = 16 then 3 else 4, b), need := .w,
      bank := fun off s => .done (s.redLocal c off op b),
      send := fun s pa nc leaf =>
        if !s.slotFree c k then .park .replySlot
        else .done (s.request ({ s.newReq c k (.red op) va pa with size := 8, w0 := b, nc := nc, slot := true, isStore := true }.by leaf)) }
    va c k s

/-- A RED instruction (R220). -/
def opRed (op : Nat) (w u : Bool) (b a : XReg) (s : State) : Host.Outcome State Fault Refusal :=
  issue 4 { names := [a, b], srcs := [sx a u, sx b w] }
    (irrevocable fun c k s => redBody op (vaOf ((s.strand c k).rx a)) ((s.strand c k).rx b) c k s) s

/-- RED.ADD (R220). -/
def execRedAdd (w u : Bool) (b a : BitVec 6) (s : State) : Host.Outcome State Fault Refusal := opRed 16 w u b a s
/-- RED.FADD (R220). -/
def execRedFadd (w u : Bool) (b a : BitVec 6) (s : State) : Host.Outcome State Fault Refusal := opRed 17 w u b a s

/-! ## Full-empty operations -/

/-- A full-empty operation leaves for the home of its word (R217): those that may wait park on their reply; a release follows every
earlier access of the strand (R330). A deferred action takes no reply slot (R204). -/
def feBody (kind : ReqKind) (slotted : Bool) (va : BitVec 48) (v : Word) (d : Dest) : Body' := fun c k s =>
  let waits := kind == .ldfe || kind == .ldff || kind == .stef
  let release := kind == .stef || kind == .stff
  let go := fun (s : State) (pa : BitVec 52) (nc slot : Bool) (leaf : Word) =>
    let x := if release then s.beforeRelease c k else (s, s.sameLine c k pa)
    let s := x.1
    let q : Req := { s.newReq c k kind va pa with
      size := 8, dest := d, w0 := v, nc := nc, slot := slot, parks := waits, isLoad := true, isStore := kind != .ldff,
      after := x.2 }
    let r := q.by leaf
    let s' := (s.emptyDest c k d).request r
    if waits then Res.waits (.reply s.nextId 5) s' else .done s'
  homeOp
    { log := if kind == .stff then some (5, v) else if kind == .fepurge then some (6, v) else none,
      need := if kind == .ldff then .r else .w,
      bank := fun off s => go s (s.paOf (.loc c off)) false false 0,
      send := fun s pa nc leaf => if slotted && !s.slotFree c k then .park .replySlot else go s pa nc slotted leaf }
    va c k s

/-- LDFE (R216). -/
def execLdfe (u : Bool) (a d : BitVec 6) (s : State) : Host.Outcome State Fault Refusal :=
  issue 4 { names := [a, d], srcs := [sx a u], dsts := [d] }
    (irrevocable fun c k s => feBody .ldfe true (vaOf ((s.strand c k).rx a)) 0 (.x d) c k s) s
/-- LDFF (R216). -/
def execLdff (u : Bool) (a d : BitVec 6) (s : State) : Host.Outcome State Fault Refusal :=
  issue 4 { names := [a, d], srcs := [sx a u], dsts := [d] }
    (irrevocable fun c k s => feBody .ldff true (vaOf ((s.strand c k).rx a)) 0 (.x d) c k s) s
/-- STEF (R216). -/
def execStef (w u : Bool) (b a : BitVec 6) (s : State) : Host.Outcome State Fault Refusal :=
  issue 4 { names := [a, b], srcs := [sx a u, sx b w] }
    (irrevocable fun c k s => feBody .stef true (vaOf ((s.strand c k).rx a)) ((s.strand c k).rx b) .none c k s) s
/-- STFF (R216). -/
def execStff (w u : Bool) (b a : BitVec 6) (s : State) : Host.Outcome State Fault Refusal :=
  issue 4 { names := [a, b], srcs := [sx a u, sx b w] }
    (irrevocable fun c k s => feBody .stff true (vaOf ((s.strand c k).rx a)) ((s.strand c k).rx b) .none c k s) s
/-- FEPURGE (R216). -/
def execFepurge (u : Bool) (a : BitVec 6) (s : State) : Host.Outcome State Fault Refusal :=
  issue 4 { names := [a], srcs := [sx a u] }
    (irrevocable fun c k s => feBody .fepurge true (vaOf ((s.strand c k).rx a)) 0 .none c k s) s

end Sys2Proof.Machine
end

