-- ==== Sys2Proof/Machine/Maintain.lean ====
section
/-! DEFINITION. Cache maintenance, FENCE, PUTREG and deferred actions (spec/10_isa_memory.md R213 to R215, R221; spec/09_memory.md
R189, R193; spec/16_consistency.md R330). -/

namespace Sys2Proof.Machine

/-! ## PREF, FILLN, FLUSH, INV -/

/-- PREF of the line of an address (R213): nothing it meets faults or parks. -/
def prefBody (va : BitVec 48) : Body' := fun c k s =>
  match s.reach c k va 1 .r with
  | .bad _ => .done s
  | .walk s' => .hold (.walk va) s'
  | .at' (.own pa) leaf =>
    let job := (s.strand c k).job
    match s.hit c pa (s.keyOf job (leaf.getLsbD 5)) with
    | some _ => .done s
    | none =>
      if !s.slotFree c k then .done s
      else .done (s.request ({ s.newReq c k .pref va pa with
        size := 128, nc := s.nonCoherent job va leaf, slot := true }.by leaf))
  | .at' _ _ => .done s

/-- PREF (R213). -/
def execPref (u : Bool) (a : BitVec 6) (s : State) : Host.Outcome State Fault Refusal :=
  issue 4 { names := [a], srcs := [sx a u] } (fun c k s => prefBody (vaOf ((s.strand c k).rx a)) c k s) s

/-- FILLN (R193, R213): the line is read from home and installed with its count; dirty bytes go home first. -/
def execFilln (w u : Bool) (b a : BitVec 6) (s : State) : Host.Outcome State Fault Refusal :=
  issue 4 { names := [a, b], srcs := [sx a u, sx b w] }
    (fun c k s =>
      let t := s.strand c k
      let va := vaOf (t.rx a)
      let n := min (t.rx b).toNat 65535
      if n = 0 then prefBody va c k s
      else match s.reach c k va 1 .r with
      | .bad cls => .fault (faultAt cls va)
      | .walk s' => .hold (.walk va) s'
      | .at' (.own pa) leaf =>
        if s.filling c k pa then .forfeit
        else if !s.slotFree c k then .park .replySlot
        else
          let s := match (s.core c).dfind (offOf pa / 128) (s.keyOf t.job (leaf.getLsbD 5)) with
            | some d => if d.dirty != 0 then s.cleanLine c k .writeback false d else s
            | none => s
          .done (s.request ({ s.newReq c k .filln va pa with
            size := 128, w0 := BitVec.ofNat 64 n, nc := s.nonCoherent t.job va leaf, slot := true }.by leaf))
      | .at' _ _ => .done s) s

/-- FLUSH, and INV which then drops the accessor's copy, one that is still under way included (R213, R334, R336). -/
def flushBody (drop : Bool) (va : BitVec 48) : Body' := fun c k s =>
  match s.reach c k va 1 .r with
  | .bad cls => .fault (faultAt cls va)
  | .walk s' => .hold (.walk va) s'
  | .at' (.own pa) leaf =>
    let ln := offOf pa / 128
    let key := s.keyOf (s.strand c k).job (leaf.getLsbD 5)
    let go := fun (s : State) => if drop then s.updCore c fun v => (v.ddrop ln key).outdate ln else s
    if s.filling c k pa then .forfeit
    else match (s.core c).dfind ln key with
    | some d =>
      if d.dirty = 0 then .done (go s)
      else if !s.slotFree c k then .park .replySlot
      else .done (go (s.cleanLine c k (if drop then .inv else .flush) true d))
    | none => .done (go s)
  | .at' _ _ => .done s

/-- FLUSH (R213). -/
def execFlush (u : Bool) (a : BitVec 6) (s : State) : Host.Outcome State Fault Refusal :=
  issue 4 { names := [a], srcs := [sx a u] } (fun c k s => flushBody false (vaOf ((s.strand c k).rx a)) c k s) s
/-- INV (R213). -/
def execInv (u : Bool) (a : BitVec 6) (s : State) : Host.Outcome State Fault Refusal :=
  issue 4 { names := [a], srcs := [sx a u] } (fun c k s => flushBody true (vaOf ((s.strand c k).rx a)) c k s) s

/-! ## FENCE -/

/-- An address of the core's own local memory, through either window. -/
def ownWindow (c : CoreId) (va : BitVec 48) : Bool := match windowOf c va with | some (c', _) => c' == c | none => false

/-- A row of a copy or TRED lies in the core's own local memory. -/
def ownRows (c : CoreId) (rows : List (List Piece)) : Bool := rows.any fun ps => ps.any fun p => isLocal (offOf p.pa) && decide (offOf p.pa / 0x100000 = localBase c / 0x100000)

/-- A drain or a TRED of a strand has not yet moved its rows; those under way are requests (R284). -/
def Core.draining (v : Core) (c : CoreId) (k : StrandId) (own : Bool) : Bool :=
  (v.copies.any fun e => e.strand == k && e.op == .drain && (!own || ownRows c e.rows)) ||
  ((v.mq ++ v.mrun.toList).any fun m => m.strand == k && m.rows != [] && (!own || ownRows c m.rows))

/-- The conditions of a FENCE hold (R214): kind 1 .acq, 2 .rel, 3 .full; scope 0 .core, at which an LDB counts by its local side. -/
def State.fenceHolds (s : State) (c : CoreId) (k : StrandId) (kind scope : Nat) : Bool :=
  let v := s.core c
  let own := scope == 0
  let mine := (s.strandReqs c k).filter fun r =>
    !own || r.kind == .ldb || (isLocal (offOf r.pa) && decide (offOf r.pa / 0x100000 = localBase c / 0x100000))
  let acq := kind % 2 == 0 || !(mine.any (·.isLoad))
  let rel := kind < 2 || (!(mine.any (·.isStore)) && !((s.slogOf c k).any fun e => !own || ownWindow c e.2.va) &&
    !v.draining c k own && (own || (!(v.reqs.any fun r => r.kind.carriesDirty) && !(v.dcache.any fun d => d.dirty != 0))))
  acq && rel

/-- FENCE (R214): at scope .cl or wider a release sends the dirty bytes of the data cache home and waits for them. -/
def execFence (scope : BitVec 4) (kind : BitVec 2) (s : State) : Host.Outcome State Fault Refusal :=
  issue 4 {}
    (fun c k s =>
      let p := Park.fence kind.toNat scope.toNat
      let dirty := if 2 ≤ kind.toNat ∧ scope ≠ 0 then (s.core c).dcache.filter fun d => d.dirty != 0 else []
      if dirty ≠ [] then .waits p (dirty.foldl (fun s d => s.cleanLine c k .writeback false d) s)
      else if s.fenceHolds c k kind.toNat scope.toNat then .done s
      else .park p) s

/-! ## PUTREG (R215) -/

/-- PUTREG: the fill travels with the issuer's job and launch and completes at issue; fills of one register by one strand stay in
order. -/
def execPutreg (w u : Bool) (b a : BitVec 6) (s : State) : Host.Outcome State Fault Refusal :=
  issue 4 { names := [a, b], srcs := [sx a u, sx b w] }
    (irrevocable fun c k s =>
      let t := s.strand c k
      let x := t.rx a
      let r := x.extractLsb' 24 6
      if r = 0 ∨ r = 63#6 then .fault (mkFault clsOperand)
      else
        -- bits 63:30 and 23:22 of the name are not used
        let name := fun (w : Word) => w &&& 0x3F3FFFFF#64
        let earlier := ((s.strandReqs c k).filter fun q => q.kind == .putreg && name q.w1 == name x).map (·.id)
        .done (s.request { s.newReq c k .putreg 0 0 with w0 := t.rx b, w1 := x, after := earlier })) s

/-! ## Deferred actions (R221) -/

/-- DEFER.ST, or DEFER.SIG: translation is checked at issue; a conservative task performs the action at once, an optimistic one
enters it in its retention ring. It takes no reply slot (R204). -/
def deferBody (sig : Bool) (va : BitVec 48) (v : Word) : Body' := fun c k s =>
  if va.toNat % 8 ≠ 0 then .fault (faultAt clsAlign va)
  else match s.reach c k va 8 .w with
  | .bad cls => .fault (faultAt cls va)
  | .walk s' => .hold (.walk va) s'
  | .at' x _ =>
    match sig, x with
    | true, .host _ => .fault (faultAt clsUnsupported va)
    | _, _ =>
      let t := s.strand c k
      if t.opt then
        if s.ringRoom c k 2 then .done (s.logAppend c k (.deferred sig v va t.pc t.insn)) else .park (.ring 2)
      else if sig then feBody .stff false va v .none c k s
      else storeGo .store false 0 3 8 (v.setWidth 128) va c k s

/-- DEFER.ST (R221). -/
def execDeferSt (w u : Bool) (b a : BitVec 6) (s : State) : Host.Outcome State Fault Refusal :=
  issue 4 { names := [a, b], srcs := [sx a u, sx b w] }
    (fun c k s => deferBody false (vaOf ((s.strand c k).rx a)) ((s.strand c k).rx b) c k s) s
/-- DEFER.SIG (R221). -/
def execDeferSig (w u : Bool) (b a : BitVec 6) (s : State) : Host.Outcome State Fault Refusal :=
  issue 4 { names := [a, b], srcs := [sx a u, sx b w] }
    (fun c k s => deferBody true (vaOf ((s.strand c k).rx a)) ((s.strand c k).rx b) c k s) s

end Sys2Proof.Machine
end

