-- ==== Sys2Proof/Machine/Barrier.lean ====
section
/-! DEFINITION. Hardware barriers and barrier objects as they issue (spec/10_isa_memory.md R203, R208, R231 to R233;
spec/01_work.md R26). -/

namespace Sys2Proof.Machine

/-! ## Hardware barriers (R231) -/

/-- The hardware barrier onto which a launch's number is mapped; a number that is not mapped yet takes the lowest free one (R26). -/
def Core.barIdx (v : Core) (j : JobId) (l : Lslot) (b : Nat) : Nat :=
  match v.bars.find? (fun e => e.2.owner == some (j, l, b)) with
  | some e => e.1
  | none => ((List.range 256).find? fun i => (Tab.get {} v.bars i).owner.isNone).getD 0

/-- The barrier of a number for a strand. -/
def State.bar (s : State) (c : CoreId) (k : StrandId) (b : BitVec 8) : Nat × Bar :=
  let t := s.strand c k
  let h := (s.core c).barIdx t.job t.lslot b.toNat
  (h, { Tab.get {} (s.core c).bars h with owner := some (t.job, t.lslot, b.toNat) })

def State.setBar (s : State) (c : CoreId) (h : Nat) (x : Bar) : State := s.updCore c fun v => { v with bars := Tab.put v.bars h x }

/-- A barrier number of the launch (R231). -/
def State.barLegal (s : State) (c : CoreId) (k : StrandId) (b : BitVec 8) : Bool := decide (b.toNat < (s.launchOf (s.strand c k)).nbar)

/-- A count is out of range (R231, R233). -/
def badCount (x : Word) : Bool := decide (x.toNat = 0) || decide (65535 < x.toNat)

/-- BAR.INIT (R231). -/
def execBarInit (b : BitVec 8) (u : Bool) (a : BitVec 6) (s : State) : Host.Outcome State Fault Refusal :=
  issue 4 { names := [a], srcs := [sx a u] }
    (irrevocable fun c k s =>
      let x := (s.strand c k).rx a
      let (h, v) := s.bar c k b
      if !s.barLegal c k b || badCount x || v.arv != 0 then .fault (mkFault clsOperand)
      else .done (s.setBar c h { v with exp := x.extractLsb' 0 16, arv := 0 })) s

/-- An arrival of a count: the barrier after it, or the class of its fault. -/
def Bar.arrive (v : Bar) (x : Word) : Bar ⊕ Nat :=
  if v.exp = 0 ∨ badCount x then .inr clsOperand
  else if v.exp.toNat < v.arv.toNat + x.toNat then .inr clsBarOverrun
  else if v.arv.toNat + x.toNat = v.exp.toNat then .inl { v with arv := 0, gen := v.gen + 1 }
  else .inl { v with arv := v.arv + x.extractLsb' 0 16 }

/-- Every access that a strand has issued has been performed, and every store acknowledged (R330). An arrival is a release of core scope (R231,
R331): it does not issue before that, and its strand forfeits the slot (DEDUCED, log 21). -/
def State.released (s : State) (c : CoreId) (k : StrandId) : Bool :=
  !((s.strandReqs c k).any fun r => r.isLoad || r.isStore) && (s.slogOf c k).isEmpty

/-- BAR.ARR (R231). -/
def execBarArr (b : BitVec 8) (u : Bool) (a d : BitVec 6) (s : State) : Host.Outcome State Fault Refusal :=
  issue 4 { names := [a, d], srcs := [sx a u], dsts := [d] }
    (irrevocable fun c k s =>
      if !s.barLegal c k b then .fault (mkFault clsOperand)
      else if !s.released c k then .forfeit else
      let (h, v) := s.bar c k b
      match v.arrive ((s.strand c k).rx a) with
      | .inr cls => .fault (mkFault cls)
      | .inl v' => .done ((s.setBar c h v').writeX c k d (v.gen.setWidth 64))) s

/-- BAR.WAIT (R231). -/
def execBarWait (b : BitVec 8) (u : Bool) (a : BitVec 6) (s : State) : Host.Outcome State Fault Refusal :=
  issue 4 { names := [a], srcs := [sx a u] }
    (fun c k s =>
      if !s.barLegal c k b then .fault (mkFault clsOperand) else
      let (h, v) := s.bar c k b
      if v.gen = ((s.strand c k).rx a).extractLsb' 0 16 then .park (.bar h v.gen) else .done s) s

/-- BAR.ARW (R231): it arrives with count 1, and x[RD] receives GEN once that differs from the arrival's. -/
def execBarArw (b : BitVec 8) (d : BitVec 6) (s : State) : Host.Outcome State Fault Refusal :=
  issue 4 { names := [d], dsts := [d] }
    (irrevocable fun c k s =>
      if !s.barLegal c k b then .fault (mkFault clsOperand)
      else if !s.released c k then .forfeit else
      let (h, v) := s.bar c k b
      match v.arrive 1 with
      | .inr cls => .fault (mkFault cls)
      | .inl v' =>
        let s' := s.setBar c h v'
        if v'.gen ≠ v.gen then .done (s'.writeX c k d (v'.gen.setWidth 64))
        else .waits (.barArw h v.gen d) (s'.emptyX c k d)) s

/-! ## Barrier objects (R233) -/

/-- An MBAR instruction leaves for the bank that holds its object (R203): the strand parks on the reply. -/
def mbarBody (kind : ReqKind) (va : BitVec 48) (x : Word) (d : Dest) : Body' := fun c k s =>
  if va.toNat % 16 ≠ 0 then .fault (faultAt clsAlign va)
  else if s.slogOverlap c k va 16 then .park (.slogBytes va 16)
  else match s.reach c k va 16 .w with
  | .bad cls => .fault (faultAt cls va)
  | .walk s' => .hold (.walk va) s'
  | .at' (.loc c' off) _ =>
    if clusterOf c' ≠ clusterOf c then .fault (faultAt clsOperand va)
    else if c' ≠ c ∧ !s.slotFree c k then .park .replySlot
    else
      let lim := x.extractLsb' 32 32
      let y := if kind == .mbarArr then s.beforeRelease c k else (s, s.sameLine c k (s.paOf (.loc c' off)))
      let s := y.1
      let r : Req := { s.newReq c k kind va (s.paOf (.loc c' off)) with
        size := 16, w0 := x, dest := d, slot := c' != c, parks := true, isLoad := kind == .mbarWait, isStore := kind != .mbarWait,
        after := y.2 }
      let s' := (s.emptyDest c k d).request r
      let s' := if kind == .mbarWait && lim != 0 then
          (s'.updStrand c k fun t => { t with waitTill := some (s.cycle + lim.toNat) }).push (2 * lim.toNat) .mbarWaitTimeout { c := c, k := k, n := s.nextId }
        else s'.updStrand c k fun t => { t with waitTill := none }
      .waits (.reply s.nextId 3) s'
  | .at' _ _ => .fault (faultAt clsOperand va)

/-- MBAR.INIT (R233): x[RD] is the expected count, read. -/
def execMbarInit (u : Bool) (a d : BitVec 6) (s : State) : Host.Outcome State Fault Refusal :=
  issue 4 { names := [a, d], srcs := [sx a u, s0 (.x d)] }
    (irrevocable fun c k s =>
      let t := s.strand c k
      if badCount (t.rx d) then .fault (mkFault clsOperand) else mbarBody .mbarInit (vaOf (t.rx a)) (t.rx d) .none c k s) s
/-- MBAR.ARR (R233): x[RD] is the count, read; a release. -/
def execMbarArr (u : Bool) (a d : BitVec 6) (s : State) : Host.Outcome State Fault Refusal :=
  issue 4 { names := [a, d], srcs := [sx a u, s0 (.x d)] }
    (irrevocable fun c k s =>
      let t := s.strand c k
      if badCount (t.rx d) then .fault (mkFault clsOperand) else mbarBody .mbarArr (vaOf (t.rx a)) (t.rx d) .none c k s) s
/-- MBAR.WAIT (R233): x[RD] holds phase and limit, and receives the result. -/
def execMbarWait (u : Bool) (a d : BitVec 6) (s : State) : Host.Outcome State Fault Refusal :=
  issue 4 { names := [a, d], srcs := [sx a u, s0 (.x d)], dsts := [d] }
    (fun c k s =>
      let t := s.strand c k
      mbarBody .mbarWait (vaOf (t.rx a)) (t.rx d) (.x d) c k s) s

end Sys2Proof.Machine
end

