-- ==== Sys2Proof/Machine/Slots.lean ====
section
/-! DEFINITION. Tile operands and the roles under which instructions take their slots (spec/12_tiles.md R262 to R266, R269). -/

namespace Sys2Proof.Machine

/-- The role of an instruction on a slot (R264). -/
inductive Role where
  | read | drain | fill | release | inspect
deriving DecidableEq, Repr

/-- The outcome of a role's test. -/
inductive RoleRes where
  | ok
  | fault (cls : Nat)
  | forfeit
deriving DecidableEq, Repr

/-- The test of a role on a slot that belongs to the strand (R264). -/
def Slot.role (t : Slot) (r : Role) : RoleRes :=
  let pois := if t.poison then RoleRes.fault clsData else .ok
  match r with
  | .inspect => .ok
  | .read => if t.st = 0 ∧ !t.own then .fault clsOperand else if t.st = 2 ∧ !t.own ∧ t.rdc < 7 then pois else .forfeit
  | .drain => if t.st = 0 ∧ !t.own then .fault clsOperand else if t.st = 2 ∧ !t.own ∧ t.rdc = 0 then pois else .forfeit
  | .fill => if (t.st = 0 ∨ t.st = 2) ∧ !t.own ∧ t.rdc = 0 then .ok else .forfeit
  | .release => if (t.st = 0 ∨ t.st = 2) ∧ !t.own ∧ t.rdc = 0 then .ok else .forfeit

/-- A tile operand of an instruction under a role: its slot, or how the instruction ends. TFREE alone of the release role meets
no poison fault; `free` says so. -/
def State.operandSlot (s : State) (c : CoreId) (k : StrandId) (op : Nat) (r : Role) (free : Bool := false) : Nat ⊕ Res :=
  match s.tileSlot c k op with
  | none => .inr (.fault (mkFault clsPermission))
  | some n =>
    match (s.slot c n).role r with
    | .ok => if r = .release ∧ !free ∧ (s.slot c n).poison then .inr (.fault (mkFault clsData)) else .inl n
    | .fault cls => .inr (.fault (mkFault cls))
    | .forfeit => .inr .forfeit

/-- A fill begins (R263, R273): FILLING, engine-owned, without poison; the weight-buffer entry goes. -/
def State.beginFill (s : State) (c : CoreId) (n : Nat) : State :=
  (s.updSlot c n fun t => { t with st := 1, own := true, poison := false }).updCore c fun v => v.dropWb [n]
/-- A drain begins (R263). -/
def State.beginDrain (s : State) (c : CoreId) (n : Nat) : State :=
  (s.updSlot c n fun t => { t with st := 3, own := true }).updCore c fun v => v.dropWb [n]
/-- A fill has landed (R263). -/
def State.endFill (s : State) (c : CoreId) (n : Nat) (layout : BitVec 16) (scales : List (BitVec 16)) (poison : Bool) : State :=
  s.updSlot c n fun t => { t with st := 2, own := false, layout := layout, scales := scales, poison := poison }
/-- A drain has ended (R263). -/
def State.endDrain (s : State) (c : CoreId) (n : Nat) (keep : Bool) : State :=
  s.updSlot c n fun t => { t with st := if keep then 2 else 0, own := false }
/-- A slot returned to its strand, EMPTY (R263). -/
def State.emptySlot (s : State) (c : CoreId) (n : Nat) : State := s.updSlot c n fun t => { t with st := 0, own := false }

/-- The bytes of a slot as an engine reads them, and whether a word of it is unreadable. -/
def State.slotBytes (s : State) (c : CoreId) (n : Nat) : List Byte := Memory.read s.mem (localBase c + 2048 * n) 2048
def State.slotBad (s : State) (c : CoreId) (n : Nat) : Bool := s.poisons != [] && s.poisoned (localBase c + 2048 * n) 2048

/-- A slot's bytes as an engine writes them: words written whole lose their poison. -/
def State.putSlot (s : State) (c : CoreId) (n off : Nat) (bs : List Byte) : State :=
  let a := localBase c + 2048 * n + off
  { s.clearPoison a bs.length with mem := Memory.write s.mem a bs }

/-- The copy engine has a free entry (R269). -/
def Core.copyFree (v : Core) : Bool := decide (v.copies.length < 32)

end Sys2Proof.Machine
end

