-- ==== Sys2Proof/Machine/Versions.lean ====
section
/-! DEFINITION. The version instructions as they issue (spec/10_isa_memory.md R222 to R229; spec/18_optimistic.md R346). -/

namespace Sys2Proof.Machine

/-- The home of a tile name is reached (R222, R320): its device is the own one or has a route. -/
def State.nameReached (s : State) (nm : Word) : Bool :=
  verDev nm == s.devnum || Tab.get 0#16 s.routes (verDev nm).toNat != 0#16

/-- The resources of a version instruction: ring entries of an optimistic task, a copy-engine entry, a reply slot; what it parks on. -/
def State.verParks (s : State) (c : CoreId) (k : StrandId) (copy : Bool) : Option Park :=
  if (s.strand c k).opt && !s.ringRoom c k 2 then some (.ring 2)
  else if copy && !(s.core c).copyFree then some .copy
  else if !s.slotFree c k then some .replySlot
  else none

/-- A version request: the strand parks on the version. -/
def State.verReq (s : State) (c : CoreId) (k : StrandId) (kind : ReqKind) (nm ver : Word) : Req :=
  { s.newReq c k kind 0 0 with w0 := nm, w1 := ver, slot := true, parks := true, after := [] }

/-- VERLD.EQ and VERLD.ASOF from their slot test on: the slot is FILLING from issue, the strand parks until the home grants. -/
def verldBody (kind : ReqKind) (slot : BitVec 9) (nm ver : Word) : Body' := fun c k s =>
  match s.operandSlot c k slot.toNat .fill with
  | .inr r => r
  | .inl n =>
    if !s.nameReached nm then .fault { cls := clsTranslation, addr := nm }
    else match s.verParks c k true with
    | some p => .park p
    | none =>
      let t := s.strand c k
      let s' := (s.beginFill c n).updCore c fun v =>
        { v with copies := v.copies ++ [{ op := .verld, slots := [n], job := t.job, strand := k, id := s.nextId }] }
      .waits (.reply s.nextId 2)
        (s'.request { s.verReq c k kind nm ver with dest := .slot (BitVec.ofNat 9 n), isLoad := true })

/-- VERLD.EQ (R225). -/
def execVerldEq (w u : Bool) (b a : BitVec 6) (slot : BitVec 9) (s : State) : Host.Outcome State Fault Refusal :=
  issue 4 { names := [a, b], srcs := [sx a u, sx b w] }
    (fun c k s => verldBody .verldEq slot ((s.strand c k).rx a) ((s.strand c k).rx b) c k s) s

/-- VERLD.ASOF (R226): a conservative loader with a bound at or above its own time takes the causality fault. -/
def execVerldAsof (w u : Bool) (b a : BitVec 6) (slot : BitVec 9) (s : State) : Host.Outcome State Fault Refusal :=
  issue 4 { names := [a, b], srcs := [sx a u, sx b w] }
    (fun c k s =>
      let t := s.strand c k
      if !t.opt && decide (t.vt ≤ t.rx b) then .fault (mkFault clsCausality)
      else verldBody .verldAsof slot (t.rx a) (t.rx b) c k s) s

/-- VERST and VERST.k (R224): the slot drains; the request carries its data, layout word and scales, and follows every earlier access
of the strand. -/
def execVerst (keep w u : Bool) (b a : BitVec 6) (slot : BitVec 9) (s : State) : Host.Outcome State Fault Refusal :=
  issue 4 { names := [a, b, b + 1], srcs := [sx a u, sx b w, s0 (.x (b + 1))] }
    (fun c k s =>
      let t := s.strand c k
      let nm := t.rx a; let ver := t.rx b; let n := t.rx (b + 1)
      if 65535 < n.toNat ∨ ver = 0xFFFFFFFFFFFFFFFF#64 then .fault (mkFault clsOperand)
      else if ver < t.vt then .fault (mkFault clsCausality)
      else match s.operandSlot c k slot.toNat .drain with
      | .inr r => r
      | .inl ts =>
        if !s.nameReached nm then .fault { cls := clsTranslation, addr := nm }
        else match s.verParks c k true with
        | some p => .park p
        | none =>
          let y := s.beforeRelease c k
          let s := y.1
          let x := s.slot c ts
          let tile : Tile := { bytes := s.slotBytes c ts, layout := x.layout, scales := x.scales, poison := s.slotBad c ts }
          let s' := (s.beginDrain c ts).updCore c fun v =>
            { v with copies := v.copies ++ [{ op := .verst, slots := [ts], job := t.job, strand := k, keep := keep, id := s.nextId }] }
          .waits (.reply s.nextId 2)
            (s'.request { s.verReq c k .verst nm ver with
              w2 := n, tile := tile, dest := .slot (BitVec.ofNat 9 ts), isStore := true, after := y.2 })) s

/-- VERREL (R229): an exact read without data. -/
def execVerrel (w u : Bool) (b a : BitVec 6) (s : State) : Host.Outcome State Fault Refusal :=
  issue 4 { names := [a, b], srcs := [sx a u, sx b w] }
    (fun c k s =>
      let nm := (s.strand c k).rx a
      if !s.nameReached nm then .fault { cls := clsTranslation, addr := nm }
      else match s.verParks c k false with
      | some p => .park p
      | none => .waits (.reply s.nextId 2) (s.request { s.verReq c k .verrel nm ((s.strand c k).rx b) with isLoad := true })) s

/-- VERQ (R229): a producer that does not wait. -/
def execVerq (w u : Bool) (b a d : BitVec 6) (s : State) : Host.Outcome State Fault Refusal :=
  issue 4 { names := [a, b, d], srcs := [sx a u, sx b w], dsts := [d] }
    (fun c k s =>
      let nm := (s.strand c k).rx a
      if !s.nameReached nm then .fault { cls := clsTranslation, addr := nm }
      else if !s.slotFree c k then .park .replySlot
      else .done ((s.emptyX c k d).request { s.verReq c k .verq nm ((s.strand c k).rx b) with parks := false, dest := .x d })) s

end Sys2Proof.Machine
end

