-- ==== Sys2Proof/Machine/Life.lean ====
section
/-! DEFINITION. The life of tasks: event order, arrival queues, owners, counters and retirement (spec/01_work.md R13 to R20, R27 to
R31; spec/05_placement.md R79 to R87, R421; spec/24_retire.md R413, R414). -/

namespace Sys2Proof.Machine

/-! ## Event order (R19) -/

/-- The key of an event as one number: VT, then origin, then SEQ. -/
def Task.key (t : Task) : Nat := t.vt.toNat * 2 ^ 38 + (t.odev.toNat * 4096 + t.origin.toNat) * 2 ^ 20 + t.seq.toNat
def QEntry.key (e : QEntry) : Nat := e.t.key

/-- An entry placed into a list in event order, after those that order no later. -/
def insertQ (q : List QEntry) (e : QEntry) : List QEntry :=
  match q with
  | [] => [e]
  | x :: r => if x.key ≤ e.key then x :: insertQ r e else e :: x :: r

/-! ## Live identities (R18) -/

/-- The task messages that a core's parts hold. -/
def Core.tasks (v : Core) : List QEntry :=
  v.queue ++ v.spill.flatMap (·.2) ++ v.strands.filterMap (fun e => e.2.task) ++ v.rings.map (·.t) ++ v.sendBuf.map (·.t)

/-- The task messages in transit, waiting at the management core, or held by cores. -/
def State.allTasks (s : State) : List QEntry :=
  s.cores.flatMap (fun e => e.2.tasks) ++
  s.msgs.flatMap (fun e => match e.2.body with | .task q _ => [q] | .shipped q _ _ => q.toList | _ => []) ++
  s.jobs.flatMap (fun e => (e.2.launches.flatMap fun l => l.2.waiting ++ l.2.entryTask.toList) ++ e.2.saved.tasks.map (fun x => x.2.2.1) ++
    e.2.saved.rings.map fun x => x.2.t)

/-- A message of an identity is live, of either sign. -/
def State.identLive (s : State) (i : Ident) : Bool := s.allTasks.any fun q => q.t.ident == i

/-- The core's next sequence value belongs to no live message (R18). -/
def State.seqFree (s : State) (c : CoreId) : Bool := !s.identLive ⟨s.devnum, c, (s.core c).seq⟩

/-- The send buffer has room (R421): a LAUNCH whose launch is not created yet holds an entry too, that of its entry task's message. -/
def Core.sendRoom (v : Core) : Bool := decide (v.sendBuf.length + (v.reqs.filter fun r => r.kind == .launch && r.w2 == 0).length < 16)

/-- The entry task's message of a LAUNCH of a strand is in the send buffer: its request holds no entry any more (R421). -/
def Core.launchSent (v : Core) (k : StrandId) : Core :=
  { v with reqs := v.reqs.map fun r => if r.kind == .launch && r.strand == k then { r with w2 := 1 } else r }

/-! ## Owners and destinations (R86, R87) -/

/-- The n-th set bit of a mask, counting from the lowest. -/
def nthSet (m : BitVec 64) (n : Nat) : Nat := (bitsOf m)[n]?.getD 0

/-- A launch has cores to run on. A record with V = 1 whose CMASK or CORES is 0 binds it to none: its tasks wait at the management core (DESIGN
CHOICE, log 19). -/
def Launch.isBound (x : Launch) : Bool := x.bound.isSome && x.cmask != 0 && x.cores != 0
def Launch.boundTo (x : Launch) (c : CoreId) : Bool :=
  x.isBound && x.cmask.getLsbD (c.toNat / 64) && x.cores.getLsbD (c.toNat % 64)

/-- The cores that a launch is bound to. -/
def Launch.coreList (x : Launch) : List CoreId :=
  if x.isBound then (bitsOf x.cmask).flatMap fun cl => (bitsOf x.cores).map fun k => coreIn (BitVec.ofNat 6 cl) k else []

/-- The hash of R87. -/
def Launch.hashed (x : Launch) (a : BitVec 48) : CoreId :=
  let g := (a.toNat / 128) % 2 ^ 41
  let h := (g % 65536) ^^^ (g / 65536 % 65536) ^^^ (g / 2 ^ 32)
  let nc := (bitsOf x.cmask).length
  let nk := (bitsOf x.cores).length
  BitVec.ofNat 12 (nthSet x.cmask (h % nc) * 64 + nthSet x.cores (h / nc % nk))

/-- owner(a), computed by a core (R87). -/
def Launch.owner (x : Launch) (c : CoreId) (a : BitVec 48) : CoreId :=
  match windowOf c a with
  | some (c', off) => if off < 0xC0000 ∧ x.boundTo c' then c' else x.hashed a
  | none => x.hashed a

/-- owner(ident) (R87). -/
def Launch.ownerIdent (x : Launch) (i : Ident) : CoreId :=
  x.hashed (BitVec.ofNat 48 ((i.origin.toNat * 2 ^ 20 + i.seq.toNat) * 128))

/-- The entry task's pc in local code (R74). -/
def Launch.localPc (x : Launch) (q : QEntry) : QEntry :=
  if q.t.kind = 0x13#6 ∧ x.codeb ≠ 0 then { q with t := { q.t with pc := 0x7FFFFFF00000#48 + BitVec.ofNat 48 x.codeoff + x.entry.setWidth 48 } } else q

/-- The destination core of a task message (R86); none: the management core. -/
def Launch.destOf (x : Launch) (c : CoreId) (t : Task) : Option CoreId :=
  if !x.isBound then none
  else if t.kind = 0x10#6 then some (if x.boundTo c then c else x.ownerIdent t.ident)
  else if t.kind = 0x11#6 ∨ t.kind = 0x12#6 then some (x.owner c t.dest)
  else some (x.ownerIdent t.ident)

/-! ## Shares (R23 to R25) -/

/-- Slots of 2 KiB that some bytes take. -/
def slotCount (bytes : Nat) : Nat := (bytes + 2047) / 2048

/-- Slots of the code copy and of the ring, slots of a strand's share, pool entries of a strand. -/
def Launch.coreSlots (x : Launch) : Nat := slotCount x.codeb + (if x.opt then slotCount x.ringb else 0)
def Launch.shareSlots (x : Launch) : Nat := x.ntile + slotCount x.scrb
def Launch.poolShare (x : Launch) : Nat := 8 * ((x.nreg + 7) / 8)

/-- The residency s of a launch on an otherwise empty core (R24). -/
def Launch.residency (x : Launch) : Nat :=
  let a := min 16 (if x.maxs = 0 then 16 else x.maxs)
  let b := if x.poolShare = 0 then a else min a (768 / x.poolShare)
  if 384 < x.coreSlots then 0
  else if x.shareSlots = 0 then b else min b ((384 - x.coreSlots) / x.shareSlots)

/-- e of R25: the strands per core of a launch. -/
def Launch.strandsPerCore (x : Launch) : Nat := min x.residency (if x.bmaxs = 0 then 16 else x.bmaxs)

/-! ## Counters (R28, R29, R414) -/

/-- A live launch of a job that has not completed (R14, R159). -/
def Job.live (v : Job) (l : Lslot) : Bool := Tab.has v.launches l.toNat && !(v.launch l).complete

/-- A task is created into a launch: the launch's counter and that of the phase that contains its time. -/
def State.born (s : State) (j : JobId) (l : Lslot) (vt : Word) : State :=
  (s.updLaunch j l fun x => { x with count := x.count + 1 }).updJob j fun v =>
    if v.phases.any (·.has vt) then { v with phases := v.phases.map fun p => if p.has vt then { p with count := p.count + 1 } else p }
    else { v with early := vt :: v.early }

/-- A task of a job that left by MIGRATE is DONE and has not committed (R351, R364): it holds no count, but its commit precedes the completion of
its launch and of its phase (R376). -/
def State.uncommitted (s : State) (j : JobId) (sel : Block → Bool) : Bool :=
  s.cores.any fun e => e.2.rings.any fun b => b.migrated && b.job == j && sel b

/-- Every task of a launch has retired, and every one that left by MIGRATE has committed or been cancelled. -/
def State.launchOver (s : State) (j : JobId) (l : Lslot) : Bool :=
  (s.launch j l).count == 0 && !s.uncommitted j fun b => b.lslot == l

/-- Every task of a phase has retired and committed, and GVT as the management core has received it has reached the phase's end (R31, R357). -/
def State.phaseOver (s : State) (j : JobId) (p : Phase) : Bool :=
  p.count == 0 && decide (p.stop ≤ ((s.job j).leaf .mgmt).gvt) && !s.uncommitted j fun b => p.has b.t.t.vt

/-- A launch whose counter is 0 completes; so does a phase that GVT has passed (R28, R31). -/
def State.checkDone (s : State) (j : JobId) (l : Lslot) : State :=
  let v := s.job j
  let t := if v.live l && s.launchOver j l then s.soon .launchCompletion { j := j, l := l } else s
  (v.phases.filter fun p => !p.complete && s.phaseOver j p).foldl (fun s p => s.soon .phaseCompletion { j := j, w0 := p.start }) t

/-- A launch's counter falls by one without a retirement (R351: a dropped deferred spawn; R304: a DECODE). -/
def State.uncount (s : State) (j : JobId) (l : Lslot) : State :=
  (s.updLaunch j l fun x => { x with count := x.count - 1 }).checkDone j l

/-- One retirement in the counts of a level (R77). -/
def Counts.retire (x : Counts) : Counts := { x with retired := x.retired + 1 }

/-- A phase or the early tasks lose a task of a time. -/
def Job.leavePhase (v : Job) (vt : Word) : Job :=
  if v.phases.any (·.has vt) then { v with phases := v.phases.map fun p => if p.has vt then { p with count := p.count - 1 } else p }
  else { v with early := v.early.erase vt }

/-- RETIRED of every level counts a retirement (R414). -/
def State.countRetired (s : State) (j : JobId) (l : Lslot) (vt : Word) : State :=
  let g := (s.launch j l).graph
  (s.updLaunch j l fun x => { x with c := x.c.retire }).updJob j fun v =>
    { v with graphs := match g with | some g => Tab.upd {} v.graphs g.toNat fun x => { x with c := x.c.retire } | none => v.graphs
             phases := v.phases.map fun p => if p.has vt then { p with c := p.c.retire } else p
             c := v.c.retire }

/-- A task retires (R27): counted once at every level, its launch and phase counters fall. -/
def State.retire (s : State) (j : JobId) (l : Lslot) (vt : Word) : State :=
  (((s.countRetired j l vt).updJob j fun v => v.leavePhase vt).updLaunch j l fun x => { x with count := x.count - 1 }).checkDone j l

/-! ## Arrival queues and spill areas (R79 to R81) -/

/-- SPMIN of a core's spill area: the key of its lowest entry. -/
def Core.spmin (v : Core) (j : JobId) : Option Nat := ((Tab.get [] v.spill j.toNat).map QEntry.key).min?

def Core.putQueue (v : Core) (e : QEntry) : Core := { v with queue := insertQ v.queue e }
def Core.putSpill (v : Core) (j : JobId) (e : QEntry) : Core :=
  { v with spill := Tab.put v.spill j.toNat (insertQ (Tab.get [] v.spill j.toNat) e) }

/-- The spill area has room for an entry of a sign (R80): 4,096 entries, the last 512 for anti-messages. -/
def Core.spillRoom (v : Core) (j : JobId) (anti : Bool) : Bool :=
  let es := Tab.get [] v.spill j.toNat
  if anti then decide (es.length < 4096) else decide ((es.filter fun e => !e.t.anti).length < 3584) && decide (es.length < 4096)

/-- The class of the fault that the access to an entry of the spill area of a core for a job meets: of its translation, or, on a read, of its
data. The entries lie from the start of the area (R80; DESIGN CHOICE, log 19). -/
def State.spillEntryFault (s : State) (c : CoreId) (j : JobId) (need : Need) (n : Nat) : Option Nat :=
  match s.translateNow c false j ((s.job j).jspill + BitVec.ofNat 48 (0x80000 * c.toNat + 128 * n)) need with
  | (.fault cls, _) => some cls
  | (.ok pa _, s') =>
    match s'.place pa with
    | .inr cls => some cls
    | .inl _ => if need == .r && s.poisoned (offOf pa) 128 then some clsData else none
  | _ => none

/-- The fault of a spill write of one more entry, or of a read of the lowest one (R81). -/
def State.spillFault (s : State) (c : CoreId) (j : JobId) (need : Need) : Option Nat :=
  s.spillEntryFault c j need (if need == .w then (Tab.get [] (s.core c).spill j.toNat).length else 0)

/-- An entry written to the spill area, which leaves the core as `v`: its 128 bytes are the device's own, and the write clears their poison
(R80, R207). -/
def State.spillWrite (s : State) (c : CoreId) (j : JobId) (v : Core) : State :=
  let n := (Tab.get [] (s.core c).spill j.toNat).length
  let s' := s.setCore c v
  match s.translateNow c false j ((s.job j).jspill + BitVec.ofNat 48 (0x80000 * c.toNat + 128 * n)) .w with
  | (.ok pa _, _) =>
    if devOf pa = s.devnum then
      { s'.clearPoison (offOf pa) 128 with mem := Memory.write s.mem (offOf pa) ((List.range 128).map fun i => s.freeByte (offOf pa + i)) }
    else s'
  | _ => s'

/-- Where a positive entry goes (R81). -/
inductive Placed where
  | queue (v : Core)
  /-- An entry is written to the spill area. -/
  | spill (v : Core)
  | full

/-- A positive that no twin meets, placed by R81. -/
def Core.place (v : Core) (j : JobId) (e : QEntry) : Placed :=
  let after := match v.spmin j with | some m => decide (m < e.key) | none => false
  if after then (if v.spillRoom j false then .spill (v.putSpill j e) else .full)
  else if v.queue.length < 56 then .queue (v.putQueue e)
  else if !v.spillRoom j false then .full
  else
    match (v.queue.filter fun x => x.t.job == j && !x.t.anti).getLast? with
    | some hi =>
      if e.key < hi.key then .spill ((({ v with queue := v.queue.filter fun x => x != hi } : Core).putQueue e).putSpill j hi)
      else .spill (v.putSpill j e)
    | none => .spill (v.putSpill j e)

/-- The dispenser of a core's cluster has been stopped for a job (R394). -/
def State.cutAt (s : State) (c : CoreId) (j : JobId) : Bool := ((s.job j).leaf (.dispenser (clusterOf c))).stopped

/-- Where a positive goes at a core: by R81, or into the spill area while its dispenser is stopped (R394). -/
def State.placeIn (s : State) (c : CoreId) (e : QEntry) : Placed :=
  let v := s.core c
  if !s.cutAt c e.t.job then v.place e.t.job e
  else if v.spillRoom e.t.job false then .spill (v.putSpill e.t.job e) else .full

/-- An entry has room in a core's queue or spill area; during a stop a full area cancels the job instead. -/
def State.roomFor (s : State) (c : CoreId) (e : QEntry) : Bool := s.cutAt c e.t.job || match s.placeIn c e with | .full => false | _ => true

/-- A task set aside or requeued enters its own core's queue or spill area as an arrival does (R79, R81, R86, R350), where it has room. A spill
write that faults, or that finds the area full in a stop, is taken, with its class, by the dispenser's next step. -/
def State.requeue (s : State) (c : CoreId) (e : QEntry) : State :=
  match s.placeIn c e with
  | .queue v => s.setCore c v
  | .spill v =>
    match s.spillFault c e.t.job .w with
    | some cls => (s.setCore c v).soon .spillRefill { c := c, j := e.t.job, v := 1, n := cls }
    | none => s.spillWrite c e.t.job v
  | .full => if s.cutAt c e.t.job then (s.updCore c fun v => v.putQueue e).soon .spillRefill { c := c, j := e.t.job, v := 2 } else s

/-! ## The end of a run (R161) -/

/-- The conditions under which a run may end (R161): no destination empty, no reply outstanding, no side-log entry. -/
def State.quiet (s : State) (c : CoreId) (k : StrandId) : Bool :=
  let t := s.strand c k
  ((t.xF ||| 0x8000000000000000#64) == BitVec.allOnes 64) && t.aF == BitVec.allOnes 16 && t.mF == BitVec.allOnes 8 && t.pend.isEmpty &&
    !((s.strandReqs c k).any fun r => r.slot || r.isLoad) && (s.slogOf c k).isEmpty

/-- The slots that stopped transposing TLOADs of a strand left FILLING (R290). -/
def Core.leftFilling (v : Core) (k : StrandId) : List Nat :=
  (v.tiles.filter fun e => e.2.strand == k && e.2.use == 1 && e.2.st == 1 && e.2.own && !(v.copies.any fun x => x.slots.contains e.1) &&
    !((v.mq ++ v.mrun.toList).any fun m => match m.op with | .twb a .. => a == e.1 | _ => false)).map (·.1)

/-- A slot that a stopped transposing TLOAD of the strand left FILLING becomes EMPTY, its bytes undefined (R290). -/
def State.dropTranspose (s : State) (c : CoreId) (k : StrandId) : State :=
  ((s.core c).leftFilling k).foldl (fun s n =>
    s.emptySlot c n |>.putSlot c n 0 ((List.range 2048).map fun i => s.freeByte (localBase c + 2048 * n + i))) s

/-- The strand becomes idle; its iteration state is discarded (R161). -/
def State.endRun (s : State) (c : CoreId) (k : StrandId) : State :=
  (s.dropTranspose c k).updStrand c k fun t =>
    { t with st := .idle, park := .none, held := .none, task := none, cur := 0, endv := 0, buf := [], ann := 0, marked := [], froze := none,
             walked := none, waitTill := none, killAt := none, rollAt := none, waitNf := false }

/-- The lowest of x1 to x6 that cannot be read, as its pool entry holds an uncorrectable error: the data-error fault of the instruction that writes
the record (R388). -/
def State.badArg (s : State) (c : CoreId) (k : StrandId) : Option Fault' :=
  let t := s.strand c k
  (((List.range 6).filter fun n => decide (n + 1 ≤ (s.launchOf t).nreg) && t.badX.contains (n + 1)).head?).map fun n =>
    { cls := clsData, info := BitVec.ofNat 16 (n + 1) }

/-- x1 to x6 of a strand as arguments; 0 beyond NREG (R160, R161). -/
def State.argsOf (s : State) (c : CoreId) (k : StrandId) : List Word :=
  let t := s.strand c k
  (List.range 6).map fun n => if n + 1 ≤ (s.launchOf t).nreg then t.rx (BitVec.ofNat 6 (n + 1)) else 0

/-- The task of a strand written back into its core's queue, with a hold (R161, R162). -/
def State.writeBack (s : State) (c : CoreId) (k : StrandId) (hold : Hold) : State :=
  let t := s.strand c k
  match t.task with
  | none => s.endRun c k
  | some q =>
    let q' := { q with t := { q.t with pc := t.pc + 4, args := s.argsOf c k }, hold := hold, block := t.opt }
    let s := (s.endRun c k).requeue c q'
    if t.opt then s.updBlock c q.t.ident fun b => { b with ts := .writtenBack, strand := none } else s

/-! ## Sending (R421) -/

/-- A task message enters the send buffer of its core; it leaves after some requests. -/
def State.enterSend (s : State) (c : CoreId) (k : StrandId) (q : QEntry) (to' : Option CoreId) (ids : List Nat) : State :=
  let m := s.nextId
  let s := (s.bumpId).updCore c fun v => { v with sendBuf := v.sendBuf ++ [{ m := m, t := q, strand := k, to' := to', after := ids }] }
  if ids.isEmpty then s.soon .sendBufferDeparture { c := c, n := m } else s

/-- A task message sent by a strand: it follows every earlier access of its creating strand (R331). -/
def State.sendTask (s : State) (c : CoreId) (k : StrandId) (q : QEntry) (to' : Option CoreId) : State :=
  let (s, ids) := s.beforeRelease c k
  s.enterSend c k q to' ids

end Sys2Proof.Machine
end

