-- ==== Sys2Proof/Machine/Tasks.lean ====
section
/-! DEFINITION. The task instructions and RESIZE as they issue (spec/08_isa_scalar.md R140, R141, R157 to R169). -/

namespace Sys2Proof.Machine

/-! ## Creating tasks (R159) -/

/-- The registers x[RD] to x[RD + 5] that hold arguments (R158). -/
def argRegs (d : XReg) : List XReg := if d = 0 then [] else (List.range 6).map fun n => d + BitVec.ofNat 6 n

/-- SPAWN and SPAWNA. -/
def opSpawn (kind : BitVec 6) (w u : Bool) (b a d : XReg) (s : State) : Host.Outcome State Fault Refusal :=
  issue 4 { names := [a, b] ++ argRegs d, srcs := [sx a u, sx b w] ++ (argRegs d).map fun r => s0 (.x r) }
    (fun c k s =>
      let t := s.strand c k
      let x := t.rx a; let vt := t.rx b
      let j := t.job
      let tl : Lslot := if x.getLsbD 0 then x.extractLsb' 48 16 else t.lslot
      let l := s.launch j tl
      if vt < t.vt then .fault (mkFault clsCausality)
      else if !(s.job j).live tl then .fault (mkFault clsOperand)
      else if l.opt && vt == 0xFFFFFFFFFFFFFFFF#64 then .fault (mkFault clsCausality)
      else
        let defer := t.opt && !l.opt
        let args := if d = 0 then [0, 0, 0, 0, 0, 0] else (argRegs d).map t.rx
        let need := if defer then 5 else 1
        let rec' : Task := { kind := kind, job := j, opt := l.opt, dest := if kind = 0x11#6 then vaOf (args.headD 0) else 0, lslot := tl,
                             pc := (vaOf x) &&& ~~~1#48, vt := vt, args := args }
        if !defer && (!s.seqFree c || !(s.core c).sendRoom) then .park .send
        else if t.opt && !s.ringRoom c k need then .park (.ring need)
        else
          let s := s.born j tl vt
          if defer then .done (s.logAppend c k (.spawn rec'))
          else
            let seq := (s.core c).seq
            let tk := { rec' with odev := s.devnum, origin := c, seq := seq }
            let to' := l.destOf c tk
            let s := s.updCore c fun v => { v with seq := v.seq + 1 }
            let s := if t.opt then s.logAppend c k (.sent vt (to'.getD 0) s.devnum kind seq to'.isNone tl) else s
            .done (s.sendTask c k { t := tk, pinned := kind == 0x11#6 } to')) s

/-- SPAWN (R159). -/
def execSpawn (w u : Bool) (b a d : BitVec 6) (s : State) : Host.Outcome State Fault Refusal := opSpawn 0x10#6 w u b a d s
/-- SPAWNA (R159). -/
def execSpawna (w u : Bool) (b a d : BitVec 6) (s : State) : Host.Outcome State Fault Refusal := opSpawn 0x11#6 w u b a d s

/-! ## Ending and setting aside a run (R160 to R164) -/

/-- A body that ends the run: it parks until the conditions of R161 hold. -/
def whenQuiet (body : Body') : Body' := fun c k s => if s.quiet c k then body c k s else .park .quiet

/-- The task on a strand can be written back: its core's queue or spill area has room (R79, R80). Until it has, YIELD, SUSPEND and WAITW forfeit
the slot (DESIGN CHOICE, log 19). -/
def State.mayWriteBack (s : State) (c : CoreId) (k : StrandId) : Bool := match (s.strand c k).task with | some q => s.roomFor c q | none => true

/-- MIGRATE (R160): the continuation takes over the launch count. It creates a task message, so that an optimistic one at VT never raises the
causality fault (R15). -/
def execMigrate (u : Bool) (a : BitVec 6) (s : State) : Host.Outcome State Fault Refusal :=
  issue 4 { names := [a], srcs := [sx a u] }
    (whenQuiet fun c k s =>
      let t := s.strand c k
      match s.badArg c k with
      | some f => .fault f
      | none =>
        if t.opt && t.vt == 0xFFFFFFFFFFFFFFFF#64 then .fault (mkFault clsCausality)
        else if !s.seqFree c || !(s.core c).sendRoom then .park .send
        else if t.opt && !s.ringRoom c k 1 then .park (.ring 1)
        else
          let seq := (s.core c).seq
          let tk : Task := { odev := s.devnum, origin := c, seq := seq, kind := 0x12#6, job := t.job, opt := t.opt, dest := vaOf (t.rx a),
                             lslot := t.lslot, pc := t.pc + 4, vt := t.vt, args := s.argsOf c k }
          let to' := (s.launchOf t).destOf c tk
          let s := s.updCore c fun v => { v with seq := v.seq + 1 }
          let s := if t.opt then s.logAppend c k (.sent t.vt (to'.getD 0) s.devnum 0x12#6 seq to'.isNone t.lslot) else s.countRetired t.job t.lslot t.vt
          let s := s.sendTask c k { t := tk, pinned := true } to'
          let s := if t.opt then s.updBlock c t.ident fun b => { b with ts := .done, migrated := true, strand := none } else s
          .issued (s.endRun c k)) s

/-- EXIT (R161): a conservative task retires; an optimistic one is DONE, and commits at once below GVT (R364). -/
def execExit (s : State) : Host.Outcome State Fault Refusal :=
  issue 4 {}
    (whenQuiet fun c k s =>
      let t := s.strand c k
      if t.opt then
        let s := (s.updBlock c t.ident fun b => { b with ts := .done, strand := none }).endRun c k
        let g := ((s.job t.job).leaf (.core c)).gvt
        .issued (if t.vt < g then s.soon .commitStep { c := c, t := t.ident } else s)
      else .issued ((s.endRun c k).retire t.job t.lslot t.vt)) s

/-- A body that writes the task back with its registers x1 to x6: it parks until the conditions of R161 hold, and a register that cannot be read
faults (R388). -/
def whenWritable (body : Body') : Body' := whenQuiet fun c k s => match s.badArg c k with | some f => .fault f | none => body c k s

/-- YIELD (R161): the entry is eligible at once. -/
def execYield (s : State) : Host.Outcome State Fault Refusal :=
  issue 4 {} (whenWritable fun c k s => if s.mayWriteBack c k then .issued (s.writeBack c k .none) else .forfeit) s

/-- The handle of a suspended task (R163). -/
def handleOf (dev : BitVec 6) (c : CoreId) (i : Ident) (j : JobId) : Word := dev ++ c ++ i.odev ++ i.origin ++ i.seq ++ j ++ 0#4

/-- SUSPEND (R163): the task is written back and held, then its handle is stored by an STFF with release. A handle store that fails
translation enters the side log. -/
def execSuspend (u : Bool) (a : BitVec 6) (s : State) : Host.Outcome State Fault Refusal :=
  issue 4 { names := [a], srcs := [sx a u] }
    (irrevocable fun c k s =>
      let t := s.strand c k
      let va := vaOf (t.rx a)
      let h := handleOf s.devnum c t.ident t.job
      if va.toNat % 8 ≠ 0 then .fault (faultAt clsAlign va)
      else
        let log := fun (cls : Nat) (quiet : Bool) => (whenWritable fun c k s =>
          if !s.mayWriteBack c k then .forfeit
          else match s.sideLog c k 10 3 va (h.setWidth 128) none cls quiet with
            | some s' => .issued (s'.writeBack c k .suspend)
            | none => .park (.slog false)) c k s
        let store := fun (s : State) (pa : BitVec 52) (nc : Bool) (leaf : Word) => (whenWritable fun c k s =>
          if !s.mayWriteBack c k then .forfeit
          else
            let y := (if nc then s.surrender c k (offOf pa / 128) else s).beforeRelease c k
            let r : Req := { s.newReq c k .stff va pa with size := 8, w0 := h, w2 := 1, nc := nc, isStore := true, after := y.2 }
            .issued ((y.1.request (r.by leaf)).writeBack c k .suspend)) c k s
        match s.reach c k va 8 .w with
        | .bad cls => if sideLogged cls then log cls false else .fault (faultAt cls va)
        | .walk s' => .hold (.walk va) s'
        | .at' (.host _) _ => .fault (faultAt clsUnsupported va)
        | .at' (.own pa) leaf => store s pa (s.nonCoherent t.job va leaf) leaf
        | .at' x leaf => store s (s.paOf x) false leaf) s

/-- WAITW (R164): the task is written back and held, and its entry registered at the home of the word. -/
def execWaitw (u : Bool) (a : BitVec 6) (s : State) : Host.Outcome State Fault Refusal :=
  issue 4 { names := [a], srcs := [sx a u] }
    (irrevocable fun c k s =>
      let t := s.strand c k
      let va := vaOf (t.rx a)
      if va.toNat % 8 ≠ 0 then .fault (faultAt clsAlign va)
      else
        let go := fun (x : Target) (leaf : Word) => (whenWritable fun c k s =>
          if !s.mayWriteBack c k then .forfeit
          else
            let r : Req := { s.newReq c k .waitw va (s.paOf x) with size := 8, after := [] }
            .issued ((s.request (r.by leaf)).writeBack c k .waitw)) c k s
        match s.reach c k va 8 .r with
        | .bad cls => .fault (faultAt cls va)
        | .walk s' => .hold (.walk va) s'
        | .at' (.host _) _ => .fault (faultAt clsUnsupported va)
        | .at' x leaf => go x leaf) s

/-! ## Requests to other agents (R140, R157, R165 to R167) -/

/-- A producer whose result comes with the reply of an agent (R140). -/
def State.askAgent (s : State) (c : CoreId) (k : StrandId) (d : XReg) (r : Req) : Res :=
  if !s.slotFree c k then .park .replySlot else .done ((s.emptyX c k d).request { r with dest := .x d, slot := true, after := [] })

/-- RESUMEC (R165). -/
def execResumec (u : Bool) (a d : BitVec 6) (s : State) : Host.Outcome State Fault Refusal :=
  issue 4 { names := [a, d], srcs := [sx a u], dsts := [d] }
    (irrevocable fun c k s =>
      let h := (s.strand c k).rx a
      let dev := h.extractLsb' 58 6
      if dev != s.devnum && Tab.get 0#16 s.routes dev.toNat == 0#16 then .fault { cls := clsTranslation, addr := h }
      else s.askAgent c k d { s.newReq c k .resumec 0 0 with w0 := h }) s

/-- LAUNCH (R166): the management core reads the descriptor and creates the launch; the strand waits for its reply. The entry task's
message is a release (R331) and holds a send-buffer entry (R421). -/
def execLaunch (u : Bool) (a d : BitVec 6) (s : State) : Host.Outcome State Fault Refusal :=
  issue 4 { names := [a, d], srcs := [sx a u], dsts := [d] }
    (irrevocable fun c k s =>
      let va := vaOf ((s.strand c k).rx a)
      if va.toNat % 64 ≠ 0 then .fault (faultAt clsAlign va)
      else if !s.seqFree c || !(s.core c).sendRoom then .park .send
      else if !s.slotFree c k then .park .replySlot
      else
        let y := s.beforeRelease c k
        let s := y.1
        .waits (.reply s.nextId 6) ((s.emptyX c k d).request
          { s.newReq c k .launch va 0 with
            w0 := (s.strand c k).rx a, dest := .x d, slot := true, parks := true, after := y.2 })) s

/-- CANCEL (R167). -/
def execCancel (w u : Bool) (b a d : BitVec 6) (s : State) : Host.Outcome State Fault Refusal :=
  issue 4 { names := [a, b, d], srcs := [sx a u, sx b w], dsts := [d] }
    (irrevocable fun c k s =>
      let t := s.strand c k
      s.askAgent c k d { s.newReq c k .cancel 0 0 with w0 := t.rx a, w1 := t.rx b &&& 3 }) s

/-- RESIZE (R157). -/
def execResize (u : Bool) (a d : BitVec 6) (s : State) : Host.Outcome State Fault Refusal :=
  issue 4 { names := [a, d], srcs := [sx a u], dsts := [d] }
    (irrevocable fun c k s =>
      let t := s.strand c k
      if !(s.job t.job).policy.getLsbD 63 then .fault (mkFault clsPrivileged)
      else s.askAgent c k d { s.newReq c k .resize 0 0 with w0 := BitVec.ofNat 64 (min (t.rx a).toNat 15) }) s

/-! ## Iteration (R168, R169) -/

/-- A claim is under way for the strand. -/
def State.claiming (s : State) (c : CoreId) (k : StrandId) : Bool :=
  (s.strandReqs c k).any fun r => match r.kind with | .claim _ => true | _ => false

/-- A claim of a chunk from the nest descriptor at an address. -/
def claimBody (iter : Bool) (xa w2 : Word) (d : XReg) : Body' := fun c k s =>
  let va := vaOf xa
  if va.toNat % 64 ≠ 0 then .fault (faultAt clsAlign va)
  else
    let go := fun (s : State) (pa : BitVec 52) (nc : Bool) (leaf : Word) =>
      if !s.slotFree c k then Res.park .replySlot
      else
        let s' := s.emptyX c k d
        let s' := if iter then s' else s'.updStrand c k fun t => { t with iF := 0 }
        let r : Req := { s.newReq c k (.claim iter) va pa with
          size := 64, w0 := xa, w2 := w2, dest := .x d, nc := nc, slot := true, parks := !iter, isLoad := true }
        let s'' := s'.request (r.by leaf)
        if iter then .done s'' else .waits (.reply s.nextId 1) s''
    homeOp { log := none, need := .w, bank := fun off s => go s (s.paOf (.loc c off)) false 0, send := go } va c k s

/-- ITER (R168). -/
def execIter (u : Bool) (a d : BitVec 6) (s : State) : Host.Outcome State Fault Refusal :=
  issue 4 { names := [a, d], srcs := [sx a u], dsts := [d] }
    (irrevocable fun c k s => if s.claiming c k then .forfeit else claimBody true ((s.strand c k).rx a) 0 d c k s) s

/-- A 16-bit extent of a nest, 0 counting as 1 (R92). -/
def extent (e : Word) (n : Nat) : Nat := let x := (e.extractLsb' (16 * n) 16).toNat; if x = 0 then 1 else x

/-- The index registers take the indices of L, and the strand goes past it (R93, R169). -/
def Strand.takeIndex (t : Strand) : Strand :=
  let l := t.cur.toNat
  let n0 := extent t.ext 0; let n1 := extent t.ext 1; let n2 := extent t.ext 2; let n3 := extent t.ext 3
  { (((t.putI 0 (BitVec.ofNat 64 (l % n0))).putI 1 (BitVec.ofNat 64 (l / n0 % n1))).putI 2
      (BitVec.ofNat 64 (l / (n0 * n1) % n2))).putI 3 (BitVec.ofNat 64 (l / (n0 * n1 * n2) % n3)) with iF := 0xF#4, cur := t.cur + 1 }

/-- ITERN hands out index L (R93, R169): x[RD] and i0 to i3 are written and full. -/
def State.handOut (s : State) (c : CoreId) (k : StrandId) (d : XReg) : State :=
  (s.writeX c k d (s.strand c k).cur).updStrand c k Strand.takeIndex

/-- ITERN (R169). -/
def execItern (i : BitVec 12) (u : Bool) (a d : BitVec 6) (s : State) : Host.Outcome State Fault Refusal :=
  issue 4 { names := [a, d], srcs := [sx a u], dsts := [d] }
    (fun c k s =>
      let t := s.strand c k
      let x := t.rx a
      if s.claiming c k then .forfeit
      else if x ≠ t.desc ∨ t.endv ≤ t.cur then
        if t.opt then .fault (mkFault clsIrrevocable) else claimBody false x (simm i) d c k s
      else .done (s.handOut c k d)) s

end Sys2Proof.Machine
end

