-- ==== Sys2Proof/Machine/Home.lean ====
section
/-! DEFINITION. What a home does: memory by physical address, logical times, the trace ring, stale translations, full-empty words
(spec/09_memory.md R180, R184 to R192, R199, R200; spec/10_isa_memory.md R207, R216 to R220; spec/08_isa_scalar.md R164;
spec/04_launch.md R68; notes/assumptions 2, 7, 17). -/

namespace Sys2Proof.Machine

/-! ## Memory by physical offset -/

/-- The n bytes at an offset of the device, read under a key. -/
def State.memRead (s : State) (key : Option Key) (a n : Nat) : List Byte :=
  if isTier a then s.tierRead key a n
  else if isLocal a then s.localRead (localCore a) (localOff a) n
  else Memory.read s.mem a n

/-- The poisoned words of the 128-byte line of an offset. -/
def State.memPois (s : State) (a : Nat) : BitVec 16 :=
  if s.lostAt a then BitVec.allOnes 16
  else if isLocal a then s.localPois (localCore a) (localOff a / 128 * 128) else s.pois128 (a / 128 * 128)

/-- n bytes at an offset touch a poisoned word. -/
def State.memBad (s : State) (a n : Nat) : Bool :=
  s.lostAt a || if isLocal a then s.localBad (localCore a) (localOff a) n else s.poisoned a n

/-- Bytes stored at an offset under a key; words written whole lose their poison (R207). -/
def State.memWrite (s : State) (key : Option Key) (a : Nat) (bs : List Byte) : State :=
  if isTier a then (s.tierWrite key a bs).clearPoison a bs.length
  else if isLocal a then s.localWrite (localCore a) (localOff a) bs
  else { s with mem := Memory.write s.mem a bs }

/-- The bytes of a line whose mask bit is set stored under a key; words covered whole take the poison that comes with them. -/
def State.memMerge (s : State) (key : Option Key) (ln : Nat) (l : Line) (mask : BitVec 128) (p : BitVec 16) : State :=
  let a := 128 * ln
  let old : Line := leBits 1024 (s.memRead key a 128)
  let s' := s.tierWrite key a (bytesOf 128 (mergeLine old l mask))
  if s'.poisons = [] ∧ p = 0 then s' else
  let whole := (List.range 16).filter fun w => mask.extractLsb' (8 * w) 8 == 0xFF#8
  (s'.setPoison ((whole.filter fun w => !p.getLsbD w).map (a / 8 + ·)) false).setPoison ((whole.filter fun w => p.getLsbD w).map (a / 8 + ·)) true

/-! ## Logical times, trace, stale translations -/

/-- A line of a tier about to be written in its slice: dirty, with the job of its key (R199, R201); what memory holds of it is kept. -/
def State.soil (s : State) (j : JobId) (pln : Bool) (a : Nat) : State :=
  let raw := s.rawLine (a / 128)
  s.updLine (a / 128) fun h => { h with old := some (h.old.getD raw), key := s.keyTag j pln }

/-- The logical time that a read of a word outside the tiers hands on (R330, R335; DEDUCED, log 17): that of the owning core, of host memory that of
its writers. -/
def State.wordTime (s : State) (a : Nat) : Word := if isLocal a then (s.core (localCore a)).pts else if isHost a then s.hostTs else 0

/-- The logical time that a write of such a word leaves there. -/
def State.leaveTime (s : State) (a : Nat) (t : Word) : State :=
  if isLocal a then s.updCore (localCore a) fun v => { v with pts := wmax v.pts t }
  else if isHost a then { s with hostTs := wmax s.hostTs t } else s

/-- The greatest logical time of any core: what the device's own releases carry (R331, R76; DEDUCED, log 17). -/
def State.topTime (s : State) : Word := s.cores.foldl (fun m (e : Nat × Core) => wmax m e.2.pts) s.ptsIdle

/-- A renewal (R184): the lease is extended, and the reply's times. -/
def State.renew (s : State) (ln : Nat) (pts lease : Word) : State × Word × Word :=
  let h := s.homeLine ln
  let rts := wmax h.rts (pts + lease)
  (s.updLine ln fun h => { h with rts := rts }, h.wts, rts)

/-- The logical time of a store performed at its home (R185). -/
def State.stamp (s : State) (ln : Nat) (pts : Word) : State × Word :=
  let t := wmax ((s.homeLine ln).rts + 1) pts
  (s.updLine ln fun h => { h with wts := t, rts := t }, t)

/-- An entry of the trace ring of the slice port (R192). -/
def State.trace (s : State) (a : Nat) (dev : BitVec 6) (c : CoreId) (kind : BitVec 2) : State :=
  let w0 := s.tstamp
  let w1 : Word := dev ++ c ++ kind ++ 0#1 ++ BitVec.ofNat 43 (a / 8)
  s.updCluster (homeSlice a) fun v => { v with trace := Tab.put v.trace v.traceHead (w0, w1), traceHead := (v.traceHead + 1) % 4096 }

/-- A request that arrives at the port of a slice enters its trace ring (R192), with the device that its packet came from. -/
def State.record (s : State) (r : Req) (kind : BitVec 2) : State :=
  if isTier (offOf r.pa) then s.trace (offOf r.pa) (if r.ret.isSome then r.sdev else s.devnum) r.core kind else s

/-- A write of the device itself enters the ring too; which core index it shows is not stated (DEDUCED, log 6). -/
def State.traceOwn (s : State) (a : Nat) (kind : BitVec 2) : State := s.trace a s.devnum ((s.freeWord (2 ^ 61 + a)).extractLsb' 0 12) kind

/-- Invalidations to the clusters whose walkers read a line that is written (R180): whether any are due. -/
def State.invalidate (s : State) (ln : Nat) : State × Bool :=
  let h := s.homeLine ln
  if h.map = [] then (s, !h.acks.isEmpty)
  else
    let home := homeSlice (128 * ln)
    let s := s.updLine ln fun h => { h with map := [], acks := h.acks ++ h.map }
    (h.map.foldl (fun s cl =>
      s.sendNew { src := s.epSlice home, dst := s.epSlice (BitVec.ofNat 6 cl), kind := 0x26#6, body := .invalidate ln }) s, true)

/-- The device writes lines of memory that the host may hold (R68): the home asks for them back, and the write waits. -/
def State.hostHolds (s : State) (a : Nat) : Bool := isTier a && s.hostLines.contains (a / 128)

/-- A back-invalidate sent to the host for a line, once for each message that waits for its response; 0 for a write of the device itself. -/
def State.askHost (s : State) (ln n : Nat) : State :=
  if s.backInv.contains (ln, n) then s else { s with backInv := s.backInv ++ [(ln, n)] }

/-- A write of the device itself may be performed: the host does not hold the line (R68), and no cluster uses a translation read from it
(R180). -/
def State.lineClear (s : State) (a : Nat) : Bool :=
  !isTier a || (!s.hostHolds a && (s.homeLine (a / 128)).map.isEmpty && (s.homeLine (a / 128)).acks.isEmpty)

/-- What makes a line clear sent out: the back-invalidate and the invalidations. The write is tried again later (R68, R180; DEDUCED, log 17). -/
def State.clearLine (s : State) (a : Nat) : State :=
  if s.lineClear a then s
  else ((if s.hostHolds a then s.askHost (a / 128) 0 else s).invalidate (a / 128)).1

/-! ## Replies -/

/-- The endpoint at which a request has been served: a requester's own copy of it. -/
def State.atHome (s : State) (r : Req) : Ep := s.servedAt r

/-- A reply that waits for the acknowledgements of the line it wrote, or leaves at once (R180). -/
def State.answer (s : State) (r : Req) (v : Rep) (data : Bool) (held : Option Nat) : State :=
  match held with
  | none => s.replyTo (s.atHome r) r v data
  | some ln =>
    let m : Msg := { src := s.atHome r, dst := r.ret.getD (s.epCore r.core), kind := if data then 0x20#6 else 0x21#6, job := r.job,
                     fcnt := if data then 2 else 1, body := .reply r v, answers := r.tag }
    ({ s with msgs := Tab.put s.msgs s.nextId m } : State).bumpId.updLine ln fun h => { h with held := h.held ++ [s.nextId] }

/-- A full-empty operation (R216). -/
def ReqKind.fullEmpty (k : ReqKind) : Bool := k == .ldfe || k == .ldff || k == .stef || k == .stff || k == .fepurge

/-- A store of bytes on behalf of a request: its logical time and the line whose acknowledgements its reply waits for. A non-coherent line keeps
times at its home like any other, so that an access ordered after a release hands on what was released (R330; DEDUCED, log 17). -/
def State.homeStore (s : State) (r : Req) (a : Nat) (bs : List Byte) : State × Word × Option Nat :=
  if isTier a then
    let s := (s.soil r.job r.pln a).memWrite (s.keyOf r.job r.pln) a bs
    let (s, t) := s.stamp (a / 128) r.pts
    let (s, w) := s.invalidate (a / 128)
    (s, t, if w then some (a / 128) else none)
  else
    let s := (s.memWrite none a bs).leaveTime a r.pts
    (s, s.wordTime a, none)

/-- The key of a request's access. -/
def State.reqKey (s : State) (r : Req) : Option Key := s.keyOf r.job r.pln

/-- A request that would wait at its home is withdrawn at once, as its job is being stopped (R393). -/
def State.stopHolds (s : State) (r : Req) : Bool := r.ret.isNone && ((s.job r.job).leaf (.core r.core)).stopped

/-- The request that a message carries. -/
def State.msgReq (s : State) (n : Nat) : Option Req :=
  match Tab.find s.msgs n with
  | some m => match m.body with | .req r => some r | _ => none
  | none => none

/-- A request refused by its home (R218, R316): the message stays for its sender, who is told by a RETRY. -/
def State.refuse (s : State) (n : Nat) : State :=
  match Tab.find s.msgs n with
  | some m => (s.freePool n m).sendNew { src := m.dst, dst := m.src, kind := 0x22#6, job := m.job, body := .retry n, answers := m.tag }
  | none => s

/-! ## Plain accesses at home -/

/-- The line of an offset, as a reply carries it. -/
def State.lineAt (s : State) (key : Option Key) (a : Nat) : Line := leBits 1024 (s.memRead key (a / 128 * 128) 128)

/-- A load of any kind at its home (R184, R207, R212): the line, its poison and its times. -/
def State.serveLoad (s : State) (r : Req) : State :=
  let a := offOf r.pa
  let v : Rep := { line := s.lineAt (s.reqKey r) a, w1 := (s.memPois a).setWidth 64,
                   poisoned := (r.kind == .load || r.kind == .loadM) && s.memBad a r.size }
  if isTier a then
    let (s, wts, rts) := if r.nc || r.kind == .ldb || r.kind == .rowRead then (s, (s.homeLine (a / 128)).wts, 0) else s.renew (a / 128) r.pts r.lease
    s.replyTo (s.atHome r) r { v with wts := wts, rts := rts } true
  else s.replyTo (s.atHome r) r { v with wts := s.wordTime a } true

/-- The bytes that a store carries. -/
def Req.bytes (r : Req) : List Byte :=
  match r.kind with
  | .stb => bytesOf 128 r.line
  | .rowWrite => lineSlice r.line (r.pa.toNat % 128) r.size
  | _ => bytesOf r.size (r.w1 ++ r.w0)

/-- A store of any kind at its home (R185, R190, R207, R212). -/
def State.serveStore (s : State) (r : Req) : State :=
  let a := offOf r.pa
  let (s, t, h) := (s.record r 0).homeStore r a r.bytes
  let s := if r.kind == .stb then s.putPois a r.pois else if r.kind == .rowWrite then s.markBad ((bitsOf r.pois).map (a / 128 * 16 + ·)) else s
  s.answer r { wts := t } false h

/-- A write-back merged at its home (R190), at a logical time of the line (R330; DEDUCED, log 17). -/
def State.serveWriteback (s : State) (r : Req) : State :=
  let a := offOf r.pa
  let s := ((s.record r 1).soil r.job r.pln a).memMerge (s.reqKey r) (a / 128) r.line r.mask r.pois
  let (s, t) := s.stamp (a / 128) r.pts
  let (s, w) := s.invalidate (a / 128)
  s.answer r { wts := t } false (if w then some (a / 128) else none)

/-- An AMO at its home (R207, R219). -/
def State.serveAmo (s : State) (r : Req) (op : Nat) : State :=
  let a := offOf r.pa
  let s := s.record r 2
  if s.memBad a 8 then s.replyTo (s.atHome r) r { fault := some (faultAt clsData r.va) } false
  else
    let old : Word := leBits 64 (s.memRead (s.reqKey r) a 8)
    match amoNew op old r.w0 r.w1 with
    | some v =>
      let (s, t, h) := s.homeStore r a (bytesOf 8 v)
      s.answer r { w0 := old, wts := t } true h
    | none =>
      let (s, t) := if isTier a then s.stamp (a / 128) r.pts else (s, s.wordTime a)
      s.answer r { w0 := old, wts := t } true none

/-- A reduction at its home (R207, R220): dropped on a poisoned word. -/
def State.serveRed (s : State) (r : Req) (op : Nat) : State :=
  let a := offOf r.pa
  let s := s.record r 3
  if s.memBad a 8 then s.replyTo (s.atHome r) r {} false
  else
    let (s, t, h) := s.homeStore r a (bytesOf 8 (redNew op (leBits 64 (s.memRead (s.reqKey r) a 8)) r.w0))
    s.answer r { wts := t } false h

/-- A TRED's new element (R302). -/
def tredElem (fmt : Nat) (int : Bool) (old c : Nat) : Nat :=
  if fmt = 3 then intBits 32 (val32 old + val32 c)
  else
    let x : Fv := if int then ofInt (val32 c) else decodeFmt 8 c
    (encodeFmt fmt 0 true (exAdd 0 (decodeFmt fmt old) x)).1

/-- The n bytes at an offset after a reduction by the 32-bit elements of a line, and their poisoned words, which keep bytes and poison (R207, R302). -/
def State.redBytes (s : State) (key : Option Key) (a n fmt : Nat) (int : Bool) (line : Line) : List Byte × List Nat :=
  let w := fmtBits fmt / 8
  let old := s.memRead key a n
  let new := (List.range (n / w)).flatMap fun e => toBytes w (tredElem fmt int (leNat ((old.drop (e * w)).take w)) (leNat (lineSlice line (4 * e) 4)))
  ((new.zip old).zipIdx.map fun ((x, b), k) => if s.memBad (a + k) 1 then b else x, (wordsOf a n).filter fun wd => s.poisons.contains wd)

/-- A row of a TRED at its target: one indivisible reduction (R302). -/
def State.serveRowRed (s : State) (r : Req) (fmt : Nat) (int : Bool) : State :=
  let a := offOf r.pa
  let s := s.record r 3
  let (bs, bad) := s.redBytes (s.reqKey r) a r.size fmt int r.line
  let (s, t, h) := s.homeStore r a bs
  (s.markBad bad).answer r { wts := t } false h

/-! ## Full-empty words (R216 to R218, R164) -/

/-- A full-empty operation on its word, if it can proceed: the state with its reply sent, and whether the word's bit changed. -/
def State.feTry (s : State) (r : Req) : Option (State × Bool) :=
  let a := offOf r.pa
  let full := s.full a
  if s.memBad a 8 then some (s.replyTo (s.atHome r) r { fault := some (faultAt clsData r.va) } false, false)
  else
    let read := fun (s : State) (after : Bool) =>
      let v : Word := leBits 64 (s.memRead (s.reqKey r) a 8)
      let (s, t) := if isTier a then s.stamp (a / 128) r.pts else (s, s.wordTime a)
      ((s.setFull a after).answer r { w0 := v, wts := t } true none, !after)
    let write := fun (s : State) =>
      let (s, t, h) := s.homeStore r a (bytesOf 8 r.w0)
      ((s.setFull a true).answer r { wts := t } false h, !full)
    match r.kind with
    | .ldfe => if full then some (read s false) else none
    | .ldff => if full then some (read s true) else none
    | .stef => if full then none else some (write s)
    | .stff => some (write s)
    | _ =>
      let (s, t) := if isTier a then s.stamp (a / 128) r.pts else (s, 0)
      some ((s.setFull a false).answer r { wts := t } false none, full)

/-- The cluster that keeps the waiters of a word: of its home slice, or of its core. -/
def waitCluster (a : Nat) : ClusterId := if isLocal a then clusterOf (localCore a) else homeSlice a

def State.waitersOf (s : State) (a : Nat) : List Req := if isLocal a then (s.core (localCore a)).waiters else (s.cluster (waitCluster a)).waiters
def State.setWaiters (s : State) (a : Nat) (l : List Req) : State :=
  if isLocal a then s.updCore (localCore a) fun v => { v with waiters := l } else s.updCluster (waitCluster a) fun v => { v with waiters := l }

/-- The WAITW registrations of a word that is full are released (R164, R217). -/
def State.releaseWaitw (s : State) (a : Nat) : State :=
  let cl := waitCluster a
  let out := (s.cluster cl).waitw.filter fun r => offOf r.pa / 8 == a / 8
  if out = [] then s else
  out.foldl (fun s r => s.sendNew { src := s.epSlice cl, dst := s.epDispenser (clusterOf r.core), kind := 0x25#6, job := r.job,
                                    body := .wake r.core r.ident })
    (s.updCluster cl fun v => { v with waitw := v.waitw.filter fun r => offOf r.pa / 8 != a / 8 })

/-- One pass over the waiting operations of a word in arrival order (R217): the state, and whether any was performed. -/
def State.fePass (s : State) (a : Nat) (rs : List Req) : State × Bool :=
  match rs with
  | [] => (s, false)
  | r :: rest =>
    match s.feTry r with
    | some (s', _) =>
      let s' := s'.setWaiters a ((s'.waitersOf a).filter fun x => x.id != r.id || x.core != r.core)
      let s' := if s'.full a then s'.releaseWaitw a else s'
      ((s'.fePass a rest).1, true)
    | none => s.fePass a rest

/-- Passes until no waiting operation can proceed. -/
def State.fePasses (s : State) (a : Nat) (fuel : Nat) : State :=
  match fuel with
  | 0 => s
  | n + 1 =>
    let s := if s.full a then s.releaseWaitw a else s
    let (s', any) := s.fePass a ((s.waitersOf a).filter fun r => offOf r.pa / 8 == a / 8)
    if any then s'.fePasses a n else s'

/-- After a word's bit has changed. -/
def State.bitChanged (s : State) (a : Nat) : State := s.fePasses a ((s.waitersOf a).length + 1)

/-- FULL_EMPTY_AT_HOME: performed, entered in a waiter record, or refused for want of one (R218). -/
def State.serveFe (s : State) (n : Nat) (r : Req) : State :=
  let a := offOf r.pa
  let s := s.record r 2
  match s.feTry r with
  | some (s, changed) => (if changed then s.bitChanged a else s).dropMsg n
  | none =>
    let cap := if isLocal a then 64 else 512
    if s.stopHolds r then (s.dropMsg n).replyTo (s.servedAt r) r { withdrawn := true } false
    else if (s.waitersOf a).length < cap then (s.setWaiters a (s.waitersOf a ++ [{ r with waiting := true }])).dropMsg n
    else s.refuse n

/-- Bytes of one line written by the device itself, for a job through a leaf with a hint group or by physical address, to a clear line of a
tier, to host memory or to a local memory (R76, R179, R200, R399): the slice's record of the line, the trace entry of a kind, the bytes, their
time. -/
def State.ownWrite (s : State) (by' : Option (JobId × BitVec 8)) (j : JobId) (pln : Bool) (kind : BitVec 2) (a : Nat) (bs : List Byte) : State :=
  if isTier a then
    let s := ((s.visit by' a (s.keyTag j pln)).traceOwn a kind).soil j pln a
    ((s.memWrite (s.keyOf j pln) a bs).stamp (a / 128) s.topTime).1
  else (s.memWrite none a bs).leaveTime a s.topTime

/-- An STFF of the device itself into a signal word (R76, R304): value, full, waiters. -/
def State.signal (s : State) (by' : Option (JobId × BitVec 8)) (j : JobId) (pln : Bool) (a : Nat) (v : Word) : State :=
  let changed := !s.full a
  let s := (s.ownWrite by' j pln 2 a (bytesOf 8 v)).setFull a true
  if changed then s.bitChanged a else s

end Sys2Proof.Machine
end

