-- ==== Sys2Proof/Machine/LaneAlu.lean ====
section
/-! DEFINITION. Element operations of the lane unit on bits of a type (spec/11_isa_vector.md R249 to R260). -/

namespace Sys2Proof.Machine

/-- An integer type (R248: I). -/
def tyInt (ty : Nat) : Bool := ty == 1 || ty == 2 || ty == 3 || ty == 9
/-- The value of an element of an integer type. -/
def tyVal (ty v : Nat) : Int := if ty = 9 then ((v % 256 : Nat) : Int) else toInt (fmtBits ty) v

/-- Bits of a result, and its flags. -/
abbrev Lv := Nat × BitVec 5

/-- An integer result: the low bits, no flag (R249). -/
def lvInt (ty : Nat) (v : Int) : Lv := (intBits (fmtBits ty) v, 0)

/-- A two-source float operation rounded into its type. -/
def lvF (ty mode : Nat) (sat : Bool) (x : Ex) : Lv := encodeFmt ty mode sat x

/-- The binary operations by number (R251). -/
def laneBin (n ty mode : Nat) (sat : Bool) (a b : Nat) : Lv :=
  let w := fmtBits ty
  let x := decodeFmt ty a; let y := decodeFmt ty b
  let i := tyVal ty a; let k := tyVal ty b
  match n with
  | 0 => if tyInt ty then lvInt ty (i + k) else lvF ty mode sat (exAdd mode x y)
  | 1 => if tyInt ty then lvInt ty (i - k) else lvF ty mode sat (exAdd mode x y.negate)
  | 2 => if tyInt ty then lvInt ty (i * k) else lvF ty mode sat (exMul x y)
  | 3 => if tyInt ty then (if k = 0 then (2 ^ w - 1, 0) else lvInt ty (i.tdiv k)) else lvF ty mode sat (exDiv x y)
  | 4 => if tyInt ty then (if k < i then b else a, 0) else fvMinMax false ty a b
  | 5 => if tyInt ty then (if i < k then b else a, 0) else fvMinMax true ty a b
  | 6 => (a &&& b, 0)
  | 7 => (a ||| b, 0)
  | 8 => (a ^^^ b, 0)
  | 9 => (a * 2 ^ (b % w) % 2 ^ w, 0)
  | _ => lvInt ty (i / 2 ^ (b % w))

/-- The unary operations by number (R251, R252). -/
def laneUn (n ty mode : Nat) (sat : Bool) (a : Nat) : Lv :=
  let w := fmtBits ty
  let x := decodeFmt ty a
  let i := tyVal ty a
  match n with
  | 0 => if tyInt ty then lvInt ty i.natAbs else if ty = 5 ∧ a % 128 = 0 then (a, 0) else (a % 2 ^ (w - 1), 0)
  | 1 => if tyInt ty then lvInt ty (-i) else if ty = 5 ∧ a % 128 = 0 then (a, 0) else (a ^^^ 2 ^ (w - 1), 0)
  | 2 => lvF ty mode sat (exSqrt x)
  | 3 => lvF ty mode sat (exDiv (.fin false 1 0) x)
  | 4 => lvF ty mode sat (exRsqrt x)
  | 5 => lvF ty mode sat (exExp2 x)
  | 6 => lvF ty mode sat (exLog2 x)
  | 7 => lvF ty mode sat (exTanh x)
  | 8 => lvF ty mode sat (exSigm x)
  | _ => (a, 0)

/-- a × b + c, or a × b − c (R251). -/
def laneFma (neg : Bool) (ty mode : Nat) (sat : Bool) (a b c : Nat) : Lv :=
  if tyInt ty then lvInt ty (tyVal ty a * tyVal ty b + (if neg then -tyVal ty c else tyVal ty c))
  else
    let z := decodeFmt ty c
    lvF ty mode sat (exFma mode (decodeFmt ty a) (decodeFmt ty b) (if neg then z.negate else z))

/-- VIOTA (R253). -/
def laneIota (ty mode : Nat) (sat : Bool) (i : Nat) : Lv := if tyInt ty then lvInt ty i else lvF ty mode sat { v := ofInt i }

/-- VCVT (R254). -/
def laneCvt (ty sty mode : Nat) (sat : Bool) (a : Nat) : Lv :=
  let x := decodeFmt sty a
  if ty = sty then
    (if (ty = 6 ∨ ty = 7 ∨ ty = 8) ∧ x.isSig then encodeFmt ty mode sat (exNan flagNV) else (a, 0))
  else encodeFmt ty mode sat { v := x, fl := sigFlag [x] }

/-- VCMP (R255). -/
def laneCmp (cc ty a b : Nat) : Bool × BitVec 5 :=
  if tyInt ty then
    let i := tyVal ty a; let k := tyVal ty b
    (match cc with
      | 0 => decide (i = k) | 1 => decide (i ≠ k) | 2 => decide (i < k) | 3 => decide (k ≤ i) | 4 => decide (i ≤ k) | 5 => decide (k < i)
      | 6 => false | _ => true, 0)
  else
    let x := decodeFmt ty a; let y := decodeFmt ty b
    (fvCond cc x y, sigFlag [x, y])

/-! ## Sums (R51, R258) -/

/-- The exact sum of terms: any NaN gives the canonical NaN, infinities of both signs too, with NV. -/
def sumEx (mode : Nat) (ts : List Ex) : Ex :=
  let fl := ts.foldl (fun f t => f ||| t.fl) 0
  let pos := ts.any fun t => t.v == .inf false
  let neg := ts.any fun t => t.v == .inf true
  if pos && neg then exNan (fl ||| flagNV)
  else if ts.any fun t => t.v.isNan then exNan fl
  else if pos then { v := .inf false, fl := fl }
  else if neg then { v := .inf true, fl := fl }
  else
    match ts with
    | [] => { v := .fin false 0 0 }
    | t :: r => { v := r.foldl (fun a t => (exAdd mode a t.v).v) t.v, fl := fl }

/-- An operand as an exact term. -/
def exOf (v : Fv) : Ex := { v := v, fl := sigFlag [v] }

/-- The identity of a reduction (R258). -/
def laneIdentity (k : LaneKind) (ty : Nat) : Nat :=
  match k with
  | .redmax => if tyInt ty then intBits 32 (if ty = 9 then 0 else -(2 ^ (fmtBits ty - 1) : Int)) else 0xFF800000
  | .redmin => if tyInt ty then (if ty = 9 then 255 else 2 ^ (fmtBits ty - 1) - 1) else 0x7F800000
  | _ => 0

/-- The products or elements that a reduction sums. -/
def laneTerm (k : LaneKind) (ty a b : Nat) : Ex :=
  match k with
  | .dot => exMul (decodeFmt ty a) (decodeFmt ty b)
  | .norm => exMul (decodeFmt ty a) (decodeFmt ty a)
  | _ => exOf (decodeFmt ty a)

def laneTermInt (k : LaneKind) (ty a b : Nat) : Int :=
  match k with
  | .dot => tyVal ty a * tyVal ty b
  | _ => tyVal ty a

/-- The lesser or greater of a running FP32 value and a term (R151, R258). -/
def redPick (mx : Bool) (ty : Nat) (r : Lv) (a : Nat) : Lv :=
  let x := decodeFmt ty a
  let m := fvMinMax mx 8 r.1 (encodeFmt 8 0 true { v := x }).1
  (m.1, r.2 ||| m.2 ||| sigFlag [x])

/-- The running value of a reduction after a step with terms (R258). -/
def laneReduce (k : LaneKind) (ty mode : Nat) (r : Nat) (ts : List (Nat × Nat)) : Lv :=
  match k with
  | .redmax =>
    if tyInt ty then (intBits 32 (ts.foldl (fun m t => max m (tyVal ty t.1)) (val32 r)), 0) else ts.foldl (fun m t => redPick true ty m t.1) (r, 0)
  | .redmin =>
    if tyInt ty then (intBits 32 (ts.foldl (fun m t => min m (tyVal ty t.1)) (val32 r)), 0) else ts.foldl (fun m t => redPick false ty m t.1) (r, 0)
  | _ =>
    if tyInt ty then (intBits 32 (ts.foldl (fun m t => m + laneTermInt k ty t.1 t.2) (val32 r)), 0)
    else roundIeee 8 23 mode (sumEx mode (exOf (decodeFmt 8 r) :: ts.map fun t => laneTerm k ty t.1 t.2))

/-- One addition of VSCAN (R259): a masked-out element counts as 0. -/
def laneScan (ty mode : Nat) (r : Nat) (a : Option Nat) : Lv :=
  if tyInt ty then (intBits 32 (val32 r + (match a with | some a => tyVal ty a | none => 0)), 0)
  else match a with
    | some a => roundIeee 8 23 mode (exAdd mode (decodeFmt 8 r) (decodeFmt ty a))
    | none => ((roundIeee 8 23 mode (exAdd mode (decodeFmt 8 r) (.fin false 0 0))).1, 0)

/-! ## VADAM (R260) -/

/-- One FP32 operation rounded to nearest even, its flags added to those before. -/
def r32 (x : Ex) (fl : BitVec 5) : Fv × Nat × BitVec 5 :=
  let r := roundIeee 8 23 0 x
  (decodeFmt 8 r.1, r.1, fl ||| r.2)

/-- The new weight, first and second moment, and the flags. Hyperparameters lr, b1, b2, eps, c1, c2, wd as bits. -/
def laneAdam (h : List Nat) (w g m v : Nat) : Nat × Nat × Nat × BitVec 5 :=
  let p := fun (n : Nat) => decodeFmt 8 (h[n]?.getD 0)
  let W := decodeFmt 8 w; let G := decodeFmt 8 g; let M := decodeFmt 8 m; let V := decodeFmt 8 v
  let (d, _, f) := r32 (exAdd 0 M G.negate) 0
  let (m', mb, f) := r32 (exFma 0 (p 1) d G) f
  let (g2, _, f) := r32 (exMul G G) f
  let (e, _, f) := r32 (exAdd 0 V g2.negate) f
  let (v', vb, f) := r32 (exFma 0 (p 2) e g2) f
  let (vc, _, f) := r32 (exMul v' (p 5)) f
  let (u, _, f) := r32 (exSqrt vc) f
  let (den, _, f) := r32 (exAdd 0 u (p 3)) f
  let (mc, _, f) := r32 (exMul m' (p 4)) f
  let (q, _, f) := r32 (exDiv mc den) f
  let (s, _, f) := r32 (exFma 0 (p 6) W q) f
  let (_, wb, f) := r32 (exFma 0 (p 0).negate s W) f
  (wb, mb, vb, f)

end Sys2Proof.Machine
end

