-- ==== Sys2Proof/Machine/Tile.lean ====
section
/-! DEFINITION. Layouts of tiles and the copy control word (spec/12_tiles.md R262, R266 to R268; spec/13_isa_tile.md R281, R285, R288,
R294, R295; spec/02_formats.md R47 to R49, R53). -/

namespace Sys2Proof.Machine

/-! ## Layout words (R266) -/

def loFmt (l : BitVec 16) : Nat := (l.extractLsb' 12 4).toNat
def loBlk (l : BitVec 16) : Nat := (l.extractLsb' 10 2).toNat
def loZ (l : BitVec 16) : Bool := l.getLsbD 9
def loX (l : BitVec 16) : Bool := l.getLsbD 8

/-- A layout word from its fields. -/
def mkLayout (fmt blk : Nat) (z x : Bool) (geom : BitVec 2) : BitVec 16 :=
  (BitVec.ofNat 4 fmt) ++ (BitVec.ofNat 2 blk) ++ BitVec.ofBool z ++ BitVec.ofBool x ++ geom ++ 0#6

/-- GEOM of a format whose tile is divided into grids; raw has none. -/
def geomOf (fmt : Nat) : Option (BitVec 2) :=
  match fmt with
  | 3 | 8 => some 1#2
  | 2 | 6 | 7 => some 0#2
  | 1 | 5 | 9 => some 1#2
  | 4 => some 2#2
  | _ => none

/-- Grid side, and columns and rows of the tile, by element width. -/
def tileCols (fmt : Nat) : Nat := 512 / fmtBits fmt

/-- The Morton index (R267). -/
def morton (r c : Nat) : Nat :=
  (List.range 6).foldl (fun m j => m + (c / 2 ^ j % 2) * 2 ^ (2 * j) + (r / 2 ^ j % 2) * 2 ^ (2 * j + 1)) 0

/-- The bit position in its slot of element (r, c) of a tile (R267). -/
def elemPos (fmt : Nat) (z : Bool) (r c : Nat) : Nat :=
  let w := fmtBits fmt
  if !z then 512 * r + c * w
  else
    let (g, n, rr, cc) :=
      match w with
      | 32 => (r / 16, 2, r % 16, c)
      | 16 => (0, 1, r, c)
      | 8 => (c / 32, 2, r, c % 32)
      | _ => (c / 32, 4, r, c % 32)
    8 * (g * (2048 / n)) + morton rr cc * w

/-- The bits of element (r, c) in the bytes of a slot. -/
def tileElem (fmt : Nat) (z : Bool) (bs : List Byte) (r c : Nat) : Nat :=
  let p := elemPos fmt z r c
  if fmtBits fmt = 4 then ((bs[p / 8]?.getD 0).toNat / (if p % 8 = 0 then 1 else 16)) % 16
  else leNat ((bs.drop (p / 8)).take (fmtBits fmt / 8))

/-- An element stored into the bytes of a slot. -/
def tilePut (fmt : Nat) (z : Bool) (bs : List Byte) (r c v : Nat) : List Byte :=
  let p := elemPos fmt z r c
  if fmtBits fmt = 4 then
    let o := (bs[p / 8]?.getD 0)
    bs.set (p / 8) (if p % 8 = 0 then (o &&& 0xF0#8) ||| BitVec.ofNat 8 (v % 16) else (o &&& 0x0F#8) ||| BitVec.ofNat 8 (v % 16 * 16))
  else ((toBytes (fmtBits fmt / 8) v).zipIdx).foldl (fun bs (b, k) => bs.set (p / 8 + k) b) bs

/-- The rows and columns of the logical matrix of a tile (R268, R295). -/
def matDims (l : BitVec 16) : Nat × Nat := if loX l then (tileCols (loFmt l), 32) else (32, tileCols (loFmt l))

/-- The tile element at which element (i, j) of the logical matrix is held (R268, R295). -/
def matElem (l : BitVec 16) (i j : Nat) : Nat × Nat :=
  if !loX l then (i, j)
  else match fmtBits (loFmt l) with
    | 32 => (16 * (j / 16) + i, j % 16)
    | 8 => (i % 32, 32 * (i / 32) + j)
    | _ => (i, j)

/-! ## Block scales (R47 to R49, R288) -/

/-- Bsz of a format and BLK. -/
def blockSize (fmt blk : Nat) : Nat := (if blk = 1 then 64 else 32) * fmtBits fmt / 8
/-- Scales of a 64-byte tile row. -/
def scalesPerRow (fmt blk : Nat) : Nat := max 1 (64 / blockSize fmt blk)

/-- An invalid scale (R49): negative, NaN or infinite. -/
def badScale (v : BitVec 16) : Bool := v.getLsbD 15 || v.extractLsb' 7 8 == 0xFF#8

/-- The scale of tile element (r, c), 1 without scales. -/
def scaleOf (l : BitVec 16) (sc : List (BitVec 16)) (r c : Nat) : Fv :=
  if loBlk l = 0 then .fin false 1 0
  else
    let b := blockSize (loFmt l) (loBlk l)
    decodeFmt 7 (sc[r * scalesPerRow (loFmt l) (loBlk l) + c * fmtBits (loFmt l) / (8 * min b 64)]?.getD 0).toNat

/-- The value of element (i, j) of the logical matrix of a tile: decoded value times scale (R295), as an exact product. DEDUCED (log 18): an
infinite or NaN element under a scale of +0, of which R49 says only that its values are zero, gives the product's NaN. -/
def Tile.mat (t : Tile) (i j : Nat) : Ex :=
  let (r, c) := matElem t.layout i j
  let v := decodeFmt (loFmt t.layout) (tileElem (loFmt t.layout) (loZ t.layout) t.bytes r c)
  if loBlk t.layout = 0 then exOf v else exMul v (scaleOf t.layout t.scales r c)

/-- The bits of that element. -/
def Tile.raw (t : Tile) (i j : Nat) : Nat :=
  let (r, c) := matElem t.layout i j
  tileElem (loFmt t.layout) (loZ t.layout) t.bytes r c

/-- A tile slot as an engine reads it. -/
def State.tileOf (s : State) (c : CoreId) (n : Nat) : Tile :=
  let t := s.slot c n
  { bytes := s.slotBytes c n, layout := t.layout, scales := t.scales, poison := t.poison || s.slotBad c n }

/-! ## The recoding of the weight buffer (R55) -/

/-- An entry of a packed block: sign, exponent field above lo, mantissa. -/
def wbPack (lo v : Nat) : Nat := v / 32768 * 2048 + (v / 128 % 256 - lo) * 128 + v % 128
/-- The value of an entry. -/
def wbUnpack (lo e : Nat) : Nat := e / 2048 * 32768 + (lo + e / 128 % 16) * 128 + e % 128

/-- The 32 values of a column as a block: packed into 49 bytes where their exponent fields lie within 15 of each other. -/
def WbBlock.ofCol (vs : List Nat) : WbBlock :=
  let es := vs.map fun v => v / 128 % 256
  let lo := es.foldl min 255
  if es.foldl max 0 - lo ≤ 15 then
    { raw := false, bytes := toBytes 1 lo ++ toBytes 48 (vs.foldr (fun v n => wbPack lo v + 4096 * n) 0) }
  else { raw := true, bytes := vs.flatMap (toBytes 2) }

/-- Value i of a block, as the decompressor rebuilds it. -/
def WbBlock.val (b : WbBlock) (i : Nat) : Nat :=
  if b.raw then leNat ((b.bytes.drop (2 * i)).take 2)
  else wbUnpack (leNat (b.bytes.take 1)) (leNat (b.bytes.drop 1) / 4096 ^ i % 4096)

/-- The blocks of a B operand: the columns of a BF16 tile; another tile's 2 KiB are raw, in pieces of 64 bytes. -/
def Tile.blocks (t : Tile) : List WbBlock :=
  (List.range 32).map fun j =>
    if loFmt t.layout = 7 then WbBlock.ofCol ((List.range 32).map fun i => t.raw i j)
    else { raw := true, bytes := (t.bytes.drop (64 * j)).take 64 }

/-- Bytes of block storage of an entry (R56). -/
def WbEntry.size (e : WbEntry) : Nat := (e.blocks.map fun b => b.bytes.length).sum

/-- A B operand with the bytes that its blocks hold. -/
def Tile.fromBlocks (t : Tile) (bs : List WbBlock) : Tile :=
  if loFmt t.layout = 7 then
    { t with bytes := (List.range 1024).foldl (fun m n =>
        let (r, q) := matElem t.layout (n / 32) (n % 32)
        tilePut 7 (loZ t.layout) m r q ((bs[n % 32]?.getD {}).val (n / 32))) t.bytes }
  else { t with bytes := bs.flatMap (·.bytes) }

/-! ## Formats that trap (R53, R281) -/

/-- Formats and shape of a pair of operands under which a TMUL, TMULK or TMULS is legal. -/
def pairLegal (prog : Word) (sparse : Bool) (la lb : BitVec 16) : Bool :=
  let fa := loFmt la; let fb := loFmt lb
  let active := prog != 0 && !sparse
  let fmt := if active then fa == 3 || fa == 8 else decide (4 ≤ fa) && decide (fa ≤ 8)
  let two := fa == 6 || fa == 7 || fa == 2
  fmt && fa == fb && !((active || fa == 8) && (loBlk la != 0 || loBlk lb != 0)) && !(sparse && (fa == 4 || fa == 8)) && (!loX la || two)

/-- Shape of a source that a fill takes (R53, R281): format, BLK, the word's GEOM request, Z, X, and the row start and stride. -/
def fillLegal (fmt blk : Nat) (geom : BitVec 2) (z x : Bool) (va : BitVec 48) (stride : BitVec 32) : Bool :=
  let b := min (blockSize fmt blk) 64
  let scaled := blk == 0 || ((fmt == 4 || fmt == 5 || fmt == 6 || fmt == 7 || fmt == 8) &&
    decide (va.toNat % b = 0) && decide ((stride.signExtend 48).toNat % b = 0))
  let trans := !x || (fmt != 0 && fmt != 4 && blk == 0)
  let shape := !(z || x) || geomOf fmt == some geom
  scaled && trans && shape

/-! ## The control word (R285) -/

def cwFol (w : Word) : Bool := w.getLsbD 55
def cwRole (w : Word) : Bool := w.getLsbD 54
def cwAcc (w : Word) : BitVec 2 := w.extractLsb' 52 2
def cwSlot (w : Word) : Nat := (w.extractLsb' 43 9).toNat
def cwDir (w : Word) : Bool := w.getLsbD 42
def cwKeep (w : Word) : Bool := w.getLsbD 41
def cwZ (w : Word) : Bool := w.getLsbD 40
def cwFmt (w : Word) : Nat := (w.extractLsb' 36 4).toNat
def cwGeom (w : Word) : BitVec 2 := w.extractLsb' 34 2
def cwStride (w : Word) : BitVec 32 := w.extractLsb' 0 32

/-- The instructions that take a control word. -/
inductive CopyIns where
  | tload (z x : Bool)
  | tstore (k : Bool)
  | cpy | cpy2 | cpyw | tred
deriving DecidableEq, Repr

/-- The fields that an instruction uses (R285), as a mask. -/
def CopyIns.used (i : CopyIns) (w : Word) : Word :=
  let base : Word := 0x000000F0FFFFFFFF#64
  let geom : Word := 0x0000000C00000000#64
  let z : Word := 1#64 <<< 40
  let dir : Word := 1#64 <<< 42
  let keep : Word := 1#64 <<< 41
  let fol : Word := 0x00FFF80000000000#64
  match i with
  | .tload .. => base ||| geom
  | .tstore _ | .tred => base
  | .cpy | .cpy2 => if cwDir w then base ||| dir ||| keep else base ||| dir ||| geom ||| z ||| fol
  | .cpyw => base ||| geom ||| z ||| fol

/-- A copy to memory. -/
def CopyIns.drains (i : CopyIns) (w : Word) : Bool :=
  match i with | .tstore _ => true | .cpy | .cpy2 => cwDir w | _ => false

/-- Slots of a copy. -/
def CopyIns.slots (i : CopyIns) : Nat := match i with | .cpy2 => 2 | .tred => 0 | _ => 1

/-- The landed slot's Z and X. -/
def CopyIns.zx (i : CopyIns) (w : Word) : Bool × Bool :=
  match i with | .tload z x => (z, x) | .cpy | .cpy2 | .cpyw => (cwZ w, false) | _ => (false, false)

/-- The control word is within its ranges (R285, R288, R293), for a first slot and the launch's NTILE. -/
def CopyIns.legal (i : CopyIns) (w : Word) (ts ntile : Nat) : Bool :=
  let n := i.slots
  let (z, x) := i.zx w
  decide (w &&& ~~~(i.used w) = 0) && decide (cwFmt w < 10) &&
    (i.drains w || i == .tred || z || x || cwGeom w == 0) &&
    (!cwFol w || (decide (cwSlot w + (n - 1) < ntile) &&
      !((List.range n).any fun b => cwSlot w == ts + b) && (i != .cpyw || cwRole w))) &&
    (n < 2 || decide (ts + 1 < ntile))

/-- An element's size for the alignment check (R286). -/
def alignSize (fmt : Nat) : Nat := max 1 (fmtBits fmt / 8)

/-- ea(r) (R286). -/
def rowVa (va : BitVec 48) (stride : BitVec 32) (r : Nat) : BitVec 48 := va + BitVec.ofNat 48 r * stride.signExtend 48

end Sys2Proof.Machine
end

