-- ==== Sys2Proof/Machine/Copies.lean ====
section
/-! DEFINITION. The copy engine: TLOAD, TSTORE, CPY, CPY2, CPYW, their rows and landings, and the slot instructions
(spec/13_isa_tile.md R280 to R294; spec/12_tiles.md R263 to R273; spec/02_formats.md R47 to R54; notes/assumptions 10, 18). -/

namespace Sys2Proof.Machine

/-! ## Places of rows (R286) -/

/-- The place of n bytes that lie in one line, with the leaf that translated them, or the class of the fault. -/
def State.spot (s : State) (c : CoreId) (k : StrandId) (va : BitVec 48) (n : Nat) (need : Need) : State × ((Piece × Option Word) ⊕ Nat) :=
  let j := (s.strand c k).job
  let loc := fun (s : State) (c' : CoreId) (off : Nat) (leaf : Option Word) =>
    match s.localCheck c' j off n with
    | some cls => (s, Sum.inr cls)
    | none => (s, Sum.inl ({ pa := s.paOf (.loc c' off), n := n, va := va }, leaf))
  match windowOf c va with
  | some (c', off) => loc s c' off none
  | none =>
    match s.translateNow c false j va need with
    | (.ok pa leaf, s) =>
      let p : Piece := { pa := pa, n := n, pln := leaf.getLsbD 5, hg := leaf.extractLsb' 54 8, va := va }
      match s.place pa with
      | .inr cls => (s, .inr cls)
      | .inl (.loc c' off) => loc s c' off (some leaf)
      | .inl (.own pa) => (s, .inl ({ p with pa := pa, nc := s.nonCoherent j va leaf }, some leaf))
      | .inl x => (s, .inl ({ p with pa := s.paOf x }, some leaf))
    | (.fault cls, s) => (s, .inr cls)
    | (.miss, s) => (s, .inr clsTranslation)

/-- FMT and BLK of an operand: of its leaf, or LFMT in a local window (R286). -/
def fmtOf (lfmt : Nat) (leaf : Option Word) : Nat × Nat :=
  match leaf with
  | some l => ((l.extractLsb' 8 4).toNat, (l.extractLsb' 52 2).toNat)
  | none => (lfmt, 0)

/-- n bytes from an address cut at the boundaries of lines: address and length of each part. -/
def cutLines (va : BitVec 48) (n fuel : Nat) : List (BitVec 48 × Nat) :=
  match fuel with
  | 0 => []
  | f + 1 =>
    let m := min n (128 - va.toNat % 128)
    if n = 0 then [] else (va, m) :: cutLines (va + BitVec.ofNat 48 m) (n - m) f

/-- The pieces of a row in ascending order, each of the format of the operand (R54); or the class and address of the fault. A later page of another
format faults at the address of the row's first byte in it (DEDUCED, log 18: R54 names no byte of the page). -/
def State.rowPieces (s : State) (c : CoreId) (k : StrandId) (parts : List (BitVec 48 × Nat)) (need : Need) (lfmt : Nat) (fb : Nat × Nat) :
    State × (List Piece ⊕ (Nat × BitVec 48)) :=
  match parts with
  | [] => (s, .inl [])
  | (va, n) :: rest =>
    match s.spot c k va n need with
    | (s, .inr cls) => (s, .inr (cls, va))
    | (s, .inl (p, leaf)) =>
      if fmtOf lfmt leaf ≠ fb then (s, .inr (clsIllegalFormat, va))
      else match s.rowPieces c k rest need lfmt fb with
        | (s, .inl ps) => (s, .inl (p :: ps))
        | r => r

/-! ## Reading and writing pieces (R287, R212) -/

/-- A piece that the engine reaches without a request: own local memory, or a line that the core holds non-coherently. -/
def State.direct (s : State) (c : CoreId) (j : JobId) (p : Piece) : Bool :=
  let a := offOf p.pa
  devOf p.pa == s.devnum && ((isLocal a && localCore a == c) ||
    (isTier a && match (s.core c).dfind (a / 128) (s.keyOf j p.pln) with | some d => d.nc | none => false))

/-- The bytes of such a piece, whether a word of them is poisoned, and the state after the read. -/
def State.directRead (s : State) (c : CoreId) (j : JobId) (p : Piece) : State × List Byte × Bool :=
  let a := offOf p.pa
  if isLocal a then (s, s.localRead c (localOff a) p.n, s.localBad c (localOff a) p.n)
  else match (s.core c).dfind (a / 128) (s.keyOf j p.pln) with
    | some d => (s.hitLoad c d, lineSlice d.data (a % 128) p.n, d.poisoned p.pa p.n)
    | none => (s, [], false)

/-- The words among those of n bytes at an address that bytes of a list of places fall in. -/
def badWords (a n : Nat) (bad : List Nat) : List Nat := (wordsOf a n).filter fun w => bad.any fun i => (a + i) / 8 == w

/-- The places of a piece's unreadable bytes as the poisoned words of its line. -/
def Piece.pois (p : Piece) (bad : List Nat) : BitVec 16 := (badWords (p.pa.toNat % 128) p.n bad).foldl (fun x w => setBit x w true) 0

/-- Bytes written to such a piece; words to which unreadable bytes go take poison. -/
def State.directWrite (s : State) (c : CoreId) (j : JobId) (p : Piece) (bs : List Byte) (bad : List Nat) : State :=
  let a := offOf p.pa
  if isLocal a then (s.localWrite c (localOff a) bs).markBad (badWords a p.n bad)
  else match (s.core c).dfind (a / 128) (s.keyOf j p.pln) with
    | some d => s.updCore c fun v => let d := d.store (a % 128) bs; (v.uncount d.line).dset { d with poison := d.poison ||| p.pois bad }
    | none => s

/-- A row of the copy or TRED `id` is not yet due at a piece that needs no request: an earlier access of the strand is under way there (R328). -/
def State.pieceHeld (s : State) (c : CoreId) (k : StrandId) (id : Nat) (p : Piece) : Bool :=
  s.rowAfter c k id p.pa != [] ||
    (isLocal (offOf p.pa) && (s.strandReqs c k).any fun r => r.kind == .ldb && decide (r.id < id) &&
      decide (r.w1.toNat < localOff (offOf p.pa) + p.n) && decide (localOff (offOf p.pa) < r.w1.toNat + 128))

/-- The request of a part of a row, made from that of its instruction, outside the strand's reply slots (R287): the part's row and place go with it. -/
def State.rowReq (s : State) (c : CoreId) (q : Req) (kind : ReqKind) (id row o : Nat) (p : Piece) (line : Line) (pois : BitVec 16) : Req :=
  { q with kind := kind, va := p.va, pa := p.pa, nc := p.nc, pln := p.pln, hg := p.hg, size := p.n, w0 := BitVec.ofNat 64 id,
                     w1 := BitVec.ofNat 64 (128 * row + o), w2 := pois.setWidth 64, line := line, isStore := kind != .rowRead,
                     after := s.rowAfter c q.strand id p.pa }

/-- Rows of the copy or TRED `id` are under way. -/
def Core.rowsOut (v : Core) (id : Nat) : Bool := v.reqs.any fun r => r.kind.isRow && r.w0.toNat == id

/-- A plain read of one piece by the strand that issues (R48, R303), as a load reads it (R184, R189): the copy that it hits, else its home, whose
lease it extends and whose line it installs (DEDUCED, log 18: R48's `plain reads` are read so, and not as a copy row's). -/
def State.plainRead (s : State) (c : CoreId) (k : StrandId) (p : Piece) : State × List Byte × Bool :=
  let j := (s.strand c k).job
  let a := offOf p.pa
  if devOf p.pa ≠ s.devnum then (s, (List.range p.n).map fun i => s.freeByte (2 ^ 60 + p.pa.toNat + i), false)
  else
    let key := s.keyOf j p.pln
    if isTier a then
      match s.hit c p.pa key with
      | some d => (s.hitLoad c d, lineSlice d.data (a % 128) p.n, d.poisoned p.pa p.n)
      | none =>
        let s := s.visit (some (j, p.hg)) a (s.keyTag j p.pln)
        let (s, wts, rts) := if p.nc then (s, (s.homeLine (a / 128)).wts, 0) else s.renew (a / 128) (s.core c).pts (s.strand c k).lease
        let d : DLine := { line := a / 128, data := leBits 1024 (s.memRead key (a / 128 * 128) 128), key := key, job := j, nc := p.nc, wts := wts, rts := rts,
                           hg := p.hg, poison := s.memPois a }
        ((s.updCore c fun v => { v with pts := wmax v.pts wts }).cacheInstall c k d, s.memRead key a p.n, s.memBad a p.n)
    else (s.updCore c fun v => { v with pts := wmax v.pts (s.wordTime a) }, s.memRead key a p.n, s.memBad a p.n)

/-- An earlier access of the strand is under way at a piece: a plain read waits for it (R328). -/
def State.readHeld (s : State) (c : CoreId) (k : StrandId) (p : Piece) : Bool :=
  s.sameLine c k p.pa != [] || (isLocal (offOf p.pa) && localCore (offOf p.pa) == c && s.blockInto c k (localOff (offOf p.pa)) p.n)

/-! ## Checking rows (R289, R48) -/

/-- What the check of the rows of a copy yields; `hold` where a scale waits for an earlier store of the strand. -/
inductive RowsRes where
  | ok (rows : List (List Piece)) (scales : List (BitVec 16 × Bool))
  | fault (cls : Nat) (addr : BitVec 48) (row : Nat)
  | hold (r : Res)

/-- The scales of a row, read by plain reads of the strand (R48), each as one access: values and whether they are invalid; or the class and
address of a fault; or how the instruction waits for a pending store of the strand to the scale (R384, R328). -/
def State.rowScales (s : State) (c : CoreId) (k : StrandId) (vas : List (BitVec 48)) :
    State × (List (BitVec 16 × Bool) ⊕ ((Nat × BitVec 48) ⊕ Res)) :=
  match vas with
  | [] => (s, .inl [])
  | va :: rest =>
    if s.slogOverlap c k va 2 then (s, .inr (.inr (.park (.slogBytes va 2))))
    else match s.spot c k va 2 .r with
    | (s, .inr cls) => (s, .inr (.inl (cls, va)))
    | (s, .inl (p, _)) =>
      if s.readHeld c k p then (s, .inr (.inr .forfeit))
      else
        let (s, bs, bad) := s.plainRead c k p
        let v : BitVec 16 := leBits 16 bs
        match s.rowScales c k rest with
        | (s, .inl vs) => (s, .inl ((v, bad || badScale v) :: vs))
        | r => r

/-- The addresses of the scales of a row. -/
def scaleVas (scoff : Word) (va : BitVec 48) (fmt blk : Nat) : List (BitVec 48) :=
  if blk = 0 then []
  else (List.range (scalesPerRow fmt blk)).map fun i =>
    vaOf (scoff &&& ~~~1#64) + BitVec.ofNat 48 (2 * (((va + BitVec.ofNat 48 (i * blockSize fmt blk)).toNat) / blockSize fmt blk))

/-- Rows r to n − 1 translated and checked in ascending order, with the scales each needs. -/
def State.checkRows (s : State) (c : CoreId) (k : StrandId) (va : BitVec 48) (stride : BitVec 32) (need : Need) (lfmt : Nat)
    (fb : Nat × Nat) (size n r fuel : Nat) : State × RowsRes :=
  match fuel with
  | 0 => (s, .ok [] [])
  | f + 1 =>
    if n ≤ r then (s, .ok [] []) else
    let ea := rowVa va stride r
    match s.rowPieces c k (cutLines ea size (size + 1)) need lfmt fb with
    | (s, .inr (cls, a)) => (s, .fault cls a r)
    | (s, .inl ps) =>
      match s.rowScales c k (if need = .r then scaleVas (s.strand c k).scoff ea fb.1 fb.2 else []) with
      | (s, .inr (.inl (cls, a))) => (s, .fault cls a r)
      | (s, .inr (.inr x)) => (s, .hold x)
      | (s, .inl sc) =>
        match s.checkRows c k va stride need lfmt fb size n (r + 1) f with
        | (s, .ok rows scs) => (s, .ok (ps :: rows) (sc ++ scs))
        | x => x

/-- A fault of row r: PIX names it (R289). -/
def pixFault (s : State) (c : CoreId) (k : StrandId) (cls : Nat) (a : BitVec 48) (r : Nat) : Res :=
  .faultIn (faultAt cls a) (s.updStrand c k fun t => { t with pix := BitVec.ofNat 64 r })

/-! ## Check 4 of R119: the operand in memory -/

/-- The format of the operand of a copy, or how the instruction ends at check 4. -/
def State.copyFmt (s : State) (c : CoreId) (k : StrandId) (va : BitVec 48) (w : Word) (need : Need) : State × ((Nat × Nat) ⊕ (Nat × BitVec 48)) :=
  match windowOf c va with
  | some _ => (s, .inl (cwFmt w, 0))
  | none =>
    match s.spot c k va 1 need with
    | (s, .inl (_, leaf)) => (s, .inl (fmtOf (cwFmt w) leaf))
    | (s, .inr cls) => (s, .inr (cls, va))

/-- The first of n rows of a read that overlaps a pending side-log entry of the strand, on which the copy parks (R384). -/
def State.copyWaits (s : State) (c : CoreId) (k : StrandId) (va : BitVec 48) (stride : BitVec 32) (n : Nat) : Option Res :=
  ((List.range n).find? fun r => s.slogOverlap c k (rowVa va stride r) 64).map fun r => .park (.slogBytes (rowVa va stride r) 64)

/-- Check 4 of R119: translation of the operand's first byte, with no state changed and PIX 0 in the fault's packet, and its format and shape. While
the control word's register is empty, what the address alone decides is checked: of a CPY or CPY2, a fault that both directions raise alike
(DEDUCED, log 18). A read that waits for a pending entry of the strand raises none yet (R384). `acc` is the accumulator of a TRED, whose type
counts once it is full. -/
def copyPre (i : CopyIns) (ra rb : XReg) (wa wb : Bool) (acc : Option (BitVec 2)) : CoreId → StrandId → State → Option Res := fun c k s =>
  let t := s.strand c k
  let known := t.full (sx rb wb).1
  let va := vaOf (t.rx ra)
  let w := if known then t.rx rb else 0
  let first := fun need => (s.copyFmt c k va w need).2
  let waits := (s.copyWaits c k va (if known then cwStride w else 0) (if known then 32 * i.slots else 1)).isSome
  let fault := fun (cls : Nat) (a : BitVec 48) => some (Res.fault { faultAt cls a with pix0 := true })
  if !t.full (sx ra wa).1 || (!known && (windowOf c va).isSome) then none
  else if !known && (i == .cpy || i == .cpy2) then
    match first .r, first .w with
    | .inr (cls, a), .inr (cls', _) => if cls == cls' && !waits then fault cls a else none
    | _, _ => none
  else
    let need : Need := if i.drains w || i == .tred then .w else .r
    match first need with
    | .inr (cls, a) => if need = .r && waits then none else fault cls a
    | .inl (fmt, blk) =>
      let (z, x) := i.zx w
      let bad :=
        if i == .tred then
          !(fmt == 8 || fmt == 7 || fmt == 6 || fmt == 3) ||
            (match acc with
              | some a => let x := (s.core c).accAt a
                          x.full && (x.int && x.tag == t.job.toNat) != (fmt == 3)
              | none => false)
        else need = .r && !fillLegal fmt blk (if known then cwGeom w else (geomOf fmt).getD 0) z x va (if known then cwStride w else 0)
      if bad then some (.fault (mkFault clsIllegalFormat)) else none

/-! ## Weight buffer (R273, R55, R56) -/

/-- B operands of a core's queued and running commands. -/
def Core.needed (v : Core) : List Nat :=
  (v.mq ++ v.mrun.toList).filterMap fun m => match m.op with | .tmul _ b => some b | .tmuls _ b _ => some b | _ => none

/-- Entries dropped, least recently used first, until an operand of a size fits; none if the needed ones leave no room. -/
def wbFit (needed : List Nat) (l : List WbEntry) (size fuel : Nat) : Option (List WbEntry) :=
  if (l.map (·.size)).sum + size ≤ 65536 then some l
  else match fuel with
    | 0 => none
    | f + 1 =>
      match l.reverse.find? (fun e => !needed.contains e.slot) with
      | some e => wbFit needed (l.filter fun x => x.slot != e.slot) size f
      | none => none

/-- A B operand that is in the weight buffer becomes the most recently used. -/
def Core.wbTouch (v : Core) (n : Nat) : Core := { v with wb := v.wb.filter (fun e => e.slot == n) ++ v.wb.filter fun e => e.slot != n }

/-- The entry of a slot in the weight buffer. -/
def Core.wbOf (v : Core) (n : Nat) : Option WbEntry := v.wb.find? fun e => e.slot == n

/-- A readable slot recoded and installed as a B operand. -/
def State.wbInstall (s : State) (c : CoreId) (n : Nat) : State :=
  let t := s.tileOf c n
  if t.poison then s
  else s.updCore c fun v =>
    let e : WbEntry := { job := (s.slot c n).jobtag, slot := n, blocks := t.blocks }
    match wbFit v.needed (v.wb.filter fun x => x.slot != n) e.size v.wb.length with
    | some l => { v with wb := e :: l }
    | none => v

/-! ## Matrix queue entries -/

/-- The operand slots that a command reads. -/
def MCmd.reads (m : MCmd) : List Nat :=
  match m.op with
  | .tmul a b => if a = b then [a] else [a, b]
  | .tmuls a b _ => if a = b then [a] else [a, b]
  | .tacc a => [a]
  | _ => []

/-- The slots on which a copy's follow-on commands took a read hold at its issue (R270): of each command, the operand that the copy does not land
for it. -/
def Copy.folReads (e : Copy) : List Nat := (e.fol.zip e.slots).flatMap fun (m, l) => m.reads.filter (· != l)

/-- A slot's read count changed by one. -/
def State.hold (s : State) (c : CoreId) (ns : List Nat) : State := ns.foldl (fun s n => s.updSlot c n fun t => { t with rdc := t.rdc + 1 }) s
def State.unhold (s : State) (c : CoreId) (ns : List Nat) : State := ns.foldl (fun s n => s.updSlot c n fun t => { t with rdc := t.rdc - 1 }) s

def State.setAcc (s : State) (c : CoreId) (a : BitVec 2) (f : Acc → Acc) : State :=
  s.updCore c fun v => { v with acc := Tab.put v.acc a.toNat (f (v.accAt a)) }

/-- An accumulator with the canonical NaN in every element, full (R270, R272). -/
def nanAcc (job : JobId) : Acc := { el := (List.range 1024).map fun n => (n, 0x7FC00000#32), full := true, int := false, tag := job.toNat }

/-- Free entries of the matrix queue (R271): reserved ones count as occupied. -/
def Core.mfree (v : Core) : Nat := 16 - (v.mq.length + v.mrun.toList.length + v.mres)

/-- A command placed at the tail of the queue. Directly behind the running one, the load of its B operand begins (R271). -/
def State.enqueue (s : State) (c : CoreId) (m : MCmd) : State :=
  (s.updCore c fun v => { v with mq := v.mq ++ [m], bload := if v.mrun.isSome && v.mq.isEmpty then some s.cycle else v.bload }).soon
    .matrixCommandStart { c := c }

/-! ## Copies as they issue -/

/-- The commands that a copy carries (R293), for its landed slots and the follow-on's first slot. -/
def folCmds (w : Word) (landed : List Nat) (f : List Nat) (t : Strand) (k : StrandId) : List MCmd :=
  (landed.zip f).zipIdx.map fun ((l, x), i) =>
    { op := if cwRole w then .tmul x l else .tmul l x, acc := cwAcc w, job := t.job, strand := k, prog := t.prog, sat := t.sat,
      more := decide (i + 1 < landed.length) }

/-- The role tests of a list of operands (R264), in order. -/
def State.operandSlots (s : State) (c : CoreId) (k : StrandId) (r : Role) (ops : List Nat) : List Nat ⊕ Res :=
  match ops with
  | [] => .inl []
  | o :: rest =>
    match s.operandSlot c k o r with
    | .inr x => .inr x
    | .inl n => match s.operandSlots c k r rest with | .inl ns => .inl (n :: ns) | x => x

/-- Rows of a copy lie wholly in the private scratch of its strand (R282). -/
def State.rowsInScratch (s : State) (c : CoreId) (k : StrandId) (va : BitVec 48) (stride : BitVec 32) (n : Nat) : Bool :=
  (List.range n).all fun r => s.inScratch c k (rowVa va stride r) 64

/-- A source row of a copy overlaps bytes of a slot that the copy fills (R286). -/
def overlaps (c : CoreId) (dev : BitVec 6) (slots : List Nat) (rows : List (List Piece)) : Bool :=
  rows.any fun ps => ps.any fun p => devOf p.pa == dev && slots.any fun n =>
    decide (offOf p.pa < localBase c + 2048 * n + 2048) && decide (localBase c + 2048 * n < offOf p.pa + p.n)

/-- What the requests of a copy's or TRED's rows take from its instruction. -/
def State.rowTemplate (s : State) (c : CoreId) (k : StrandId) : Req := { s.newReq c k .rowRead 0 0 with after := [] }

/-- A copy that fills slots: TLOAD without .x, CPY, CPY2 and CPYW with DIR = 0 (R288, R289, R292, R293). -/
def fillBody (i : CopyIns) (ts : Nat) (va : BitVec 48) (w : Word) : Body' := fun c k s =>
  let t := s.strand c k
  let n := i.slots
  if !i.legal w ts (s.launchOf t).ntile then .fault (mkFault clsOperand)
  else match s.operandSlots c k .fill ((List.range n).map (ts + ·)) with
  | .inr r => r
  | .inl slots =>
    match (if cwFol w then s.operandSlots c k .read ((List.range n).map (cwSlot w + ·)) else .inl []) with
    | .inr r => r
    | .inl fs =>
      match s.copyWaits c k va (cwStride w) (32 * n) with
      | some r => r
      | none =>
      match s.copyFmt c k va w .r with
      | (s, .inr (cls, a)) => pixFault s c k cls a 0
      | (s, .inl fb) =>
        let (z, _) := i.zx w
        let lo := mkLayout fb.1 fb.2 z false (cwGeom w)
        if (fs.any fun f => let lf := (s.slot c f).layout
                            !(if cwRole w then pairLegal t.prog false lf lo else pairLegal t.prog false lo lf)) then .fault (mkFault clsIllegalFormat)
        else if va.toNat % alignSize fb.1 ≠ 0 ∨ (cwStride w).toNat % alignSize fb.1 ≠ 0 then .fault (faultAt clsAlign va)
        else match s.checkRows c k va (cwStride w) .r (cwFmt w) fb 64 (32 * n) 0 65 with
          | (s, .fault cls a r) => pixFault s c k cls a r
          | (_, .hold r) => r
          | (s, .ok rows sc) =>
            let per := if fb.2 = 0 then 0 else 32 * scalesPerRow fb.1 fb.2
            if !(s.core c).copyFree then .park .copy
            else if cwFol w ∧ (s.core c).mfree < n then .park (.mqueue n)
            else
              let id := s.nextId
              let e : Copy :=
                { op := .fill, slots := slots, job := t.job, strand := k, va := va, rows := rows, layout := lo,
                  scales := (List.range n).map fun m => ((sc.drop (m * per)).take per).map (·.1),
                  weight := i == .cpyw, fol := if cwFol w then folCmds w slots fs t k else [],
                  poison := (List.range n).map fun m => ((sc.drop (m * per)).take per).any (·.2),
                  undef := overlaps c s.devnum slots rows, id := id, req := s.rowTemplate c k }
              let s := slots.foldl (fun s m => s.beginFill c m) s.bumpId
              let s := if cwFol w then
                  ((s.hold c fs).setAcc c (cwAcc w) fun a => { a with full := false }).updCore c fun v => { v with mres := v.mres + n }
                else s
              .done (((s.updCore c fun v => { v with copies := v.copies ++ [e] }).updStrand c k fun t => { t with pix := 0 }).push 4
                .copyRowTransfer { c := c, n := id })

/-- A copy that drains slots: TSTORE, CPY and CPY2 with DIR = 1 (R289, R291, R292). -/
def drainBody (i : CopyIns) (ts : Nat) (keep : Bool) (va : BitVec 48) (w : Word) : Body' := fun c k s =>
  let t := s.strand c k
  let n := i.slots
  if t.opt && !s.rowsInScratch c k va (cwStride w) (32 * n) then .fault (mkFault clsIrrevocable)
  else if !i.legal w ts (s.launchOf t).ntile then .fault (mkFault clsOperand)
  else match s.operandSlots c k .drain ((List.range n).map (ts + ·)) with
  | .inr r => r
  | .inl slots =>
    match s.copyFmt c k va w .w with
    | (s, .inr (cls, a)) => pixFault s c k cls a 0
    | (s, .inl fb) =>
      let dst := if (windowOf c va).isSome then 0 else fb.1
      if dst ≠ 0 ∧ (slots.any fun m => loFmt (s.slot c m).layout != dst) then .fault (mkFault clsIllegalFormat)
      else if va.toNat % alignSize fb.1 ≠ 0 ∨ (cwStride w).toNat % alignSize fb.1 ≠ 0 then .fault (faultAt clsAlign va)
      else match s.checkRows c k va (cwStride w) .w (cwFmt w) fb 64 (32 * n) 0 65 with
        | (s, .fault cls a r) => pixFault s c k cls a r
        | (_, .hold r) => r
        | (s, .ok rows _) =>
          if !(s.core c).copyFree then .park .copy
          else
            let id := s.nextId
            let e : Copy := { op := .drain, slots := slots, job := t.job, strand := k, va := va, rows := rows, keep := keep, id := id,
                              req := s.rowTemplate c k }
            let s := slots.foldl (fun s m => s.beginDrain c m) s.bumpId
            .done (((s.updCore c fun v => { v with copies := v.copies ++ [e] }).updStrand c k fun t => { t with pix := 0 }).push 4
              .copyRowTransfer { c := c, n := id })

/-- A transposing TLOAD (R290): it holds its strand until its last source row has been read. -/
def transposeBody (z : Bool) (ts : Nat) (va : BitVec 48) (w : Word) : Body' := fun c k s =>
  let t := s.strand c k
  let i := CopyIns.tload z true
  if !i.legal w ts (s.launchOf t).ntile then .fault (mkFault clsOperand)
  else
    let cont := match s.tileSlot c k ts with
      | some n => t.pix != 0 && (s.slot c n).st == 1 && (s.slot c n).own && ((s.core c).leftFilling k).contains n
      | none => false
    match (if cont then s.operandSlot c k ts .inspect else s.operandSlot c k ts .fill) with
    | .inr r => r
    | .inl n =>
      match s.copyWaits c k va (cwStride w) 32 with
      | some r => r
      | none =>
      match s.copyFmt c k va w .r with
      | (s, .inr (cls, a)) => pixFault s c k cls a 0
      | (s, .inl fb) =>
        if va.toNat % alignSize fb.1 ≠ 0 ∨ (cwStride w).toNat % alignSize fb.1 ≠ 0 then .fault (faultAt clsAlign va)
        else
          if !(s.core c).copyFree then .park .copy
          else
            let id := s.nextId
            let pix := if cont then t.pix else 0
            let e : Copy :=
              { op := .fill, slots := [n], job := t.job, strand := k, va := va, stride := cwStride w, row := pix.toNat, xp := true,
                layout := mkLayout fb.1 fb.2 z true (cwGeom w), poison := [false], id := id, req := { s.rowTemplate c k with w0 := w } }
            let s := if cont then s.bumpId else s.bumpId.beginFill c n
            .issued (((s.updCore c fun v => { v with copies := v.copies ++ [e] }).updStrand c k fun t => { t with pix := pix, held := .transpose }).push 4
              .transposeRowRead { c := c, k := k, n := id, w0 := w })

/-! ## Rows (R287) -/

def Core.copyAt (v : Core) (id : Nat) : Option Copy := v.copies.find? fun e => e.id == id
def State.setCopy (s : State) (c : CoreId) (e : Copy) : State :=
  s.updCore c fun v => { v with copies := v.copies.map fun x => if x.id == e.id then e else x }
def State.dropCopy (s : State) (c : CoreId) (id : Nat) : State :=
  s.updCore c fun v => { v with copies := v.copies.filter fun e => e.id != id }

/-- The bytes of a slot with bytes landed from byte o of row r of the tile (R267, R288). -/
def landPart (lo : BitVec 16) (old : List Byte) (r o : Nat) (bs : List Byte) : List Byte :=
  let f := loFmt lo
  let row : List Byte := List.replicate o 0#8 ++ bs
  if !loZ lo then old.take (64 * r + o) ++ bs ++ old.drop (64 * r + o + bs.length)
  else ((List.range (tileCols f)).filter fun q => decide (8 * o ≤ q * fmtBits f) && decide (q * fmtBits f < 8 * (o + bs.length))).foldl
    (fun t q => tilePut f true t r q (tileElem f false row 0 q)) old

/-- The tile elements that source row q of a transposing load feeds (R290): source column and tile place. -/
def transposed (fmt q : Nat) : List (Nat × Nat × Nat) :=
  (List.range (tileCols fmt)).map fun j =>
    match fmtBits fmt with
    | 32 => (j, 16 * (q / 16) + j, q % 16)
    | 8 => (j, j % 32, 32 * (j / 32) + q)
    | _ => (j, j, q)

/-- The bytes of a slot with bytes landed from byte o of source row q of a transposing load. -/
def landTransposed (lo : BitVec 16) (old : List Byte) (q o : Nat) (bs : List Byte) : List Byte :=
  let f := loFmt lo
  let row : List Byte := List.replicate o 0#8 ++ bs
  ((transposed f q).filter fun x => decide (8 * o ≤ x.1 * fmtBits f) && decide (x.1 * fmtBits f < 8 * (o + bs.length))).foldl
    (fun m (j, r, cc) => tilePut f (loZ lo) m r cc (tileElem f false row 0 j)) old

/-- Part of a source row of a fill lands in its slot; where the copy reads the bytes that it fills, they are undefined (R286). -/
def State.rowLands (s : State) (c : CoreId) (e : Copy) (row o : Nat) (bs : List Byte) (bad : Bool) : State :=
  let m := if e.xp then 0 else row / 32
  let n := e.slots[m]?.getD 0
  let bs := if e.undef then (List.range bs.length).map fun i => s.freeByte (localBase c + 2048 * n + 64 * (row % 32) + o + i) else bs
  let s :=
    if e.xp then s.putSlot c n 0 (landTransposed e.layout (s.slotBytes c n) row o bs)
    else if loZ e.layout then s.putSlot c n 0 (landPart e.layout (s.slotBytes c n) (row % 32) o bs)
    else s.putSlot c n (64 * (row % 32) + o) bs
  if bad then s.updSlot c n fun x => { x with poison := true } else s

/-- Those of n bytes at an address that lie in poisoned words, by their places. -/
def State.unreadable (s : State) (a n : Nat) : List Nat := if s.poisons = [] then [] else (List.range n).filter fun i => s.poisoned (a + i) 1

/-- One part of a row of a copy, from byte o of the row, read into its slot or written out of it at once; or the request that does so (R287). -/
def State.movePiece (s : State) (c : CoreId) (e : Copy) (row o : Nat) (p : Piece) : State × Option Req :=
  if e.op = .fill then
    if s.direct c e.job p then let (s, bs, bad) := s.directRead c e.job p; (s.rowLands c e row o bs bad, none)
    else (s, some (s.rowReq c e.req .rowRead e.id row o p 0 0))
  else
    let a := localBase c + 2048 * (e.slots[row / 32]?.getD 0) + 64 * (row % 32) + o
    let bs := Memory.read s.mem a p.n
    let bad := s.unreadable a p.n
    if s.direct c e.job p then (s.directWrite c e.job p bs bad, none)
    else
      let s := s.updCore c fun v => v.uncount (offOf p.pa / 128)
      (s, some (s.rowReq c e.req .rowWrite e.id row o p (lineSet 0 (p.pa.toNat % 128) bs) (p.pois bad)))

/-- The requests of a row sent. Two parts in this device are one access (R287, R327): the second stays at the core, and the home of the first performs
both. A row with a part at the core itself, or in another device, is moved part by part (DEDUCED, log 18). -/
def State.sendRow (s : State) (rs : List Req) : State :=
  match rs with
  | [p, q] =>
    if devOf p.pa = s.devnum ∧ devOf q.pa = s.devnum then
      let id := s.nextId
      let s := s.bumpId.updCore q.core fun v => { v with reqs := v.reqs ++ [{ q with id := id, after := [] }] }
      s.request { p with twin := some id, after := p.after ++ q.after.filter fun n => !p.after.contains n }
    else (s.request p).request q
  | _ => rs.foldl (fun s r => s.request r) s

/-- The parts of a row moved in ascending order. -/
def State.moveRow (s : State) (c : CoreId) (e : Copy) (row : Nat) (ps : List Piece) : State :=
  let r := ps.foldl (fun (x : State × List Req × Nat) p =>
    let (s, rs, o) := x
    let (s, q) := s.movePiece c e row o p
    (s, rs ++ q.toList, o + p.n)) (s, [], 0)
  r.1.sendRow r.2.1

/-- A part of a row that needs no request waits for an earlier access of the strand. -/
def State.rowHeld (s : State) (c : CoreId) (e : Copy) (ps : List Piece) : Bool :=
  ps.any fun p => s.direct c e.job p && s.pieceHeld c e.strand e.id p

/-- The next row of a transposing load is due, or the load is complete (R290). -/
def State.nextTranspose (s : State) (c : CoreId) (e : Copy) : State :=
  let q := e.row + 1
  let k := e.strand
  let s := s.setCopy c { e with row := q }
  if q < 32 then (s.updStrand c k fun t => { t with pix := BitVec.ofNat 64 q }).push 2 .transposeRowRead { c := c, k := k, n := e.id, w0 := e.req.w0 }
  else (s.updStrand c k fun t => { (t.advance 4) with held := .none, pix := 0 }).soon .fillLanding { c := c, n := e.id }

/-- The rows of a copy or TRED that were under way have been performed: a transposing load goes on to its next row, a fill whose rows have all
been read lands, and accesses ordered after the rows of a copy that is gone may leave. -/
def State.rowsDone (s : State) (c : CoreId) (id : Nat) : State :=
  if (s.core c).rowsOut id then s
  else match (s.core c).copyAt id with
    | some e =>
      if e.op = .fill && e.xp then s.nextTranspose c e
      else if e.op = .fill && decide (e.rows.length ≤ e.row) then s.soon .fillLanding { c := c, n := id } else s
    | none => if (s.core c).mrun.any fun m => m.rows != [] && m.id == id then s else s.settleId c id none

/-- COPY_ROW_TRANSFER: the next row of a copy, read into its slot or written out of it; with the last one a drain ends, and a fill lands once its
rows have been read. -/
def State.copyRow (s : State) (c : CoreId) (id : Nat) : State :=
  match (s.core c).copyAt id with
  | none => s
  | some e =>
    match e.rows[e.row]? with
    | none => s
    | some ps =>
      if s.rowHeld c e ps then s.push 2 .copyRowTransfer { c := c, n := id }
      else
        let s := (s.moveRow c e e.row ps).setCopy c { e with row := e.row + 1 }
        if e.row + 1 < e.rows.length then s.push 2 .copyRowTransfer { c := c, n := id }
        else if e.op = .drain then s.soon .drainComplete { c := c, n := id } else s.rowsDone c id

def execCopyRowTransfer (s : State) : Host.Outcome State Fault Refusal := .next (s.copyRow s.arg.c s.arg.n)

/-- A transposing load stops at a row boundary (R290): its entry is free again, its slot stays FILLING. -/
def State.stopTranspose (s : State) (c : CoreId) (k : StrandId) (id row : Nat) : State :=
  ((s.dropCopy c id).settleId c id none).updStrand c k fun t => { t with held := .none, pix := BitVec.ofNat 64 row }

/-- TRANSPOSE_ROW_READ (R290). -/
def State.transposeRow (s : State) (c : CoreId) (k : StrandId) (id : Nat) (w : Word) : State :=
  match (s.core c).copyAt id with
  | none => s
  | some e =>
    let q := e.row
    if s.stopAsked c k then s.stopTranspose c k id q
    else if 32 ≤ q then s.nextTranspose c e
    else
      match s.rowPieces c k (cutLines (rowVa e.va e.stride q) 64 65) .r (cwFmt w) (loFmt e.layout, loBlk e.layout) with
      | (s, .inr (cls, a)) => (s.stopTranspose c k id q).raise c k (faultAt cls a)
      | (s, .inl ps) =>
        let e := { e with rows := [ps], undef := overlaps c s.devnum e.slots [ps] }
        if s.rowHeld c e ps then s.push 2 .transposeRowRead { c := c, k := k, n := id, w0 := w }
        else ((s.setCopy c e).moveRow c e q ps).rowsDone c id

def execTransposeRowRead (s : State) : Host.Outcome State Fault Refusal := .next (s.transposeRow s.arg.c s.arg.k s.arg.n s.arg.w0)

/-- FILL_LANDING (R263, R270, R292): the slots of a copy flip to READY, with their follow-on commands in the same action. Their words have all been
written. -/
def State.landFill (s : State) (c : CoreId) (id : Nat) : State :=
  match (s.core c).copyAt id with
  | none => s
  | some e =>
    let s := (e.slots.zipIdx).foldl (fun s (n, i) =>
      let bad := (e.poison[i]?.getD false) || (s.slot c n).poison
      let s := (s.endFill c n e.layout (e.scales[i]?.getD []) bad).clearPoison (localBase c + 2048 * n) 2048
      if e.weight && !bad then s.wbInstall c n else s) ((s.dropCopy c id).settleId c id none)
    if e.fol = [] then s
    else
      let k := e.fol.length
      let s := s.updCore c fun v => { v with mres := v.mres - k }
      if e.slots.any fun n => (s.slot c n).poison then
        (s.unhold c e.folReads).setAcc c ((e.fol.head?.map (·.acc)).getD 0) fun _ => nanAcc e.job
      else e.fol.foldl (fun s m => s.enqueue c m) (s.hold c e.slots)

def execFillLanding (s : State) : Host.Outcome State Fault Refusal := .next (s.landFill s.arg.c s.arg.n)

/-- DRAIN_COMPLETE (R263): the last byte has been read out, and the slots of a drain flip. Its writes are acknowledged on their own (R284). -/
def State.finishDrain (s : State) (c : CoreId) (id : Nat) : State :=
  match (s.core c).copyAt id with
  | none => s
  | some e => (e.slots.foldl (fun s n => s.endDrain c n e.keep) (s.dropCopy c id)).rowsDone c id

def execDrainComplete (s : State) : Host.Outcome State Fault Refusal := .next (s.finishDrain s.arg.c s.arg.n)

/-! ## The instructions -/

/-- A copy by its operands: address and control word; the follow-on's accumulator is a destination (R293). -/
def opCopy (i : CopyIns) (w u : Bool) (b a : XReg) (body : BitVec 48 → Word → Body') (s : State) :
    Host.Outcome State Fault Refusal :=
  match s.offer with
  | none => .fault .noOffer
  | some (c, k) =>
    let cw := (s.strand c k).rx b
    let fol := !(i.drains cw) && (match i with | .cpy | .cpy2 | .cpyw => cwFol cw && (s.strand c k).full (.x b) | _ => false)
    issuePre 4 { names := [a, b], srcs := [sx a u, sx b w], accs := if fol then [cwAcc cw] else [] } (copyPre i a b u w none)
      (fun c k s => body (vaOf ((s.strand c k).rx a)) ((s.strand c k).rx b) c k s) s

/-- TLOAD (R288, R290). -/
def execTload (z x w u : Bool) (b a : BitVec 6) (ts : BitVec 9) (s : State) : Host.Outcome State Fault Refusal :=
  opCopy (.tload z x) w u b a (fun va cw => if x then transposeBody z ts.toNat va cw else fillBody (.tload z false) ts.toNat va cw) s

/-- TSTORE (R291). -/
def execTstore (k w u : Bool) (b a : BitVec 6) (ts : BitVec 9) (s : State) : Host.Outcome State Fault Refusal :=
  opCopy (.tstore k) w u b a (fun va cw => drainBody (.tstore k) ts.toNat k va cw) s

/-- CPY (R292, R293). -/
def execCpy (w u : Bool) (b a : BitVec 6) (ts : BitVec 9) (s : State) : Host.Outcome State Fault Refusal :=
  opCopy .cpy w u b a (fun va cw => if cwDir cw then drainBody .cpy ts.toNat (cwKeep cw) va cw else fillBody .cpy ts.toNat va cw) s
/-- CPY2 (R292, R293). -/
def execCpy2 (w u : Bool) (b a : BitVec 6) (ts : BitVec 9) (s : State) : Host.Outcome State Fault Refusal :=
  opCopy .cpy2 w u b a (fun va cw => if cwDir cw then drainBody .cpy2 ts.toNat (cwKeep cw) va cw else fillBody .cpy2 ts.toNat va cw) s
/-- CPYW (R292, R293): DIR must be 0. -/
def execCpyw (w u : Bool) (b a : BitVec 6) (ts : BitVec 9) (s : State) : Host.Outcome State Fault Refusal :=
  opCopy .cpyw w u b a (fun va cw => fillBody .cpyw ts.toNat va cw) s

/-! ## Slot instructions (R294) -/

/-- A layout word that TZERO accepts (R294). -/
def layoutLegal (l : Word) : Bool :=
  let lo := l.extractLsb' 0 16
  let f := loFmt lo
  let zx := loZ lo || loX lo
  decide (l.extractLsb' 16 48 = 0) && decide (l.extractLsb' 0 6 = 0) && decide (f < 10) && loBlk lo == 0 &&
    (if zx then geomOf f == some (lo.extractLsb' 6 2) else lo.extractLsb' 6 2 == 0) && !(loX lo && (f == 0 || f == 4))

/-- TZERO (R294). -/
def execTzero (u : Bool) (a : BitVec 6) (ts : BitVec 9) (s : State) : Host.Outcome State Fault Refusal :=
  issue 4 { names := [a], srcs := [sx a u] }
    (fun c k s =>
      let l := (s.strand c k).rx a
      if !layoutLegal l then .fault (mkFault clsOperand)
      else match s.operandSlot c k ts.toNat .fill with
      | .inr r => r
      | .inl n =>
        let s := (s.beginFill c n).putSlot c n 0 (List.replicate 2048 0#8)
        .done (s.endFill c n (l.extractLsb' 0 16) [] false)) s

/-- A tile-table entry as a word (R262). -/
def Slot.word (t : Slot) : Word :=
  (t.layout &&& ~~~0x3F#16) ++ BitVec.ofNat 8 t.scales.length ++ BitVec.ofNat 3 t.rdc ++ BitVec.ofNat 5 t.jobtag ++ t.strand ++ BitVec.ofNat 2 t.use ++ 0#22 ++
    BitVec.ofBool t.poison ++ BitVec.ofBool t.own ++ BitVec.ofNat 2 t.st

/-- TSTAT (R294). -/
def execTstat (d : BitVec 6) (ts : BitVec 9) (s : State) : Host.Outcome State Fault Refusal :=
  issue 4 { names := [d], dsts := [d] }
    (fun c k s =>
      match s.operandSlot c k ts.toNat .inspect with
      | .inr r => r
      | .inl n => .done (s.writeX c k d (s.slot c n).word)) s

/-- TOWN (R294). -/
def execTown (ts : BitVec 9) (s : State) : Host.Outcome State Fault Refusal :=
  issue 4 {} (fun c k s => match s.operandSlot c k ts.toNat .release with | .inr r => r | .inl _ => .done s) s

/-- TFREE (R294). -/
def execTfree (ts : BitVec 9) (s : State) : Host.Outcome State Fault Refusal :=
  issue 4 {}
    (fun c k s =>
      match s.operandSlot c k ts.toNat .release true with
      | .inr r => r
      | .inl n =>
        .done ((s.updSlot c n fun t => { t with st := 0, poison := false, layout := 0, scales := [] }).updCore c fun v => v.dropWb [n])) s

end Sys2Proof.Machine
end

