-- ==== Sys2Proof/Machine/Matrix.lean ====
section
/-! DEFINITION. The matrix unit: TMUL, TMULK, TMULS, TACC, TWB, TRED, TPROG and their commands (spec/13_isa_tile.md R281 to R284, R295 to
R302; spec/12_tiles.md R271 to R276; spec/02_formats.md R50 to R52; notes/assumptions 18). -/

namespace Sys2Proof.Machine

/-! ## Inner-loop programs (R275) -/

/-- Op k of a program: OPC, SX, SY and the bits that must be 0. -/
def progOp (p : Word) (k : Nat) : Nat × Nat × Nat × Nat :=
  let o := (p.extractLsb' (16 * k) 16).toNat
  (o / 4096, o / 512 % 8, o / 64 % 8, o % 64)

/-- The rules that TPROG checks. -/
def progLegal (p : Word) : Bool :=
  p == 0 ||
    ((progOp p 0).1 != 0 &&
      (List.range 4).all fun k =>
        let (opc, sx, sy, z) := progOp p k
        let ended := (List.range k).any fun j => (progOp p j).1 == 0
        let src := fun (x : Nat) => x != 7 && (decide (x < 3) || x == 6 || decide (x - 3 < k))
        if ended then p.extractLsb' (16 * k) 16 == 0
        else if opc = 0 then z == 0
        else decide (opc ≤ 8) && z == 0 && src sx && src sy)

/-- One op on 32-bit values, rounded to nearest even or wrapped (R52). -/
def progEval (int : Bool) (opc x y : Nat) : Lv :=
  match opc with
  | 1 => if int then (intBits 32 (val32 x + val32 y), 0) else roundIeee 8 23 0 (exAdd 0 (decodeFmt 8 x) (decodeFmt 8 y))
  | 2 => if int then (intBits 32 (val32 x - val32 y), 0) else roundIeee 8 23 0 (exAdd 0 (decodeFmt 8 x) (decodeFmt 8 y).negate)
  | 3 => if int then (intBits 32 (val32 x * val32 y), 0) else roundIeee 8 23 0 (exMul (decodeFmt 8 x) (decodeFmt 8 y))
  | 4 => if int then (if val32 y < val32 x then y else x, 0) else fvMinMax false 8 x y
  | 5 => if int then (if val32 x < val32 y then y else x, 0) else fvMinMax true 8 x y
  | 6 => (x &&& y, 0)
  | 7 => (x ||| y, 0)
  | _ => (x ^^^ y, 0)

/-- The new state s′ of a program for s, a and b. -/
def progStep (p : Word) (int : Bool) (s a b : Nat) : Lv :=
  let r := (List.range 4).foldl (fun (st : List Nat × BitVec 5 × Bool) k =>
    let (ts, fl, ended) := st
    let (opc, sx, sy, _) := progOp p k
    if ended || opc = 0 then (ts, fl, true)
    else
      let src := fun (x : Nat) => match x with | 0 => s | 1 => a | 2 => b | 6 => 0 | n => ts[n - 3]?.getD 0
      let v := progEval int opc (src sx) (src sy)
      (ts ++ [v.1], fl ||| v.2, false)) ([], 0, false)
  (r.1.getLast?.getD 0, r.2.1)

/-! ## Products (R50 to R52, R295, R296, R298) -/

/-- K of a pair and the length of a slice. -/
def pairK (fmt : Nat) : Nat := match fmtBits fmt with | 32 => 16 | 16 => 32 | 8 => 64 | _ => 128

/-- b[k][j] (R295). -/
def bElem (t : Tile) (k j : Nat) : Nat × Nat := if (matDims t.layout).1 = pairK (loFmt t.layout) then (k, j) else (j, k)

/-- The value of an accumulator's element for a command of a job (R283): another job's counts as +0. -/
def Acc.val (a : Acc) (job : JobId) (n : Nat) : Nat := if a.tag = job.toNat then (Tab.get 0 a.el n).toNat else 0

/-- c[i][j] after one pair: slices in ascending order over the terms present. -/
def pairFloat (A B : Tile) (present : List Nat) (c i j : Nat) : Lv :=
  let k := pairK (loFmt A.layout)
  -- FP32 slices of 16, 2-byte 32, T8 64, T4 128: one slice per pair
  let terms := ((List.range k).filter fun x => present.contains (x / 8)).map fun x =>
    let (r, q) := bElem B x j
    let a := A.mat i x; let b := B.mat r q
    let p := exMul a.v b.v
    { p with fl := p.fl ||| a.fl ||| b.fl }
  roundIeee 8 23 0 (sumEx 0 (exOf (decodeFmt 8 c) :: terms))

/-- c[i][j] after one pair under a program. -/
def pairProg (A B : Tile) (prog : Word) (c i j : Nat) : Lv :=
  let int := loFmt A.layout == 3
  (List.range 16).foldl (fun (s : Lv) k =>
    let (r, q) := bElem B k j
    let v := progStep prog int s.1 (A.raw i k) (B.raw r q)
    (v.1, s.2 ||| v.2)) (c, 0)

/-- All elements of an accumulator by a function of row and column, with the flags. -/
def accFill (f : Nat → Nat → Lv) : Tab (BitVec 32) × BitVec 5 :=
  (List.range 1024).foldr (fun n (l, fl) => let v := f (n / 32) (n % 32); ((n, BitVec.ofNat 32 v.1) :: l, fl ||| v.2)) ([], 0)

/-- The accumulator after a TMUL of a pair, and its flags. `present` is the list of K blocks of a TMULS. -/
def mulAcc (m : MCmd) (A B : Tile) (present : Option (List Nat)) (c : Acc) : Acc × BitVec 5 :=
  match present with
  | some [] => (if c.tag = m.job.toNat then c else { c with el := [], int := false, tag := m.job.toNat, bad := [] }, 0)
  | some ps => let (el, fl) := accFill fun i j => pairFloat A B ps (c.val m.job (32 * i + j)) i j; ({ c with el := el, int := false, tag := m.job.toNat }, fl)
  | none =>
    let int := m.prog != 0 && loFmt A.layout == 3
    let (el, fl) := accFill fun i j =>
      let x := c.val m.job (32 * i + j)
      if m.prog = 0 then pairFloat A B ((List.range 16)) x i j else pairProg A B m.prog x i j
    ({ c with el := el, int := int, tag := m.job.toNat }, fl)

/-- The accumulator that TACC loads (R300). -/
def loadAcc (m : MCmd) (A : Tile) (c : Acc) : Acc × BitVec 5 :=
  let f := loFmt A.layout
  let int := f == 0 || tyInt f
  let (rows, cols) := matDims A.layout
  let (el, fl) := accFill fun i j =>
    if i < rows ∧ j < cols then (if int then (intBits 32 (if f = 0 then (A.raw i j : Nat) else tyVal f (A.raw i j)), 0) else roundIeee 8 23 0 (A.mat i j))
    else (0, 0)
  ({ c with el := el, int := int, tag := m.job.toNat, bad := [] }, fl)

/-- An accumulator's element converted into a type (R301). -/
def accConvert (int : Bool) (ty mode : Nat) (sat : Bool) (v : Nat) : Lv :=
  let x : Fv := if int then ofInt (val32 v) else decodeFmt 8 v
  encodeFmt ty mode sat { v := x, fl := sigFlag [x] }

/-- The bytes that TWB writes into a slot, and the flags (R301). -/
def twbBytes (c : Acc) (job : JobId) (ty : Nat) (h keep : Bool) (mode : Nat) (sat : Bool) (old : List Byte) : List Byte × BitVec 5 :=
  let hn := if h then 1 else 0
  let conv := fun (r q : Nat) => accConvert c.int ty mode sat (c.val job (32 * r + q))
  let row := fun (r : Nat) =>
    let es : List (Option Lv) :=
      match fmtBits ty with
      | 32 => (List.range 16).map fun q => some (conv r (16 * hn + q))
      | 16 => (List.range 32).map fun q => some (conv r q)
      | _ => (List.range 64).map fun q => if q / 32 = hn then some (conv r (q % 32)) else none
    let w := fmtBits ty / 8
    ((es.zipIdx.flatMap fun (e, q) => match e with
        | some v => toBytes w v.1
        | none => [if keep then (old[64 * r + q]?.getD 0) else 0#8]),
      es.foldl (fun f e => match e with | some v => f ||| v.2 | none => f) (0 : BitVec 5))
  let rs := (List.range 32).map row
  (rs.flatMap (·.1), rs.foldl (fun f r => f ||| r.2) 0)

/-! ## Running commands (R271 to R273) -/

/-- Cycles of a command once its operands are ready (R271, R274, R300 to R302). -/
def State.mcycles (s : State) (c : CoreId) (m : MCmd) : Nat :=
  match m.op with
  | .tmul a _ => if m.prog != 0 then 512 else if loFmt (s.slot c a).layout = 8 then 128 else 64
  | .tmuls a _ ps => let nb := pairK (loFmt (s.slot c a).layout) / 8; if ps = [] then 4 else ps.length * (64 / nb)
  | .tacc _ => 16
  | .twb .. => 16
  | .tred .. => 32

/-- MATRIX_COMMAND_START: the head of the queue runs; a B operand that the weight buffer lacks is loaded in 16 cycles, of which those count
that are not over when the command before has ended. The load for the next command may begin. -/
def State.startMatrix (s : State) (c : CoreId) : State :=
  let v := s.core c
  match v.mrun, v.mq with
  | none, m :: rest =>
    let s := s.setCore c { v with mrun := some m, mq := rest, bload := if rest = [] then none else some s.cycle }
    let left := 16 - (match v.bload with | some t => s.cycle - t | none => 0)
    let b := match m.op with | .tmul _ b => some b | .tmuls _ b _ => some b | _ => none
    let (s, extra) := match b with
      | some b => if (v.wbOf b).isSome then (s.updCore c fun v => v.wbTouch b, 0) else (s.wbInstall c b, left)
      | none => (s, 0)
    s.push (2 * (s.mcycles c m + extra)) .matrixCommandComplete { c := c }
  | _, _ => s

def execMatrixCommandStart (s : State) : Host.Outcome State Fault Refusal := .next (s.startMatrix s.arg.c)

/-- The terms of K that a command multiplies (R298): all but for a TMULS, whose skipped blocks are left out. -/
def MCmd.terms (m : MCmd) (fmt : Nat) : List Nat :=
  match m.op with
  | .tmuls _ _ ps => (List.range (pairK fmt)).filter fun x => ps.contains (x / 8)
  | _ => List.range (pairK fmt)

/-- The elements of an operand's logical matrix that a command reads: of A, and of B. -/
def MCmd.elems (m : MCmd) (A B : Tile) : List (Nat × Nat) × List (Nat × Nat) :=
  let ks := m.terms (loFmt A.layout)
  ((List.range 32).flatMap fun i => ks.map fun k => (i, k), (List.range 32).flatMap fun j => ks.map fun k => bElem B k j)

/-- A word of a slot that holds one of these elements is unreadable. -/
def State.elemsBad (s : State) (c : CoreId) (n : Nat) (es : List (Nat × Nat)) : Bool :=
  let l := (s.slot c n).layout
  s.slotBad c n && es.any fun e =>
    let (r, q) := matElem l e.1 e.2
    s.poisoned (localBase c + 2048 * n + elemPos (loFmt l) (loZ l) r q / 8) 1

/-- The elements of its tile that a TACC reads (R300). -/
def accElems (l : BitVec 16) : List (Nat × Nat) :=
  let (rows, cols) := matDims l
  (List.range (min 32 rows)).flatMap fun i => (List.range (min 32 cols)).map fun j => (i, j)

/-- The operand slots of a running command that carry POISON or of which it reads an unreadable word (R272): TACC reads the elements it loads, TMULS
nothing of skipped blocks (R298; of A: DEDUCED, log 18), and none of a B that the weight buffer holds (R273). -/
def State.badOperands (s : State) (c : CoreId) (m : MCmd) : List Nat :=
  let bad := fun (a b : Nat) =>
    let (ea, eb) := m.elems (s.tileOf c a) (s.tileOf c b)
    m.reads.filter fun n => (s.slot c n).poison || (n == a && s.elemsBad c a ea) || (n == b && ((s.core c).wbOf b).isNone && s.elemsBad c b eb)
  match m.op with
  | .tmul a b => bad a b
  | .tmuls a b _ => bad a b
  | .tacc a => if (s.slot c a).poison || s.elemsBad c a (accElems (s.slot c a).layout) then [a] else []
  | _ => []

/-- The command reads its accumulator: a TACC and a TMULS without a block do not. -/
def MCmd.readsAcc (m : MCmd) : Bool := match m.op with | .tacc _ => false | .tmuls _ _ ps => ps != [] | _ => true

/-- The B operand of a command: rebuilt from the weight buffer where that holds it, else its slot (R273, R55). -/
def State.bTile (s : State) (c : CoreId) (n : Nat) : Tile :=
  match (s.core c).wbOf n with
  | some e => (s.tileOf c n).fromBlocks e.blocks
  | none => s.tileOf c n

/-- An accumulator as a command of a job finds it: another job's counts as +0, and the tag becomes its own (R283). -/
def Acc.claim (a : Acc) (job : JobId) : Acc := if a.tag = job.toNat then a else { a with el := [], int := false, tag := job.toNat, bad := [] }

/-- The accumulator's elements of a row that a part of it from byte o takes, in a format's width w. -/
def rowElems (a : Acc) (job : JobId) (i o w n : Nat) : Line :=
  leBits 1024 ((List.range (n / w)).flatMap fun e => toBytes 4 (a.val job (32 * i + o / w + e)))

/-- One row of a TRED sent (R302, R207, R191): performed at once in own local memory, else by a request, behind the write-back of a non-coherent
copy. -/
def State.tredRow (s : State) (c : CoreId) (m : MCmd) (a : Acc) (fmt i : Nat) (ps : List Piece) : State :=
  let w := fmtBits fmt / 8
  (ps.foldl (fun (so : State × Nat) p =>
    let (s, o) := so
    let pa := offOf p.pa
    let line := rowElems a m.job i o w p.n
    let s :=
      if devOf p.pa == s.devnum && isLocal pa && localCore pa == c then
        let (bs, bad) := s.redBytes none pa p.n fmt a.int line
        (s.memWrite none pa bs).markBad bad
      else
        let s := if isTier pa && p.nc && devOf p.pa == s.devnum then s.surrender c m.strand (pa / 128) else s
        s.request (s.rowReq c m.req (.rowRed fmt a.int) m.id i o p line 0)
    (s, o + p.n)) (s, 0)).1

/-- A row of a TRED lies in own local memory where an earlier access of its strand is under way (R328). -/
def State.tredHeld (s : State) (c : CoreId) (m : MCmd) : Bool :=
  m.rows.any fun ps => ps.any fun p => devOf p.pa == s.devnum && isLocal (offOf p.pa) && localCore (offOf p.pa) == c && s.pieceHeld c m.strand m.id p

/-- A command ends without POISON or errors: its result in the accumulator, which is full, its holds released, its flags credited. -/
def State.endMatrix (s : State) (c : CoreId) (m : MCmd) (a : Acc) (fl : BitVec 5) : State :=
  let s := (s.unhold c m.reads).setAcc c m.acc fun _ => { a with full := !m.step && !m.more }
  let s := s.orFlags c m.strand fl
  if m.step then s.soon .tmulkStep { c := c, k := m.strand, ok := true } else s

/-- A command that met R272 in some slots: their POISON is set, and the accumulator holds NaN; a step of a TMULK faults with the accumulator as
it stood before it, and the packet names the TMULK (R276). -/
def State.poisonMatrix (s : State) (c : CoreId) (m : MCmd) (ns : List Nat) : State :=
  let s := (ns.foldl (fun s n => s.updSlot c n fun t => { t with poison := true }) s).unhold c m.reads
  if m.step then
    ((s.setAcc c m.acc fun a => { a with full := true }).updStrand c m.strand fun t => { t with held := .none, mulk := none }).raise
      c m.strand (mkFault clsData)
  else s.setAcc c m.acc fun _ => { nanAcc m.job with full := !m.more }

/-- The accumulator as a command that writes a slot or memory finds it: with NaN in every element where one holds an error (R386, R272; DEDUCED,
log 18: R272 speaks of the commands that write an accumulator). -/
def Acc.found (a : Acc) (job : JobId) : Acc := if a.bad = [] then a else nanAcc job

/-- MATRIX_COMMAND_COMPLETE (R271, R272, R386): the result is written, the accumulator full, the holds released. Within a cycle it comes after the
instruction that the core issues, so that flags OR-ed apply after a write of STS (R46). -/
def State.finishMatrix (s : State) (c : CoreId) : State :=
  match (s.core c).mrun with
  | none => s
  | some m =>
    let acc := ((s.core c).accAt m.acc).claim m.job
    if s.agenda.any fun e => decide (e.1 ≤ s.now) && e.2.1 == .barrelCycle && e.2.2.c == c then s.soon .matrixCommandComplete { c := c }
    else if s.tredHeld c m then s.push 2 .matrixCommandComplete { c := c }
    else
    let s := (s.updCore c fun v => { v with mrun := none }).soon .matrixCommandStart { c := c }
    let bad := s.badOperands c m
    if bad ≠ [] ∨ (m.reads ≠ [] ∧ acc.bad ≠ [] ∧ m.readsAcc) then s.poisonMatrix c m bad
    else
      match m.op with
      | .tmul a b => let (x, fl) := mulAcc m (s.tileOf c a) (s.bTile c b) none acc; s.endMatrix c m x fl
      | .tmuls a b ps => let (x, fl) := mulAcc m (s.tileOf c a) (s.bTile c b) (some ps) acc; s.endMatrix c m x fl
      | .tacc a => let (x, fl) := loadAcc m (s.tileOf c a) acc; s.endMatrix c m x fl
      | .twb n ty h mode keep =>
        let (bs, fl) := twbBytes (acc.found m.job) m.job ty.toNat h keep mode m.sat (s.slotBytes c n)
        ((((s.putSlot c n 0 bs).endFill c n (mkLayout ty.toNat 0 false false 0) [] false).setAcc c m.acc fun a => (a.claim m.job).found m.job).orFlags c m.strand fl)
      | .tred _ rows fmt =>
        ((rows.zipIdx.foldl (fun s (ps, i) => s.tredRow c m (acc.found m.job) fmt i ps) s).setAcc c m.acc fun a => (a.claim m.job).found m.job).rowsDone c m.id

def execMatrixCommandComplete (s : State) : Host.Outcome State Fault Refusal := .next (s.finishMatrix s.arg.c)

/-! ## Instructions that enter the queue at issue (R271) -/

/-- A command entered, its holds taken and its accumulator empty; the strand parks while the queue is full. -/
def State.enterMatrix (s : State) (c : CoreId) (m : MCmd) (dst : Bool) : Res :=
  if (s.core c).mfree = 0 then .park (.mqueue 1)
  else
    let s := s.hold c m.reads
    let s := if dst then s.setAcc c m.acc fun a => { a with full := false } else s
    .done (s.enqueue c m)

/-- What a command copies at issue. -/
def Strand.cmd (t : Strand) (k : StrandId) (op : MOp) (acc : BitVec 2) : MCmd :=
  { op := op, acc := acc, job := t.job, strand := k, prog := t.prog, sat := t.sat }

/-- TMUL (R296). -/
def execTmul (cd : BitVec 2) (b a : BitVec 9) (s : State) : Host.Outcome State Fault Refusal :=
  issue 4 { accs := [cd] }
    (fun c k s =>
      match s.operandSlots c k .read [a.toNat, b.toNat] with
      | .inr r => r
      | .inl ns =>
        let na := ns.headD 0; let nb := ns.getLastD 0
        let t := s.strand c k
        if !pairLegal t.prog false (s.slot c na).layout (s.slot c nb).layout then .fault (mkFault clsIllegalFormat)
        else s.enterMatrix c (t.cmd k (.tmul na nb) cd) true) s

/-- The skip list of a TMULS (R274): the blocks present and the bytes used, reading at most `fuel` bytes; or the fault of a byte. -/
def State.skipList (s : State) (c : CoreId) (j : JobId) (off nb p used fuel : Nat) (present : List Nat) : (List Nat × Nat) ⊕ Fault' :=
  match fuel with
  | 0 => .inl (present, used)
  | f + 1 =>
    if nb ≤ p then .inl (present, used)
    else
      let a := (off + used) % 2 ^ 20
      match s.localCheck c j a 1 with
      | some cls => .inr (laneAddrFault cls a)
      | none =>
        if s.localBad c a 1 then .inr (laneAddrFault clsData a)
        else
          let p := p + leNat (s.localRead c a 1)
          if p < nb then s.skipList c j off nb (p + 1) (used + 1) f (present ++ [p]) else s.skipList c j off nb p (used + 1) f present
where
  /-- The fault of a local offset, at its address in the self window (R237). -/
  laneAddrFault (cls off : Nat) : Fault' := { cls := cls, addr := BitVec.ofNat 64 (0x7FFFFFF00000 + off) }

/-- TMULS (R298, R274): the pointer takes its final value at issue. -/
def execTmuls (p : BitVec 4) (cd : BitVec 2) (b a : BitVec 9) (s : State) : Host.Outcome State Fault Refusal :=
  issue 4 { srcs := [s0 (.a p)], dregs := [.a p], accs := [cd] }
    (fun c k s =>
      match s.operandSlots c k .read [a.toNat, b.toNat] with
      | .inr r => r
      | .inl ns =>
        let na := ns.headD 0; let nb := ns.getLastD 0
        let t := s.strand c k
        let la := (s.slot c na).layout
        if !pairLegal 0 true la (s.slot c nb).layout then .fault (mkFault clsIllegalFormat)
        else
          let ptr := t.ra p
          let off := (ptr.extractLsb' 0 20).toNat
          match s.skipList c t.job off (pairK (loFmt la) / 8) 0 0 9 [] with
          | .inr f => .fault f
          | .inl (ps, used) =>
            match s.enterMatrix c { t.cmd k (.tmuls na nb ps) cd with prog := 0 } true with
            | .done s => .done (s.updStrand c k fun t => t.putA p ((ptr.extractLsb' 20 44) ++ BitVec.ofNat 20 (off + used)))
            | r => r) s

/-- TACC (R300). -/
def execTacc (cd : BitVec 2) (a : BitVec 9) (s : State) : Host.Outcome State Fault Refusal :=
  issue 4 { accs := [cd] }
    (fun c k s =>
      match s.operandSlot c k a.toNat .read with
      | .inr r => r
      | .inl n => s.enterMatrix c ((s.strand c k).cmd k (.tacc n) cd) true) s

/-- TWB (R301): the slot is FILLING from issue; a 1-byte conversion keeps the other columns where the slot held that type plainly. -/
def execTwb (y : BitVec 4) (h : Bool) (cd : BitVec 2) (r : BitVec 3) (a : BitVec 9) (s : State) : Host.Outcome State Fault Refusal :=
  issue 4 { accs := [cd] }
    (fun c k s =>
      match s.operandSlot c k a.toNat .fill with
      | .inr x => x
      | .inl n =>
        let t := s.strand c k
        let x := s.slot c n
        let keep := fmtBits y.toNat = 8 && x.st == 2 && !x.poison && x.layout == mkLayout y.toNat 0 false false ((x.layout.extractLsb' 6 2))
        let mode := if r = 0 then t.mode else r.toNat - 4
        match s.enterMatrix c (t.cmd k (.twb n y h mode keep) cd) false with
        | .done s => .done (s.beginFill c n)
        | z => z) s

/-- TRED (R302): rows translated and checked while the strand is held, then the queue. An accumulator that holds INT32 under another job's tag
counts as one of FP32 +0 (DEDUCED, log 18: R283 takes it in the command's type, which R53 and R302 do not name). -/
def execTred (w u : Bool) (b a : BitVec 6) (cd : BitVec 2) (s : State) : Host.Outcome State Fault Refusal :=
  issuePre 4 { names := [a, b], srcs := [sx a u, sx b w], accs := [cd] } (copyPre .tred a b u w (some cd))
    (irrevocable fun c k s =>
      let t := s.strand c k
      let va := vaOf (t.rx a); let cw := t.rx b
      if !CopyIns.tred.legal cw 0 0 then .fault (mkFault clsOperand)
      else match s.copyFmt c k va cw .w with
      | (s, .inr (cls, x)) => pixFault s c k cls x 0
      | (s, .inl fb) =>
        let fmt := fb.1
        let m := 32 * alignSize fmt
        if va.toNat % m ≠ 0 ∨ (cwStride cw).toNat % m ≠ 0 then .fault (faultAt clsAlign va)
        else match s.checkRows c k va (cwStride cw) .w (cwFmt cw) fb m 32 0 33 with
        | (s, .fault cls x r) => pixFault s c k cls x r
        | (_, .hold r) => r
        | (s, .ok rows _) =>
          if rows.any fun ps => ps.any fun p => devOf p.pa == s.devnum && isHost (offOf p.pa) then .fault (faultAt clsUnsupported va)
          else match s.bumpId.enterMatrix c { t.cmd k (.tred va rows fmt) cd with id := s.nextId, req := s.rowTemplate c k } false with
            | .done s => .done (s.updStrand c k fun t => { t with pix := 0 })
            | r => r) s

/-- TPROG (R299). -/
def execTprog (u : Bool) (a : BitVec 6) (s : State) : Host.Outcome State Fault Refusal :=
  issue 4 { names := [a], srcs := [sx a u] }
    (fun c k s =>
      let p := (s.strand c k).rx a
      if progLegal p then .done (s.updStrand c k fun t => { t with prog := p }) else .fault (mkFault clsOperand)) s

/-! ## TMULK (R276, R297) -/

/-- TMULK issues: formats and shape of pair 0 are judged, it holds its strand, its accumulator is empty, and its steps enter the queue one by one
from step PIX. -/
def execTmulk (cd : BitVec 2) (b a : BitVec 9) (s : State) : Host.Outcome State Fault Refusal :=
  issue 4 { accs := [cd] }
    (fun c k s =>
      let t := s.strand c k
      let n := t.vl.toNat
      let nt := (s.launchOf t).ntile
      if n = 0 then .done s
      else if nt < a.toNat + n ∨ nt < b.toNat + n then .fault (mkFault clsOperand)
      else match s.operandSlots c k .inspect (((List.range n).map (a.toNat + ·)) ++ (List.range n).map (b.toNat + ·)) with
      | .inr r => r
      | .inl _ =>
        let p := if t.pix.toNat < n then t.pix.toNat else 0
        match s.operandSlots c k .read [a.toNat + p, b.toNat + p] with
        | .inr r => r
        | .inl _ =>
          let lo := fun (op : Nat) => (s.slot c ((s.tileSlot c k op).getD 0)).layout
          if !pairLegal t.prog false (lo a.toNat) (lo b.toNat) then .fault (mkFault clsIllegalFormat)
          else .issued (((s.updStrand c k fun t =>
            { t with held := .tmulk, mulk := some { a := a.toNat, b := b.toNat, n := n, acc := cd } }).setAcc c cd fun x => { x with full := false }).push 2
              .tmulkStep { c := c, k := k })) s

/-- The TMULK of a strand ends without its accumulator being pending: stopped, or faulted. -/
def State.endMulk (s : State) (c : CoreId) (k : StrandId) (x : MulK) : State :=
  (s.setAcc c x.acc fun a => { a with full := true }).updStrand c k fun t => { t with held := .none, mulk := none }

/-- TMULK_STEP: the step that `ok` reports ended counts; then the next pair enters the queue when it is READY, or the TMULK completes,
stops or faults at that step. -/
def State.mulkStep (s : State) (c : CoreId) (k : StrandId) (ended : Bool) : State :=
  match (s.strand c k).mulk with
  | none => s
  | some x =>
    if x.busy && !ended then s else
    let x := { x with busy := false }
    let s := s.updStrand c k fun t => { t with mulk := some x, pix := if ended then t.pix + 1 else t.pix }
    let t := s.strand c k
    let p := t.pix.toNat
    if x.n ≤ p then
      (s.endMulk c k x).updStrand c k fun t => { (t.advance 4) with pix := 0 }
    else if s.stopAsked c k then s.endMulk c k x
    else
      let again := s.push 2 .tmulkStep { c := c, k := k }
      match s.operandSlots c k .read [x.a + p, x.b + p] with
      | .inr (.fault f) => (s.endMulk c k x).raise c k f
      | .inr _ => again
      | .inl ns =>
        let na := ns.headD 0; let nb := ns.getLastD 0
        if !pairLegal t.prog false (s.slot c na).layout (s.slot c nb).layout then (s.endMulk c k x).raise c k (mkFault clsIllegalFormat)
        else if (s.core c).mfree = 0 then again
        else
          let m : MCmd := { t.cmd k (.tmul na nb) x.acc with step := true }
          ((s.hold c m.reads).enqueue c m).updStrand c k fun t => { t with mulk := some { x with busy := true } }

def execTmulkStep (s : State) : Host.Outcome State Fault Refusal := .next (s.mulkStep s.arg.c s.arg.k s.arg.ok)

/-! ## DECODE as it issues (R303) -/

/-- The die of a core (R2). -/
def dieOf (c : CoreId) : Nat := (c.toNat / 64 % 8) / 4 + 2 * (c.toNat / 512 / 4)

/-- DECODE (R303): the descriptor is read as one block, checked, and the request queued at its die. -/
def execDecode (u : Bool) (a : BitVec 6) (s : State) : Host.Outcome State Fault Refusal :=
  issue 4 { names := [a], srcs := [sx a u] }
    (irrevocable fun c k s =>
      let t := s.strand c k
      let va := vaOf (t.rx a)
      if va.toNat % 64 ≠ 0 then .fault (faultAt clsAlign va)
      else if s.slogOverlap c k va 64 then .park (.slogBytes va 64)
      else match s.spot c k va 64 .r with
      | (_, .inr cls) => .fault (faultAt cls va)
      | (s, .inl (p, _)) =>
        if s.readHeld c k p then .forfeit else
        let (s, bs, bad) := s.plainRead c k p
        if bad then .fault (faultAt clsData va)
        else
          let w := fun (n : Nat) => (leBits 64 ((bs.drop (8 * n)).take 8) : Word)
          let dev := (w 2).extractLsb' 50 6
          if (w 2).extractLsb' 0 42 ≠ 0 ∨ (w 4).extractLsb' 48 16 ≠ 0 ∨ w 6 ≠ 0 ∨ w 7 ≠ 0 then .fault (mkFault clsOperand)
          else if w 3 < t.vt then .fault (mkFault clsCausality)
          else if dev ≠ s.devnum ∧ Tab.get 0#16 s.routes dev.toNat = 0#16 then .fault { cls := clsTranslation, addr := w 2 }
          else if (w 5).toNat % 8 ≠ 0 then .fault { cls := clsAlign, addr := w 5 }
          else
            let d := dieOf c
            let q := Tab.get [] s.decQueues d
            if 16 ≤ q.length then .park .dqueue
            else
              let r : DecReq := { job := t.job, lslot := t.lslot, die := d, bs := w 0, len := w 1, tname := w 2, base := w 3,
                                  nframes := ((w 4).extractLsb' 16 32).toNat, rcount := ((w 4).extractLsb' 0 16).toNat, sigw := w 5, vt := t.vt }
              .done ((({ s with decQueues := Tab.put s.decQueues d (q ++ [r]) } : State).updLaunch t.job t.lslot fun l => { l with count := l.count + 1 }).soon
                .decodeRequestStart { n := d })) s

end Sys2Proof.Machine
end

