-- ==== Sys2Proof/Machine/Replies.lean ====
section
/-! DEFINITION. REPLY_ARRIVAL: what a reply does at the core of its request (spec/14_network.md R314; spec/07_issue.md R130 to R132;
spec/09_memory.md R183 to R193; spec/10_isa_memory.md R205 to R229; spec/08_isa_scalar.md R140, R165 to R169;
spec/20_faults.md R372, R385). -/

namespace Sys2Proof.Machine

/-! ## Faults of accesses that have left their strand (R163, R221, R383) -/

/-- The packet of a side-log entry that faults. -/
def State.slogPacket (s : State) (c : CoreId) (i : Nat) (e : SlEntry) : Packet :=
  let deferred := e.kind == 8 || e.kind == 9
  { cyc := s.cycle, core := c, strand := if deferred then 0 else e.strand, job := e.job, cls := e.cls, slog := true, defer := deferred, autok := s.autokill e.job e.cls,
    insn := e.insn, lslot := e.lslot, pc := e.pc, addr := e.va.setWidth 64, pix := if deferred then 0 else (s.strand c e.strand).pix, vt := e.vt,
    sle := BitVec.ofNat 6 i, tstamp := s.tstamp }

/-- A side-log entry freed with its block. -/
def Core.freeEntry (v : Core) (i : Nat) : Core :=
  let e := Tab.get {} v.slog i
  { v with slog := Tab.del v.slog i, sblkUsed := if e.kind = 2 then v.sblkUsed.filter fun b => b != e.blk else v.sblkUsed }

/-- A side-log entry freed with its block; what waited for it goes on. -/
def State.freeSlog (s : State) (c : CoreId) (i : Nat) : State :=
  (s.updCore c fun v => v.freeEntry i).settleId c (Tab.get {} (s.core c).slog i).ord none

/-- A pending entry that leaves the log without being performed: where it is the one that a replay is trying, the replay goes on (R385). -/
def State.dropSlog (s : State) (c : CoreId) (i : Nat) : State :=
  let s' := s.freeSlog c i
  if (Tab.get {} (s.core c).slog i).st = 2 then s'.soon .replayEntryResult { c := c, n := i } else s'

/-- An entry that the trap policy discards (R373, R383): it counts once more, and its task is killed. A deferred action's task has ended. -/
def State.autokillEntry (s : State) (c : CoreId) (i : Nat) (e : SlEntry) : State :=
  let s := (s.countDiscard e.job e.lslot e.vt).freeSlog c i
  if e.kind = 8 ∨ e.kind = 9 then s else s.soon .kill { c := c, k := e.strand, t := e.ident, ok := true }

/-- A deferred action at commit (KIND 8 or 9, with STRAND 0), or the handle store of a SUSPEND (KIND 10), that has faulted enters the side log of
its core, with its packet and its count. -/
def State.enterLog (s : State) (r : Req) (kind cls i : Nat) : State :=
  let c := r.core
  let e : SlEntry := { kind := kind, strand := if kind = 10 then r.strand else 0, st := 1, sz := 3, va := r.va, cls := cls, job := r.job, pc := r.pc,
                       data := r.w0.setWidth 128, ord := s.nextId, lslot := r.lslot, vt := r.vt, insn := r.insn, ident := r.ident }
  let p := s.slogPacket c i e
  let s := (s.bumpId).updCore c fun x => { x with slog := Tab.put x.slog i e }
  let s := (s.countFault r.job r.lslot r.vt cls (firstWord c e.strand r.pc)).sendPacket p
  if p.autok then s.autokillEntry c i e else s

/-- A fault that the target of such an access reports (R207): it enters the side log. While no entry is free, the action of a commit is tried again,
and a handle store is sent again. -/
def State.leftFault (s : State) (r : Req) (cls : Nat) (wrap : State → State) : State :=
  let c := r.core
  let waits := (s.core c).rings.filter fun b => b.wait == some r.id
  match (s.core c).slFree with
  | some i => wrap (s.enterLog r (if waits = [] then 10 else if r.kind == .stff then 9 else 8) cls i)
  | none =>
    if waits = [] then s.launchReq r
    else wrap (waits.foldl (fun s b => s.updBlock c b.t.t.ident fun b => { b with next := b.next - 1 }) s)

/-- A fault of a request whose strand does not wait for it and has gone on (R320): a packet, and a count. -/
def State.reportLost (s : State) (r : Req) (f : Fault') : State :=
  let p : Packet := { cyc := s.cycle, core := r.core, strand := r.strand, job := r.job, cls := f.cls, late := true, insn := r.insn, lslot := r.lslot, pc := r.pc, addr := f.addr,
                      vt := r.vt, info := f.info, aux := f.aux, tstamp := s.tstamp }
  (s.countFault r.job r.lslot r.vt f.cls (firstWord r.core r.strand r.pc)).sendPacket p

/-! ## What a reply does -/

/-- A request is over; a side-log entry that it replays (R385) and a commit that waits for it (R363) go on. `cls` is the class of
the fault with which it ended, 0 for none. -/
def State.finishReq (s : State) (c : CoreId) (id cls : Nat) : State :=
  let v := s.core c
  let s := match v.slog.find? fun e => e.2.st == 2 && e.2.ord == id with
    | some e => s.soon .replayEntryResult { c := c, n := e.1, v := cls }
    | none => s
  let s := (v.rings.filter fun b => b.wait == some id).foldl (fun s b => s.soon .commitStep { c := c, t := b.t.t.ident }) s
  s.endReq c id

/-- A result written to the destination of a request. -/
def State.result (s : State) (r : Req) (x : Word) (y : BitVec 128) : State :=
  match r.dest with
  | .x d => s.resultX r.core r.strand d x
  | .m d => if d = 0 then s else s.updStrand r.core r.strand fun t => (t.putM d y).setF (.m d) true
  | _ => s

/-- The registers that an instruction which waits for its reply has marked empty: its destination, and the index registers of a claiming ITERN
(R169, R372). -/
def Req.emptied (r : Req) : List RegRef :=
  (match r.dest with | .x d => if d = 0 then [] else [RegRef.x d] | _ => []) ++
    (if r.kind == .claim false then (List.range 4).map fun i => RegRef.i (BitVec.ofNat 2 i) else [])

/-- A parking instruction whose target reported a fault (R206): the strand freezes with its pc at the instruction. -/
def State.raiseParked (s : State) (r : Req) (f : Fault') : State :=
  let s := s.raise r.core r.strand f
  s.updStrand r.core r.strand fun t => { t with waitNf := false, marked := r.emptied }

/-- The copy that a reply installs (R184, R189, R193), unless an INV has been executed or dirty bytes of the line have gone home meanwhile (R213,
R336). A load leaves an own non-coherent or counted copy as it is; FILLN replaces it, but for one with dirty bytes, stored since it issued. -/
def State.installReply (s : State) (r : Req) (v : Rep) (count : Nat) : State :=
  if devOf r.pa = s.devnum ∧ isTier (offOf r.pa) ∧ !r.stale then
    let key := s.keyOf r.job r.pln
    let ln := offOf r.pa / 128
    let put := s.cacheInstall r.core r.strand
      { line := ln, data := v.line, key := key, job := r.job, nc := r.nc, wts := v.wts, rts := v.rts, count := count, hg := r.hg, poison := v.pois }
    match (s.core r.core).dfind ln key with
    | some d =>
      if count = 0 then (if d.nc || d.count != 0 then s else put)
      else if d.nc && d.dirty != 0 then s
      else put
    | none => put
  else s

/-- The line that a load's reply is read from: the core's own non-coherent copy if it has one (R189). -/
def State.replyLine (s : State) (r : Req) (v : Rep) : Line × BitVec 16 :=
  if devOf r.pa = s.devnum ∧ isTier (offOf r.pa) then
    match (s.core r.core).dfind (offOf r.pa / 128) (s.keyOf r.job r.pln) with
    | some d => if d.nc then (d.data, d.poison) else (v.line, v.pois)
    | none => (v.line, v.pois)
  else (v.line, v.pois)

/-- The bytes of a store that waited for its line merged into the copy (R189); a copy that has left again is written back. -/
def State.mergeFill (s : State) (r : Req) (old : List Nat) : State :=
  let key := s.keyOf r.job r.pln
  match (s.core r.core).dfind (offOf r.pa / 128) key with
  | none => s
  | some d =>
    let whole := (List.range 16).filter fun w => r.mask.extractLsb' (8 * w) 8 == 0xFF#8
    let d := { d with data := mergeLine d.data r.line r.mask, dirty := d.dirty ||| r.mask, count := 0,
                      poison := whole.foldl (fun p w => setBit p w false) d.poison }
    let s := s.updCore r.core fun v => v.dset d
    if old.contains r.id then
      -- a release follows the store: its bytes go home now
      let wid := s.nextId
      ((s.updCore r.core fun v => v.dset { d with dirty := 0 }).writeback r.core r.strand d).settleId r.core r.id (some wid)
    else s

/-- A load's reply (R184, R207). -/
def State.loadReply (s : State) (r : Req) (v : Rep) : State :=
  let (l, p) := s.replyLine r v
  let off := offOf r.pa % 128
  let bad := p != 0 && (wordsOf off r.size).any fun w => p.getLsbD w
  let f : Option Fault' := match v.fault with | some f => some f | none => if bad then some (faultAt clsData r.va) else none
  match f, r.dest with
  | some _, .none => (s.dropTouch r.core).finishReq r.core r.id 0
  | some f, _ =>
    (s.updCore r.core fun v => { v with reqs := v.reqs.map fun x => if x.id = r.id then { x with late := true } else x }).raiseLate
      r.core r.strand r f
  | none, _ =>
    let s := s.installReply r v 0
    let bs := lineSlice l off r.size
    (s.result r (leBits 64 bs) (leBits 128 bs)).finishReq r.core r.id 0

/-- A fault that the target of an access found: late for an instruction that has issued (R206). -/
def State.lateReply (s : State) (r : Req) (f : Fault') : State :=
  (s.updCore r.core fun v => { v with reqs := v.reqs.map fun x => if x.id = r.id then { x with late := true } else x }).raiseLate
    r.core r.strand r f

/-- The reply of a store: a coherent copy of the line that is older takes its bytes and is an ordinary line (R183, R193, R334). -/
def State.storeReply (s : State) (r : Req) (v : Rep) : State :=
  if !r.nc && devOf r.pa == s.devnum && isTier (offOf r.pa) then
    let key := s.keyOf r.job r.pln
    let upd := fun (d : DLine) =>
      if d.line == offOf r.pa / 128 && d.key == key && !d.nc && decide (d.wts < v.wts) then { d with data := lineSet d.data (offOf r.pa % 128) r.bytes, count := 0 } else d
    s.updCore r.core fun v => { v with dcache := v.dcache.map upd }
  else s

/-- A version instruction's slot after its reply (R224, R225): a VERST that made no version, by a conflict or a withdrawal, leaves it READY. -/
def State.verReply (s : State) (r : Req) (v : Rep) : State :=
  let c := r.core
  match r.kind with
  | .verst =>
    match (s.core c).copyAt r.id with
    | none => s
    | some e =>
      let ready := e.keep || v.fault.isSome || v.withdrawn
      (s.setCopy c { e with keep := ready }).soon .drainComplete { c := c, n := r.id }
  | .verldEq | .verldAsof =>
    match (s.core c).copyAt r.id with
    | none => s
    | some e =>
      if v.fault.isSome || v.withdrawn then e.slots.foldl (fun s n => s.emptySlot c n) (s.dropCopy c r.id)
      else
        let n := e.slots.headD 0
        ((s.putSlot c n 0 v.tile.bytes).setCopy c { e with layout := v.tile.layout, scales := [v.tile.scales], poison := [v.tile.poison] }).soon
          .fillLanding { c := c, n := r.id }
  | _ => s

/-- The log entry that a grant writes for an optimistic task (R346, R349). -/
def State.verLog (s : State) (r : Req) (v : Rep) : State :=
  if !r.opt || v.fault.isSome || v.withdrawn then s
  else match r.kind with
  | .verst => s.logAppend r.core r.strand (.created r.w0 r.w1)
  | .verldAsof => s.logAppend r.core r.strand (.asof (if r.w1 < r.vt then r.w1 else r.vt) r.w0 v.w0)
  | _ => s.logAppend r.core r.strand (.exact r.w0 r.w1)

/-- A destination register set full with its contents unchanged, and the fills that waited behind it applied (R132); the successor's slot for nf
was empty before the instruction and stays so (R133). -/
def State.fullDest (s : State) (r : Req) : State :=
  match r.dest with
  | .x d => if d = 0 ∨ d = 63#6 then s else s.updStrand r.core r.strand fun t => (t.setF (.x d) true).applyFills d
  | .m d => s.updStrand r.core r.strand fun t => t.setF (.m d) true
  | _ => s

/-- The iteration state takes a claimed chunk (R168, R169). -/
def Strand.takeChunk (t : Strand) (r : Req) (v : Rep) : Strand :=
  { t with desc := r.w0, cur := v.w0, endv := v.w0 + v.w1, ext := v.line.extractLsb' 0 64 }

/-- ITERN takes up the chunk that its claim brought, or skips the body when none is left (R169). -/
def State.iternReply (s : State) (r : Req) (v : Rep) : State :=
  let c := r.core; let k := r.strand
  let s := s.updStrand c k fun t => t.takeChunk r v
  if v.w1 = 0 then
    (s.fullDest r).updStrand c k fun t =>
      let t := if t.waitNf then t.setF (.x 63#6) false else t
      { (t.goto (t.pc + (r.w2.extractLsb' 0 48) <<< 1)) with
        st := if t.st = .parked then .ready else t.st, park := .none, waitNf := false, iF := 0xF#4 }
  else
    let s := match r.dest with | .x d => s.resultX c k d v.w0 | _ => s
    (s.updStrand c k Strand.takeIndex).replyDone c k 4

/-- A withdrawn instruction of this kind issues again (R218). -/
def ReqKind.reissues (k : ReqKind) : Bool :=
  match k with
  | .ldfe | .ldff | .stef | .mbarInit | .mbarArr | .mbarWait | .launch | .verst | .verldEq | .verldAsof | .verrel | .claim false => true
  | _ => false

/-- A fill that brings a store reads its line again, after the dirty bytes of the line that went home meanwhile (R189, R336). -/
def State.fillAgain (s : State) (r : Req) : State :=
  let r := { r with stale := false, after := (s.core r.core).dirtyOut (offOf r.pa / 128) }
  let s := s.updCore r.core fun v => { v with reqs := v.reqs.map fun x => if x.id = r.id then r else x }
  if r.after = [] then s.launchReq r else s

/-- The reply of a fill (R189, R213): its line is installed, and the store that it brings is merged. -/
def State.fillReply (s : State) (r : Req) (v : Rep) (fin : State → State) : State :=
  if r.mask ≠ 0 ∧ r.stale ∧ ((s.core r.core).dfind (offOf r.pa / 128) (s.keyOf r.job r.pln)).isNone then s.fillAgain r
  else
    let s := match v.fault with | some _ => s | none => s.installReply r v 0
    if r.mask = 0 then fin s
    else fin (s.mergeFill r ((s.core r.core).reqs.flatMap (·.after) ++ (s.core r.core).sendBuf.flatMap (·.after)))

/-- The effect of a store's reply on its core, or of a fill's, whoever waits for it: the strand, a replay or a commit. -/
def State.stored (s : State) (r : Req) (v : Rep) (fin : State → State) : State :=
  match r.kind with
  | .pref => s.fillReply r v fin
  | .store | .storeM | .stb | .hint | .rowWrite => fin (s.storeReply r v)
  | _ => fin s

/-- REPLY_ARRIVAL (R314): the reply of a request is written to its destination, its slot is freed and a strand parked on it goes on. -/
def State.replyArrives (s : State) (r : Req) (v : Rep) : State :=
  let c := r.core; let k := r.strand
  let s := if v.wts = 0 then s else s.updCore c fun x => { x with pts := wmax x.pts v.wts }
  let fin := fun (s : State) => s.finishReq c r.id (match v.fault with | some f => f.cls | none => 0)
  let engine := ((s.core c).slog.any fun e => e.2.st == 2 && e.2.ord == r.id) || (s.core c).rings.any fun b => b.wait == some r.id
  if engine then
    match v.fault with
    | some f => if (s.core c).rings.any fun b => b.wait == some r.id then s.leftFault r f.cls fin else fin s
    | none => s.stored r v fin
  else if v.withdrawn && !r.kind.reissues then fin (s.fullDest r)
  else
  match r.kind with
  | .load | .loadM => s.loadReply r v
  | .ldb =>
    match v.fault with
    | some f => s.lateReply r f
    | none =>
      let (l, p) := s.replyLine r v
      fin ((s.putBlock c r.w1.toNat (bytesOf 128 l) p).result r r.w0 0)
  | .pref => s.stored r v fin
  | .filln => fin (if v.fault.isSome || v.pois != 0 then s else s.installReply r v r.w0.toNat)
  | .store | .storeM | .stb | .hint =>
    match v.fault with
    | some f => s.lateReply r f
    | none => s.stored r v fin
  | .red _ => match v.fault with | some f => s.lateReply r f | none => fin s
  | .writeback | .flush | .inv => fin s
  | .amo _ => match v.fault with | some f => s.lateReply r f | none => fin (s.result r v.w0 0)
  | .ldfe | .ldff | .stef | .mbarInit | .mbarArr | .mbarWait =>
    if v.withdrawn then
      fin ((s.fullDest r).replyAgain c k)
    else match v.fault with
    | some f => fin (s.raiseParked r f)
    | none => fin ((s.result r v.w0 0).replyDone c k 4)
  | .stff | .fepurge =>
    match v.fault with
    | some f => if r.w2 = 1 then s.leftFault r f.cls fin else s.lateReply r f
    | none => fin s
  | .claim true =>
    match v.fault with
    | some f => s.lateReply r f
    | none =>
      fin ((s.updStrand c k fun t => t.takeChunk r v).result r v.w1 0)
  | .claim false =>
    if v.withdrawn then fin (((s.fullDest r).updStrand c k fun t => { t with iF := 0xF#4 }).replyAgain c k)
    else match v.fault with | some f => fin (s.raiseParked r f) | none => fin (s.iternReply r v)
  | .resumec | .cancel | .resize | .verq => match v.fault with | some f => s.lateReply r f | none => fin (s.result r v.w0 0)
  | .launch =>
    if v.withdrawn then fin ((s.fullDest r).replyAgain c k)
    else match v.fault with | some f => fin (s.raiseParked r f) | none => fin ((s.result r v.w0 0).replyDone c k 4)
  | .verst | .verldEq | .verldAsof | .verrel =>
    let s := (s.verReply r v).verLog r v
    if v.withdrawn then fin ((s.fullDest r).replyAgain c k)
    else match v.fault with
    | some f => fin (s.raiseParked r f)
    | none => fin (s.replyDone c k 4)
  | .waitw | .putreg => match v.fault with | some f => fin (s.reportLost r f) | none => fin s
  | .retract | .readRelease | .markRemoval | .verCommit => fin s
  | .rowRead =>
    -- a fault of a part that its target reports is reported, and the slot lands poisoned (DEDUCED, log 18)
    let (l, p) := s.replyLine r v
    let s := match v.fault with | some f => s.reportLost r f | none => s
    let bad := v.fault.isSome || (p != 0 && (wordsOf (r.pa.toNat % 128) r.size).any fun w => p.getLsbD w)
    let s := match (s.core c).copyAt r.w0.toNat with
      | some e => s.rowLands c e (r.w1.toNat / 128) (r.w1.toNat % 128) (lineSlice l (r.pa.toNat % 128) r.size) bad
      | none => s
    (fin s).rowsDone c r.w0.toNat
  | .rowWrite | .rowRed .. =>
    let s := match v.fault with | some f => s.reportLost r f | none => if r.kind == .rowWrite then s.storeReply r v else s
    (fin s).rowsDone c r.w0.toNat

/-- The answer of another device to a version that a decoder creates there: a conflict if it stood already (R278). -/
def State.decoderAnswer (s : State) (id : Nat) (v : Rep) : State :=
  let hit := fun (d : Decoder) => match d.work with | some w => w.waits.contains id | none => false
  let upd := fun (d : Decoder) =>
    if hit d then { d with work := d.work.map fun w => { w with waits := w.waits.filter fun x => x != id },
                           run := d.run.map fun r => if v.fault.isSome then { r with confl := min 255 (r.confl + 1) } else r } else d
  { s with decoders := s.decoders.map fun e => (e.1, upd e.2) }

/-- The reply that a message brings to its core, for the request as the core holds it, or to a decoder. -/
def State.replyMsg (s : State) (n : Nat) : State :=
  match Tab.find s.msgs n with
  | none => s
  | some m =>
    let s := s.dropMsg n
    match m.body with
    | .reply r v =>
      if m.dst.ep = 70 then (s.dropMsg r.id).decoderAnswer r.id v
      else match (s.core r.core).reqs.find? fun x => x.id == r.id with
      | some r => s.replyArrives r v
      | none => s
    | _ => s

def execReplyArrival (s : State) : Host.Outcome State Fault Refusal := .next (s.replyMsg s.arg.n)

/-- PUTREG_FILL (R132, R215): applied where the target strand is resident for the issuer's launch and the launch has the register,
otherwise discarded; the issuer is told, so that its next fill of the register may leave. Within a cycle it comes after the instruction that
the core issues. -/
def State.putregFill (s : State) (n : Nat) : State :=
  match s.msgReq n with
  | none => s
  | some r =>
    let c : CoreId := r.w1.extractLsb' 4 12
    let k : StrandId := r.w1.extractLsb' 0 4
    let x : XReg := r.w1.extractLsb' 24 6
    let t := s.strand c k
    -- the barrel's instruction of this cycle writes first
    if s.agenda.any fun e => decide (e.1 ≤ s.now) && e.2.1 == .barrelCycle && e.2.2.c == c then s.soon .putregFill { n := n }
    else
      let s := if t.res = some (r.job, r.lslot) ∧ x.toNat ≤ (s.launch r.job r.lslot).nreg then s.fillX c k x r.w0 (r.core ++ r.strand) else s
      (s.dropMsg n).replyTo (s.servedAt r) r {} false

def execPutregFill (s : State) : Host.Outcome State Fault Refusal := .next (s.putregFill s.arg.n)

end Sys2Proof.Machine
end

