-- ==== Sys2Proof/Machine/Homes.lean ====
section
/-! DEFINITION. The steps at homes: loads, stores, write-backs, atomics, full-empty words, claims, registrations, remote accesses,
barrier objects, invalidations, scrubbing, frames (spec/09_memory.md R180 to R198; spec/10_isa_memory.md R207, R216 to R220,
R232, R233; spec/08_isa_scalar.md R163 to R165; spec/05_placement.md R92, R93; spec/04_launch.md R68;
spec/20_faults.md R386, R387; notes/assumptions 17). -/

namespace Sys2Proof.Machine

/-- The request names a physical address. -/
def ReqKind.addressed (k : ReqKind) : Bool :=
  match k with
  | .verst | .verldEq | .verldAsof | .verrel | .verq | .retract | .readRelease | .markRemoval | .verCommit => false
  | .resumec | .resize | .launch | .cancel | .putreg => false
  | _ => true

/-- An access to a tier of this device visits its home (R186, R196). -/
def State.visitReq (s : State) (r : Req) : State :=
  if r.kind.addressed && devOf r.pa == s.devnum then s.visit (some (r.job, r.hg)) (offOf r.pa) (s.keyTag r.job r.pln) else s

/-! ## Accesses served at their home -/

/-- The request of the other part of a row, as its own request would carry it (R287, R327). -/
def State.twinOf (s : State) (r : Req) : Option Req :=
  (r.twin.bind fun n => (s.core r.core).reqs.find? fun x => x.id == n).map fun x => { x with pts := r.pts, tag := r.tag }

/-- The lines of this device that a request writes. -/
def State.written (s : State) (r : Req) : List Nat :=
  (r :: (s.twinOf r).toList).filterMap fun x => if devOf x.pa = s.devnum then some (offOf x.pa / 128) else none

/-- The effect of a request's message, which then leaves. -/
def State.serve (s : State) (n : Nat) (f : State → Req → State) : State :=
  match s.msgReq n with
  | some r => f (s.visitReq r |>.dropMsg n) r
  | none => s

/-- The same for a write: it waits while the host may hold a line that it writes (R68). -/
def State.serveWrite (s : State) (n : Nat) (f : State → Req → State) : State :=
  match s.msgReq n with
  | some r =>
    match (s.written r).find? fun ln => s.hostHolds (128 * ln) with
    | some ln => s.askHost ln n
    | none => f (s.visitReq r |>.dropMsg n) r
  | none => s

/-- NONCOHERENT_WRITEBACK (R190). -/
def execNoncoherentWriteback (s : State) : Host.Outcome State Fault Refusal := .next (s.serveWrite s.arg.n fun s r => s.serveWriteback r)
/-- AMO_AT_HOME (R219). -/
def execAmoAtHome (s : State) : Host.Outcome State Fault Refusal :=
  .next (s.serveWrite s.arg.n fun s r => match r.kind with | .amo op => s.serveAmo r op | _ => s)
/-- REDUCTION_AT_HOME (R220). -/
def execReductionAtHome (s : State) : Host.Outcome State Fault Refusal :=
  .next (s.serveWrite s.arg.n fun s r => match r.kind with | .red op => s.serveRed r op | .rowRed fmt int => s.serveRowRed r fmt int | _ => s)
/-- FULL_EMPTY_AT_HOME (R217): the operation is performed, entered in a waiter record, or refused. -/
def execFullEmptyAtHome (s : State) : Host.Outcome State Fault Refusal :=
  .next (match s.msgReq s.arg.n with
    | some r =>
      if devOf r.pa = s.devnum ∧ s.hostHolds (offOf r.pa) then s.askHost (offOf r.pa / 128) s.arg.n
      else (s.visitReq r).serveFe s.arg.n r
    | none => s)

/-- The fault of an access to a local memory whose slot is not tagged with its job when the access arrives (R171). -/
def State.bankFault (s : State) (r : Req) : Option Fault' :=
  let a := offOf r.pa
  (s.localCheck (localCore a) r.job (localOff a) (if r.size = 0 then 1 else r.size)).map fun cls => faultAt cls r.va

/-- REMOTE_LOCAL_ACCESS (R182): performed at the owning bank in one piece. -/
def State.serveLocal (s : State) (r : Req) : State :=
  match s.bankFault r with
  | some f => s.replyTo (s.servedAt r) r { fault := some f } false
  | none =>
    match r.kind with
    | .load | .loadM | .ldb | .rowRead => s.serveLoad r
    | .store | .storeM | .stb | .hint | .rowWrite => s.serveStore r
    | .rowRed fmt int => s.serveRowRed r fmt int
    | .amo op => s.serveAmo r op
    | .red op => s.serveRed r op
    | _ => s

/-- Both parts of a row performed in one action, each where it lies (R287, R327); any other request alone. -/
def State.serveRow (s : State) (r : Req) (f : State → Req → State) : State :=
  let s' := f s r
  match s.twinOf r with
  | some x =>
    if isLocal (offOf x.pa) then s'.serveLocal x
    else if x.kind == .rowRead then (s'.visitReq x).serveLoad x else (s'.visitReq x).serveStore x
  | none => s'

/-- COHERENT_LOAD_RENEWAL: any read at a home slice or at the host (R184, R187). -/
def execCoherentLoadRenewal (s : State) : Host.Outcome State Fault Refusal := .next (s.serve s.arg.n fun s r => s.serveRow r fun s r => s.serveLoad r)
/-- COHERENT_STORE_AT_HOME: any store (R185). -/
def execCoherentStoreAtHome (s : State) : Host.Outcome State Fault Refusal :=
  .next (s.serveWrite s.arg.n fun s r => s.serveRow r fun s r => s.serveStore r)

def execRemoteLocalAccess (s : State) : Host.Outcome State Fault Refusal :=
  .next (match s.msgReq s.arg.n with
    | some r => if r.kind.fullEmpty && (s.bankFault r).isNone then s.serveFe s.arg.n r
      else s.serveWrite s.arg.n fun s r => s.serveRow r fun s r => s.serveLocal r
    | none => s)

/-! ## Claims (R92, R93) -/

/-- ITERATION_CLAIM: NEXT read, advanced and written in one action, which orders like an AMO. -/
def State.serveClaim (s : State) (r : Req) : State :=
  let a := offOf r.pa
  let bad := if isLocal a then s.bankFault r else none
  match bad with
  | some f => s.replyTo (s.servedAt r) r { fault := some f } false
  | none =>
    if s.memBad a 32 then s.replyTo (s.servedAt r) r { fault := some (faultAt clsData r.va) } false
    else
      let bs := s.memRead (s.reqKey r) a 32
      let w := fun (n : Nat) => (leNat ((bs.drop (8 * n)).take 8))
      let next := w 0; let total := w 1
      let l := s.launch r.job r.lslot
      let part := w 2 / 65536 % 65536
      let part := if part = 0 then (bitsOf l.cores).length * (bitsOf l.cmask).length * l.strandsPerCore else part
      let minch := if w 2 % 65536 = 0 then 1 else w 2 % 65536
      let rem := total - next
      let chunk := if rem = 0 then 0 else min rem (max minch ((rem + 2 * part - 1) / (2 * part)))
      let (s, t, h) := (s.record r 2).homeStore r a (toBytes 8 (next + chunk))
      s.answer r { w0 := BitVec.ofNat 64 next, w1 := BitVec.ofNat 64 chunk, line := BitVec.ofNat 1024 (w 3), wts := t } true h

def execIterationClaim (s : State) : Host.Outcome State Fault Refusal := .next (s.serveWrite s.arg.n fun s r => s.serveClaim r)

/-! ## WAITW and RESUMEC (R164, R165) -/

/-- WAITW_REGISTRATION: a full word clears the hold at once; otherwise its next transition to full does. -/
def State.serveWaitw (s : State) (r : Req) : State :=
  let a := offOf r.pa
  let s := s.replyTo (s.servedAt r) r {} false
  if s.full a then
    s.sendNew { src := s.epSlice (waitCluster a), dst := s.epDispenser (clusterOf r.core), kind := 0x25#6, job := r.job, body := .wake r.core r.ident }
  else s.updCluster (waitCluster a) fun v => { v with waitw := v.waitw ++ [r] }

def execWaitwRegistration (s : State) : Host.Outcome State Fault Refusal := .next (s.serve s.arg.n fun s r => s.serveWaitw r)

/-- The entries of a core's queue and spill areas changed. -/
def Core.mapEntries (v : Core) (f : QEntry → QEntry) : Core :=
  { v with queue := v.queue.map f, spill := v.spill.map fun e => (e.1, e.2.map f) }

/-- The entries of a core's queue and spill areas. -/
def Core.entries (v : Core) : List QEntry := v.queue ++ v.spill.flatMap (·.2)

/-- The hold of a task's entry cleared where it is of a kind. -/
def State.clearHold (s : State) (c : CoreId) (t : Ident) (h : Hold) : State :=
  s.updCore c fun v => v.mapEntries fun q => if q.t.ident == t && !q.t.anti && q.hold == h then { q with hold := .none } else q

/-- WAITW_WAKE (R164). -/
def execWaitwWake (s : State) : Host.Outcome State Fault Refusal :=
  .next (match Tab.find s.msgs s.arg.n with
    | some m => match m.body with | .wake c t => (s.dropMsg s.arg.n).clearHold c t .waitw | _ => s
    | none => s)

/-- RESUMEC_REQUEST (R165). -/
def State.serveResumec (s : State) (r : Req) : State :=
  let h := r.w0
  let c : CoreId := h.extractLsb' 46 12
  let t : Ident := ⟨h.extractLsb' 40 6, h.extractLsb' 28 12, h.extractLsb' 8 20⟩
  let j : JobId := h.extractLsb' 4 4
  let found := j == r.job && (s.core c).entries.any fun q => q.t.ident == t && !q.t.anti && q.t.job == j && q.hold == .suspend
  let s := if found then s.clearHold c t .suspend else s
  s.replyTo (s.servedAt r) r { w0 := if found then 1 else 0 } true

def execResumecRequest (s : State) : Host.Outcome State Fault Refusal := .next (s.serve s.arg.n fun s r => s.serveResumec r)

/-! ## Barrier objects (R232, R233) -/

/-- The cores of a barrier object's MASK are told. -/
def State.notifyMask (s : State) (home : CoreId) (pa : BitVec 52) (mask : Word) : State :=
  (bitsOf mask).foldl (fun s k =>
    let c := coreIn (clusterOf home) k
    s.sendNew { src := s.epCore home, dst := s.epCore c, kind := 0x28#6, body := .barNotice c pa }) s

/-- BARRIER_OBJECT_OPERATION: one indivisible action on the 16 bytes at the owning bank. -/
def State.serveMbar (s : State) (r : Req) : State :=
  let a := offOf r.pa
  let home := localCore a
  let reply := fun (s : State) (v : Rep) => s.replyTo (s.servedAt r) r v (r.kind == .mbarWait)
  match s.bankFault r with
  | some f => reply s { fault := some f }
  | none =>
    if r.kind != .mbarInit && s.memBad a 16 then reply s { fault := some (faultAt clsData r.va) }
    else
      let bs := s.memRead none a 16
      let w0 : Word := leBits 64 (bs.take 8)
      let mask : Word := leBits 64 (bs.drop 8)
      let put := fun (s : State) (x m : Word) => (s.memWrite none a (bytesOf 8 x ++ bytesOf 8 m)).leaveTime a r.pts
      let expected := (w0.extractLsb' 0 16).toNat
      let arrived := (w0.extractLsb' 16 16).toNat
      let phase := w0.extractLsb' 32 4
      match r.kind with
      | .mbarInit =>
        let s := if s.memBad a 16 then s else s.notifyMask home r.pa mask
        reply (put s (0x2000000000#64 ||| (r.w0.extractLsb' 0 16).setWidth 64) 0) {}
      | .mbarArr =>
        if !w0.getLsbD 37 then reply s { fault := some (faultAt clsOperand r.va) }
        else if expected < arrived + r.w0.toNat then
          reply (put s (w0 ||| 0x1000000000#64) mask) { fault := some (faultAt clsBarOverrun r.va) }
        else if arrived + r.w0.toNat = expected then
          let x := (w0 &&& ~~~0xFFFFF0000#64) ||| ((phase + 1).setWidth 64 <<< 32)
          reply ((put s x 0).notifyMask home r.pa mask) {}
        else reply (put s (w0 + (r.w0 <<< 16)) mask) {}
      | _ =>
        if phase ≠ r.w0.extractLsb' 0 4 then reply s { w0 := phase.setWidth 64, wts := s.wordTime a }
        else if s.stopHolds r then s.replyTo (s.servedAt r) r { withdrawn := true } false
        else
          let s := put s w0 (mask ||| (1#64 <<< (r.core.toNat % 64)))
          s.updCore r.core fun v => { v with reqs := v.reqs.map fun x => if x.id = r.id then { x with waiting := true } else x }

def execBarrierObjectOperation (s : State) : Host.Outcome State Fault Refusal := .next (s.serve s.arg.n fun s r => s.serveMbar r)

/-- BARRIER_OBJECT_NOTICE: the waiting MBAR.WAITs of a core on the object look at it again. -/
def State.barNoticed (s : State) (c : CoreId) (pa : BitVec 52) : State :=
  let rs := (s.core c).reqs.filter fun r => r.kind == .mbarWait && r.waiting && r.pa == pa
  rs.foldl (fun s r =>
    (s.updCore c fun v => { v with reqs := v.reqs.map fun x => if x.id = r.id then { x with waiting := false } else x }).launchReq
      { r with waiting := false }) s

def execBarrierObjectNotice (s : State) : Host.Outcome State Fault Refusal :=
  .next (match Tab.find s.msgs s.arg.n with
    | some m => match m.body with | .barNotice c pa => (s.dropMsg s.arg.n).barNoticed c pa | _ => s
    | none => s)

/-- MBAR_WAIT_TIMEOUT: the wait of request `n` that still waits returns with bit 63 set; its MASK bit stays. Whatever else happens in this cycle
goes first, so that a notice of the same cycle decides the wait (R233). -/
def State.mbarTimeout (s : State) (c : CoreId) (n : Nat) : State :=
  match (s.core c).reqs.find? fun r => r.id == n && r.kind == .mbarWait with
  | some r =>
    if s.agenda.any fun e => decide (e.1 ≤ 2 * s.cycle + 1) && e.2.1 != .mbarWaitTimeout then s.push (2 * s.cycle + 1 - s.now) .mbarWaitTimeout { c := c, n := n }
    else if r.waiting then s.replyTo (s.servedAt r) r { w0 := 0x8000000000000000#64 ||| (r.w0 &&& 15) } true |>.updCore c fun v =>
      { v with reqs := v.reqs.map fun x => if x.id = n then { x with waiting := false } else x }
    else s.push 2 .mbarWaitTimeout { c := c, k := r.strand, n := n }
  | none => s

def execMbarWaitTimeout (s : State) : Host.Outcome State Fault Refusal := .next (s.mbarTimeout s.arg.c s.arg.n)

/-! ## Stale translations (R180) -/

/-- TRANSLATION_INVALIDATION: the entries derived from a line leave the cluster's TLB and those of the cores that hold copies. The
accesses made through them that are not yet performed are noted. -/
def State.invalidateTlb (s : State) (cl : ClusterId) (ln : Nat) : State :=
  let out := (s.cluster cl).l2.filter fun e => e.lines.contains ln
  let gone := fun (e : TlbEntry) => e.lines.contains ln
  let cores := ((List.range 64).map (coreIn cl)).filter fun c => Tab.has s.cores c.toNat
  let waits := cores.flatMap fun c =>
    let v := s.core c
    let es := (v.dtlb ++ v.itlb).filter gone ++ out
    let hit := fun (j : JobId) (va : BitVec 48) => (windowOf c va).isNone && es.any fun e => e.hits j va
    (v.reqs.filter fun r => hit r.job r.va).map (fun r => (ln, c, r.id)) ++
    (v.copies.filter fun e => e.rows.any fun ps => ps.any fun p => hit e.job p.va).map (fun e => (ln, c, e.id)) ++
    ((v.mq ++ v.mrun.toList).filter fun m => match m.op with | .tred _ rows _ => rows.any fun ps => ps.any fun p => hit m.job p.va | _ => false).map
      fun m => (ln, c, m.id)
  let s := s.updCluster cl fun v => { v with l2 := v.l2.filter fun e => !gone e, invWait := v.invWait ++ waits }
  let s := cores.foldl (fun s c => s.updCore c fun v => { v with dtlb := v.dtlb.filter (fun e => !gone e), itlb := v.itlb.filter fun e => !gone e }) s
  s.soon .invalidationAcknowledgement { cl := cl, n := ln }

def execTranslationInvalidation (s : State) : Host.Outcome State Fault Refusal := .next (s.invalidateTlb s.arg.cl s.arg.n)

/-- The accesses of a core that are not yet performed. -/
def Core.pendingIds (v : Core) : List Nat :=
  v.reqs.map (·.id) ++ (v.reqs.filter (·.kind.isRow)).map (·.w0.toNat) ++ v.copies.map (·.id) ++ (v.mq ++ v.mrun.toList).map (·.id)

/-- INVALIDATION_ACKNOWLEDGEMENT: once the noted accesses are performed, the cluster acknowledges; with the last acknowledgement the
write completes and its writer receives the reply. -/
def State.ackInvalidation (s : State) (cl : ClusterId) (ln : Nat) : State :=
  let left := (s.cluster cl).invWait.filter fun e => e.1 = ln && (s.core e.2.1).pendingIds.contains e.2.2
  let s := s.updCluster cl fun v => { v with invWait := v.invWait.filter fun e => e.1 ≠ ln || left.contains e }
  if left ≠ [] then s.push 16 .invalidationAcknowledgement { cl := cl, n := ln }
  else
    let home := homeSlice (128 * ln)
    s.sendNew { src := s.epSlice cl, dst := s.epSlice home, kind := 0x27#6, body := .invAck ln }

def execInvalidationAcknowledgement (s : State) : Host.Outcome State Fault Refusal := .next (s.ackInvalidation s.arg.cl s.arg.n)

/-- An acknowledgement of a cluster reaches the home of the line; the last one lets the held replies go. -/
def State.invAcked (s : State) (cl : ClusterId) (ln : Nat) : State :=
  let s := s.updLine ln fun h => { h with acks := h.acks.erase cl.toNat }
  let h := s.homeLine ln
  if h.acks ≠ [] then s
  else
    h.held.foldl (fun s n => match Tab.find s.msgs n with | some m => s.inject n m | none => s) (s.updLine ln fun h => { h with held := [] })

/-! ## The host's accesses to device memory (R68, R335) -/

/-- The key of the host's accesses (R200). -/
def State.hostKey (s : State) : Option Key :=
  if s.hostjob.toNat < 16 then (let v := s.job (s.hostjob.extractLsb' 0 4); if v.resident then v.key else none) else none

/-- HOST_CXL_MEMORY_ACCESS: at the home slice, under the HOSTJOB key, in the trace ring if it is a store (R192; DEDUCED, log 6); the host holds
the line afterwards. A read answers with the bytes as that key reads them, ciphertext where a job's key is gone (R420). The answer of a store waits for the acknowledgements of its line (R180). -/
def State.hostAccess (s : State) (write : Bool) (a n : Nat) (data : Line) : State :=
  if !isTier a || !s.stackOk a then s
  else
    let tag := if s.hostKey.isSome then s.hostjob.toNat else 16
    let s := { s with hostLines := if s.hostLines.contains (a / 128) then s.hostLines else s.hostLines ++ [a / 128] }.visit none a tag
    if write then
      let s := (s.traceOwn a 0).soil (s.hostjob.extractLsb' 0 4) s.hostKey.isNone a
      let s := ((s.memWrite s.hostKey a ((bytesOf 128 data).take (min n (128 - a % 128)))).stamp (a / 128) 0).1
      let (s, w) := s.invalidate (a / 128)
      if w then
        let m : Msg := { src := s.epSlice (homeSlice a), dst := s.epHost, kind := 0x21#6 }
        ({ s with msgs := Tab.put s.msgs s.nextId m } : State).bumpId.updLine (a / 128) fun h => { h with held := h.held ++ [s.nextId] }
      else s
    else { s with hostData := s.memRead s.hostKey a (min n (128 - a % 128)) }

def execHostCxlMemoryAccess (s : State) : Host.Outcome State Fault Refusal :=
  .next (s.hostAccess s.arg.ok s.arg.w0.toNat s.arg.n s.arg.line)

/-- BACK_INVALIDATE_RESPONSE: the host holds the line no longer, and the writes that waited go on. -/
def State.backInvalidated (s : State) (ln : Nat) : State :=
  let go := s.backInv.filter fun e => e.1 = ln
  let s := { s with hostLines := s.hostLines.filter fun x => x ≠ ln, backInv := s.backInv.filter fun e => e.1 ≠ ln }
  go.foldl (fun s e => if e.2 = 0 then s else s.soon .packetReassembled { n := e.2 }) s

def execBackInvalidateResponse (s : State) : Host.Outcome State Fault Refusal := .next (s.backInvalidated s.arg.n)

/-! ## Scrubbing and the eviction engine -/

/-- SCRUB_LINE (R387): the words of a line that the controller finds uncorrectable take the poison pattern; nothing else changes. -/
def execScrubLine (s : State) : Host.Outcome State Fault Refusal :=
  .next (s.setPoison ((bitsOf (s.arg.w0.extractLsb' 0 16)).map (16 * s.arg.n + ·)) true)

/-- The hint entry of a frame (R195): PRIO and NEXTUSE, read live under the job's key. -/
def State.hintOf (s : State) (f : Frame) : Nat × Word :=
  match f.job with
  | none => (0, 0xFFFFFFFFFFFFFFFF#64)
  | some j =>
    let base := (s.job j).hintbase + BitVec.ofNat 48 (16 * f.hg.toNat)
    match s.walk j base with
    | .leaf e =>
      let pa := offOf (e.phys base)
      let bs := s.memRead (s.keyOf j (e.leaf.getLsbD 5)) pa 16
      (leNat (bs.take 8) % 8, leBits 64 (bs.drop 8))
    | .fault .. => (0, 0xFFFFFFFFFFFFFFFF#64)

/-- How good a victim is (R197): frames of no resident job first, then the lowest PRIO, then the greatest distance, then the lowest
address. Smaller is chosen. -/
def State.victimKey (s : State) (n : Nat) : Nat × Nat × Nat × Nat :=
  let f := s.frame n
  let resident := match f.job with | some j => (s.job j).resident | none => false
  if !resident then (0, 0, 0, n)
  else
    let (p, u) := s.hintOf f
    let g := match f.job with | some j => ((s.job j).leaf .mgmt).gvt | none => 0
    let dist := if u = 0xFFFFFFFFFFFFFFFF#64 then 2 ^ 64 else u.toNat - g.toNat
    (1, p, 2 ^ 64 - dist, n)

/-- Order of victim keys. -/
def victimLt (a b : Nat × Nat × Nat × Nat) : Bool :=
  decide (a.1 < b.1) || (a.1 == b.1 && (decide (a.2.1 < b.2.1) || (a.2.1 == b.2.1 && (decide (a.2.2.1 < b.2.2.1) ||
    (a.2.2.1 == b.2.2.1 && decide (a.2.2.2 < b.2.2.2))))))

/-- A frame location in the trained stacks of a die (R59, R196). -/
def State.dieLocation (s : State) (die loc : Nat) : Bool :=
  let stack := loc / 0x100000
  decide (stack < 12) && stack / 3 == die && s.trained.getLsbD stack

/-- The victim of a die: a never accessed frame is preferred by lowest address, so the lowest frame of the die that nothing lists is
among the candidates. -/
def State.victim (s : State) (die : Nat) : Option Nat :=
  let listed := (s.frames.filter fun e => s.dieLocation die e.2.at' && !e.2.lost).map (·.1)
  let stk := (List.range 3).filter fun k => s.trained.getLsbD (3 * die + k)
  let unseen := (stk.flatMap fun k => (List.range (s.frames.length + 1)).map fun i => (3 * die + k) * 0x100000 + i).find? fun f => !Tab.has s.frames f
  (listed ++ unseen.toList).foldl (fun b n => match b with
    | some m => if victimLt (s.victimKey n) (s.victimKey m) then some n else some m
    | none => some n) none

/-- FRAME_EXCHANGE (R196, R197): the two frames exchange their locations; nothing but the indirection table changes. -/
def State.exchange (s : State) (die n : Nat) : State :=
  let f := s.frame n
  let hits := Tab.get [] s.frameHits n
  let hot := hits.length = 16 && hits.all fun t => decide (s.now ≤ t + 179200)
  if s.evictOff.contains die || !isCap (f.at' * 65536) || !hot || f.lost then s
  else match s.victim die with
  | none => s
  | some m =>
    let g := s.frame m
    if (s.victimKey m).1 = 0 || (s.hintOf g).1 ≤ (s.hintOf f).1 then
      { s with frames := Tab.put (Tab.put s.frames n { f with at' := g.at' }) m { g with at' := f.at' }, frameHits := Tab.del s.frameHits n }
    else s

def execFrameExchange (s : State) : Host.Outcome State Fault Refusal := .next (s.exchange s.arg.v s.arg.n)

end Sys2Proof.Machine
end

