-- ==== Sys2Proof/Machine/Links.lean ====
section
/-! DEFINITION. What goes over the Jenay links: credits, the counting of messages at a port, and the tree of a domain (spec/14_network.md R306 to R309,
R320, R321; spec/18_optimistic.md R358 to R361; notes/assumptions 13, 19). -/

namespace Sys2Proof.Machine

/-! ## Ports (R320, R321) -/

/-- An anti-message. -/
def Msg.isAnti (m : Msg) : Bool := match m.body with | .task q _ => q.t.anti | _ => false

/-- The class of link credits of a packet (R321): 0 requests and tasks, 1 replies, notices and invalidations, 2 anti-messages and tree
traffic. -/
def linkClass (kind : BitVec 6) (anti : Bool) : Nat := if anti || kind == 0x30#6 then 2 else if isReplyKind kind then 1 else 0

/-- The port at a router. -/
def portAt (cl : ClusterId) : Nat := if cl.toNat < 8 then cl.toNat else cl.toNat - 56 + 8

def State.port (s : State) (p : Nat) : Port := Tab.get {} s.ports p
def State.updPort (s : State) (p : Nat) (f : Port → Port) : State := { s with ports := Tab.put s.ports p (f (s.port p)) }

/-- A packet sent on the link of a port, at once or when a credit of its class returns. -/
def State.linkOut (s : State) (p : Nat) (m : Msg) : State :=
  let c := linkClass m.kind m.isAnti
  s.updPort p fun x =>
    if Tab.get 0 x.used c < Config.linkCredits c then { x with out := x.out ++ [m], used := Tab.put x.used c (Tab.get 0 x.used c + 1) }
    else { x with hold := x.hold ++ [m] }

/-! ## Ports as leaves (R358, R359) -/

/-- The virtual time at which a message is counted: a task message of either sign, or a version retraction. -/
def Msg.counted (m : Msg) : Option Word :=
  match m.body with
  | .task q _ => some q.t.vt
  | .req r => if r.kind == .retract then some r.w1 else none
  | _ => none

/-- A message restamped with a colour. -/
def Msg.stamp (m : Msg) (col : Bool) : Msg :=
  { m with colour := col, body := match m.body with | .task q c => .task { q with t := { q.t with colour := col } } c | b => b }

/-- A counted message of a job of this device passes a port, which counts a receipt and then a send, in its own colour. -/
def State.passPort (s : State) (p : Nat) (m : Msg) : State × Msg :=
  match m.counted with
  | none => (s, m)
  | some vt =>
    if !(s.job m.job).resident then (s, m)
    else
      let x : Leaf := .port (BitVec.ofNat 4 p)
      let s := s.updLeaf m.job x fun v => (v.recv m.colour).send vt
      let col := ((s.job m.job).leaf x).colour
      (s, { m.stamp col with passes := m.passes ++ [(p, m.colour, col)] })

/-- The counts that a port made of a message which comes back refused, and so has not been received, are taken back (DEDUCED, log 13). -/
def State.unpass (s : State) (m : Msg) : State :=
  m.passes.foldl (fun s (p, cin, cout) =>
    s.updLeaf m.job (.port (BitVec.ofNat 4 p)) fun v =>
      let add := fun (v : LeafSt) (c : Bool) (d : Int) => if c then { v with cnt1 := v.cnt1 + d } else { v with cnt0 := v.cnt0 + d }
      add (add v cin 1) cout (-1)) s

/-! ## The tree of a domain (R360) -/

/-- The other devices of the domain: those toward which a route leads (DESIGN CHOICE, log 19). -/
def State.peers (s : State) : List Nat := (List.range 64).filter fun d => decide (d ≠ s.devnum.toNat) && Tab.get 0#16 s.routes d != 0#16

/-- The root of the domain is the device with the lowest number. -/
def State.root (s : State) : Nat := s.peers.foldl min s.devnum.toNat
def State.isRoot (s : State) : Bool := s.root == s.devnum.toNat

/-- A message of the tree sent to a device, over the links alone (R308). -/
def State.sendTree (s : State) (dev : Nat) (j : JobId) (t : Tree) : State :=
  match s.portTo (BitVec.ofNat 6 dev) 0 0 with
  | none => s
  | some p => s.linkOut p { src := s.epMgmt, dst := { dev := BitVec.ofNat 6 dev, router := 0, ep := 67 }, kind := 0x30#6, job := j, body := .tree t }

/-- A message of the tree sent to every other device of the domain. -/
def State.sendDomain (s : State) (j : JobId) (t : Tree) : State := s.peers.foldl (fun s d => s.sendTree d j t) s

end Sys2Proof.Machine
end

