-- ==== Sys2Proof/Machine/Stops.lean ====
section
/-! DEFINITION. Stopping tasks: withdrawal of requests, resume, skip and kill (spec/20_faults.md R373 to R383; spec/10_isa_memory.md
R218), rollback (spec/18_optimistic.md R347 to R353). -/

namespace Sys2Proof.Machine

/-! ## Withdrawal (R218, R316) -/

/-- The reply of a withdrawn request reaches its core. -/
def State.replyWithdrawn (s : State) (r : Req) : State := s.replyTo (s.servedAt r) r { withdrawn := true } false

/-- A refused request that waits to be sent again, with nothing of it left in the mesh, is withdrawn by its core (R316). -/
def State.backoff (s : State) (r : Req) : State :=
  match Tab.find s.msgs r.id with
  | some m => if m.refused && !s.inMesh r.id then (s.dropMsg r.id).replyTo (s.epCore r.core) r { withdrawn := true } false else s
  | none => s

/-- A request that waits withdrawn from where it waits: a waiter record, a version home, a barrier object, the management core, a
backoff. What has been performed already stands. A kill or a rollback withdraws any request of the task from its backoff; a stop for pre-emption
sends the others again instead (R316, R393). -/
def State.withdrawReq (s : State) (r : Req) : State :=
  let a := offOf r.pa
  let same := fun (x : Req) => x.id == r.id && x.core == r.core
  let t := s.strand r.core r.strand
  match r.kind with
  | .ldfe | .ldff | .stef =>
    (match (s.waitersOf a).find? same with
     | some w => (s.setWaiters a ((s.waitersOf a).filter fun x => !same x)).replyWithdrawn w
     | none => s.backoff r)
  | .verst | .verldEq | .verldAsof | .verrel =>
    let cl := verHome r.job r.w0
    (match (s.cluster cl).vwait.find? same with
     | some w => (s.updCluster cl fun v => { v with vwait := v.vwait.filter fun x => !same x }).replyWithdrawn w
     | none => s.backoff r)
  | .mbarWait => if r.waiting then s.replyWithdrawn r else s.backoff r
  | .launch => if r.waiting then (({ s with descs := Tab.del s.descs r.id } : State).dropMsg r.id).replyWithdrawn r else s.backoff r
  | k => if (t.killAt.isSome || t.rollAt.isSome) && r.ident == t.ident && !k.carriesDirty && !k.isRow then s.backoff r else s

/-- WAITER_WITHDRAWAL: every waiting operation of a strand. -/
def State.withdraw (s : State) (c : CoreId) (k : StrandId) : State := (s.strandReqs c k).foldl (fun s r => s.withdrawReq r) s

def execWaiterWithdrawal (s : State) : Host.Outcome State Fault Refusal := .next (s.withdraw s.arg.c s.arg.k)

/-! ## The end of a stopped strand -/

/-- The strand stands at an instruction or progress boundary; a dispense under way completes first (R355). -/
def Strand.atBoundary (t : Strand) : Bool := t.held == .none

/-- Nothing that the strand has issued is outstanding but rows of its copies and TREDs, which go on (R161, R381). -/
def State.settled (s : State) (c : CoreId) (k : StrandId) : Bool := ((s.strandReqs c k).all (·.kind.isRow)) && (s.strand c k).pend.isEmpty

/-- A pending entry discarded: freed at once, counted once in NFAULT (R383). -/
def State.discardSlog (s : State) (c : CoreId) (i : Nat) : State :=
  let e := Tab.get {} (s.core c).slog i
  if e.st = 0 then s else (s.countDiscard e.job e.lslot e.vt).dropSlog c i

/-- The entries of a stopped task discarded (R381, R78). -/
def State.discardLog (s : State) (c : CoreId) (k : StrandId) : State := (s.slogOf c k).foldl (fun s e => s.discardSlog c e.1) s

/-- The requests of late faults leave their reply slots (R381). -/
def State.dropLate (s : State) (c : CoreId) (k : StrandId) : State :=
  ((s.strandReqs c k).filter (·.late)).foldl (fun s r => (s.fullDest r).endReq c r.id) s

/-- KILLED in the counts of a task's levels (R381). -/
def State.markKilled (s : State) (j : JobId) (l : Lslot) (vt : Word) : State :=
  let g := (s.launch j l).graph
  let f := fun (x : Counts) => { x with killed := true }
  (s.updLaunch j l fun x => { x with c := f x.c }).updJob j fun v =>
    { v with graphs := match g with | some g => Tab.upd {} v.graphs g.toNat fun x => { x with c := f x.c } | none => v.graphs
             phases := v.phases.map fun p => if p.has vt then { p with c := f p.c } else p
             c := f v.c }

/-- The packet of class 33 that tells the supervisor that a frozen strand has left (R353, R382). -/
def State.withdrawFault (s : State) (c : CoreId) (k : StrandId) : State :=
  if (s.strand c k).st = .frozen then s.sendPacket (s.packet c k (mkFault 33)) else s

/-! ## Rollback (R349 to R353) -/

/-- The strand that runs a task of a core. -/
def Core.strandOf (v : Core) (t : Ident) : Option StrandId :=
  (v.strands.find? fun e => match e.2.task with | some q => q.t.ident == t | none => false).map fun e => BitVec.ofNat 4 e.1

/-- A cause of rollback meets the block of a task: it begins, or merges (R352). A COMMITTING task is never rolled back. -/
def State.askRollback (s : State) (c : CoreId) (t : Ident) (requeue : Bool) : State :=
  match (s.core c).blockOf t with
  | none => s
  | some b =>
    match b.ts with
    | .committing => s
    | .rolling => s.updBlock c t fun b => { b with requeue := b.requeue && requeue }
    | _ =>
      let s := s.updBlock c t fun b => { b with ts := .rolling, requeue := requeue }
      let s := match (s.core c).strandOf t with
        | some k => (s.updStrand c k fun x => { x with rollAt := some requeue }).soon .waiterWithdrawal { c := c, k := k }
        | none => s
      s.soon .rollback { c := c, t := t }

/-- A request of a core on behalf of a task that no strand runs: retractions, releases, commits (R350, R363). -/
def State.blockReq (s : State) (c : CoreId) (b : Block) (kind : ReqKind) (nm ver : Word) : State :=
  s.request { kind := kind, core := c, strand := 0, job := b.job, lslot := b.lslot, w0 := nm, w1 := ver, vt := b.t.t.vt, ident := b.t.t.ident,
              opt := false }

/-- The anti-message of a message that a task sent (R18, R354), with the sender's colour, counted as a send: of the launch that its twin joined,
with its PC and its words 2 to 7 undefined. -/
def State.sendAnti (s : State) (c : CoreId) (j : JobId) (l : Lslot) (vt : Word) (dcore : CoreId) (kind : BitVec 6) (seq : BitVec 20) (mg : Bool) : State :=
  let col := ((s.job j).leaf (.core c)).colour
  let q : QEntry :=
    { t := { odev := s.devnum, origin := c, seq := seq, anti := true, colour := col, kind := kind, job := j, opt := true, lslot := l, vt := vt,
             pc := (s.freeWord (2 ^ 40 + 8 * s.nextId)).setWidth 48,
             args := (List.range 6).map fun i => s.freeWord (2 ^ 40 + 8 * s.nextId + 1 + i) } }
  (s.updLeaf j (.core c) fun v => v.send vt).sendNew
    { src := s.epCore c, dst := if mg then s.epMgmt else s.epDispenser (clusterOf dcore), kind := kind, job := j, colour := col, body := .task q dcore }

/-- What one log entry of a rolled-back task undoes. -/
def State.undo (s : State) (c : CoreId) (b : Block) (e : LogEntry) : State :=
  match e with
  | .sent vt dcore _ kind seq mg l => s.sendAnti c b.job l vt dcore kind seq mg
  | .created nm ver => (s.updLeaf b.job (.core c) fun v => v.send ver).blockReq c b .retract nm ver
  | .exact nm ver => s.blockReq c b .readRelease nm ver
  | .asof _ nm ver => s.blockReq c b .markRemoval nm ver
  | .spawn t => (s.updJob b.job fun v => v.leavePhase t.vt).uncount b.job t.lslot
  | .deferred .. => s

/-- The entry of a task removed from its core's queue and spill area. -/
def Core.dropEntry (v : Core) (t : Ident) : Core :=
  { v with queue := v.queue.filter fun q => !(q.t.ident == t && !q.t.anti),
           spill := v.spill.map fun e => (e.1, e.2.filter fun q => !(q.t.ident == t && !q.t.anti)) }

/-- The end of a rollback, once the strand stands and nothing is outstanding (R350, R351). -/
def State.finishRollback (s : State) (c : CoreId) (b : Block) (k : Option StrandId) : State :=
  let t := b.t.t.ident
  let s := b.log.foldl (fun s e => s.undo c b e) s
  let s := match k with
    | some k => (s.withdrawFault c k).endRun c k
    | none => s
  let s := s.updCore c fun v => { v.dropEntry t with rings := v.rings.filter fun x => !(x.t.t.ident == t) }
  if b.requeue then
    let s := if b.migrated then s.born b.job b.lslot b.t.t.vt else s
    s.requeue c { b.t with block := false, hold := .none }
  else if b.migrated then (s.countRetired b.job b.lslot b.t.t.vt).checkDone b.job b.lslot
  else s.retire b.job b.lslot b.t.t.vt

/-- The task may be requeued, if it is to be: its core's queue or spill area has room (R79, R80; DESIGN CHOICE, log 19: until it has, the
rollback waits). -/
def State.mayRequeue (s : State) (c : CoreId) (b : Block) : Bool := !b.requeue || (s.updCore c fun v => v.dropEntry b.t.t.ident).roomFor c b.t

/-- ROLLBACK of a task of a core: it begins where it has not begun, waits for the strand and its requests, and then undoes the log. -/
def State.rollback (s : State) (c : CoreId) (t : Ident) (requeue : Bool) : State :=
  match (s.core c).blockOf t with
  | none => s
  | some b =>
    if b.ts ≠ .rolling then s.askRollback c t requeue
    else
      let again := s.push 8 .rollback { c := c, t := t }
      match (s.core c).strandOf t with
      | some k =>
        let s' := if (s.strand c k).atBoundary then (s.dropLate c k).discardLog c k else s
        if (s.strand c k).atBoundary && s'.settled c k && s'.mayRequeue c b then s'.finishRollback c b (some k)
        else (s'.push 8 .rollback { c := c, t := t }).soon .waiterWithdrawal { c := c, k := k }
      | none => if b.wait.isSome || !s.mayRequeue c b then again else s.finishRollback c b none

def execRollback (s : State) : Host.Outcome State Fault Refusal := .next (s.rollback s.arg.c s.arg.t s.arg.ok)

/-- A notice matches the log of a task's current run (R349). -/
def Block.matches (b : Block) (v : Notice) : Bool :=
  b.log.any fun e =>
    match e with
    | .asof _ nm ver => nm == v.name && (if v.straggler then decide (ver < v.ver) else ver == v.ver)
    | .exact nm ver => !v.straggler && nm == v.name && ver == v.ver
    | _ => false

/-- VERSION_ARRIVAL_NOTICE (R349): the rollback begins, or the cause merges into the one under way (R352). -/
def State.noticeArrives (s : State) (n : Nat) : State :=
  match Tab.find s.msgs n with
  | none => s
  | some m =>
    let s := s.dropMsg n
    match m.body with
    | .notice c v =>
      match (s.core c).blockOf v.t with
      | some b => if b.matches v then s.askRollback c v.t true else s
      | none => s
    | _ => s

def execVersionArrivalNotice (s : State) : Host.Outcome State Fault Refusal := .next (s.noticeArrives s.arg.n)

/-! ## Commands on a frozen strand (R381) -/

/-- RESUME: late requests are sent again, and the strand becomes ready. -/
def State.resume (s : State) (c : CoreId) (k : StrandId) : State :=
  if (s.strand c k).st ≠ .frozen || (s.strand c k).rollAt.isSome || (s.strand c k).killAt.isSome then s
  else
    let late := (s.strandReqs c k).filter (·.late)
    let s := s.updCore c fun v => { v with reqs := v.reqs.map fun r => if r.strand == k then { r with late := false } else r }
    (late.foldl (fun s r => s.launchReq { r with late := false }) s).resumeStrand c k

def execResume (s : State) : Host.Outcome State Fault Refusal := .next (s.resume s.arg.c s.arg.k)

/-- RESUME_WITH_SKIP. -/
def State.resumeSkip (s : State) (c : CoreId) (k : StrandId) : State :=
  if (s.strand c k).st ≠ .frozen || (s.strand c k).rollAt.isSome || (s.strand c k).killAt.isSome then s
  else if (s.strandReqs c k).any (·.late) then (s.dropLate c k).resumeStrand c k
  else s.skipStrand c k

def execResumeWithSkip (s : State) : Host.Outcome State Fault Refusal := .next (s.resumeSkip s.arg.c s.arg.k)

/-- A task is stopped for good (R381, R78): `cancel` tells a CANCEL from a kill. An optimistic task is rolled back without requeue; a
conservative one ends at its boundary, once its requests have ended. A step that comes again names the task, so that it never meets the next
one. -/
def State.stopTask (s : State) (c : CoreId) (k : StrandId) (cancel : Bool) : State :=
  let t := s.strand c k
  match t.task with
  | none => s
  | some q =>
    let s := if cancel || t.killAt.isSome then s else s.markKilled q.t.job q.t.lslot q.t.vt
    if t.opt then s.askRollback c q.t.ident false
    else
      let s := s.updStrand c k fun t => { t with killAt := some ((t.killAt.getD false) || cancel) }
      let s := if t.atBoundary then (s.dropLate c k).discardLog c k else s
      if t.atBoundary && s.settled c k then
        let s := if (s.strand c k).killAt = some true then s.withdrawFault c k else s
        (s.endRun c k).retire q.t.job q.t.lslot q.t.vt
      else ((s.withdraw c k).push 8 .kill { c := c, k := k, t := q.t.ident, v := if cancel then 1 else 2 })

/-- A task that has been set aside since it is killed where it waits (R373; DEDUCED, log 20): only the handle store of a SUSPEND faults after
its task has left its strand. -/
def State.killHeld (s : State) (c : CoreId) (i : Ident) : State :=
  match ((s.core c).queue ++ (s.core c).spill.flatMap (·.2)).find? fun q => q.t.ident == i && !q.t.anti with
  | some q => ((s.markKilled q.t.job q.t.lslot q.t.vt).updCore c fun v => v.dropEntry i).retire q.t.job q.t.lslot q.t.vt
  | none => s

/-- KILL. The command of a supervisor (`task` = none) takes effect on a frozen strand that nothing stops yet (R381, R382). An AUTOKILL, a CANCEL
and a stop that is under way name their task, and do nothing once that has ended. -/
def State.kill (s : State) (c : CoreId) (k : StrandId) (task : Option Ident) (cancel : Bool) : State :=
  let t := s.strand c k
  match task with
  | none => if t.st = .frozen && t.rollAt.isNone && t.killAt.isNone then s.stopTask c k false else s
  | some i =>
    if t.task.isNone || t.ident != i then (if cancel then s else s.killHeld c i)
    else if t.rollAt.isSome then (if cancel then s.askRollback c i false else s)
    else s.stopTask c k cancel

/-- `v` = 1 tells a CANCEL, `v` = 2 a stop that is under way, `ok` an AUTOKILL. -/
def execKill (s : State) : Host.Outcome State Fault Refusal :=
  .next (s.kill s.arg.c s.arg.k (if s.arg.v = 0 ∧ !s.arg.ok then none else some s.arg.t) (s.arg.v == 1))

/-! ## Packets (R375) -/

/-- The packets of a core in the order in which they go: by cycle, then by strand. -/
def Core.packets (v : Core) : List Packet := v.pktq.mergeSort fun a b => decide (a.cyc < b.cyc) || (a.cyc == b.cyc && decide (a.strand ≤ b.strand))

/-- PACKET_DELIVERY: the packets of a core enter its supervisor's mailbox while that has room. -/
def State.deliverPackets (s : State) (c : CoreId) : State :=
  let room := 128 - (s.cluster (clusterOf c)).mbox.length
  let ps := (s.core c).packets
  (s.updCluster (clusterOf c) fun v => { v with mbox := v.mbox ++ ps.take room }).updCore c fun v => { v with pktq := ps.drop room }

def execPacketDelivery (s : State) : Host.Outcome State Fault Refusal := .next (s.deliverPackets s.arg.c)

end Sys2Proof.Machine
end

