-- ==== Sys2Proof/Machine/Window.lean ====
section
/-! DEFINITION. Accesses that no strand issues, the replay of the side log, and the writes of the debug window (spec/20_faults.md R377 to
R385; spec/10_isa_memory.md R203, R221; notes/assumptions 20). -/

namespace Sys2Proof.Machine

/-! ## Accesses without a strand -/

/-- How an access that no strand issues fares: a fault of its translation, performed at once, or sent. -/
inductive Bg where
  | fault (cls : Nat) (s : State)
  | done (s : State)
  | sent (s : State)

/-- A request with the number it has, sent at once or after what it follows. -/
def State.requestAs (s : State) (r : Req) : State :=
  let s := s.updCore r.core fun v => { v with reqs := v.reqs ++ [r] }
  if r.after = [] then s.launchReq r else s

/-- The place of an access of a job from a core: target, leaf and non-coherence, or the class of the fault. -/
def State.placeOf (s : State) (c : CoreId) (j : JobId) (va : BitVec 48) (n : Nat) (need : Need) : State × ((Target × Word × Bool) ⊕ Nat) :=
  let loc := fun (s : State) (c' : CoreId) (off : Nat) =>
    match s.localCheck c' j off n with
    | some cls => (s, Sum.inr cls)
    | none => (s, Sum.inl (Target.loc c' off, 0, false))
  match windowOf c va with
  | some (c', off) => loc s c' off
  | none =>
    match s.translateNow c false j va need with
    | (.ok pa leaf, s) =>
      match s.place pa with
      | .inr cls => (s, .inr cls)
      | .inl (.loc c' off) => loc s c' off
      | .inl (.own pa) => (s, .inl (.own pa, leaf, s.nonCoherent j va leaf))
      | .inl x => (s, .inl (x, leaf, false))
    | (.fault cls, s) => (s, .inr cls)
    | (.miss, s) => (s, .inr clsTranslation)

/-- A store-class access performed for a job by a core, as its request template says: at the own bank at once, elsewhere as a request of that number
behind the strand's earlier accesses to the line (R328). To a non-coherent line a plain store goes into the copy, as it would at issue (R189, R385);
of any other operation the copy goes home first (R191). -/
def State.perform (s : State) (r : Req) : Bg :=
  let c := r.core
  let fe := r.kind == .stff || r.kind == .fepurge
  match s.placeOf c r.job r.va r.size .w with
  | (s, .inr cls) => .fault cls s
  | (s, .inl (x, leaf, nc)) =>
    let req := fun (s : State) =>
      let dirty := ((s.core c).reqs.filter fun q => q.kind.carriesDirty).map (·.id)
      let line := (s.sameLine c r.strand (s.paOf x)).filter fun n => decide (n < r.id) || dirty.contains n
      ({ r with pa := s.paOf x, nc := nc, after := r.after ++ line.filter fun n => !r.after.contains n } : Req).by leaf
    let send := fun (s : State) => Bg.sent (s.requestAs (req s))
    let plain := r.kind == .store || r.kind == .storeM || r.kind == .hint
    match x with
    | .loc c' off =>
      if c' = c ∧ !fe then
        match r.kind with
        | .red op => .done (s.redLocal c off op r.w0)
        | .stb => .done (s.putBlock c off (bytesOf 128 r.line) r.pois)
        | _ => .done (s.localWrite c off r.bytes)
      else send s
    | .own pa =>
      if nc && plain then
        match s.intoCopy (req s) r.bytes (req s).after.isEmpty with
        | (s, some q) => .sent (s.requestAs q)
        | (s, none) => .done s
      else if nc then send (s.surrender c r.strand (offOf pa / 128))
      else send (if plain || r.kind == .stb then s.updCore c fun v => v.uncount (offOf pa / 128) else s)
    | .host _ => if fe || (match r.kind with | .red _ => true | _ => false) then .fault clsUnsupported s else send s
    | .peer _ => send s

/-! ## Replay of the side log (R385) -/

/-- The access of a side-log entry (R383). -/
def State.slogReq (s : State) (c : CoreId) (e : SlEntry) : Req :=
  let kind : ReqKind := match e.kind with
    | 0 => .store | 1 => .storeM | 2 => .stb | 3 => .red 16 | 4 => .red 17 | 5 => .stff | 6 => .fepurge | 7 => .hint | 8 => .store | _ => .stff
  let line : Line := if e.kind = 2 then Tab.get 0 (s.core c).sblk e.blk else 0
  -- a release follows every earlier access of its strand (R330)
  let earlier := if e.kind = 5 ∨ e.kind = 10 then
      (((s.core c).reqs.filter fun r => (r.strand == e.strand && (r.isLoad || r.isStore) && decide (r.id < e.ord)) || r.kind.carriesDirty).map (·.id))
    else []
  { id := e.ord, kind := kind, core := c, strand := e.strand, job := e.job, lslot := e.lslot, va := e.va, size := if e.kind = 2 then 128 else 2 ^ e.sz,
    w0 := e.data.extractLsb' 0 64, w1 := e.data.extractLsb' 64 64, w2 := if e.kind = 10 then 1 else e.pois.setWidth 64, line := line, mask := BitVec.allOnes 128,
    pc := e.pc, insn := e.insn, vt := e.vt, ident := e.ident, isStore := true, after := earlier }

/-- The entries of its strand that a release in the log follows and that are still pending (R330). -/
def State.slogBefore (s : State) (c : CoreId) (e : SlEntry) : List Nat :=
  if e.kind = 5 ∨ e.kind = 10 then ((s.slogOf c e.strand).filter fun x => decide (x.2.ord < e.ord)).map (·.2.ord) else []

/-- An entry tried in vain stays pending with the new class; the entries behind it are not tried. -/
def State.slogAgain (s : State) (c : CoreId) (i cls : Nat) : State :=
  let e := { Tab.get {} (s.core c).slog i with st := 1, cls := cls }
  let p := s.slogPacket c i e
  let behind := fun (n : Nat) =>
    let x := Tab.get {} (s.core c).slog n
    x.strand == e.strand && (x.kind == 8 || x.kind == 9) == (e.kind == 8 || e.kind == 9) && x.va.toNat / 4096 == e.va.toNat / 4096
  let s := s.updCore c fun v => { v with slog := Tab.put v.slog i e, replay := v.replay.filter fun n => !behind n }
  let s := (s.countFault e.job e.lslot e.vt cls (firstWord c p.strand e.pc)).sendPacket p
  if p.autok then s.autokillEntry c i e else s

/-- The entries still to try, one after another. A release whose translation succeeds behind entries of its strand that stay pending leaves the log and
is held back at the core until they have been performed, as at its issue (R330, R385; DEDUCED, log 20). -/
def State.tryEntries (s : State) (c : CoreId) (fuel : Nat) : State :=
  match fuel with
  | 0 => s
  | f + 1 =>
    match (s.core c).replay with
    | [] => s
    | i :: rest =>
      let e := Tab.get {} (s.core c).slog i
      let s := s.updCore c fun v => { v with replay := rest }
      let first := s.slogBefore c e
      if e.st ≠ 1 then s.tryEntries c f
      else
        match s.perform { s.slogReq c e with after := (s.slogReq c e).after ++ first } with
        | .fault cls s => (s.slogAgain c i cls).tryEntries c f
        | .done s => (s.freeSlog c i).tryEntries c f
        | .sent s =>
          if first ≠ [] then (s.updCore c fun v => v.freeEntry i).tryEntries c f
          else s.updCore c fun v => { v with slog := Tab.put v.slog i { e with st := 2 } }

/-- WCTL.REPLAY written with 1: every pending entry once, in the order of creation; ignored while a replay runs. -/
def State.replay (s : State) (c : CoreId) : State :=
  let v := s.core c
  if v.replay ≠ [] || (v.slog.any fun e => e.2.st == 2) then s
  else
    let es := (v.slog.filter fun e => e.2.st == 1).mergeSort fun a b => a.2.ord ≤ b.2.ord
    (s.updCore c fun v => { v with replay := es.map (·.1) }).tryEntries c (es.length + 1)

def execReplay (s : State) : Host.Outcome State Fault Refusal := .next (s.replay s.arg.c)

/-- REPLAY_ENTRY_RESULT: the entry is freed, or faults again, or has left the log meanwhile; then the next is tried. -/
def State.replayResult (s : State) (c : CoreId) (i cls : Nat) : State :=
  let e := Tab.get {} (s.core c).slog i
  if e.st ≠ 2 then (if (s.core c).slog.any fun x => x.2.st == 2 then s else s.tryEntries c ((s.core c).replay.length + 1))
  else
    let s := if cls = 0 then s.freeSlog c i else s.slogAgain c i cls
    s.tryEntries c ((s.core c).replay.length + 1)

def execReplayEntryResult (s : State) : Host.Outcome State Fault Refusal := .next (s.replayResult s.arg.c s.arg.n s.arg.v)

/-- SIDE_LOG_DISCARD (R383): 3 written to STATE of a pending entry. -/
def execSideLogDiscard (s : State) : Host.Outcome State Fault Refusal :=
  .next (if (Tab.get {} (s.core s.arg.c).slog s.arg.n).st = 1 then s.discardSlog s.arg.c s.arg.n else s)

/-! ## Writes of the debug window (R377 to R379) -/

/-- The strand and the accumulator that an accessor's WCTL selects. -/
def Core.wctl (v : Core) (who : Agent) : Word := match who with | .supervisor => v.wctlS | _ => v.wctlM

/-- Half of a mask register replaced. -/
def maskHalf (m : BitVec 128) (hi : Bool) (v : Word) : BitVec 128 :=
  if hi then v ++ m.extractLsb' 0 64 else m.extractLsb' 64 64 ++ v

/-- A value written at an offset of the context area (R378, R379). -/
def Strand.ctxWrite (t : Strand) (o : Nat) (v : Word) : Strand :=
  if o < 0x200 then (if o / 8 = 0 then t else t.putX (BitVec.ofNat 6 (o / 8)) v)
  else if o = 0x200 then { t with xF := v }
  else if o = 0x208 then { t with aF := v.extractLsb' 0 16, mF := v.extractLsb' 16 8, iF := v.extractLsb' 24 4 }
  else if o = 0x210 then { t with pc := (vaOf v) &&& ~~~1#48 }
  else if o = 0x218 then { t with prog := v }
  else if o = 0x220 then { t with desc := v }
  else if o = 0x228 then { t with cur := v }
  else if o = 0x230 then { t with endv := v }
  else if o = 0x238 then { t with ext := v }
  else if o < 0x240 then t
  else if o < 0x2C0 then t.putA (BitVec.ofNat 4 ((o - 0x240) / 8)) v
  else if o < 0x340 then
    let k : BitVec 3 := BitVec.ofNat 3 ((o - 0x2C0) / 16)
    t.putM k (maskHalf (t.rm' k) ((o - 0x2C0) / 8 % 2 = 1) v)
  else if o < 0x360 then t.putI (BitVec.ofNat 2 ((o - 0x340) / 8)) v
  else
    let n : BitVec 9 := BitVec.ofNat 9 ((o - 0x360) / 8)
    if n = 5 then { t with flags := v.extractLsb' 0 5, ann := (v.extractLsb' 6 2).toNat }
    else if n = 2 ∨ n = 3 ∨ n = 4 ∨ n = 7 ∨ n = 9 ∨ n = 0x0E then t.ctlWrite n v
    else t

/-- A value written at an offset of the context area of a strand of a core. To an empty x register whose own result is outstanding it waits, as
any fill does, and stands after that result (R132). -/
def State.writeContext (s : State) (c : CoreId) (k : StrandId) (o : Nat) (v : Word) : State :=
  let r : XReg := BitVec.ofNat 6 (o / 8)
  if o < 0x200 ∧ !(s.strand c k).full (.x r) ∧ s.producing c k r then
    s.updStrand c k fun t => { t with fills := fillInsert t.fills (r, v, s.cycle * 0x10000) }
  else s.updStrand c k fun t => t.ctxWrite o v

/-- CONTEXT_WRITE: while the selected strand is frozen; otherwise ignored. `n` counts from the start of the context area. -/
def execContextWrite (s : State) : Host.Outcome State Fault Refusal :=
  let c := s.arg.c
  let k : StrandId := ((s.core c).wctl s.arg.who).extractLsb' 0 4
  .next (if (s.strand c k).st = .frozen ∧ s.arg.n < 0x400 ∧ s.arg.n % 8 = 0 then s.writeContext c k s.arg.n s.arg.w0 else s)

/-- TILE_TABLE_WRITE: STATE, OWN, POISON and LAYOUT of a slot whose strand is frozen. A slot that leaves READY leaves the weight buffer
(R273), and one whose layout changes (DEDUCED, log 18); reserved bits of the layout stay 0 (R8, R266). -/
def execTileTableWrite (s : State) : Host.Outcome State Fault Refusal :=
  let c := s.arg.c; let n := s.arg.n; let v := s.arg.w0
  let old := (s.slot c n).layout
  let lo := v.extractLsb' 48 16 &&& ~~~0x3F#16
  .next (if n < 384 ∧ (s.strand c (s.slot c n).strand).st = .frozen then
      let s := s.updSlot c n fun t =>
        { t with st := (v.extractLsb' 0 2).toNat, own := v.getLsbD 2, poison := v.getLsbD 3, layout := lo }
      if v.extractLsb' 0 2 = 2#2 ∧ lo = old then s else s.updCore c fun x => x.dropWb [n]
    else s)

/-- A queued or running matrix command, or a follow-on, names an accumulator. -/
def Core.accNamed (v : Core) (a : BitVec 2) : Bool :=
  (v.mq ++ v.mrun.toList ++ v.copies.flatMap (·.fol)).any (fun m => m.acc == a) ||
    v.strands.any fun e => match e.2.mulk with | some x => x.acc == a | none => false

/-- ACCUMULATOR_WRITE: an element of the accumulator that ASEL selects, while it is full and no queued matrix command names it. -/
def execAccumulatorWrite (s : State) : Host.Outcome State Fault Refusal :=
  let c := s.arg.c
  let a : BitVec 2 := ((s.core c).wctl s.arg.who).extractLsb' 4 2
  .next (if ((s.core c).accAt a).full ∧ !(s.core c).accNamed a ∧ s.arg.n < 1024 then
      s.setAcc c a fun x => { x with el := Tab.put x.el s.arg.n (s.arg.w0.extractLsb' 0 32), bad := x.bad.filter (· != s.arg.n) }
    else s)

end Sys2Proof.Machine
end

