-- ==== Sys2Proof/Machine/Cancel.lean ====
section
/-! DEFINITION. Cancellation at every level, and what is dropped by it (spec/04_launch.md R78; spec/05_placement.md R95;
spec/13_isa_tile.md R304). -/

namespace Sys2Proof.Machine

/-- A task of the job is stopped or discarded by a CANCEL of its launch or of the phase of its time (R78). -/
def Job.cancels (v : Job) (l : Lslot) (vt : Word) : Bool :=
  (v.launch l).c.cancelled || v.phases.any fun p => p.c.cancelled && p.has vt

/-- The launch loses a task by a CANCEL of a phase. -/
def State.lose (s : State) (j : JobId) (l : Lslot) : State :=
  if (s.launch j l).c.cancelled then s else s.updLaunch j l fun x => { x with lost := true }

/-- A positive task of a launch that is not live is discarded: it counts as retired where the job holds counts for it, in its phase and in
the job (R14, R27). -/
def State.discardStray (s : State) (t : Task) : State :=
  if (s.job t.job).resident then
    (s.updJob t.job fun v =>
      { v.leavePhase t.vt with
        c := v.c.retire
        phases := (v.leavePhase t.vt).phases.map fun p => if p.has t.vt then { p with c := p.c.retire } else p }).checkDone t.job t.lslot
  else s

/-- A positive task dropped or discarded: it retires at that moment (R14, R78). -/
def State.dropTask (s : State) (t : Task) : State :=
  if (s.job t.job).live t.lslot then (s.lose t.job t.lslot).retire t.job t.lslot t.vt else s.discardStray t

/-- The entries of a core kept by a test. -/
def Core.keepEntries (v : Core) (keep : QEntry → Bool) : Core :=
  { v with queue := v.queue.filter keep, spill := v.spill.map fun e => (e.1, e.2.filter keep) }

/-- The chosen tasks of a job in the queues and spill areas dropped, pending anti-messages with them; a written-back optimistic task is
rolled back without requeue. -/
def State.dropQueued (s : State) (j : JobId) (sel : Task → Bool) : State :=
  s.cores.foldl (fun s e =>
    let c : CoreId := BitVec.ofNat 12 e.1
    let out := (s.core c).entries.filter fun q => q.t.job == j && sel q.t
    if out = [] then s
    else
      let s := s.updCore c fun v => v.keepEntries fun q => !(q.t.job == j && sel q.t) || (q.block && !q.t.anti)
      out.foldl (fun s q =>
        if q.t.anti then s
        else if q.block then (s.lose j q.t.lslot).askRollback c q.t.ident false
        else s.dropTask q.t) s) s

/-- The chosen running tasks stop at their next boundary. -/
def State.stopRunning (s : State) (j : JobId) (sel : Task → Bool) : State :=
  s.cores.foldl (fun s e =>
    e.2.strands.foldl (fun s k =>
      match k.2.task with
      | some q =>
        if q.t.job == j && sel q.t then
          (s.lose j q.t.lslot).soon .kill { c := BitVec.ofNat 12 e.1, k := BitVec.ofNat 4 k.1, t := q.t.ident, v := 1 }
        else s
      | none => s) s) s

/-- The chosen tasks that have ended and wait to commit rolled back without requeue (R78, R351; DEDUCED, log 19). -/
def State.dropDone (s : State) (j : JobId) (sel : Task → Bool) : State :=
  s.cores.foldl (fun (s : State) (e : Nat × Core) =>
    (e.2.rings.filter fun b => b.job == j && b.ts == .done && sel b.t.t).foldl (fun (s : State) b =>
      (s.lose j b.lslot).askRollback (BitVec.ofNat 12 e.1) b.t.t.ident false) s) s

/-- The chosen tasks that wait at the management core dropped. A launch that has not started ends without its entry task. -/
def State.dropWaiting (s : State) (j : JobId) (sel : Task → Bool) : State :=
  (s.job j).launches.foldl (fun (s : State) (e : Nat × Launch) =>
    let l : Lslot := BitVec.ofNat 16 e.1
    let out := e.2.waiting.filter fun q => sel q.t
    let s := if out = [] then s else s.updLaunch j l fun x => { x with waiting := x.waiting.filter fun q => !sel q.t }
    let s := out.foldl (fun s q => if q.t.anti then s else s.dropTask q.t) s
    match e.2.entryTask with
    | some q =>
      if sel q.t then
        (((s.lose j l).updLaunch j l fun x => { x with entryTask := none }).updJob j fun v => v.leavePhase q.t.vt).uncount j l
      else s
    | none => s) s

/-- The chosen tasks of a stop: what was saved of their strands is no longer used. Of a stop of whole cores, a conservative one retires, and an
optimistic one is rolled back at its core without requeue (R402). -/
def State.dropSaved (s : State) (j : JobId) (sel : Task → Bool) : State :=
  let out := (s.job j).saved.tasks.filter fun e => sel e.2.2.1.t
  let rings := (s.job j).saved.rings.filter fun e => sel e.2.t.t
  let gone := fun (c : CoreId) (k : StrandId) =>
    (out.any fun e => e.1 == c && e.2.1 == k) || match (s.strand c k).task with | some q => q.t.job == j && sel q.t | none => false
  let s := s.updJob j fun v =>
    { v with saved := { v.saved with
        tasks := v.saved.tasks.filter (fun e => !sel e.2.2.1.t), rings := v.saved.rings.filter (fun e => !sel e.2.t.t),
        strands := v.saved.strands.filter (fun e => !gone e.1 e.2.1), waits := v.saved.waits.filter (fun r => !gone r.core r.strand) } }
  let s := out.foldl (fun s e => if e.2.2.1.t.opt then s.lose j e.2.2.1.t.lslot else s.dropTask e.2.2.1.t) s
  rings.foldl (fun s e =>
    (s.updCore e.1 fun v => { v with rings := v.rings ++ [{ e.2 with strand := none }] }).askRollback e.1 e.2.t.t.ident false) s

/-- The chosen tasks stopped. -/
def State.stopTasks (s : State) (j : JobId) (sel : Task → Bool) : State :=
  (((s.dropQueued j sel).dropDone j sel).dropWaiting j sel).dropSaved j sel |>.stopRunning j sel

/-- The WAITW registrations that a stop withdrew are made again (R393, R401). -/
def State.remakeWaits (s : State) (j : JobId) : State :=
  (s.job j).saved.waits.foldl (fun s r => s.request r) (s.updJob j fun v => { v with saved := { v.saved with waits := [] } })

/-- The leaves of a job on this device are no longer stopped, and its DECODE requests go on (R401, R402). -/
def State.goHere (s : State) (j : JobId) : State :=
  let s := s.updJob j fun v =>
    { v with stopped := false, idleLeaf := { v.idleLeaf with stopped := false }, leaves := v.leaves.map fun (e : Nat × LeafSt) => (e.1, { e.2 with stopped := false }) }
  let paused := s.decoders.filter fun (e : Nat × Decoder) => e.2.run.any fun r => r.job == j && r.paused
  let go := fun (r : DecReq) => if r.job == j then { r with paused := false } else r
  let s : State := { s with decQueues := s.decQueues.map (fun (e : Nat × List DecReq) => (e.1, e.2.map go)),
                            decoders := s.decoders.map fun (e : Nat × Decoder) => (e.1, { e.2 with run := e.2.run.map go }) }
  let s := paused.foldl (fun (s : State) e => s.soon .frameDecoded { n := e.1 }) s
  (List.range 4).foldl (fun (s : State) d => s.soon .decodeRequestStart { n := d }) s

/-- At the root, the stop of a device has ended: once every one has, the other devices go on and the rounds resume. -/
def State.stopEnds (s : State) (j : JobId) (dev : Nat) : State :=
  let s := s.updJob j fun v => { v with round := { v.round with asked := v.round.asked.erase dev, held := v.round.held.erase dev } }
  if (s.job j).round.held = [] then (s.sendDomain j .go).push 64 .gvtRoundStart { j := j } else s

/-- The stop of a job on this device ends, and its rounds resume, of which the root of the domain is told. -/
def State.unstop (s : State) (j : JobId) : State :=
  let s := s.goHere j
  if s.isRoot then s.stopEnds j s.devnum.toNat else s.sendTree s.root j .go

/-- The DECODE requests of a launch are cancelled (R304): those that run end at their decoder's next action. -/
def State.cancelDecodes (s : State) (j : JobId) (l : Lslot) : State :=
  let hit := fun (r : DecReq) => r.job == j && r.lslot == l
  let s := { s with decQueues := s.decQueues.map fun (e : Nat × List DecReq) => (e.1, e.2.map fun r => if hit r then { r with cancelled := true } else r) }
  s.decoders.foldl (fun (s : State) (e : Nat × Decoder) =>
    match e.2.run with
    | some r =>
      if hit r then
        let s : State := { s with decoders := Tab.put s.decoders e.1 { e.2 with run := some { r with cancelled := true } } }
        if r.paused then s.soon .decodeComplete { n := e.1, w0 := 3 } else s
      else s
    | none => s) s

/-- CANCEL of a launch: whether it took effect. -/
def State.cancelLaunch (s : State) (j : JobId) (l : Lslot) : State × Bool :=
  if !(s.job j).live l || (s.launch j l).c.cancelled then (s, false)
  else
    let s := s.updLaunch j l fun x => { x with c := { x.c with cancelled := true } }
    let s := { s with clusters := s.clusters.map fun (e : Nat × Cluster) => (e.1, { e.2 with fwd := e.2.fwd.filter fun f => !(f.job == j && f.lslot == l) }) }
    (((s.stopTasks j fun t => t.lslot == l).cancelDecodes j l).checkDone j l, true)

/-- The graph and launches of a list cancelled. -/
def State.cancelLaunches (s : State) (j : JobId) (ls : List Lslot) : State := ls.foldl (fun s l => (s.cancelLaunch j l).1) s

/-- A closed graph without incomplete members completes (R28). -/
def State.checkGraph (s : State) (j : JobId) (g : BitVec 16) : State :=
  match Tab.find (s.job j).graphs g.toNat with
  | some x => if x.closed && !x.complete && x.members.all (fun l => x.done.any fun d => d.1 == l) then s.soon .graphCompletion { j := j, n := g.toNat } else s
  | none => s

/-- CANCEL of a graph: its incomplete launches are cancelled, and it is closed. -/
def State.cancelGraph (s : State) (j : JobId) (g : BitVec 16) : State × Bool :=
  match Tab.find (s.job j).graphs g.toNat with
  | some x =>
    if x.complete || x.c.cancelled then (s, false)
    else
      let s := s.updJob j fun v => { v with graphs := Tab.put v.graphs g.toNat { x with closed := true, c := { x.c with cancelled := true } } }
      ((s.cancelLaunches j x.members).checkGraph j g, true)
  | none => (s, false)

/-- CANCEL of a phase, named by its start. -/
def State.cancelPhase (s : State) (j : JobId) (start : Word) : State × Bool :=
  match (s.job j).phases.find? (fun p => p.start == start) with
  | some p =>
    if p.complete || p.c.cancelled then (s, false)
    else
      let s := s.updJob j fun v =>
        { v with phases := v.phases.map fun q => if q.start == start then { q with c := { q.c with cancelled := true } } else q }
      (s.stopTasks j fun t => p.has t.vt, true)
  | none => (s, false)

/-- CANCEL of a job: every launch and every open phase; no further launch is created. -/
def State.cancelJob (s : State) (j : JobId) : State × Bool :=
  let v := s.job j
  if !v.resident || v.cancelled || v.teardown.isSome then (s, false)
  else
    let s := s.updJob j fun v => { v with cancelled := true, c := { v.c with cancelled := true } }
    let s := if v.stopped then s.unstop j else s
    let s := v.graphs.foldl (fun s g => (s.cancelGraph j (BitVec.ofNat 16 g.1)).1) s
    let s := s.cancelLaunches j (v.launches.map fun e => BitVec.ofNat 16 e.1)
    (v.phases.foldl (fun s p => (s.cancelPhase j p.start).1) s, true)

/-- CANCEL of a level (R78, R167): 0 launch, 1 graph, 2 phase, 3 job. -/
def State.cancel (s : State) (j : JobId) (level : BitVec 2) (x : Word) : State × Bool :=
  match level.toNat with
  | 0 => s.cancelLaunch j (x.extractLsb' 0 16)
  | 1 => s.cancelGraph j (x.extractLsb' 0 16)
  | 2 => s.cancelPhase j x
  | _ => s.cancelJob j

/-- An error bit and the end of the operation of PRECTL (R391). -/
def State.endCut (s : State) (err : Bool) : State :=
  { s with cut := none, prectl := ((s.prectl &&& ~~~0x100#64) ||| 0x200#64) ||| (if err then 0x80#64 else 0) }

/-- The stop ends without a cut because the job has been cancelled (R394). -/
def State.abandonStop (s : State) (j : JobId) : State :=
  let s := (s.updJob j fun v => { v with round := { v.round with stop := false } }).push 64 .gvtRoundClose { j := j }
  (s.unstop j).endCut true

/-- A job cancelled because its spill area is full or faults; a stop of it ends with ERR (R81, R394). -/
def State.cancelStop (s : State) (j : JobId) : State :=
  let s := (s.cancelJob j).1
  match s.cut with
  | some x => if !x.restore && x.job == j && decide (x.phase < 2) then s.abandonStop j else s
  | none => s

/-- A fault of the device on behalf of a job, on a spill write or refill read (R81): recorded in the job's record; the core accepts no
more positives of the job, and the job is cancelled. -/
def State.spillFailed (s : State) (c : CoreId) (j : JobId) (cls : Nat) : State :=
  let s := s.updCore c fun v => { v with refuse := if v.refuse.contains j then v.refuse else v.refuse ++ [j] }
  (s.updJob j fun v => { v with c := v.c.fault cls (firstWord c 0 0) }).cancelStop j

/-- A spill write that cannot be made: it faults with a class, or the area is full in a stop. -/
def State.spillEnds (s : State) (c : CoreId) (j : JobId) (cls : Option Nat) : State :=
  match cls with
  | some n => s.spillFailed c j n
  | none => s.cancelStop j

end Sys2Proof.Machine
end

