-- ==== Sys2Proof/Machine/Arrivals.lean ====
section
/-! DEFINITION. Task messages between agents: departure, arrival, acceptance, anti-messages, refills, donation between clusters
(spec/05_placement.md R79 to R91, R421; spec/18_optimistic.md R354, R355, R359; spec/14_network.md R316). -/

namespace Sys2Proof.Machine

/-! ## Departure and acceptance (R421) -/

/-- SEND_BUFFER_DEPARTURE: the message leaves once everything before it has been performed; it takes its core's colour and counts as
sent. -/
def State.departs (s : State) (c : CoreId) (n : Nat) : State :=
  match (s.core c).sendBuf.find? (fun e => e.m == n) with
  | none => s
  | some e =>
    if e.left || !e.after.isEmpty then s
    else
      let j := e.t.t.job
      let col := ((s.job j).leaf (.core c)).colour
      let q := { e.t with t := { e.t.t with colour := col }, pts := (s.core c).pts }
      let s := s.updLeaf j (.core c) fun v => v.send q.t.vt
      let s := s.updCore c fun v => { v with sendBuf := v.sendBuf.map fun x => if x.m = n then { x with left := true, t := q } else x }
      s.inject n { src := s.epCore c, dst := match e.to' with | some d => s.epDispenser (clusterOf d) | none => s.epMgmt, kind := q.t.kind,
                   job := j, colour := col, body := .task q (e.to'.getD 0), buffered := some c }

def execSendBufferDeparture (s : State) : Host.Outcome State Fault Refusal := .next (s.departs s.arg.c s.arg.n)

/-- The sender of a positive is told that it has been accepted (R81). -/
def State.acceptMsg (s : State) (n : Nat) (m : Msg) : State :=
  (s.dropMsg n).sendNew { src := m.dst, dst := m.src, kind := 0x21#6, job := m.job, body := .accepted n, answers := m.tag }

/-- TASK_MESSAGE_ACCEPTED: the send-buffer entry is free, and a commit that waits for its deferred spawn goes on (R363). -/
def State.accepted (s : State) (c : CoreId) (n : Nat) : State :=
  let s := s.updCore c fun v => { v with sendBuf := v.sendBuf.filter fun e => e.m ≠ n }
  ((s.core c).rings.filter fun b => b.wait == some n).foldl (fun s b => s.soon .commitStep { c := c, t := b.t.t.ident }) s

def execTaskMessageAccepted (s : State) : Host.Outcome State Fault Refusal :=
  .next (match Tab.find s.msgs s.arg.n with
    | some m =>
      match m.body with
      | .accepted n =>
        let s := (s.dropMsg s.arg.n).dropMsg n
        if m.dst.ep < 64 then s.accepted (coreIn m.dst.router m.dst.ep) n else s
      | _ => s
    | none => s)

/-- RETRY_RECEIVE (R316): the packet waits 32 times 2^n cycles and is sent again. -/
def State.retried (s : State) (n : Nat) : State :=
  match Tab.find s.msgs n with
  | none => s
  | some r =>
    match r.body with
    | .retry k =>
      let s := s.dropMsg n
      match Tab.find s.msgs k with
      | some m =>
        ({ s with msgs := Tab.put s.msgs k { m with refused := true, retries := m.retries + 1 } } : State).push (32 * 2 ^ min m.retries 5)
          .backoffExpiry { n := k }
      | none => s
    | _ => s

def execRetryReceive (s : State) : Host.Outcome State Fault Refusal := .next (s.retried s.arg.n)

/-- BACKOFF_EXPIRY: the whole packet is injected again, once nothing of it is left in the mesh (R309), unless it was withdrawn meanwhile. -/
def execBackoffExpiry (s : State) : Host.Outcome State Fault Refusal :=
  .next (match Tab.find s.msgs s.arg.n with
    | some m => if !m.refused then s else if s.inMesh s.arg.n then s.push 8 .backoffExpiry { n := s.arg.n } else s.inject s.arg.n m
    | none => s)

/-! ## Twins (R354, R355) -/

/-- The cores of a cluster that hold anything. -/
def State.coresOf (s : State) (cl : ClusterId) : List CoreId :=
  (s.cores.filter fun e => e.1 / 64 == cl.toNat).map fun e => BitVec.ofNat 12 e.1

/-- The core of a cluster that holds an entry of an identity and a sign in its queue or spill areas. -/
def State.entryIn (s : State) (cl : ClusterId) (t : Ident) (anti : Bool) : Option (CoreId × QEntry) :=
  (s.coresOf cl).findSome? fun c => ((s.core c).entries.find? fun q => q.t.ident == t && q.t.anti == anti).map fun q => (c, q)

/-- That entry removed. -/
def State.takeEntry (s : State) (c : CoreId) (t : Ident) (anti : Bool) : State :=
  s.updCore c fun v => v.keepEntries fun q => !(q.t.ident == t && q.t.anti == anti)

/-- The core of a cluster whose rings hold the block of a task. -/
def State.blockIn (s : State) (cl : ClusterId) (t : Ident) : Option CoreId := (s.coresOf cl).find? fun c => ((s.core c).blockOf t).isSome

/-! ## Arrival of positives (R81, R355) -/

/-- A break in the conditions under which a cluster would steal (R88). -/
def State.stealBreak (s : State) (cl : ClusterId) (j : JobId) (l : Lslot) : State :=
  s.updCluster cl fun v => { v with steals := v.steals.map fun x => if x.job == j && x.lslot == l then { x with since := none } else x }

/-- What a dispenser makes of a positive for a core of its cluster. -/
inductive Taken where
  /-- Entered, annihilated or discarded. -/
  | ok (s : State)
  | full
  /-- The spill write faults, or finds the area full in a stop. -/
  | bad (cls : Option Nat)

/-- A positive decided by the dispenser of its core's cluster. -/
def State.takePositive (s : State) (q : QEntry) (c : CoreId) : Taken :=
  let j := q.t.job; let l := q.t.lslot; let cl := clusterOf c
  if !(s.job j).live l || (s.job j).cancels l q.t.vt then .ok (s.dropTask q.t)
  else match s.entryIn cl q.t.ident true with
  | some (c', _) => .ok ((s.takeEntry c' q.t.ident true).retire j l q.t.vt)
  | none =>
    if (s.core c).refuse.contains j then .full
    else match s.placeIn c q with
    | .queue v => .ok ((s.setCore c v).stealBreak cl j l)
    | .spill v => (match s.spillFault c j .w with | some cls => .bad (some cls) | none => .ok (s.spillWrite c j v))
    | .full => if s.cutAt c j then .bad none else .full

/-- A task released by the management core to the core that it is bound to (R86); an entry task starts in the local copy of the code, if there is
one (R74). -/
def State.sendOn (s : State) (q : QEntry) : State :=
  let j := q.t.job
  let x := s.launch j q.t.lslot
  let q := x.localPc q
  match x.destOf q.t.origin q.t with
  | none => s
  | some c =>
    let col := ((s.job j).leaf .mgmt).colour
    let s := s.updLeaf j .mgmt fun v => v.send q.t.vt
    let s := if q.t.opt && !q.t.anti then s.updLaunch j q.t.lslot fun x => { x with released := (q.t.ident, c) :: x.released } else s
    s.sendNew { src := s.epMgmt, dst := s.epDispenser (clusterOf c), kind := q.t.kind, job := j, colour := col,
                body := .task { q with t := { q.t with colour := col } } c }

/-- The entry task of a launch that has not started, which is never to run: no task has been created (R30, R78). -/
def State.neverBorn (s : State) (q : QEntry) : State :=
  ((s.updJob q.t.job fun v => v.leavePhase q.t.vt).uncount q.t.job q.t.lslot)

/-- A positive at the management core: it waits for its launch to be bound. The entry task of a LAUNCH (R421) that finds its launch not started
waits for that first. -/
def State.waitForBind (s : State) (q : QEntry) : State :=
  let j := q.t.job; let l := q.t.lslot
  let x := s.launch j l
  if q.t.kind = 0x13#6 ∧ (s.job j).live l ∧ !x.started then
    if (s.job j).cancels l q.t.vt then (s.lose j l).neverBorn q
    else if x.bad = some 1 then s.neverBorn q
    else s.updLaunch j l fun x => { x with entryTask := some q }
  else
  if !(s.job j).live l || (s.job j).cancels l q.t.vt then s.dropTask q.t
  else if x.bad.isSome then s.retire j l q.t.vt
  else if x.waiting.any fun e => e.t.anti && e.t.ident == q.t.ident then
    (s.updLaunch j l fun x => { x with waiting := x.waiting.filter fun e => !(e.t.anti && e.t.ident == q.t.ident) }).retire j l q.t.vt
  else if x.isBound then s.sendOn q
  else s.updLaunch j l fun x => { x with waiting := insertQ x.waiting q }

/-- TASK_MESSAGE_ARRIVAL. -/
def State.taskArrives (s : State) (n : Nat) : State :=
  match Tab.find s.msgs n with
  | none => s
  | some m =>
    match m.body with
    | .task q c =>
      if m.dst.ep = 67 then
        ((s.updLeaf q.t.job .mgmt fun v => v.recv m.colour).waitForBind q).acceptMsg n m
      else
        let got := fun (s : State) => (s.updLeaf q.t.job (.dispenser (clusterOf c)) fun v => v.recv m.colour).acceptMsg n m
        match s.takePositive q c with
        | .ok s => got s
        | .full => s.refuse n
        | .bad cls => got ((s.spillEnds c q.t.job cls).dropTask q.t)
    | _ => s

def execTaskMessageArrival (s : State) : Host.Outcome State Fault Refusal := .next (s.taskArrives s.arg.n)

/-! ## Arrival of anti-messages -/

/-- An anti-message entered as pending: in the spill area where its key is not below SPMIN, else in the queue, else spilled; where the
reserved entries are full the job is cancelled (R81). -/
def State.pendAnti (s : State) (q : QEntry) (c : CoreId) : State :=
  let v := s.core c
  let j := q.t.job
  let after := match v.spmin j with | some m => decide (m ≤ q.key) | none => false
  if !after && decide (v.queue.length < 64) then s.setCore c (v.putQueue q)
  else if !v.spillRoom j true then s.cancelStop j
  else match s.spillFault c j .w with
  | some cls => s.spillFailed c j cls
  | none => s.spillWrite c j (v.putSpill j q)

/-- An anti-message sent on by a dispenser or the management core (R91), in the forwarder's colour. -/
def State.forwardAnti (s : State) (q : QEntry) (from' : Ep) (leaf : Leaf) (c : CoreId) : State :=
  let j := q.t.job
  let col := ((s.job j).leaf leaf).colour
  (s.updLeaf j leaf fun v => v.send q.t.vt).sendNew
    { src := from', dst := s.epDispenser (clusterOf c), kind := q.t.kind, job := j, colour := col, body := .task { q with t := { q.t with colour := col } } c }

/-- An anti-message decided by a dispenser. -/
def State.takeAnti (s : State) (q : QEntry) (c : CoreId) : State :=
  let j := q.t.job; let l := q.t.lslot; let cl := clusterOf c; let t := q.t.ident
  if !(s.job j).live l || (s.job j).cancels l q.t.vt then s
  else match s.blockIn cl t with
  | some c' => s.askRollback c' t false
  | none =>
    match s.entryIn cl t false with
    | some (c', e) => (s.takeEntry c' t false).retire j l e.t.vt
    | none =>
      match (s.cluster cl).fwd.find? (fun f => f.t == t && f.job == j) with
      | some f =>
        (s.updCluster cl fun v => { v with fwd := v.fwd.filter fun f => !(f.t == t && f.job == j) }).forwardAnti q (s.epDispenser cl)
          (.dispenser cl) (coreIn f.thief (c.toNat % 64))
      | none => s.pendAnti q c

/-- An anti-message at the management core: its twin waits there, has been sent on, or has not come yet. -/
def State.mgmtAnti (s : State) (q : QEntry) : State :=
  let j := q.t.job; let l := q.t.lslot; let t := q.t.ident
  let x := s.launch j l
  if !(s.job j).live l || (s.job j).cancels l q.t.vt then s
  else if x.waiting.any fun e => !e.t.anti && e.t.ident == t then
    (s.updLaunch j l fun x => { x with waiting := x.waiting.filter fun e => !(!e.t.anti && e.t.ident == t) }).retire j l q.t.vt
  else match x.released.find? (fun r => r.1 == t) with
  | some r =>
    (s.updLaunch j l fun x => { x with released := x.released.filter fun r => r.1 != t }).forwardAnti q s.epMgmt .mgmt r.2
  | none => s.updLaunch j l fun x => { x with waiting := insertQ x.waiting q }

/-- ANTI_MESSAGE_ARRIVAL. -/
def State.antiArrives (s : State) (n : Nat) : State :=
  match Tab.find s.msgs n with
  | none => s
  | some m =>
    match m.body with
    | .task q c =>
      let s := s.dropMsg n
      if m.dst.ep = 67 then (s.updLeaf q.t.job .mgmt fun v => v.recv m.colour).mgmtAnti q
      else (s.updLeaf q.t.job (.dispenser (clusterOf c)) fun v => v.recv m.colour).takeAnti q c
    | _ => s

def execAntiMessageArrival (s : State) : Host.Outcome State Fault Refusal := .next (s.antiArrives s.arg.n)

/-! ## Refill (R81) -/

/-- Spilled entries return in event order, at most n of them; twins that meet are both removed. `i` have been read before; a read that faults ends
the refill. -/
def State.refill (s : State) (c : CoreId) (j : JobId) (n i : Nat) : State :=
  match n with
  | 0 => s
  | n + 1 =>
    let v := s.core c
    if 56 ≤ v.queue.length then s
    else match Tab.get [] v.spill j.toNat, s.spillEntryFault c j .r i with
    | [], _ => s
    | _, some cls => s.spillFailed c j cls
    | e :: rest, none =>
      let s := s.setCore c { v with spill := Tab.put v.spill j.toNat rest }
      let s := match s.entryIn (clusterOf c) e.t.ident (!e.t.anti) with
        | some (c', tw) =>
          let vt := if e.t.anti then tw.t.vt else e.t.vt
          (s.takeEntry c' e.t.ident (!e.t.anti)).retire j e.t.lslot vt
        | none => s.updCore c fun v => v.putQueue e
      s.refill c j n (i + 1)

/-- A refill is due. -/
def Core.refillDue (v : Core) (j : JobId) : Bool := decide (v.queue.length < 48) && (v.spmin j).isSome

/-- SPILL_REFILL; with `v` = 1 it takes the fault, of class `n`, that the spill write of a requeue met, and with `v` = 2 the full area that it met in
a stop. -/
def execSpillRefill (s : State) : Host.Outcome State Fault Refusal :=
  let c := s.arg.c; let j := s.arg.j
  .next (if s.arg.v = 1 then s.spillFailed c j s.arg.n
    else if s.arg.v = 2 then s.cancelStop j
    else if (s.core c).refillDue j then s.refill c j 4096 0
    else s)

/-! ## Donation (R88 to R91) -/

/-- What a cluster holds of its stealing for a launch. Before its first request the scan starts after the thief itself (R88; DESIGN CHOICE,
log 19). -/
def Cluster.steal (v : Cluster) (j : JobId) (l : Lslot) (self : ClusterId) : Steal :=
  (v.steals.find? fun x => x.job == j && x.lslot == l).getD { job := j, lslot := l, last := self.toNat }

def State.setSteal (s : State) (cl : ClusterId) (x : Steal) : State :=
  s.updCluster cl fun v => { v with steals := (v.steals.filter fun y => !(y.job == x.job && y.lslot == x.lslot)) ++ [x] }

/-- Conditions 1 and 2 of R83, for an entry that is not held. An opened phase stays open after it has completed, so that a task created later with a
time in it is dispensed (DESIGN CHOICE, log 19). -/
def State.ready12 (s : State) (j : JobId) (l : Lslot) (q : QEntry) : Bool :=
  !q.t.anti && q.t.job == j && q.t.lslot == l && q.hold == .none && (s.job j).phases.any fun p => p.has q.t.vt

/-- Conditions 3 and 4 of R83, at a dispenser. -/
def State.ready34 (s : State) (cl : ClusterId) (j : JobId) (l : Lslot) (q : QEntry) : Bool :=
  let x := s.launch j l
  !x.opt ||
    (decide (q.t.vt.toNat ≤ ((s.job j).leaf (.dispenser cl)).gvt.toNat + x.window.toNat) &&
      (decide ((s.cluster cl).level < 2) ||
        (s.coresOf cl).all fun c => (s.core c).queue.all fun e => e.t.job != j || decide (q.key ≤ e.key)))

/-! ## Pressure on a retention ring (R347) -/

/-- The task that waits for entries of a ring (R347): the lowest of those parked for them and of the first dispenses that lack six and nothing
else. -/
def State.ringWaiter (s : State) (c : CoreId) (j : JobId) (l : Lslot) : Option QEntry :=
  let v := s.core c
  let parked := v.strands.filterMap fun e =>
    match e.2.park with
    | .ring n => if e.2.st = .parked && e.2.res == some (j, l) && decide (s.ringFree c j l < n) then e.2.task else none
    | _ => none
  let first := if s.ringFree c j l < 6 && (v.strands.any fun e => e.2.res == some (j, l) && e.2.st == .idle && e.2.task.isNone) then
      v.queue.filter fun q => s.ready12 j l q && s.ready34 (clusterOf c) j l q && !q.block
    else []
  (parked ++ first).foldl (fun b q => match b with | some x => if q.key < x.key then some q else some x | none => some q) none

/-- The block that pressure rolls back (R347): of the highest later task that is not COMMITTING; none while one is ROLLING. -/
def State.pressed (s : State) (c : CoreId) (j : JobId) (l : Lslot) : Option Ident :=
  match s.ringWaiter c j l with
  | none => none
  | some w =>
    let bs := (s.core c).rings.filter fun b => b.job == j && b.lslot == l && decide (w.key < b.t.key) && b.ts != .committing
    if bs.any fun b => b.ts == .rolling then none
    else (bs.foldl (fun m b => match m with | some x => if x.t.key < b.t.key then some b else some x | none => some b) none).map
      fun (b : Block) => b.t.t.ident

/-- RING_PRESSURE_ROLLBACK. -/
def execRingPressureRollback (s : State) : Host.Outcome State Fault Refusal :=
  .next (match s.pressed s.arg.c s.arg.j s.arg.l with | some t => s.askRollback s.arg.c t true | none => s)

/-! ## Starving clusters (R88) -/

/-- Both conditions of R88 hold: an idle strand of the launch and no eligible entry of it in the cluster. -/
def State.starved (s : State) (cl : ClusterId) (j : JobId) (l : Lslot) : Bool :=
  ((s.coresOf cl).any fun c => (s.core c).strands.any fun e => e.2.res == some (j, l) && e.2.st == .idle && e.2.task.isNone) &&
    !((s.coresOf cl).any fun c => (s.core c).queue.any fun q => s.ready12 j l q && s.ready34 cl j l q)

/-- The victim after another: the next cluster of the mask in ascending order with wrap-around, never the thief. -/
def nextVictim (mask : BitVec 64) (self : ClusterId) (last : Nat) : Option Nat :=
  ((List.range 64).map fun i => (last + 1 + i) % 64).find? fun n => mask.getLsbD n && n != self.toNat

/-- STEAL_REQUEST: the conditions are noted when they begin, and a request leaves once they have held for 256 cycles. -/
def State.stealStep (s : State) (cl : ClusterId) (j : JobId) (l : Lslot) : State :=
  let x := (s.cluster cl).steal j l cl
  if !s.starved cl j l then s.setSteal cl { x with since := none }
  else match x.since with
  | none => (s.setSteal cl { x with since := some s.cycle }).push 512 .stealRequest { cl := cl, j := j, l := l }
  | some t =>
    if s.cycle < t + 256 then s
    else if x.outstanding || decide (1 ≤ (s.cluster cl).level) || decide (s.cycle < x.pausedTill) then
      s.push 64 .stealRequest { cl := cl, j := j, l := l }
    else match nextVictim (s.launch j l).cmask cl x.last with
    | none => s
    | some v =>
      (s.setSteal cl { x with outstanding := true, last := v, asked := x.asked + 1 }).sendNew
        { src := s.epDispenser cl, dst := s.epDispenser (BitVec.ofNat 6 v), kind := 0x09#6, job := j, body := .steal cl l }

def execStealRequest (s : State) : Host.Outcome State Fault Refusal := .next (s.stealStep s.arg.cl s.arg.j s.arg.l)

/-- The entries of a launch that a cluster counts for a thief: unpinned, lowest first (R89). -/
def State.shippable (s : State) (cl : ClusterId) (j : JobId) (l : Lslot) : List QEntry :=
  ((s.coresOf cl).flatMap fun c => (s.core c).queue.filter fun q => s.ready12 j l q && !q.pinned).mergeSort fun a b => a.key ≤ b.key

/-- The tasks shipped of those counted: the highest of those without a block (R347), half of all counted and at most 16, and of an optimistic
launch no more than forwarding entries are free (R89, R91). -/
def shipList (qs : List QEntry) (opt : Bool) (room : Nat) : List QEntry :=
  let n := min 16 (qs.length / 2)
  let n := if opt then min n room else n
  let free := qs.filter fun q => !q.block
  free.drop (free.length - n)

/-- A message of a steal reply of n tasks sent to the thief's dispenser; a shipped task takes KIND 0x14 (R17, R89). -/
def State.shipOne (s : State) (cl thief : ClusterId) (j : JobId) (l : Lslot) (n : Nat) (q : Option QEntry) : State :=
  let col := ((s.job j).leaf (.dispenser cl)).colour
  let s := match q with | some q => s.updLeaf j (.dispenser cl) fun v => v.send q.t.vt | none => s
  s.sendNew { src := s.epDispenser cl, dst := s.epDispenser thief, kind := 0x14#6, job := j, colour := col,
              body := .shipped (q.map fun q => { q with t := { q.t with colour := col, kind := 0x14#6 } }) n l }

/-- STEAL_REPLY: the victim ships the highest of its entries, at most half of them and at most 16: a message of its own for each, or one that
carries none. -/
def State.stealReply (s : State) (n : Nat) : State :=
  match Tab.find s.msgs n with
  | none => s
  | some m =>
    match m.body with
    | .steal thief l =>
      let s := s.dropMsg n
      let j := m.job
      let cl := m.dst.router
      let out := if 1 ≤ (s.cluster cl).level then []
        else shipList (s.shippable cl j l) (s.launch j l).opt (64 - (s.cluster cl).fwd.length)
      let s := (s.coresOf cl).foldl (fun s c => s.updCore c fun v => v.keepEntries fun q => q.t.anti || !(out.any fun o => o.t.ident == q.t.ident)) s
      let s := s.updCluster cl fun v =>
        { v with fwd := v.fwd ++ (out.filter fun q => q.t.opt).map fun q => { t := q.t.ident, thief := thief, job := j, lslot := l, vt := q.t.vt } }
      if out = [] then s.shipOne cl thief j l 0 none
      else out.foldl (fun s q => s.shipOne cl thief j l out.length (some q)) s
    | _ => s

def execStealReply (s : State) : Host.Outcome State Fault Refusal := .next (s.stealReply s.arg.n)

/-- The bound core of a cluster with the fewest entries, the lowest number on a tie (R90). -/
def State.shallowest (s : State) (cl : ClusterId) (x : Launch) : CoreId :=
  let cs := ((List.range 64).map (coreIn cl)).filter x.boundTo
  cs.foldl (fun b c => if (s.core c).queue.length < (s.core b).queue.length then c else b) (cs.headD (coreIn cl 0))

/-- The shipped task of a message entered, unpinned, at the core that R90 chooses; `none` where it can be neither queued nor spilled. -/
def State.takeShipped (s : State) (cl : ClusterId) (l : Lslot) (q : Option QEntry) : Option State :=
  match q with
  | none => some s
  | some q =>
    let c := s.shallowest cl (s.launch q.t.job l)
    match s.takePositive { q with pinned := false } c with
    | .ok s => some s
    | .full => none
    | .bad cls => some ((s.spillEnds c q.t.job cls).dropTask q.t)

/-- The thief has the whole reply to its request: it asks the next victim of its scan, or, after a scan that shipped nothing, pauses (R88). -/
def State.stealAnswered (s : State) (cl : ClusterId) (j : JobId) (l : Lslot) (x : Steal) : State :=
  let scan := (bitsOf (s.launch j l).cmask).length - 1
  let x := { x with outstanding := false, left := none }
  if x.asked < scan then (s.setSteal cl x).push 2 .stealRequest { cl := cl, j := j, l := l }
  else if x.shipped then (s.setSteal cl { x with asked := 0, shipped := false }).push 2 .stealRequest { cl := cl, j := j, l := l }
  else (s.setSteal cl { x with asked := 0, pausedTill := s.cycle + 4096 }).push 8192 .stealPauseExpiry { cl := cl, j := j, l := l }

/-- SHIPPED_TASKS_ARRIVAL: one message of the reply to a steal request, decided like any task message; the reply is whole with its last one. -/
def State.shippedArrive (s : State) (n : Nat) : State :=
  match Tab.find s.msgs n with
  | none => s
  | some m =>
    match m.body with
    | .shipped q total l =>
      let cl := m.dst.router
      let j := m.job
      match s.takeShipped cl l q with
      | none => s.refuse n
      | some s =>
        let s := if q.isSome then (s.updLeaf j (.dispenser cl) fun v => v.recv m.colour).acceptMsg n m else s.dropMsg n
        let x := (s.cluster cl).steal j l cl
        let left := x.left.getD total - 1
        let x := { x with left := some left, shipped := x.shipped || q.isSome }
        if left = 0 then s.stealAnswered cl j l x else s.setSteal cl x
    | _ => s

def execShippedTasksArrival (s : State) : Host.Outcome State Fault Refusal := .next (s.shippedArrive s.arg.n)

/-- STEAL_PAUSE_EXPIRY: the thief may ask again. -/
def execStealPauseExpiry (s : State) : Host.Outcome State Fault Refusal := .next (s.stealStep s.arg.cl s.arg.j s.arg.l)

end Sys2Proof.Machine
end

