-- ==== Sys2Proof/Machine/Lanes.lean ====
section
/-! DEFINITION. The lane unit: streams, issue, steps, stopping and completion (spec/11_isa_vector.md R234 to R247, R256 to R260;
spec/07_issue.md R138; notes/assumptions 16). -/

namespace Sys2Proof.Machine

/-! ## Streams (R234, R236) -/

def ptrOff (p : Word) : Nat := (p.extractLsb' 0 20).toNat
def ptrLen (p : Word) : Nat := (p.extractLsb' 20 12).toNat
def ptrStr (p : Word) : Int := (p.extractLsb' 32 20).toInt

/-- addr(a, i), and whether a T4 element is the high nibble of its byte. -/
def laneAddr (p : Word) (w i : Nat) : Nat × Bool :=
  let row := if ptrLen p = 0 then 0 else i / ptrLen p
  let col := if ptrLen p = 0 then i else i % ptrLen p
  let bitpos : Int := 8 * ((ptrOff p : Int) + row * ptrStr p) + col * w
  ((bitpos / 8 % 2 ^ 20).toNat, bitpos % 8 != 0)

/-- The byte of element i of a bit stream. -/
def bitAddr (p : Word) (i : Nat) : Nat := (ptrOff p + i / 8) % 2 ^ 20

/-- The role of a pointer (R238, R261): an element stream of a width, a bit stream, a 4-byte result, a packed stream, a base, the
hyperparameter block. -/
inductive LaneRole where
  | elem (w : Nat) | bits | result | packed (w : Nat) | base (w : Nat) | hyper
deriving DecidableEq, Repr

/-- The sources of an operation in the order PA, PB, PC (R261). -/
def LaneOp.srcs (o : LaneOp) : List (BitVec 4 × LaneRole) :=
  let w := fmtBits o.ty
  match o.kind with
  | .bin _ | .dot | .cmp _ => [(o.a, .elem w), (o.b, .elem w)]
  | .perm => [(o.a, .elem w), (o.b, .elem 32)]
  | .gath => [(o.a, .base w), (o.b, .elem 32)]
  | .scat => [(o.a, .elem w), (o.b, .elem 32)]
  | .compr => [(o.a, .elem w), (o.b, .bits)]
  | .expn => [(o.a, .packed w), (o.b, .bits)]
  | .un _ | .redsum | .redmax | .redmin | .scan | .norm => [(o.a, .elem w)]
  | .cvt => [(o.a, .elem (fmtBits o.sty))]
  | .fma _ => [(o.a, .elem w), (o.b, .elem w), (o.c, .elem w)]
  | .sel => [(o.a, .elem w), (o.b, .elem w), (o.c, .bits)]
  | .adam => [(o.a, .elem 32), (o.b, .elem 32), (o.c, .elem 32), (o.c + 1, .hyper)]
  | .iota | .bcast => []

/-- The sources that a step reads at the positions of its own elements: of VPERM the index stream alone, which selects the others (R257). -/
def LaneOp.inPlace (o : LaneOp) : List (BitVec 4 × LaneRole) := if o.kind = .perm then [(o.b, .elem 32)] else o.srcs

/-- The role of the destination. -/
def LaneOp.dst (o : LaneOp) : LaneRole :=
  let w := fmtBits o.ty
  match o.kind with
  | .dot | .redsum | .redmax | .redmin | .norm => .result
  | .scan => .elem 32
  | .scat => .base w
  | .compr => .packed w
  | .cmp _ => .bits
  | _ => .elem w

/-- A reduction. -/
def LaneOp.reduces (o : LaneOp) : Bool := o.dst == .result

/-- The alignment of a pointer in a role (R237, R260). -/
def LaneRole.aligned (r : LaneRole) (p : Word) : Bool :=
  match r with
  | .elem w | .packed w => if w = 4 then ptrLen p % 2 == 0 else decide (ptrOff p % (w / 8) = 0) && decide (ptrStr p % (w / 8 : Nat) = 0)
  | .bits => true
  | .result => ptrOff p % 4 == 0
  | .base w => ptrOff p % (w / 8) == 0
  | .hyper => ptrOff p % 32 == 0

/-- The elements of a step (R241). -/
def LaneOp.per (o : LaneOp) : Nat :=
  let w := fun (r : LaneRole) => match r with | .elem w | .packed w | .base w => w | _ => 0
  1024 / ((o.srcs.map fun x => w x.2) ++ [w o.dst]).foldl max 4

/-- The step minimum in core cycles (R242). -/
def LaneOp.least (o : LaneOp) : Nat :=
  match o.kind with
  | .bin 3 | .un 2 | .un 3 | .un 4 | .un 5 | .un 6 | .un 7 | .un 8 | .adam => 4
  | .gath | .scat | .perm => 2
  | _ => 1

/-- A pointer advanced in a role (R238): n elements of the instruction, j of a packed stream. -/
def LaneRole.advance (r : LaneRole) (p : Word) (n j : Nat) : Word :=
  let put := fun (o : Nat) => (p.extractLsb' 20 44) ++ BitVec.ofNat 20 o
  match r with
  | .elem w => put (laneAddr p w n).1
  | .packed w => put (laneAddr p w j).1
  | .bits => put (ptrOff p + (n + 7) / 8)
  | .result => put (ptrOff p + 4)
  | .base _ | .hyper => p

/-- The pointers of an operation after it has completed (R238). -/
def LaneOp.final (o : LaneOp) (ps : List Word) (n j : Nat) : List Word :=
  (List.range 16).map fun i =>
    let p := ps[i]?.getD 0
    if o.d.toNat = i ∧ !o.kd then o.dst.advance p n j
    else if o.ks then p
    else match o.srcs.find? (fun x => x.1.toNat = i) with
      | some x => x.2.advance p n j
      | none => p

/-! ## Access to local memory -/

/-- An element read from a core's local memory. -/
def State.readEl (s : State) (c : CoreId) (w : Nat) (a : Nat × Bool) : Nat :=
  let v := leNat (s.localRead c a.1 (max (w / 8) 1))
  if w = 4 then (if a.2 then v / 16 else v % 16) else v

/-- A bit of a bit stream. -/
def State.readBit (s : State) (c : CoreId) (p : Word) (i : Nat) : Bool :=
  (leNat (s.localRead c (bitAddr p i) 1)).testBit (i % 8)

/-- Bytes to be written: offset, bits of the byte, value. -/
abbrev LaneW := List (Nat × Byte × Byte)

/-- The write of an element. -/
def putEl (w : Nat) (a : Nat × Bool) (v : Nat) : LaneW :=
  if w = 4 then [(a.1, if a.2 then 0xF0#8 else 0x0F#8, BitVec.ofNat 8 (if a.2 then v * 16 else v))]
  else (toBytes (w / 8) v).zipIdx.map fun (b, k) => (a.1 + k, 0xFF#8, b)

/-- The write of a bit. -/
def putBit (p : Word) (i : Nat) (v : Bool) : LaneW :=
  [(bitAddr p i, BitVec.ofNat 8 (2 ^ (i % 8)), if v then 0xFF#8 else 0#8)]

/-- The writes of a step made in order (R241, R245): words written whole lose their poison. -/
def State.laneWrite (s : State) (c : CoreId) (ws : LaneW) : State :=
  let s' := ws.foldl (fun s (o, m, b) =>
    let old := if m = 0xFF#8 then 0 else (s.localRead c o 1).headD 0
    s.localWrite c o [(old &&& ~~~m) ||| (b &&& m)]) s
  if s'.poisons = [] then s' else
  let base := localBase c
  let whole := fun (wd : Nat) => (List.range 8).all fun k =>
    decide ((ws.filter fun x => base + x.1 = 8 * wd + k).foldl (fun m x => m ||| x.2.1) 0#8 = 0xFF#8)
  s'.setPoison ((s'.poisons.filter fun wd => decide (8 * wd + 8 > base) && decide (8 * wd < base + 0x100000)).filter whole) false

/-- The address of a local offset as a fault names it (R237). -/
def laneFault (cls off : Nat) : Fault' := { cls := cls, addr := BitVec.ofNat 64 (0x7FFFFFF00000 + off) }

/-- The checks of a step on the addresses of the bytes it reads and writes (R245). -/
def State.laneAddrs (s : State) (c : CoreId) (k : StrandId) (rd wr : List (Nat × Nat)) : Option Fault' :=
  let t := s.strand c k
  match (rd ++ wr).find? (fun x => decide (x.1 + x.2 > 0xC0000)) with
  | some x => some (laneFault clsTranslation x.1)
  | none =>
    match (rd ++ wr).find? (fun x => (s.localCheck c t.job x.1 x.2).isSome) with
    | some x => some (laneFault clsPermission x.1)
    | none =>
      (wr.find? fun x => t.opt && !(decide (2048 * (t.base + t.ntile) ≤ x.1) && decide (x.1 + x.2 ≤ 2048 * (t.base + t.ntile + t.nscr)))).map
        fun x => laneFault clsIrrevocable x.1

/-- The fault of a poisoned source (R245). -/
def State.laneData (s : State) (c : CoreId) (rd : List (Nat × Nat)) : Option Fault' :=
  if s.poisons = [] then none else (rd.find? fun x => s.localBad c x.1 x.2).map fun x => laneFault clsData x.1

/-- The addresses of a step, then what it reads (R245). -/
def State.laneCheck (s : State) (c : CoreId) (k : StrandId) (rd wr : List (Nat × Nat)) : Option Fault' :=
  s.laneAddrs c k rd wr <|> s.laneData c rd

/-- The bytes of an element. -/
def elBytes (w : Nat) (a : Nat × Bool) : Nat × Nat := (a.1, max (w / 8) 1)

/-- A set of bytes as a number. -/
def byteSet (l : List (Nat × Nat)) : Nat := l.foldl (fun m x => m ||| ((2 ^ x.2 - 1) <<< x.1)) 0

/-- The bytes of a whole stream. -/
def streamBytes (p : Word) (r : LaneRole) (n : Nat) : List (Nat × Nat) :=
  match r with
  | .elem w => (List.range n).map fun i => elBytes w (laneAddr p w i)
  | .packed w => (List.range n).map fun i => elBytes w (laneAddr p w i)
  | .bits => (List.range ((n + 7) / 8)).map fun i => ((ptrOff p + i) % 2 ^ 20, 1)
  | .result => [(ptrOff p, 4)]
  | .base _ | .hyper => []

/-- The address of the element that an index selects from a base (R257). -/
def baseAddr (p : Word) (w x : Nat) : Nat × Bool := ((ptrOff p + x * w / 8) % 2 ^ 20, false)

/-- A pointer of an instruction at its issue. -/
def LaneRun.ptr (r : LaneRun) (n : BitVec 4) : Word := r.a0[n.toNat]?.getD 0

/-- The selected bits of a packing instruction among its first n elements: its packed position there (R244, R256). -/
def State.laneCount (s : State) (c : CoreId) (r : LaneRun) (n : Nat) : Nat :=
  if r.op.kind = .compr ∨ r.op.kind = .expn then
    ((List.range (min n r.vl)).filter fun i => r.mask.getLsbD (i % 128) && s.readBit c (r.ptr r.op.b) i).length
  else 0

/-- Whether what the instruction writes is undefined: an overlap that R257 or R258 names. -/
def State.laneUndef (s : State) (c : CoreId) (o : LaneOp) (p : BitVec 4 → Word) (mask : BitVec 128) (vl : Nat) : Bool :=
  let w := fmtBits o.ty
  let d := streamBytes (p o.d) o.dst vl
  let ix := (List.range vl).map fun i => (i, s.readEl c 32 (laneAddr (p o.b) 32 i))
  match o.kind with
  | .gath => (byteSet d &&& byteSet (ix.map fun x => elBytes w (baseAddr (p o.a) w x.2))) != 0
  | .perm => (byteSet d &&& byteSet ((ix.filter fun x => x.2 < vl).map fun x => elBytes w (laneAddr (p o.a) w x.2))) != 0
  | .scat =>
    let tg := (ix.filter fun x => mask.getLsbD (x.1 % 128)).map fun x => elBytes w (baseAddr (p o.d) w x.2)
    (byteSet tg &&& byteSet (streamBytes (p o.a) (.elem w) vl ++ streamBytes (p o.b) (.elem 32) vl)) != 0
  | _ => o.reduces && (byteSet d &&& byteSet (o.srcs.flatMap fun x => streamBytes (p x.1) x.2 vl)) != 0

/-! ## Issue (R237, R239, R242, R244) -/

/-- Pointers and the mask that a lane instruction reads, and the pointer it writes. -/
def LaneOp.uses (o : LaneOp) (x : List (XReg × Bool)) : Uses :=
  { names := x.map (·.1), srcs := x.map (fun r => sx r.1 r.2) ++ (o.srcs.map fun r => s0 (.a r.1)) ++ [s0 (.m o.m)], dregs := [.a o.d] }

/-- A lane instruction issues: it holds its strand and the lane unit. VL and PIX are read now, and so are the pointers, the mask, RM
and, for VADAM, the hyperparameters. -/
def laneBody (len : Nat) (o : LaneOp) (sc : XReg) : Body' := fun c k s =>
  let t := s.strand c k
  let p := fun (r : BitVec 4) => t.ra r
  let vl := t.vl.toNat
  if (s.core c).lane.isSome || s.blockMove c k || s.blockInto c k 0 0x100000 then .forfeit
  else if vl = 0 then .done s
  else match (o.srcs ++ [(o.d, o.dst)]).find? (fun x => !x.2.aligned (p x.1)) with
  | some x => .fault (laneFault clsAlign (ptrOff (p x.1)))
  | none =>
    let h := ptrOff (p (o.c + 1))
    match (if o.kind = .adam then s.laneCheck c k [(h, 32)] [] else none) with
    | some f => .fault f
    | none =>
      let run : LaneRun :=
        { strand := k, op := o, len := len, a0 := (List.range 16).map fun i => p (BitVec.ofNat 4 i), mask := t.rm' o.m, vl := vl,
          mode := if o.rnd = 0 then t.mode else o.rnd.toNat - 4, sat := t.sat, sc := t.rx sc,
          hyp := if o.kind = .adam then (List.range 7).map fun i => leNat (s.localRead c (h + 4 * i) 4) else [],
          undef := s.laneUndef c o p (t.rm' o.m) vl }
      -- a packed pointer's final value too is known at issue, by the bits that select (R130, R238; DEDUCED, log 16)
      let fin := o.final run.a0 vl (s.laneCount c run vl)
      let s := s.updStrand c k fun t =>
        { t with a := (List.range 16).foldl (fun a i => if fin[i]?.getD 0 = run.a0[i]?.getD 0 then a else Tab.put a i (fin[i]?.getD 0)) t.a, held := .lane }
      .issued ((s.updCore c fun v => { v with lane := some run }).push 4 .laneStep { c := c })

/-- A lane instruction of a length. -/
def opLaneX (len : Nat) (o : LaneOp) (x : List (XReg × Bool)) (s : State) : Host.Outcome State Fault Refusal :=
  issue len (o.uses x) (laneBody len o ((x.map (·.1)).headD 0)) s

def opLane (o : LaneOp) (s : State) : Host.Outcome State Fault Refusal := opLaneX 4 o [] s

/-! ## Stopping (R244) -/

/-- The running value stored to the result element; undefined where it overlaps a source (R258). -/
def State.laneResult (s : State) (c : CoreId) (r : LaneRun) (v : Nat) : State :=
  let off := ptrOff (r.ptr r.op.d)
  s.laneWrite c ((toBytes 4 v).zipIdx.map fun (b, i) => (off + i, 0xFF#8, if r.undef then s.freeByte (off + i) else b))

/-- The instruction stops at a step boundary: pointers as at issue, the running value in the result element, PIX as it stands; the
lane unit is free. -/
def State.laneStop (s : State) (c : CoreId) (r : LaneRun) : State :=
  let s := if r.op.reduces && !r.fresh then s.laneResult c r r.r else s
  (s.updStrand c r.strand fun t =>
    { t with held := .none, a := (List.range 16).foldl (fun a i => if Tab.get 0 a i = r.a0[i]?.getD 0 then a else Tab.put a i (r.a0[i]?.getD 0)) t.a }).updCore c
    fun v => { v with lane := none }

/-! ## Steps (R240, R241, R245, R251 to R260) -/

/-- What the elements of a step write and the flags they set; the packed position and the running value after it. -/
structure LaneEff where
  ws : LaneW := []
  fl : BitVec 5 := 0
  j : Nat := 0
  r : Nat := 0

/-- The bytes of some elements of a stream. -/
def LaneRole.bytes (role : LaneRole) (p : Word) (is : List Nat) : List (Nat × Nat) :=
  match role with
  | .elem w => is.map fun i => elBytes w (laneAddr p w i)
  | .bits => is.map fun i => (bitAddr p i, 1)
  | .result => [(ptrOff p, 4)]
  | _ => []

/-- The bytes that a step reads first, stream by stream, and the bytes it writes at addresses known without reading (R245). -/
def LaneRun.span (r : LaneRun) (idx : List Nat) : List (List (Nat × Nat)) × List (Nat × Nat) :=
  let o := r.op
  let sel := idx.filter fun i => r.mask.getLsbD (i % 128)
  let rd := o.inPlace.map fun x => x.2.bytes (r.ptr x.1) idx
  let wr := o.dst.bytes (r.ptr o.d) (if o.kind = .scan then idx else if o.kind = .expn then [] else sel)
  if o.kind = .adam then
    (rd ++ [o.dst.bytes (r.ptr o.d) idx], wr ++ (LaneRole.elem 32).bytes (r.ptr o.b) sel ++ (LaneRole.elem 32).bytes (r.ptr o.c) sel)
  else (rd, wr)

/-- What the first step of a resumed instruction reads besides, to go on from PIX (R244, R258, R259): the running value, or the bits of the
elements before. -/
def LaneRun.back (r : LaneRun) (pix : Nat) (idx : List Nat) : List (Nat × Nat) :=
  if !r.fresh || pix = 0 then []
  else match r.op.kind with
    | .scan => if idx = [] then [] else [elBytes 32 (laneAddr (r.ptr r.op.d) 32 (pix - 1))]
    | .compr | .expn => LaneRole.bits.bytes (r.ptr r.op.b) (List.range (min pix r.vl))
    | _ => if r.op.reduces then [(ptrOff (r.ptr r.op.d), 4)] else []

/-- The bytes of a step whose addresses are known before it reads: those it reads and those it writes. -/
def LaneRun.near (r : LaneRun) (pix : Nat) (idx : List Nat) : List (Nat × Nat) × List (Nat × Nat) :=
  (r.back pix idx ++ (r.span idx).1.flatten, (r.span idx).2)

/-- Those of them on which the other addresses of the step depend: the indices, or the bits that select. -/
def LaneRun.keys (r : LaneRun) (pix : Nat) (idx : List Nat) : List (Nat × Nat) :=
  match r.op.kind with
  | .gath | .perm | .scat => (LaneRole.elem 32).bytes (r.ptr r.op.b) idx
  | .compr | .expn => r.back pix idx ++ LaneRole.bits.bytes (r.ptr r.op.b) idx
  | _ => []

/-- The bytes that a step reads or writes at addresses that depend on what it has read: of gathers, permutations, scatters and packed
streams (R256, R257). -/
def State.laneFar (s : State) (c : CoreId) (r : LaneRun) (idx : List Nat) : List (Nat × Nat) × List (Nat × Nat) :=
  let o := r.op; let w := fmtBits o.ty
  let on := fun (i : Nat) => r.mask.getLsbD (i % 128)
  let ix := fun (i : Nat) => s.readEl c 32 (laneAddr (r.ptr o.b) 32 i)
  let sel := idx.filter fun i => on i && s.readBit c (r.ptr o.b) i
  match o.kind with
  | .gath => (idx.map fun i => elBytes w (baseAddr (r.ptr o.a) w (ix i)), [])
  | .perm => ((idx.filter fun i => ix i < r.vl).map fun i => elBytes w (laneAddr (r.ptr o.a) w (ix i)), [])
  | .scat => ([], (idx.filter on).map fun i => elBytes w (baseAddr (r.ptr o.d) w (ix i)))
  | .compr => ([], (List.range sel.length).map fun n => elBytes w (laneAddr (r.ptr o.d) w (r.j + n)))
  | .expn => ((List.range sel.length).map fun n => elBytes w (laneAddr (r.ptr o.a) w (r.j + n)), sel.map fun i => elBytes w (laneAddr (r.ptr o.d) w i))
  | _ => ([], [])

/-- Elements written one for one by a function of the element number. -/
def laneEach (w : Nat) (d : Word) (idx : List Nat) (f : Nat → Lv) : LaneEff :=
  idx.foldl (fun e i => let v := f i; { e with ws := e.ws ++ putEl w (laneAddr d w i) v.1, fl := e.fl ||| v.2 }) {}

/-- The effect of a step on the elements idx (R251 to R260). -/
def State.laneEffect (s : State) (c : CoreId) (r : LaneRun) (idx : List Nat) : LaneEff :=
  let o := r.op; let ty := o.ty; let w := fmtBits ty
  let on := fun (i : Nat) => r.mask.getLsbD (i % 128)
  let sel := idx.filter on
  let rd := fun (p : BitVec 4) (i : Nat) => s.readEl c w (laneAddr (r.ptr p) w i)
  let rd32 := fun (p : BitVec 4) (i : Nat) => s.readEl c 32 (laneAddr (r.ptr p) 32 i)
  let d := r.ptr o.d
  let keep := fun (e : LaneEff) => { e with j := r.j, r := r.r }
  match o.kind with
  | .bin n => keep (laneEach w d sel fun i => laneBin n ty r.mode r.sat (rd o.a i) (rd o.b i))
  | .un n => keep (laneEach w d sel fun i => laneUn n ty r.mode r.sat (rd o.a i))
  | .fma neg => keep (laneEach w d sel fun i => laneFma neg ty r.mode r.sat (rd o.a i) (rd o.b i) (rd o.c i))
  | .iota => keep (laneEach w d sel fun i => laneIota ty r.mode r.sat i)
  | .bcast => keep (laneEach w d sel fun _ => (r.sc.toNat % 2 ^ w, 0))
  | .cvt =>
    let sw := fmtBits o.sty
    keep (laneEach w d sel fun i => laneCvt ty o.sty r.mode r.sat (s.readEl c sw (laneAddr (r.ptr o.a) sw i)))
  | .sel => keep (laneEach w d sel fun i => (if s.readBit c (r.ptr o.c) i then rd o.a i else rd o.b i, 0))
  | .gath => keep (laneEach w d sel fun i => (s.readEl c w (baseAddr (r.ptr o.a) w (rd32 o.b i)), 0))
  | .perm => keep (laneEach w d sel fun i => let x := rd32 o.b i; (if x < r.vl then rd o.a x else 0, 0))
  | .scat => keep { ws := sel.flatMap fun i => putEl w (baseAddr d w (rd32 o.b i)) (rd o.a i) }
  | .cmp cc =>
    keep (sel.foldl (fun e i => let v := laneCmp cc ty (rd o.a i) (rd o.b i)
                                { e with ws := e.ws ++ putBit d i v.1, fl := e.fl ||| v.2 }) {})
  | .compr =>
    let x := sel.filter fun i => s.readBit c (r.ptr o.b) i
    { ws := x.zipIdx.flatMap fun (i, n) => putEl w (laneAddr d w (r.j + n)) (rd o.a i), j := r.j + x.length, r := r.r }
  | .expn =>
    let x := sel.filter fun i => s.readBit c (r.ptr o.b) i
    { ws := x.zipIdx.flatMap fun (i, n) => putEl w (laneAddr d w i) (rd o.a (r.j + n)), j := r.j + x.length, r := r.r }
  | .scan =>
    idx.foldl (fun e i => let v := laneScan ty r.mode e.r (if on i then some (rd o.a i) else none)
                          { e with ws := e.ws ++ putEl 32 (laneAddr d 32 i) v.1, fl := e.fl ||| v.2, r := v.1 }) { r := r.r, j := r.j }
  | .adam =>
    keep (sel.foldl (fun e i =>
      let x := laneAdam r.hyp (rd32 o.d i) (rd32 o.a i) (rd32 o.b i) (rd32 o.c i)
      { e with ws := e.ws ++ putEl 32 (laneAddr (r.ptr o.b) 32 i) x.2.1 ++ putEl 32 (laneAddr (r.ptr o.c) 32 i) x.2.2.1 ++
                 putEl 32 (laneAddr d 32 i) x.1, fl := e.fl ||| x.2.2.2 }) {})
  | k =>
    let v := laneReduce k ty r.mode r.r (sel.map fun i => (rd o.a i, if k = .dot then rd o.b i else 0))
    { fl := v.2, j := r.j, r := v.1 }

/-- Lines per bank of a step (R138, R241): the greatest count over the three banks. -/
def bankCount (streams : List (List (Nat × Nat))) (singles : List (Nat × Nat)) : Nat :=
  let lines := fun (l : List (Nat × Nat)) => (l.flatMap fun x => [x.1 / 128, (x.1 + x.2 - 1) / 128]).dedup
  let all := streams.flatMap lines ++ singles.flatMap fun x => lines [x]
  (List.range 3).foldl (fun m b => max m (all.filter fun n => n % 3 = b).length) 0

/-- The groups of a step: the bytes of its elements in each stream, masked out or not, each stream once; of a packed stream, those of the elements
that it moves (R138, R241; DEDUCED, log 16). -/
def LaneRun.groups (r : LaneRun) (idx : List Nat) (moved : Nat) : List (List (Nat × Nat)) :=
  (r.op.inPlace ++ [(r.op.d, r.op.dst)]).map fun x =>
    match x.2 with
    | .packed w => (LaneRole.elem w).bytes (r.ptr x.1) ((List.range moved).map (r.j + ·))
    | .elem _ | .bits => x.2.bytes (r.ptr x.1) idx
    | _ => []

/-- The core cycles of a step: the greater of its minimum and its bank count, in which the elements that indices select count one by one (R241,
R242). -/
def LaneRun.cycles (r : LaneRun) (idx : List Nat) (far : List (Nat × Nat)) (moved : Nat) : Nat :=
  let singles := match r.op.kind with | .gath | .perm | .scat => far | _ => []
  max r.op.least (bankCount (r.groups idx moved) singles)

/-- What the first step after issue reads to go on from PIX (R244): the running value, or the packed position. -/
def State.laneBegin (s : State) (c : CoreId) (r : LaneRun) (pix : Nat) : LaneRun :=
  let o := r.op
  if pix = 0 then { r with r := laneIdentity o.kind o.ty }
  else match o.kind with
    | .scan => { r with r := s.readEl c 32 (laneAddr (r.ptr o.d) 32 (pix - 1)) }
    | .compr | .expn => { r with j := s.laneCount c r pix }
    | _ => if o.reduces then { r with r := leNat (s.localRead c (ptrOff (r.ptr o.d)) 4) } else r

/-- LANE_STEP (R241 to R247): one step at the strand's PIX, or a stop at the boundary before it. The addresses that depend on what the step reads
are checked once that has been read (DEDUCED, log 16). -/
def State.laneStep (s : State) (c : CoreId) : State :=
  match (s.core c).lane with
  | none => s
  | some r0 =>
    if s.stopAsked c r0.strand then s.laneStop c r0 else
    let k := r0.strand
    let o := r0.op
    let pix := (s.strand c k).pix.toNat
    let idx := (List.range (min o.per (r0.vl - pix))).map (pix + ·)
    let near := r0.near pix idx
    match s.laneAddrs c k near.1 near.2 <|> s.laneData c (r0.keys pix idx) with
    | some f => (s.laneStop c r0).raise c k f
    | none =>
      let r := if r0.fresh then s.laneBegin c r0 pix else r0
      let far := s.laneFar c r idx
      match s.laneAddrs c k far.1 far.2 <|> s.laneData c (near.1 ++ far.1) with
      | some f => (s.laneStop c r0).raise c k f
      | none =>
        let e := s.laneEffect c r idx
        let ws := if r.undef then e.ws.map fun (a, m, _) => (a, m, s.freeByte a) else e.ws
        let s' := (s.laneWrite c ws).orFlags c k e.fl
        let next := pix + idx.length
        let r' := { r with j := e.j, r := e.r, fresh := false }
        let s' := (s'.updCore c fun v => { v with lane := some r' }).updStrand c k fun t =>
          if idx = [] then t else { t with pix := BitVec.ofNat 64 next }
        let cyc := r.cycles idx (far.1 ++ far.2) (e.j - r.j)
        if next < r.vl then s'.push (2 * cyc) .laneStep { c := c } else s'.push (if idx = [] then 0 else 2 * cyc + 2) .laneInstructionComplete { c := c }

/-- LANE_STEP. -/
def execLaneStep (s : State) : Host.Outcome State Fault Refusal := .next (s.laneStep s.arg.c)

/-- LANE_INSTRUCTION_COMPLETE (R238, R242, R244): the result is written, packed pointers advance, PIX is 0 and the strand goes on. -/
def State.laneComplete (s : State) (c : CoreId) : State :=
  match (s.core c).lane with
  | none => s
  | some r =>
    let k := r.strand
    let o := r.op
    let (v, fl) := if o.kind = .norm then roundIeee 8 23 r.mode (exSqrt (decodeFmt 8 r.r)) else (r.r, 0)
    let s := if o.reduces then (s.laneResult c r v).orFlags c k fl else s
    let fin := o.final r.a0 r.vl r.j
    (s.updCore c fun v => { v with lane := none }).updStrand c k fun t =>
      { (t.advance r.len) with
        held := .none, pix := 0,
        a := (List.range 16).foldl (fun a i => if Tab.get 0 a i = fin[i]?.getD 0 then a else Tab.put a i (fin[i]?.getD 0)) t.a }

def execLaneInstructionComplete (s : State) : Host.Outcome State Fault Refusal := .next (s.laneComplete s.arg.c)

/-! ## The instructions -/

/-- A lane operation with one destination and up to two sources. -/
def laneOp3 (k : LaneKind) (ks kd : Bool) (m : BitVec 3) (y b a d : BitVec 4) : LaneOp :=
  { kind := k, ty := y.toNat, sty := y.toNat, d := d, a := a, b := b, m := m, ks := ks, kd := kd }

/-- The type of a compact code (R40). -/
def compactType (y : BitVec 3) : BitVec 4 :=
  match y.toNat with | 0 => 8 | 1 => 7 | 2 => 6 | 3 => 3 | 4 => 2 | 5 => 1 | _ => 5

/-- VADD (R251). -/
def execVadd (ks kd : Bool) (m : BitVec 3) (y b a d : BitVec 4) (s : State) : Host.Outcome State Fault Refusal := opLane (laneOp3 (.bin 0) ks kd m y b a d) s

/-- VSUB (R251). -/
def execVsub (ks kd : Bool) (m : BitVec 3) (y b a d : BitVec 4) (s : State) : Host.Outcome State Fault Refusal := opLane (laneOp3 (.bin 1) ks kd m y b a d) s

/-- VMUL (R251). -/
def execVmul (ks kd : Bool) (m : BitVec 3) (y b a d : BitVec 4) (s : State) : Host.Outcome State Fault Refusal := opLane (laneOp3 (.bin 2) ks kd m y b a d) s

/-- VDIV (R251). -/
def execVdiv (ks kd : Bool) (m : BitVec 3) (y b a d : BitVec 4) (s : State) : Host.Outcome State Fault Refusal := opLane (laneOp3 (.bin 3) ks kd m y b a d) s

/-- VMIN (R251). -/
def execVmin (ks kd : Bool) (m : BitVec 3) (y b a d : BitVec 4) (s : State) : Host.Outcome State Fault Refusal := opLane (laneOp3 (.bin 4) ks kd m y b a d) s

/-- VMAX (R251). -/
def execVmax (ks kd : Bool) (m : BitVec 3) (y b a d : BitVec 4) (s : State) : Host.Outcome State Fault Refusal := opLane (laneOp3 (.bin 5) ks kd m y b a d) s

/-- VAND (R251). -/
def execVand (ks kd : Bool) (m : BitVec 3) (y b a d : BitVec 4) (s : State) : Host.Outcome State Fault Refusal := opLane (laneOp3 (.bin 6) ks kd m y b a d) s

/-- VOR (R251). -/
def execVor (ks kd : Bool) (m : BitVec 3) (y b a d : BitVec 4) (s : State) : Host.Outcome State Fault Refusal := opLane (laneOp3 (.bin 7) ks kd m y b a d) s

/-- VXOR (R251). -/
def execVxor (ks kd : Bool) (m : BitVec 3) (y b a d : BitVec 4) (s : State) : Host.Outcome State Fault Refusal := opLane (laneOp3 (.bin 8) ks kd m y b a d) s

/-- VSHL (R251). -/
def execVshl (ks kd : Bool) (m : BitVec 3) (y b a d : BitVec 4) (s : State) : Host.Outcome State Fault Refusal := opLane (laneOp3 (.bin 9) ks kd m y b a d) s

/-- VSHR (R251). -/
def execVshr (ks kd : Bool) (m : BitVec 3) (y b a d : BitVec 4) (s : State) : Host.Outcome State Fault Refusal := opLane (laneOp3 (.bin 10) ks kd m y b a d) s

/-- VDOT (R258). -/
def execVdot (ks kd : Bool) (m : BitVec 3) (y b a d : BitVec 4) (s : State) : Host.Outcome State Fault Refusal := opLane (laneOp3 .dot ks kd m y b a d) s

/-- VPERM (R257). -/
def execVperm (ks kd : Bool) (m : BitVec 3) (y b a d : BitVec 4) (s : State) : Host.Outcome State Fault Refusal := opLane (laneOp3 .perm ks kd m y b a d) s

/-- VGATH (R257). -/
def execVgath (ks kd : Bool) (m : BitVec 3) (y b a d : BitVec 4) (s : State) : Host.Outcome State Fault Refusal := opLane (laneOp3 .gath ks kd m y b a d) s

/-- VSCAT (R257). -/
def execVscat (ks kd : Bool) (m : BitVec 3) (y b a d : BitVec 4) (s : State) : Host.Outcome State Fault Refusal := opLane (laneOp3 .scat ks kd m y b a d) s

/-- VCOMPR (R256). -/
def execVcompr (ks kd : Bool) (m : BitVec 3) (y b a d : BitVec 4) (s : State) : Host.Outcome State Fault Refusal := opLane (laneOp3 .compr ks kd m y b a d) s

/-- VEXPN (R256). -/
def execVexpn (ks kd : Bool) (m : BitVec 3) (y b a d : BitVec 4) (s : State) : Host.Outcome State Fault Refusal := opLane (laneOp3 .expn ks kd m y b a d) s

/-- VABS (R251). -/
def execVabs (ks kd : Bool) (m : BitVec 3) (y a d : BitVec 4) (s : State) : Host.Outcome State Fault Refusal := opLane (laneOp3 (.un 0) ks kd m y 0 a d) s

/-- VNEG (R251). -/
def execVneg (ks kd : Bool) (m : BitVec 3) (y a d : BitVec 4) (s : State) : Host.Outcome State Fault Refusal := opLane (laneOp3 (.un 1) ks kd m y 0 a d) s

/-- VSQRT (R252). -/
def execVsqrt (ks kd : Bool) (m : BitVec 3) (y a d : BitVec 4) (s : State) : Host.Outcome State Fault Refusal := opLane (laneOp3 (.un 2) ks kd m y 0 a d) s

/-- VRCP (R252). -/
def execVrcp (ks kd : Bool) (m : BitVec 3) (y a d : BitVec 4) (s : State) : Host.Outcome State Fault Refusal := opLane (laneOp3 (.un 3) ks kd m y 0 a d) s

/-- VRSQRT (R252). -/
def execVrsqrt (ks kd : Bool) (m : BitVec 3) (y a d : BitVec 4) (s : State) : Host.Outcome State Fault Refusal := opLane (laneOp3 (.un 4) ks kd m y 0 a d) s

/-- VEXP2 (R252). -/
def execVexp2 (ks kd : Bool) (m : BitVec 3) (y a d : BitVec 4) (s : State) : Host.Outcome State Fault Refusal := opLane (laneOp3 (.un 5) ks kd m y 0 a d) s

/-- VLOG2 (R252). -/
def execVlog2 (ks kd : Bool) (m : BitVec 3) (y a d : BitVec 4) (s : State) : Host.Outcome State Fault Refusal := opLane (laneOp3 (.un 6) ks kd m y 0 a d) s

/-- VTANH (R252). -/
def execVtanh (ks kd : Bool) (m : BitVec 3) (y a d : BitVec 4) (s : State) : Host.Outcome State Fault Refusal := opLane (laneOp3 (.un 7) ks kd m y 0 a d) s

/-- VSIGM (R252). -/
def execVsigm (ks kd : Bool) (m : BitVec 3) (y a d : BitVec 4) (s : State) : Host.Outcome State Fault Refusal := opLane (laneOp3 (.un 8) ks kd m y 0 a d) s

/-- VMOV (R251). -/
def execVmov (ks kd : Bool) (m : BitVec 3) (y a d : BitVec 4) (s : State) : Host.Outcome State Fault Refusal := opLane (laneOp3 (.un 9) ks kd m y 0 a d) s

/-- VREDSUM (R258). -/
def execVredsum (ks kd : Bool) (m : BitVec 3) (y a d : BitVec 4) (s : State) : Host.Outcome State Fault Refusal := opLane (laneOp3 .redsum ks kd m y 0 a d) s

/-- VREDMAX (R258). -/
def execVredmax (ks kd : Bool) (m : BitVec 3) (y a d : BitVec 4) (s : State) : Host.Outcome State Fault Refusal := opLane (laneOp3 .redmax ks kd m y 0 a d) s

/-- VREDMIN (R258). -/
def execVredmin (ks kd : Bool) (m : BitVec 3) (y a d : BitVec 4) (s : State) : Host.Outcome State Fault Refusal := opLane (laneOp3 .redmin ks kd m y 0 a d) s

/-- VSCAN (R259). -/
def execVscan (ks kd : Bool) (m : BitVec 3) (y a d : BitVec 4) (s : State) : Host.Outcome State Fault Refusal := opLane (laneOp3 .scan ks kd m y 0 a d) s

/-- VNORM (R258). -/
def execVnorm (ks kd : Bool) (m : BitVec 3) (y a d : BitVec 4) (s : State) : Host.Outcome State Fault Refusal := opLane (laneOp3 .norm ks kd m y 0 a d) s

/-- VIOTA (R253). -/
def execViota (kd : Bool) (m : BitVec 3) (y d : BitVec 4) (s : State) : Host.Outcome State Fault Refusal := opLane (laneOp3 .iota false kd m y 0 0 d) s

/-- VFMA (R251). -/
def execVfma (ks kd : Bool) (m : BitVec 3) (y c b a d : BitVec 4) (s : State) : Host.Outcome State Fault Refusal :=
  opLane { laneOp3 (.fma false) ks kd m y b a d with c := c } s

/-- VFMS (R251). -/
def execVfms (ks kd : Bool) (m : BitVec 3) (y c b a d : BitVec 4) (s : State) : Host.Outcome State Fault Refusal :=
  opLane { laneOp3 (.fma true) ks kd m y b a d with c := c } s

/-- VSEL (R256). -/
def execVsel (ks kd : Bool) (m : BitVec 3) (y c b a d : BitVec 4) (s : State) : Host.Outcome State Fault Refusal :=
  opLane { laneOp3 (.sel) ks kd m y b a d with c := c } s

/-- VADAM (R260). -/
def execVadam (ks kd : Bool) (m : BitVec 3) (c b a d : BitVec 4) (s : State) : Host.Outcome State Fault Refusal :=
  opLane { laneOp3 .adam ks kd m 8 b a d with c := c } s

/-- VCMP (R255). -/
def execVcmp (ks kd : Bool) (m : BitVec 3) (y cc b a d : BitVec 4) (s : State) : Host.Outcome State Fault Refusal := opLane (laneOp3 (.cmp cc.toNat) ks kd m y b a d) s

/-- VCVT (R254). -/
def execVcvt (ks kd : Bool) (m : BitVec 3) (y x : BitVec 4) (r : BitVec 3) (a d : BitVec 4) (s : State) : Host.Outcome State Fault Refusal :=
  opLane { laneOp3 .cvt ks kd m y 0 a d with sty := x.toNat, rnd := r } s

/-- VBCAST (R250). -/
def execVbcast (kd : Bool) (m : BitVec 3) (y : BitVec 4) (w : Bool) (x : BitVec 6) (p : BitVec 4) (s : State) : Host.Outcome State Fault Refusal :=
  opLaneX 4 (laneOp3 .bcast false kd m y 0 0 p) [(x, w)] s

/-- VSETP (R250). -/
def execVsetp (w : Bool) (x : BitVec 6) (p : BitVec 4) (s : State) : Host.Outcome State Fault Refusal :=
  issue 4 { names := [x], srcs := [sx x w], dregs := [.a p] }
    (fun c k s => .done (s.updStrand c k fun t => t.putA p (t.rx x))) s

/-- VGETP (R250). -/
def execVgetp (x : BitVec 6) (p : BitVec 4) (s : State) : Host.Outcome State Fault Refusal :=
  issue 4 { names := [x], srcs := [s0 (.a p)], dsts := [x] } (fun c k s => .done (s.writeX c k x ((s.strand c k).ra p))) s

/-- VLEN (R250); its W bit is 0, since x[XR] is written. -/
def execVlen (w : Bool) (x : BitVec 6) (s : State) : Host.Outcome State Fault Refusal :=
  issue 4 { names := [x], srcs := [sx x w], dsts := [x] }
    (fun c k s =>
      let t := (s.strand c k).rx x
      let vl : Word := if t.toNat < 65536 then t else 65536
      .done ((s.updStrand c k fun r => { r with vl := vl }).writeX c k x (t - vl))) s

/-- The 16-bit VADD (R115). -/
def execVaddCompact (y : BitVec 3) (a d : BitVec 4) (s : State) : Host.Outcome State Fault Refusal :=
  opLaneX 2 (laneOp3 (.bin 0) false false 0 (compactType y) a d d) [] s

/-- The 16-bit VSUB (R115). -/
def execVsubCompact (y : BitVec 3) (a d : BitVec 4) (s : State) : Host.Outcome State Fault Refusal :=
  opLaneX 2 (laneOp3 (.bin 1) false false 0 (compactType y) a d d) [] s

/-- The 16-bit VMUL (R115). -/
def execVmulCompact (y : BitVec 3) (a d : BitVec 4) (s : State) : Host.Outcome State Fault Refusal :=
  opLaneX 2 (laneOp3 (.bin 2) false false 0 (compactType y) a d d) [] s

/-- The 16-bit VMIN (R115). -/
def execVminCompact (y : BitVec 3) (a d : BitVec 4) (s : State) : Host.Outcome State Fault Refusal :=
  opLaneX 2 (laneOp3 (.bin 4) false false 0 (compactType y) a d d) [] s

/-- The 16-bit VMAX (R115). -/
def execVmaxCompact (y : BitVec 3) (a d : BitVec 4) (s : State) : Host.Outcome State Fault Refusal :=
  opLaneX 2 (laneOp3 (.bin 5) false false 0 (compactType y) a d d) [] s

/-- The 16-bit VAND (R115). -/
def execVandCompact (y : BitVec 3) (a d : BitVec 4) (s : State) : Host.Outcome State Fault Refusal :=
  opLaneX 2 (laneOp3 (.bin 6) false false 0 (compactType y) a d d) [] s

/-- The 16-bit VOR (R115). -/
def execVorCompact (y : BitVec 3) (a d : BitVec 4) (s : State) : Host.Outcome State Fault Refusal :=
  opLaneX 2 (laneOp3 (.bin 7) false false 0 (compactType y) a d d) [] s

/-- The 16-bit VXOR (R115). -/
def execVxorCompact (y : BitVec 3) (a d : BitVec 4) (s : State) : Host.Outcome State Fault Refusal :=
  opLaneX 2 (laneOp3 (.bin 8) false false 0 (compactType y) a d d) [] s

/-- The 16-bit VSHL (R115). -/
def execVshlCompact (y : BitVec 3) (a d : BitVec 4) (s : State) : Host.Outcome State Fault Refusal :=
  opLaneX 2 (laneOp3 (.bin 9) false false 0 (compactType y) a d d) [] s

/-- The 16-bit VSHR (R115). -/
def execVshrCompact (y : BitVec 3) (a d : BitVec 4) (s : State) : Host.Outcome State Fault Refusal :=
  opLaneX 2 (laneOp3 (.bin 10) false false 0 (compactType y) a d d) [] s

/-- The 16-bit VMOV (R115). -/
def execVmovCompact (y : BitVec 3) (a d : BitVec 4) (s : State) : Host.Outcome State Fault Refusal :=
  opLaneX 2 (laneOp3 (.un 9) false false 0 (compactType y) 0 a d) [] s

/-- The 16-bit VABS (R115). -/
def execVabsCompact (y : BitVec 3) (a d : BitVec 4) (s : State) : Host.Outcome State Fault Refusal :=
  opLaneX 2 (laneOp3 (.un 0) false false 0 (compactType y) 0 a d) [] s

/-- The 16-bit VNEG (R115). -/
def execVnegCompact (y : BitVec 3) (a d : BitVec 4) (s : State) : Host.Outcome State Fault Refusal :=
  opLaneX 2 (laneOp3 (.un 1) false false 0 (compactType y) 0 a d) [] s

/-- The 16-bit VRCP (R115). -/
def execVrcpCompact (y : BitVec 3) (a d : BitVec 4) (s : State) : Host.Outcome State Fault Refusal :=
  opLaneX 2 (laneOp3 (.un 3) false false 0 (compactType y) 0 a d) [] s

/-- The 16-bit VEXP2 (R115). -/
def execVexp2Compact (y : BitVec 3) (a d : BitVec 4) (s : State) : Host.Outcome State Fault Refusal :=
  opLaneX 2 (laneOp3 (.un 5) false false 0 (compactType y) 0 a d) [] s

/-- The 16-bit VREDSUM (R115). -/
def execVredsumCompact (y : BitVec 3) (a d : BitVec 4) (s : State) : Host.Outcome State Fault Refusal :=
  opLaneX 2 (laneOp3 .redsum false false 0 (compactType y) 0 a d) [] s

end Sys2Proof.Machine
end

