-- ==== Sys2Proof/Machine/Barrel.lean ====
section
/-! DEFINITION. The barrel of a core: the rotation, annulled instructions, wakes, and the steps that end a wait of a strand
(spec/07_issue.md R126 to R135, spec/06_encoding.md R97, R98; spec/09_memory.md R177, R186; spec/08_isa_scalar.md R140;
spec/14_network.md R311). -/

namespace Sys2Proof.Machine

/-- The cause for which a strand is parked has cleared (R126). A reply ends its own park. -/
def State.parkOver (s : State) (c : CoreId) (k : StrandId) (p : Park) : Bool :=
  let t := s.strand c k
  let v := s.core c
  match p with
  | .none => true
  | .reg r => t.full r
  | .succ => s.dstOk c k 63#6
  | .acc a => (v.accAt a).full
  | .reply _ _ => false
  | .replySlot => s.slotFree c k
  | .bar h gen => (Tab.get {} v.bars h).gen != gen
  | .barArw h gen _ => (Tab.get {} v.bars h).gen != gen
  | .fence kind scope => s.fenceHolds c k kind scope || (decide (2 ≤ kind) && scope != 0 && v.dcache.any fun d => d.dirty != 0)
  | .quiet => s.quiet c k
  | .send => s.seqFree c && v.sendRoom
  | .ring n => s.ringRoom c k n
  | .copy => v.copyFree
  | .mqueue n => decide (n ≤ v.mfree)
  | .slog block => v.slFree.isSome && (!block || v.blkFree.isSome)
  | .slogBytes va n => !s.slogOverlap c k va n
  | .dqueue => decide ((Tab.get [] s.decQueues (dieOf c)).length < 16)

/-- STRAND_WAKE (R126): ready at its instruction; a BAR.ARW instead completes with the new generation (R231). -/
def State.wake (s : State) (c : CoreId) (k : StrandId) : State :=
  let t := s.strand c k
  if t.st = .parked && s.parkOver c k t.park then
    match t.park with
    | .barArw h _ d =>
      (s.updStrand c k fun t => { (t.advance 4) with st := .ready, park := .none }).resultX c k d
        ((Tab.get {} (s.core c).bars h).gen.setWidth 64)
    | .ring n => s.updStrand c k fun t => { t with st := .ready, park := .none, wants := n }
    | _ => s.updStrand c k fun t => { t with st := .ready, park := .none }
  else s

def execStrandWake (s : State) : Host.Outcome State Fault Refusal := .next (s.wake s.arg.c s.arg.k)

/-- One annulled instruction of a strand dropped, in a cycle after its compare-skip issued, once the buffer holds it (R134, R135); a fetch fault on its first
parcel is raised (R98), poison is none (R388; DEDUCED, log 20). -/
def State.dropAnnulled (s : State) (c : CoreId) (k : StrandId) : State :=
  let t := s.strand c k
  if t.st = .ready && t.ann != 0 && (!t.issued || decide (t.last < s.cycle)) then
    match t.rawParcel t.pc with
    | .absent => s
    | .fault f => s.raise c k f
    | .word p0 =>
      if t.lacks then s else s.updStrand c k fun t => { (t.advance (parcelLen p0)) with ann := t.ann - 1 }
  else s

/-- A dispense has reached cycle 4: the strand enters the rotation (R82, R126). -/
def State.unholdDispense (s : State) (c : CoreId) (k : StrandId) : State :=
  match (s.strand c k).held with
  | .dispense till => if till ≤ s.cycle then s.updStrand c k fun t => { t with st := if t.task.isSome then .ready else t.st, held := .none } else s
  | _ => s

/-- The next instruction of a strand uses the lane unit: a compact one, major 0x20 to 0x28, or VBCAST (R116, R242). -/
def Strand.nextLane (t : Strand) : Bool :=
  match t.fetched with
  | .instr p0 p1 _ =>
    (decodeParcels p0 p1).isSome && (!bitAt p0 0 ||
      (let m := (p0.extractLsb' 1 6).toNat
       (decide (32 ≤ m) && decide (m ≤ 40)) || (m == 41 && p1.extractLsb' 2 2 == 0)))
  | _ => false

/-- The strand qualifies for the slot (R127, R242). -/
def State.qualifies (s : State) (c : CoreId) (k : StrandId) : Bool :=
  let t := s.strand c k
  t.st == .ready && t.held == .none && t.task.isSome && (!t.issued || decide (t.last + 4 ≤ s.cycle)) && t.ann == 0 && !t.needsFill &&
    !(s.blockMove c k && t.nextLane) && !s.stopAsked c k

/-- A ready strand asks for the group of its next instruction. -/
def State.fetchFor (s : State) (c : CoreId) (k : StrandId) : State :=
  let t := s.strand c k
  if t.st = .ready && t.held == .none && t.task.isSome then s.wantFetch c k else s

/-- BARREL_CYCLE (R127, R135): annulled instructions are dropped, and the slot is offered to the next strand that qualifies. -/
def State.barrel (s : State) (c : CoreId) : State :=
  let all := (List.range 16).map (BitVec.ofNat 4)
  let s := all.foldl (fun s k => ((s.unholdDispense c k).dropAnnulled c k).fetchFor c k) s
  let p := (s.core c).p
  match ((List.range 16).map fun n => p + 1 + BitVec.ofNat 4 n).find? (s.qualifies c) with
  | some k => { s.updCore c fun v => { v with p := k } with offer := some (c, k) }
  | none => s

def execBarrelCycle (s : State) : Host.Outcome State Fault Refusal := .next (s.barrel s.arg.c)

/-- FETCH_FILL (R97). -/
def execFetchFill (s : State) : Host.Outcome State Fault Refusal :=
  .next (if (s.strand s.arg.c s.arg.k).filling then
      if (s.strand s.arg.c s.arg.k).task.isSome then s.fillBuffer s.arg.c s.arg.k
      else s.updStrand s.arg.c s.arg.k fun t => { t with filling := false }
    else s)

/-- PRODUCER_RESULT_WRITE (R140). -/
def execProducerResultWrite (s : State) : Host.Outcome State Fault Refusal := .next (s.writePending s.arg.c s.arg.k s.arg.n)

/-- PAGE_WALK (R177): of the access that holds the strand. -/
def execPageWalk (s : State) : Host.Outcome State Fault Refusal :=
  .next (if (s.strand s.arg.c s.arg.k).held = .walk (vaOf s.arg.w0) then s.pageWalk s.arg.c s.arg.k (vaOf s.arg.w0) s.arg.n else s)

/-- PTS_TICK (R186): the logical time of every core advances by 1. -/
def execPtsTick (s : State) : Host.Outcome State Fault Refusal :=
  .next { s with cores := s.cores.map fun e => (e.1, { e.2 with pts := e.2.pts + 1 }), ptsIdle := s.ptsIdle + 1 }

/-- COMET_ADVANCE (R311): the index of the current identity advances. -/
def execCometAdvance (s : State) : Host.Outcome State Fault Refusal := .next { s with comet := (s.comet + 1) % 65536 }

end Sys2Proof.Machine
end

