-- ==== Sys2Proof/Machine/Dispenser.lean ====
section
/-! DEFINITION. Residency and dispense: shares of a core, strands that become resident, the choice of an entry and the hand-over of a
task to a strand (spec/01_work.md R14, R24 to R26; spec/02_formats.md R41, R45; spec/04_launch.md R74; spec/05_placement.md R82 to R84;
spec/07_issue.md R126, R133; spec/11_isa_vector.md R235; spec/16_consistency.md R332; spec/18_optimistic.md R345 to R347). -/

namespace Sys2Proof.Machine

/-! ## Shares of a core -/

/-- The slots from one on, n of them, are free. -/
def Core.slotsFree (v : Core) (i n : Nat) : Bool := decide (i + n ≤ 384) && (List.range n).all fun k => (v.slot (i + k)).use == 0

/-- The lowest free run of n slots (R25). -/
def Core.freeRun (v : Core) (n : Nat) : Option Nat := if n = 0 then some 0 else (List.range 384).find? fun i => v.slotsFree i n

/-- Barriers of a core that no launch holds. -/
def Core.freeBars (v : Core) : List Nat := (List.range 256).filter fun i => (Tab.get {} v.bars i).owner.isNone

/-- Code, ring and barriers of a launch have room on a core (R25, R26). A launch with neither code nor ring whose CODEOFF lies beyond the local
memory never has (DESIGN CHOICE, log 19). -/
def Core.canInstall (v : Core) (x : Launch) : Bool :=
  v.slotsFree (x.codeoff / 2048) x.coreSlots && decide (x.nbar ≤ v.freeBars.length)

/-- Slots given to a launch. -/
def Core.giveSlots (v : Core) (i n : Nat) (e : Slot) : Core := (List.range n).foldl (fun v k => v.setSlot (i + k) e) v

/-- The code copy, the ring and the barriers of a launch on a core (R74, R25, R26): the code copied with its poison. -/
def State.install (s : State) (c : CoreId) (j : JobId) (l : Lslot) : State :=
  let x := s.launch j l
  let first := x.codeoff / 2048
  let v := (s.core c).giveSlots first (slotCount x.codeb) { jobtag := j.toNat, use := 3 }
  let v := v.giveSlots (first + slotCount x.codeb) (x.coreSlots - slotCount x.codeb) { jobtag := j.toNat, use := 3, ring := true }
  let bars := (v.freeBars.take x.nbar).zipIdx.foldl (fun b (h, n) => Tab.put b h ({ owner := some (j, l, n) } : Bar)) v.bars
  let s := s.setCore c { v with bars := bars, installed := v.installed ++ [(j, l)] }
  let a := localBase c + x.codeoff
  ({ s.clearPoison a x.code.length with mem := Memory.write s.mem a x.code } : State).setPoison (x.codePois.map (a / 8 + ·)) true

/-- Pool entries of a core in use. -/
def Core.poolUsed (v : Core) : Nat := (v.strands.map fun e => e.2.pool).sum

/-- Strands of a launch resident on a core. -/
def Core.residents (v : Core) (j : JobId) (l : Lslot) : Nat := (v.strands.filter fun e => e.2.res == some (j, l)).length

/-- A strand of a core that no launch holds and none has left unzeroed (R25, R415). -/
def Core.strandFree (v : Core) (k : StrandId) : Bool := (v.strand k).res.isNone && !v.freed.any fun f => f.strands.contains k

/-- The strand and the first slot with which the launch gains a strand on a core, if its whole share is free. -/
def State.nextResident (s : State) (c : CoreId) (j : JobId) (l : Lslot) : Option (StrandId × Nat) :=
  let v := s.core c
  let x := s.launch j l
  if x.strandsPerCore ≤ v.residents j l || 768 < v.poolUsed + x.poolShare then none
  else
    match (List.range 16).find? (fun k => v.strandFree (BitVec.ofNat 4 k)), v.freeRun x.shareSlots with
    | some k, some i => some (BitVec.ofNat 4 k, i)
    | _, _ => none

/-! ## The end of residency (R415) -/

/-- Memory with zeros in a range of addresses. -/
def Memory.zero (m : List Host.Cell) (a n : Nat) : List Host.Cell := m.filter fun e => decide (e.1 < a) || decide (a + n ≤ e.1)

/-- The slots that a launch holds on a core: those of its code and ring, and of its strands' shares. -/
def State.heldSlots (s : State) (c : CoreId) (j : JobId) (l : Lslot) : List Nat :=
  let v := s.core c
  let x := s.launch j l
  (if v.installed.contains (j, l) then (List.range x.coreSlots).map (x.codeoff / 2048 + ·) else []) ++
    (v.strands.filter fun e => e.2.res == some (j, l)).flatMap fun e => (List.range (e.2.ntile + e.2.nscr)).map (e.2.base + ·)

/-- The share of a launch on a core given up: its strands serve no launch, its barriers are unmapped. Slots, pool entries and registers keep what
they hold until they are zeroed. -/
def State.freeShare (s : State) (c : CoreId) (j : JobId) (l : Lslot) : State :=
  let mine := fun (e : Nat × Strand) => e.2.res == some (j, l)
  s.updCore c fun v =>
    { v with
      freed := v.freed ++ [{ slots := s.heldSlots c j l, strands := (v.strands.filter mine).map fun e => BitVec.ofNat 4 e.1 }]
      strands := v.strands.map fun e => if mine e then (e.1, { e.2 with res := none }) else e
      bars := v.bars.map fun e => match e.2.owner with | some (j', l', _) => if j' == j && l' == l then (e.1, { e.2 with owner := none }) else e | none => e
      installed := v.installed.filter fun e => e != (j, l)
      rings := v.rings.filter fun b => !(b.job == j && b.lslot == l) }

/-- The slots that a matrix command reads or recodes. -/
def MCmd.slots (m : MCmd) : List Nat := match m.op with | .twb a .. => [a] | _ => m.reads

/-- An engine still works on one of some slots: copies and matrix commands run on after the end of their task (R161). -/
def Core.engaged (v : Core) (ns : List Nat) : Bool :=
  v.copies.any (fun e => e.slots.any ns.contains || e.fol.any fun m => m.slots.any ns.contains) ||
    (v.mq ++ v.mrun.toList).any fun m => m.slots.any ns.contains

/-- A share zeroed (R415): its slots are 0 and free, their tile-table entries reset, its pool entries and strands returned, its weight-buffer entries
removed. -/
def State.zeroShare (s : State) (c : CoreId) (f : Freed) : State :=
  let v := s.core c
  let s := s.setCore c { (v.dropWb f.slots) with
    tiles := v.tiles.filter fun e => !f.slots.contains e.1
    strands := v.strands.filter fun e => !f.strands.contains (BitVec.ofNat 4 e.1) }
  f.slots.foldl (fun s n => { s.clearPoison (localBase c + 2048 * n) 2048 with mem := Memory.zero s.mem (localBase c + 2048 * n) 2048 }) s

/-- The given-up shares of a core zeroed, but for those that an engine still works on: before another launch takes the core, before the core is saved
for a stop, and at a teardown (R415; DEDUCED, log 19). -/
def State.scrub (s : State) (c : CoreId) : State :=
  let v := s.core c
  if v.freed = [] then s
  else
    (v.freed.filter fun f => !v.engaged f.slots).foldl (fun s f => s.zeroShare c f)
      (s.setCore c { v with freed := v.freed.filter fun f => v.engaged f.slots })

/-- The share of a launch on a core given up and zeroed at once, as its engines hold nothing (R398). -/
def State.releaseShare (s : State) (c : CoreId) (j : JobId) (l : Lslot) : State := (s.freeShare c j l).scrub c

/-- The shares of a launch on every core given up. -/
def State.releaseShares (s : State) (j : JobId) (l : Lslot) : State :=
  s.cores.foldl (fun s (e : Nat × Core) =>
    if e.2.installed.contains (j, l) || e.2.strands.any (fun k => k.2.res == some (j, l)) then s.freeShare (BitVec.ofNat 12 e.1) j l else s) s

/-! ## Strands that become resident -/

/-- A bound core, as it is once what it may zero is zeroed, can take the launch's code, or another strand of it. -/
def State.canReside (s : State) (c : CoreId) (j : JobId) (l : Lslot) : Bool :=
  let s := s.scrub c
  let x := s.launch j l
  (s.job j).live l && x.boundTo c && !(s.job j).stopped &&
    (if (s.core c).installed.contains (j, l) then (s.nextResident c j l).isSome else (s.core c).canInstall x)

/-- STRAND_BECOMES_RESIDENT (R25, R126, R133): the share is given, the strand is idle, its forwarding slot empty. -/
def State.reside (s : State) (c : CoreId) (j : JobId) (l : Lslot) : State :=
  if !s.canReside c j l then s
  else
    let s := s.scrub c
    let s := if (s.core c).installed.contains (j, l) then s else s.install c j l
    match s.nextResident c j l with
    | none => s
    | some (k, i) =>
      let x := s.launch j l
      let nscr := slotCount x.scrb
      let v := (s.core c).giveSlots i x.ntile { jobtag := j.toNat, strand := k, use := 1 }
      let v := v.giveSlots (i + x.ntile) nscr { jobtag := j.toNat, strand := k, use := 2 }
      s.setCore c (v.setStrand k { res := some (j, l), base := i, ntile := x.ntile, nscr := nscr, pool := x.poolShare })

def execStrandBecomesResident (s : State) : Host.Outcome State Fault Refusal := .next (s.reside s.arg.c s.arg.j s.arg.l)

/-! ## Dispense (R82 to R84) -/

/-- Entries that earlier tasks of a launch waited for and now take, those before a key (R347; DEDUCED, log 20). -/
def State.ringWanted (s : State) (c : CoreId) (j : JobId) (l : Lslot) (key : Nat) : Nat :=
  (((s.core c).strands.filter fun e => e.2.res == some (j, l) && e.2.task.any fun q => decide (q.key < key)).map fun e => e.2.wants).sum

/-- A dispense to the strand was started in the present cycle (R82). -/
def Strand.startedAt (t : Strand) (cycle : Nat) : Bool :=
  match t.held with
  | .dispense till => till == cycle + (if t.task.isSome then 4 else 2)
  | _ => false

/-- Dispenses to a core that were started in the present cycle. -/
def Core.startedAt (v : Core) (cycle : Nat) : Nat := (v.strands.filter fun e => e.2.startedAt cycle).length

/-- The dispenser may choose for a strand: it is idle, no dispense of it is under way, its core has none and its cluster fewer than four that were
started in this cycle (R82), and its island is not halted (R66). -/
def State.mayDispense (s : State) (c : CoreId) (k : StrandId) : Bool :=
  let t := s.strand c k
  t.st == .idle && t.task.isNone && (match t.held with | .none => true | .dispense till => decide (till ≤ s.cycle) | _ => false) &&
    (s.core c).startedAt s.cycle == 0 && decide (((s.coresOf (clusterOf c)).map fun d => (s.core d).startedAt s.cycle).sum < 4) &&
    !(s.island (islandOf (clusterOf c))).halted

/-- The entry for an idle strand and the core whose queue holds it (R84): its own core's lowest eligible entry, else the lowest unpinned
one of the other bound cores of the cluster. A task that holds no block needs six ring entries (R347). -/
def State.choice (s : State) (c : CoreId) (k : StrandId) : Option (CoreId × QEntry) :=
  let t := s.strand c k
  match t.res with
  | none => none
  | some (j, l) =>
    let cl := clusterOf c
    let x := s.launch j l
    if !s.mayDispense c k || ((s.job j).leaf (.dispenser cl)).stopped then none
    else
      let room := fun (q : QEntry) => !x.opt || q.block || decide (6 + s.ringWanted c j l q.key ≤ s.ringFree c j l)
      let ok := fun (q : QEntry) => s.ready12 j l q && s.ready34 cl j l q && room q
      match (s.core c).queue.find? ok with
      | some q => some (c, q)
      | none =>
        let others := (s.coresOf cl).filter fun d => d != c && x.boundTo d
        let qs := others.flatMap fun d => ((s.core d).queue.filter fun q => ok q && !q.pinned && !q.block).map fun q => (d, q)
        qs.foldl (fun b e => match b with | some a => if e.2.key < a.2.key then some e else some a | none => some e) none

/-- The registers of a strand after a dispense (R14, R41, R45, R117, R235): arguments in x1 to x6 as far as declared, the other declared
registers undefined and full, the index registers undefined and empty, the forwarding slot unchanged. The strand is idle until cycle 4 (R126). -/
def Strand.dispensed (t : Strand) (q : QEntry) (nreg : Nat) (free : Nat → Word) (till : Nat) : Strand :=
  let xs : Tab Word := (List.range nreg).map fun i => (i + 1, if i < 6 then q.t.args.getD i 0 else free i)
  { held := .dispense till, res := t.res, base := t.base, ntile := t.ntile, nscr := t.nscr, pool := t.pool,
    x := if Tab.has t.x 63 then xs ++ [(63, Tab.get 0 t.x 63)] else xs, xF := setBit (BitVec.allOnes 64) 63 (t.full (.x 63#6)),
    i := (List.range 4).map fun i => (i, free (64 + i)), pc := q.t.pc, vt := q.t.vt, opt := q.t.opt, task := some q, last := t.last, issued := t.issued }

/-- The strand whose task was discarded at cycle 1 of R82 stays idle, and the dispenser may choose for it again from cycle 2. -/
def State.discarded (s : State) (c : CoreId) (k : StrandId) : State := s.updStrand c k fun t => { t with held := .dispense (s.cycle + 2) }

/-- DISPENSE: the entry leaves its queue; a task that is not to run is discarded; otherwise the strand takes it, with a block of the
retention ring where it is optimistic and has none. -/
def State.dispense (s : State) (c : CoreId) (k : StrandId) : State :=
  match s.choice c k with
  | none => s
  | some (c', q) =>
    let j := q.t.job; let l := q.t.lslot
    let s := (s.updCore c' fun v => v.dropEntry q.t.ident).stealBreak (clusterOf c) j l
    if !(s.job j).live l || (s.job j).cancels l q.t.vt then (s.dropTask q.t).discarded c k
    else
      let s := if !q.t.opt then s
        else if q.block then s.updBlock c q.t.ident fun b => { b with ts := .running, strand := some k }
        else s.updCore c fun v => { v with rings := v.rings ++ [{ job := j, lslot := l, t := q, strand := some k }] }
      let s := s.updCore c fun v => { v with pts := wmax v.pts q.pts }
      s.updStrand c k fun t => t.dispensed q (s.launch j l).nreg s.freeWord (s.cycle + 4)

def execDispense (s : State) : Host.Outcome State Fault Refusal := .next (s.dispense s.arg.c s.arg.k)

end Sys2Proof.Machine
end

