-- ==== Sys2Proof/Machine/Launches.lean ====
section
/-! DEFINITION. Launches, graphs and phases: creation, binding, completion, and the requests that reach the management core
(spec/01_work.md R21, R22, R28 to R31; spec/04_launch.md R73 to R78; spec/08_isa_scalar.md R166, R167; spec/24_retire.md R414, R415;
notes/assumptions 17, 19). -/

namespace Sys2Proof.Machine

/-! ## Accesses of the device itself on behalf of a job -/

/-- Where such an access leads, by a walk of the job's tables: target and leaf, or the class of its fault. The self window is that of a
core: of the executing one for a LAUNCH, and of core 0 for what no strand executes, such as a record, a signal word or the descriptor of a
JOBSTART (DESIGN CHOICE, log 19). -/
def State.jobPlace (s : State) (c : CoreId) (j : JobId) (va : BitVec 48) (n : Nat) (need : Need) : (Target × Word) ⊕ Nat :=
  let loc := fun (c' : CoreId) (off : Nat) =>
    match s.localCheck c' j off n with
    | some cls => Sum.inr cls
    | none => Sum.inl (Target.loc c' off, (0 : Word))
  match windowOf c va with
  | some (c', off) => loc c' off
  | none =>
    match s.walk j va with
    | .fault cls _ => .inr cls
    | .leaf e =>
      if !need.ok e.leaf then .inr clsPermission
      else match s.place (e.phys va) with
        | .inr cls => .inr cls
        | .inl (.loc c' off) => loc c' off
        | .inl x => .inl (x, e.leaf)

/-- The bytes of one line part at a target, and which of its words are poisoned (counted from the part's start). -/
def State.readTarget (s : State) (j : JobId) (x : Target) (leaf : Word) (n : Nat) : List Byte × List Nat :=
  let bad := fun (a : Nat) => (List.range ((n + 7) / 8)).filter fun i => s.memBad (a + 8 * i) 8
  match x with
  | .own pa => (s.memRead (s.keyOf j (leaf.getLsbD 5)) (offOf pa) n, bad (offOf pa))
  | .loc c off => (s.localRead c off n, bad (localBase c + off))
  | .host pa => (s.memRead none (offOf pa) n, [])
  | .peer pa => ((List.range n).map fun i => s.freeByte (pa.toNat + i), [])

/-- The parts of a read in ascending order, each with its word offset: bytes and poisoned words, or the fault. -/
def State.readParts (s : State) (c : CoreId) (j : JobId) (parts : List (BitVec 48 × Nat)) (w : Nat) : (List Byte × List Nat) ⊕ Fault' :=
  match parts with
  | [] => .inl ([], [])
  | (va, n) :: rest =>
    match s.jobPlace c j va n .r with
    | .inr cls => .inr (faultAt cls va)
    | .inl (x, leaf) =>
      let (bs, bad) := s.readTarget j x leaf n
      match s.readParts c j rest (w + n / 8) with
      | .inr f => .inr f
      | .inl (bs', bad') => .inl (bs ++ bs', bad.map (w + ·) ++ bad')

/-- n bytes of a job's address space read by the device: with their poisoned words, or the fault. -/
def State.jobRead (s : State) (c : CoreId) (j : JobId) (va : BitVec 48) (n : Nat) : (List Byte × List Nat) ⊕ Fault' :=
  s.readParts c j (cutLines va n (n / 128 + 2)) 0

/-- What such a read leaves at the homes of its lines (R196, R199): each is an access of the job through its leaf. -/
def State.visitParts (s : State) (c : CoreId) (j : JobId) (parts : List (BitVec 48 × Nat)) : State :=
  parts.foldl (fun s (va, n) => match s.jobPlace c j va n .r with
    | .inl (.own pa, leaf) => s.visit (some (j, leaf.extractLsb' 54 8)) (offOf pa) (s.keyTag j (leaf.getLsbD 5))
    | _ => s) s
def State.visitRead (s : State) (c : CoreId) (j : JobId) (va : BitVec 48) (n : Nat) : State := s.visitParts c j (cutLines va n (n / 128 + 2))

/-- A block that must be read whole and without poison. -/
def State.jobBlock (s : State) (c : CoreId) (j : JobId) (va : BitVec 48) (n align : Nat) : List Byte ⊕ Fault' :=
  if va.toNat % align ≠ 0 then .inr (faultAt clsAlign va)
  else match s.jobRead c j va n with
  | .inr f => .inr f
  | .inl (bs, bad) => if bad = [] then .inl bs else .inr (faultAt clsData va)

/-- The address in the tiers that a write for a job leads to, if it leads there. -/
def State.jobTier (s : State) (j : JobId) (va : BitVec 48) : Option Nat :=
  match s.jobPlace 0 j va 8 .w with
  | .inl (.own pa, _) => some (offOf pa)
  | _ => none

/-- Writes of the device for a job at some addresses may be performed now (R68, R180). -/
def State.jobClear (s : State) (j : JobId) (vas : List (BitVec 48)) : Bool :=
  vas.all fun va => match s.jobTier j va with | some a => s.lineClear a | none => true

/-- What makes their lines clear sent out. -/
def State.clearJob (s : State) (j : JobId) (vas : List (BitVec 48)) : State :=
  vas.foldl (fun s va => match s.jobTier j va with | some a => s.clearLine a | none => s) s

/-- A write of the device sent to another device, which performs it (R335); its answer finds nothing that waits for it. -/
def State.sendPeer (s : State) (j : JobId) (pa : BitVec 52) (bs : List Byte) (sig : Bool) : State :=
  let a := offOf pa
  let q : Req := { id := s.nextId, kind := if sig then .stff else .writeback, job := j, pa := pa, isStore := true, pts := s.topTime,
                   w0 := leBits 64 bs, line := lineSet 0 (a % 128) bs, mask := byteMask (a % 128) bs.length }
  s.sendNew { src := s.epMgmt, dst := { dev := devOf pa, router := homeSlice a, ep := 65 }, kind := if sig then 0x03#6 else 0x02#6, job := j,
              fcnt := if sig then 1 else 2, body := .req q }

/-- A write of one block, or an STFF where `sig` says so (R76), once its line is clear: a plain store in host memory; or the class of its fault.
A block that is not aligned to 64 bytes, or a signal word not aligned to 8, counts as a write that faults (DESIGN CHOICE, log 19). -/
def State.jobWrite (s : State) (j : JobId) (va : BitVec 48) (bs : List Byte) (sig bare : Bool) : State × Option Nat :=
  if va.toNat % (if sig then 8 else 64) ≠ 0 then (s, some clsAlign)
  else match s.jobPlace 0 j va bs.length .w with
  | .inr cls => (s, some cls)
  | .inl (x, leaf) =>
    let v : Word := leBits 64 bs
    let by' := some (j, (leaf.extractLsb' 54 8 : BitVec 8))
    let pln := bare || leaf.getLsbD 5
    -- an STFF of a poisoned word faults (R207)
    let bad := fun (a : Nat) => sig && s.memBad a 8
    let put := fun (a : Nat) => if sig then s.signal by' j pln a v else s.ownWrite by' j pln 0 a bs
    match x with
    | .own pa => if bad (offOf pa) then (s, some clsData) else (put (offOf pa), none)
    | .loc c off => if bad (localBase c + off) then (s, some clsData) else (put (localBase c + off), none)
    | .host pa => (s.ownWrite none j pln 0 (offOf pa) bs, none)
    | .peer pa => (s.sendPeer j pa bs sig, none)

/-- A dropped write counts in the job's record (R76). -/
def State.jobWriteOr (s : State) (j : JobId) (va : BitVec 48) (bs : List Byte) (sig bare : Bool) : State :=
  match s.jobWrite j va bs sig bare with
  | (s, none) => s
  | (s, some cls) => s.updJob j fun v => { v with c := v.c.fault cls 0 }

/-! ## Completion (R76, R77) -/

/-- The completion record of a level. -/
def recordWords (c : Counts) (id : Nat) (j : JobId) (level status : Nat) (now gvt pstart : Word) : List Word :=
  [BitVec.ofNat 32 c.nfault ++ BitVec.ofNat 16 id ++ j ++ BitVec.ofNat 4 level ++ BitVec.ofNat 8 status,
   c.tstart, now, gvt, c.errsum, c.first, BitVec.ofNat 64 c.retired, pstart]

/-- Where a level's record and signal word go; a launch may have neither (R75). -/
structure Outlet where
  crec : Option (BitVec 48)
  sigw : Option (BitVec 48)
  ven : Bool := false
  vec : BitVec 7 := 0
  /-- Written with no key (R419). -/
  bare : Bool := false

/-- The record and the signal word of a launch: none at address 0 (R75). -/
def Launch.outlet (x : Launch) : Outlet :=
  { crec := if x.crec = 0 then none else some x.crec, sigw := if x.sigw = 0 then none else some x.sigw, ven := x.ven, vec := x.vec }

/-- Of a graph at its area (R75), of a phase where PHASEOPEN says (R72), of a job at its area, with no key at teardown (R72, R419), and with the vector
of its JOBSTART, not of the KEYDESTROY (DESIGN CHOICE, log 19). -/
def Graph.outlet (x : Graph) : Outlet := { crec := some x.area, sigw := some (x.area + 64) }
def Phase.outlet (x : Phase) : Outlet := { crec := some x.crec, sigw := some x.sigw, ven := x.ven, vec := x.vec }
def Job.outlet (v : Job) : Outlet := { crec := some v.carea, sigw := some (v.carea + 64), ven := v.ven, vec := v.vec, bare := true }

/-- The addresses that a level's completion writes. -/
def Outlet.addrs (x : Outlet) : List (BitVec 48) := x.crec.toList ++ x.sigw.toList

/-- Steps 2 to 4 of R76: record, signal, MSI-X. -/
def State.signalLevel (s : State) (j : JobId) (x : Outlet) (ws : List Word) : State :=
  let s := match x.crec with | none => s | some a => s.jobWriteOr j a (ws.flatMap (bytesOf 8)) false x.bare
  let s := match x.sigw with | none => s | some a => s.jobWriteOr j a (bytesOf 8 (ws.headD 0)) true x.bare
  if x.ven ∧ x.vec < 64#7 then { s with msix := s.msix ++ [x.vec] } else s

/-- A level's completion runs once the lines that it writes are clear (R68, R180; DEDUCED, log 17); until then the step is tried again. -/
def State.whenClear (s : State) (j : JobId) (x : Outlet) (i : Instr) (arg : StepArg) (f : State → State) : State :=
  if s.jobClear j x.addrs then f s else (s.clearJob j x.addrs).push 64 i arg

/-- STATUS of a level (R381): a CANCEL first, then a kill, then what the level itself says. -/
def statusOf (c : Counts) (lost : Bool) (own : Nat) : Nat := if c.cancelled || lost then 1 else if c.killed then 3 else own

/-- The entry task of a launch that may start goes to wait for its binding. -/
def State.startLaunch (s : State) (j : JobId) (l : Lslot) : State :=
  match (s.launch j l).entryTask with
  | some q => (s.updLaunch j l fun x => { x with started := true, entryTask := none }).waitForBind q
  | none => s.updLaunch j l fun x => { x with started := true }

/-- A launch that ends before it starts: its entry task is never created (R30); one whose message is under way ends at its arrival. -/
def State.failLaunch (s : State) (j : JobId) (l : Lslot) : State :=
  match (s.launch j l).entryTask with
  | some q => (s.updLaunch j l fun x => { x with entryTask := none, bad := some 1 }).neverBorn q
  | none => s.updLaunch j l fun x => { x with bad := if x.bad.isSome then x.bad else some 1 }

/-- The dependants of a launch that has completed are released, or fail with it (R30). -/
def State.releaseDependants (s : State) (j : JobId) (g : BitVec 16) (l : Lslot) (status : Nat) : State :=
  let deps := (s.job j).launches.filter fun (e : Nat × Launch) => e.2.graph == some g && !e.2.started && !e.2.complete && e.2.pred.contains l
  deps.foldl (fun s (e : Nat × Launch) =>
    let d : Lslot := BitVec.ofNat 16 e.1
    if status = 0 then
      let s := s.updLaunch j d fun x => { x with pred := x.pred.filter (· ≠ l) }
      if (s.launch j d).pred = [] then s.startLaunch j d else s
    else s.failLaunch j d) s

/-- The bind record of a launch freed (R74). -/
def State.unbind (s : State) (j : JobId) (l : Lslot) : State :=
  match (s.launch j l).bound with
  | some n => ({ s with slotTable := Tab.put s.slotTable n { Tab.get {} s.slotTable n with v := false } } : State).updLaunch j l fun x => { x with bound := none }
  | none => s

/-- LAUNCH_COMPLETION: status, record, signal, MSI-X; then the graph, the dependants, the bind record, the shares and the LSLOT. The shares are given
up; they are zeroed before another launch takes their cores (R415). -/
def State.completeLaunch (s : State) (j : JobId) (l : Lslot) : State :=
  let x := s.launch j l
  if !(s.job j).live l || !s.launchOver j l then s
  else s.whenClear j x.outlet .launchCompletion { j := j, l := l } fun s =>
    let st := statusOf x.c x.lost (x.bad.getD 0)
    let s := s.updLaunch j l fun x => { x with complete := true, status := st }
    let s := s.signalLevel j x.outlet (recordWords x.c l.toNat j 0 st s.tstamp (s.job j).gvt 0)
    let s := ((s.releaseShares j l).unbind j l)
    match x.graph with
    | none => s.updJob j fun v => { v with launches := Tab.del v.launches l.toNat }
    | some g =>
      let s := s.updJob j fun v => { v with graphs := Tab.upd {} v.graphs g.toNat fun y => { y with done := y.done ++ [(l, st)] } }
      (s.releaseDependants j g l st).checkGraph j g

def execLaunchCompletion (s : State) : Host.Outcome State Fault Refusal := .next (s.completeLaunch s.arg.j s.arg.l)

/-- GRAPH_COMPLETION (R28, R30, R76): its status is that of its first launch to fail, where neither a CANCEL of it nor a kill decides (R381); its
launches' LSLOTs are freed. -/
def State.completeGraph (s : State) (j : JobId) (n : Nat) : State :=
  match Tab.find (s.job j).graphs n with
  | none => s
  | some g =>
    if !g.closed || g.complete || !(g.members.all fun l => g.done.any fun d => d.1 == l) then s
    else s.whenClear j g.outlet .graphCompletion { j := j, n := n } fun s =>
      let own := ((g.done.find? fun d => d.2 ≠ 0).map (·.2)).getD 0
      let st := statusOf g.c false own
      let s := s.signalLevel j g.outlet (recordWords g.c n j 1 st s.tstamp (s.job j).gvt 0)
      s.updJob j fun v => { v with graphs := Tab.del v.graphs n,
                                   launches := v.launches.filter fun (e : Nat × Launch) => !g.members.contains (BitVec.ofNat 16 e.1) }

def execGraphCompletion (s : State) : Host.Outcome State Fault Refusal := .next (s.completeGraph s.arg.j s.arg.n)

/-- A launch or a graph of a job whose completion has been called for and has not run. -/
def State.completing (s : State) (j : JobId) : Bool :=
  ((s.job j).launches.any fun e => !e.2.complete && s.launchOver j (BitVec.ofNat 16 e.1)) ||
    (s.job j).graphs.any fun e => e.2.closed && e.2.members.all fun l => e.2.done.any fun d => d.1 == l

/-- PHASE_COMPLETION (R31): GVT has reached its end and every task in it has retired. It goes behind the launches and graphs that complete
(R414). -/
def State.completePhase (s : State) (j : JobId) (start : Word) : State :=
  match (s.job j).phases.find? (fun p => p.start == start) with
  | none => s
  | some p =>
    if p.complete || !s.phaseOver j p then s
    else if s.completing j then s.push 8 .phaseCompletion { j := j, w0 := start }
    else s.whenClear j p.outlet .phaseCompletion { j := j, w0 := start } fun s =>
      let s := s.updJob j fun v => { v with phases := v.phases.map fun q => if q.start == start then { q with complete := true } else q }
      s.signalLevel j p.outlet (recordWords p.c 0 j 2 (statusOf p.c false 0) s.tstamp (s.job j).gvt p.start)

def execPhaseCompletion (s : State) : Host.Outcome State Fault Refusal := .next (s.completePhase s.arg.j s.arg.w0)

/-! ## Creation (R21, R22, R75) -/

/-- The launch that a header describes; `none` where the header is rejected (R22). -/
def headerOf (hdr : BitVec 48) (bs : List Byte) : Option Launch :=
  let w := fun (n : Nat) => (leBits 64 ((bs.drop (8 * n)).take 8) : Word)
  let f := fun (n lo len : Nat) => (w n).toNat / 2 ^ lo % 2 ^ len
  let x : Launch :=
    { hdr := hdr, nbar := f 0 53 9, maxs := f 0 48 5, opt := (w 0).getLsbD 47, nreg := f 0 40 7, entry := BitVec.ofNat 32 (f 1 32 32),
      ntile := f 1 0 9, ringb := f 2 40 20, scrb := f 2 20 20, codeb := f 2 0 20, window := w 3 }
  if f 0 0 32 ≠ 0x314B484E || f 0 32 8 ≠ 1 || decide (62 < x.nreg) || decide (384 < x.ntile) || decide (256 < x.nbar) ||
      decide (786432 < x.codeb) || decide (x.entry.toNat % 2 = 1) || (x.codeb != 0 && decide (x.codeb ≤ x.entry.toNat)) ||
      (x.opt && decide (x.ringb < 2048)) || x.residency == 0 then none
  else some x

/-- How a creation ends. -/
inductive Made where
  | fault (f : Fault')
  /-- A PRED entry breaks R75. -/
  | desc
  /-- No LSLOT or no sequence value is free. -/
  | wait
  | made (s : State) (l : Lslot)

/-- The lowest free LSLOT of a job. -/
def Job.freeLslot (v : Job) : Option Lslot :=
  match (List.range (v.launches.length + 1)).find? (fun i => !Tab.has v.launches i) with
  | some i => if i < 65536 then some (BitVec.ofNat 16 i) else none
  | none => none

/-- The graph that a descriptor names, if it is open or opened by it (R75). -/
def Job.graphNamed (v : Job) (w5 : Word) : Option (BitVec 16) :=
  let g := w5.extractLsb' 48 16
  if g = 0xFFFF#16 then none
  else if w5.getLsbD 47 then some g
  else match Tab.find v.graphs g.toNat with
    | some x => if x.closed || x.complete then none else some g
    | none => none

/-- The predecessors that a descriptor names. -/
def predsOf (w6 : Word) : List Lslot := ((List.range 4).map fun i => w6.extractLsb' (16 * i) 16).filter (· ≠ 0xFFFF#16)

/-- The graph of a launch as its job holds it. -/
def Job.graphOf (v : Job) (g : Option (BitVec 16)) : Graph := match g with | some g => Tab.get {} v.graphs g.toNat | none => {}

/-- A predecessor of the launch has completed with another status than OK (R30). -/
def Job.predFailed (v : Job) (x : Launch) : Bool := (v.graphOf x.graph).done.any fun d => x.pred.contains d.1 && d.2 != 0

/-- The launch entered in its job and its graph (steps 3 to 5 of R75), with its entry task, or with the status with which it completes at once.
The entry task of a LAUNCH, by a strand of core c, goes to the management core as a message of that core (R421); that of a JOBSTART is there.
A descriptor with GOPEN = 1 whose graph is open already, or closed and not complete, joins that graph, which keeps its area (DESIGN CHOICE,
log 19). -/
def State.enterLaunch (s : State) (by' : Option (CoreId × StrandId)) (j : JobId) (l : Lslot) (x : Launch) (w5 : Word) (area : BitVec 48) (q : QEntry ⊕ Nat) :
    State :=
  let done := ((s.job j).graphOf x.graph).done
  let pred := x.pred.filter fun p => !(done.any fun d => d.1 == p)
  let x := { x with pred := pred, c := { tstart := s.tstamp } }
  let s := s.updJob j fun v =>
    { v with graphs := match x.graph with
        | some g =>
          let old : Graph := Tab.get { area := area, c := { tstart := s.tstamp } } v.graphs g.toNat
          Tab.put v.graphs g.toNat { old with members := old.members ++ [l], closed := old.closed || w5.getLsbD 46 }
        | none => v.graphs }
  match q with
  | .inr status => (s.updLaunch j l fun _ => { x with bad := some status }).soon .launchCompletion { j := j, l := l }
  | .inl q =>
    let q := { q with t := { q.t with lslot := l } }
    let s := (s.updLaunch j l fun _ => { x with entryTask := if by'.isSome then none else some q }).born j l q.t.vt
    let s := match by' with | some (c, k) => (s.enterSend c k q none []).updCore c fun v => v.launchSent k | none => s
    if pred = [] then s.startLaunch j l else s

/-- What a creation reads (step 1 of R75): the descriptor, the header unless it is misaligned, and the arguments, each once; or the fault. A JOBSTART
whose descriptor is not aligned to 64 bytes meets a fault of that read, and so is answered BADADDR (DESIGN CHOICE, log 19). -/
def State.readLaunch (s : State) (c : CoreId) (j : JobId) (va : BitVec 48) : LaunchDesc ⊕ Fault' :=
  match s.jobBlock c j va 64 64 with
  | .inr f => .inr f
  | .inl bs =>
    let w := fun (n : Nat) => (leBits 64 ((bs.drop (8 * n)).take 8) : Word)
    let hdr := vaOf (w 0)
    let head := if hdr.toNat % 64 ≠ 0 then Sum.inl none else match s.jobBlock c j hdr 64 64 with
      | .inl b => Sum.inl (headerOf hdr b)
      | .inr f => Sum.inr f
    let args := if w 1 = 0 then Sum.inl (List.replicate 48 (0 : Byte)) else s.jobBlock c j (vaOf (w 1)) 48 8
    match head, args with
    | .inr f, _ => .inr f
    | _, .inr f => .inr f
    | .inl h, .inl ab =>
      .inl { ws := (List.range 8).map w, head := h, args := (List.range 6).map fun i => leBits 64 ((ab.drop (8 * i)).take 8) }

/-- What a creation has read leaves its trace at the homes of those lines (R196, R199). -/
def State.visitLaunch (s : State) (c : CoreId) (j : JobId) (va : BitVec 48) (d : LaunchDesc) : State :=
  let hdr := vaOf (d.ws.headD 0); let args := (d.ws[1]?).getD 0
  let s := s.visitRead c j va 64
  let s := if hdr.toNat % 64 = 0 then s.visitRead c j hdr 64 else s
  if args = 0 then s else s.visitRead c j (vaOf args) 48

/-- A launch created for a core from what was read (R75): `byTask` names the strand of a LAUNCH, none a JOBSTART. For an entry task that would be optimistic at
VT never, LAUNCH raises the causality fault, before it looks at a PRED that has failed and before it waits for an LSLOT; what a JOBSTART does with
such a descriptor the manual does not say, and here it creates the launch and its task as they stand (R15; DESIGN CHOICE, log 19). A rejected
header (BADHDR) comes before a PRED that has failed (DESIGN CHOICE, log 19). A launch that is rejected or fails at once creates no task, and takes
no sequence value. -/
def State.createLaunch (s : State) (c : CoreId) (j : JobId) (d : LaunchDesc) (byTask : Option StrandId) : Made :=
  let w := fun (n : Nat) => (d.ws[n]?).getD 0
  let v := s.job j
  let g := v.graphNamed (w 5)
  let preds := predsOf (w 6)
  let x : Launch :=
    { d.head.getD { hdr := vaOf (w 0) } with
      crec := vaOf (w 3), sigw := vaOf (w 4), graph := g, ven := (w 5).getLsbD 7, vec := (w 5).extractLsb' 0 7, pred := preds }
  if !(preds.all fun p => (v.graphOf g).members.contains p) then .desc
  else if byTask.isSome && d.head.isSome && x.opt && w 2 == 0xFFFFFFFFFFFFFFFF#64 then .fault (mkFault clsCausality)
  else match v.freeLslot with
  | none => .wait
  | some l =>
    let enter := fun (s : State) (q : QEntry ⊕ Nat) => Made.made (s.enterLaunch (byTask.map fun k => (c, k)) j l x (w 5) (vaOf (w 7)) q) l
    if d.head.isNone then enter s (.inr 2)
    else if v.predFailed x then enter s (.inr 1)
    else if !s.seqFree c then .wait
    else
      let col := (v.leaf (if byTask.isSome then .core c else .mgmt)).colour
      let q : QEntry :=
        { t := { odev := s.devnum, origin := c, seq := (s.core c).seq, colour := col, kind := 0x13#6, job := j, opt := x.opt, vt := w 2,
                 pc := x.hdr + 64 + x.entry.setWidth 48, args := d.args },
          pts := if byTask.isSome then (s.core c).pts else 0 }
      enter (s.updCore c fun v => { v with seq := v.seq + 1 }) (.inl q)

/-! ## Requests to the management core (R166, R167) -/

/-- LAUNCH_REQUEST_AT_MANAGEMENT_CORE: the launch is created, or the fault is the LAUNCH's; while no LSLOT is free the request waits. -/
def State.serveLaunch (s : State) (n : Nat) : State :=
  match s.msgReq n with
  | none => s
  | some r =>
    let wait := fun (s : State) => (s.updCore r.core fun v =>
      { v with reqs := v.reqs.map fun x => if x.id = r.id then { x with waiting := true } else x }).push 64 .launchRequestAtManagementCore { n := n }
    let reply := fun (s : State) (v : Rep) (data : Bool) => (({ s with descs := Tab.del s.descs n } : State).dropMsg n).replyTo s.epMgmt r v data
    let create := fun (s : State) (d : LaunchDesc) =>
      if (s.job r.job).cancelled then wait s
      else match s.createLaunch r.core r.job d (some r.strand) with
      | .fault f => reply s { fault := some f } false
      | .desc => reply s { fault := some (mkFault clsOperand) } false
      | .wait => wait s
      | .made s l => reply s { w0 := l.setWidth 64 } true
    match Tab.find s.descs n with
    | some d => create s d
    | none =>
      match s.readLaunch r.core r.job r.va with
      | .inr f => reply s { fault := some f } false
      | .inl d => create { s.visitLaunch r.core r.job r.va d with descs := Tab.put s.descs n d } d

def execLaunchRequestAtManagementCore (s : State) : Host.Outcome State Fault Refusal := .next (s.serveLaunch s.arg.n)

/-- CANCEL_REQUEST_AT_MANAGEMENT_CORE: x[RD] receives 0 where the cancel took effect, 3 otherwise. -/
def execCancelRequestAtManagementCore (s : State) : Host.Outcome State Fault Refusal :=
  .next (match s.msgReq s.arg.n with
    | some r =>
      let (s, ok) := (s.dropMsg s.arg.n).cancel r.job (r.w1.extractLsb' 0 2) r.w0
      s.replyTo s.epMgmt r { w0 := if ok then 0 else 3 } true
    | none => s)

/-! ## Binding (R73, R74) -/

/-- A bind record's words with the reserved bits read as 0. Bits 10:0 of CODEOFF, which must be 0, are dropped: the bind uses the offset rounded
down (DESIGN CHOICE, log 19). -/
def bindRec (w0 w1 w2 : Word) : BindRec := { v := w0.getLsbD 63, w0 := w0 &&& 0xFFFFFFF8000FF800#64, w1 := w1, w2 := w2 }

/-- The bind of a launch undone because its code cannot be read. -/
def State.badCode (s : State) (j : JobId) (l : Lslot) (cls : Nat) : State :=
  let s := s.updLaunch j l fun x => { x with bad := some 4, c := x.c.fault cls 0 }
  let held := (s.launch j l).waiting
  let s := s.updLaunch j l fun x => { x with waiting := [] }
  let s := held.foldl (fun s q => if q.t.anti then s else s.retire j l q.t.vt) s
  match (s.launch j l).entryTask with
  | some q => (s.updLaunch j l fun x => { x with entryTask := none }).retire j l q.t.vt
  | none => s

/-- BIND: a record written with V = 1 binds the launch that it names; where that launch is not live, the write is ignored (DESIGN CHOICE,
log 19). If its code cannot be read, the record stands as written but for V. -/
def State.bind (s : State) (n : Nat) (w0 w1 w2 : Word) : State :=
  let old := Tab.get {} s.slotTable n
  let r := bindRec w0 w1 w2
  let j : JobId := w0.extractLsb' 56 4
  let l : Lslot := w0.extractLsb' 40 16
  if old.v || 256 ≤ n then s
  else if !r.v then { s with slotTable := Tab.put s.slotTable n r }
  else if (s.launch j l).bound.isSome || !(s.job j).live l then s
  else
    let x := s.launch j l
    match s.jobRead 0 j (x.hdr + 64) x.codeb with
    | .inr f => ({ s with slotTable := Tab.put s.slotTable n { r with v := false } } : State).badCode j l f.cls
    | .inl (code, bad) =>
      let s := ({ s.visitRead 0 j (x.hdr + 64) x.codeb with slotTable := Tab.put s.slotTable n r } : State).updLaunch j l fun x =>
        { x with bound := some n, bmaxs := (w0.extractLsb' 35 5).toNat, codeoff := (w0.extractLsb' 0 20).toNat / 2048 * 2048, cmask := w1, cores := w2,
                 prio := (w0.extractLsb' 60 3).toNat, code := code, codePois := bad }
      let x := s.launch j l
      let s := x.coreList.foldl (fun s c => let s := s.scrub c; if (s.core c).canInstall x then s.install c j l else s.updCore c id) s
      let held := if x.isBound then x.waiting else []
      let s := if !x.isBound then s else s.updLaunch j l fun x => { x with waiting := held.filter fun q => q.t.anti }
      (held.filter fun q => !q.t.anti).foldl (fun s q => s.sendOn q) s

def execBind (s : State) : Host.Outcome State Fault Refusal := .next (s.bind s.arg.n s.arg.w0 s.arg.w1 s.arg.w2)

end Sys2Proof.Machine
end

