-- ==== Sys2Proof/Machine/VersionHomes.lean ====
section
/-! DEFINITION. The ephemeris: version stores, loads, queries, retractions, read counts, marks, commits and reclamation at the home of a
tile and RESIZE (spec/10_isa_memory.md R222 to R230; spec/08_isa_scalar.md R157; spec/18_optimistic.md R349, R363; spec/24_retire.md R416, R417; notes/assumptions 17). -/

namespace Sys2Proof.Machine

/-! ## Entries -/

def Version.is (v : Version) (j : JobId) (nm ver : Word) : Bool := v.job == j && v.name == nm && v.ver == ver

def Cluster.version (v : Cluster) (j : JobId) (nm ver : Word) : Option Version := v.vers.find? fun x => x.is j nm ver

/-- An entry changed. -/
def State.updVersion (s : State) (cl : ClusterId) (j : JobId) (nm ver : Word) (f : Version → Version) : State :=
  s.updCluster cl fun v => { v with vers := v.vers.map fun x => if x.is j nm ver then f x else x }

/-- An entry back in state none. -/
def State.dropVersion (s : State) (cl : ClusterId) (j : JobId) (nm ver : Word) : State :=
  s.updCluster cl fun v => { v with vers := v.vers.filter fun x => !x.is j nm ver }

/-- GVT as a home knows it (R357): its cluster's. -/
def State.homeGvt (s : State) (cl : ClusterId) (j : JobId) : Word := ((s.job j).leaf (.dispenser cl)).gvt

/-- An exact read of a version waits at its home. -/
def Cluster.waitedFor (v : Cluster) (j : JobId) (nm ver : Word) : Bool :=
  v.vwait.any fun r => r.job == j && r.w0 == nm && r.w1 == ver && (r.kind == .verldEq || r.kind == .verrel)

/-- The version dies and its storage is free (R227). -/
def Version.kill (x : Version) : Version := { x with st := .dead, tile := {}, near := false, marks := [], r := 0, p := 0 }

def Version.live (x : Version) : Bool := x.st == .tentative || x.st == .committed || x.st == .poisoned
def Version.final (x : Version) : Bool := x.st == .committed || x.st == .poisoned

/-! ## Loads (R225 to R227) -/

/-- A grant: the tile goes to the reader, poisoned where the version is; the version read goes with it. -/
def State.grant (s : State) (r : Req) (x : Version) : State :=
  s.replyTo (s.servedAt r) r { tile := { x.tile with poison := x.st == .poisoned || x.tile.poison }, w0 := x.ver, wts := x.wts } (r.kind != .verrel)

def State.verFault (s : State) (r : Req) (cls : Nat) : State :=
  s.replyTo (s.servedAt r) r { fault := some { cls := cls, addr := r.w0, aux := r.w1 } } false

/-- An exact read of a version that may be read, if its count allows one (R227). P is kept for an unlimited version as well (DEDUCED, log 17). -/
def State.readExact (s : State) (cl : ClusterId) (r : Req) (x : Version) : Option State :=
  let upd := s.updVersion cl r.job x.name x.ver
  if x.unlimited then
    some ((if r.opt then upd fun y => { y with p := y.p + 1, marks := y.marks ++ [(r.core, r.ident)] } else s).grant r x)
  else if x.r ≤ x.p then none
  else if r.opt then some ((upd fun y => { y with p := y.p + 1, marks := y.marks ++ [(r.core, r.ident)] }).grant r x)
  else some ((upd fun y => if y.r = 1 ∧ y.p = 0 then y.kill else { y with r := y.r - 1 }).grant r x)

/-- The latest version at or below a time that may be read (R226). -/
def Cluster.latest (v : Cluster) (j : JobId) (nm t : Word) : Option Version :=
  (v.vers.filter fun x => x.job == j && x.name == nm && decide (x.ver ≤ t) && x.live).foldl
    (fun b x => match b with | some y => if y.ver < x.ver then some x else some y | none => some x) none

/-- A version of a tile at or below a time has died, whether its entry still says so or has returned to none. -/
def Cluster.someDied (v : Cluster) (j : JobId) (nm t : Word) : Bool :=
  (v.vers.any fun x => x.job == j && x.name == nm && decide (x.ver ≤ t) && x.st == .dead) ||
    v.died.any fun d => d.1 == j && d.2.1 == nm && decide (d.2.2 ≤ t)

/-- A load by time, if it can be decided now. An optimistic loader that finds no version waits unless one has died; a conservative loader waits
for GVT to pass its time. -/
def State.readAsof (s : State) (cl : ClusterId) (r : Req) : Option State :=
  let v := s.cluster cl
  let t := r.w1
  let g := s.homeGvt cl r.job
  let under := v.vers.filter fun x => x.job == r.job && x.name == r.w0 && decide (x.ver ≤ t)
  match v.latest r.job r.w0 t with
  | some x =>
    if r.opt then
      let m : AsofMark := { job := r.job, name := r.w0, core := r.core, t := r.ident, vt := r.vt, bound := if t < r.vt then t else r.vt, ver := x.ver }
      some ((s.updCluster cl fun v => { v with asof := v.asof ++ [m] }).grant r x)
    else if t < g && !(under.any fun x => x.st == .tentative) then some (s.grant r x)
    else none
  | none => if if r.opt then v.someDied r.job r.w0 t else decide (t < g) then some (s.verFault r clsVerDead) else none

/-- A version load or VERREL, if it can be decided now (R225). -/
def State.readVersion (s : State) (cl : ClusterId) (r : Req) : Option State :=
  if r.kind == .verldAsof then s.readAsof cl r
  else match (s.cluster cl).version r.job r.w0 r.w1 with
  | none => none
  | some x =>
    match x.st with
    | .absent => none
    | .retracted => none
    | .dead => some (s.verFault r clsVerDead)
    | .tentative => if r.opt then s.readExact cl r x else none
    | .committed => s.readExact cl r x
    | .poisoned => s.readExact cl r x

/-! ## Storage of versions (R1, R194, R222) -/

/-- The ephemeris of a slice has a free entry for a version: of 262,144 (R1), or the entry that it has already. -/
def Cluster.entryFree (v : Cluster) (j : JobId) (nm ver : Word) : Bool := (v.version j nm ver).isSome || decide (v.vers.length < 262144)

/-- The space of a tile name. -/
def spaceOf (nm : Word) : Nat := (nm.extractLsb' 56 8).toNat

/-- The near versions that a version-store way holds. -/
def Cluster.inWay (v : Cluster) (w : Nat) : List Version := v.vers.filter fun x => x.near && x.vway == w

/-- The version-store way, from 15 downward, that takes a near version without block scales: one with a free tile of its 1,024 (R194, R222). -/
def State.nearWay (s : State) (cl : ClusterId) (j : JobId) (nm : Word) (t : Tile) : Option Nat :=
  let v := s.cluster cl
  if (s.job j).near.getLsbD (spaceOf nm) && t.scales.isEmpty then
    ((List.range v.vways).map (15 - ·)).find? fun w => decide ((v.inWay w).length < 1024)
  else none

/-- A version that occupies the HBM version storage of its job and space. -/
def Version.inHbm (x : Version) (j : JobId) (space : Nat) : Bool := x.job == j && spaceOf x.name == space && x.live && !x.near

/-- The HBM version storage of a job and space has room at a slice. -/
def Cluster.hbmRoom (v : Cluster) (j : JobId) (space : Nat) : Bool :=
  decide ((v.vers.filter fun x => x.inHbm j space).length < Config.versionTiles j.toNat space)

/-- Where a new version is stored: near in a way, or in HBM; none where no storage can be obtained. -/
def State.storage (s : State) (cl : ClusterId) (j : JobId) (nm : Word) (t : Tile) : Option (Option Nat) :=
  match s.nearWay cl j nm t with
  | some w => some (some w)
  | none => if (s.cluster cl).hbmRoom j (spaceOf nm) then some none else none

/-! ## Stores (R222, R224, R228) -/

/-- A task precedes another in event order (R19). -/
def precedes (vt : Word) (i : Ident) (vt' : Word) (i' : Ident) : Bool :=
  decide (vt.toNat * 2 ^ 38 + (i.odev.toNat * 4096 + i.origin.toNat) * 2 ^ 20 + i.seq.toNat <
    vt'.toNat * 2 ^ 38 + (i'.odev.toNat * 4096 + i'.origin.toNat) * 2 ^ 20 + i'.seq.toNat)

/-- A version-arrival notice. -/
def State.sendNotice (s : State) (cl : ClusterId) (j : JobId) (c : CoreId) (v : Notice) : State :=
  s.sendNew { src := s.epSlice cl, dst := s.epCore c, kind := 0x24#6, job := j, body := .notice c v }

/-- The stragglers that a created version finds (R228, R349): `dec` tells a decoder's creation. -/
def State.noticeStragglers (s : State) (cl : ClusterId) (x : Version) (dec : Bool) : State :=
  let hit := (s.cluster cl).asof.filter fun m =>
    m.job == x.job && m.name == x.name && decide (m.ver < x.ver) && decide (x.ver ≤ m.bound) &&
      (x.ver != m.vt || dec || precedes x.creatorVt x.creator m.vt m.t)
  hit.foldl (fun s m => s.sendNotice cl x.job m.core { straggler := true, name := x.name, ver := x.ver, t := m.t }) s

/-- A version put where its storage is, in place of its entry; its stragglers are told. -/
def State.putVersion (s : State) (cl : ClusterId) (x : Version) (at' : Option Nat) (dec : Bool) : State :=
  let x := { x with near := at'.isSome, vway := at'.getD 0 }
  ((s.dropVersion cl x.job x.name x.ver).updCluster cl fun v => { v with vers := v.vers ++ [x] }).noticeStragglers cl x dec

/-- The version that a VERST creates. -/
def Req.version (r : Req) : Version :=
  { job := r.job, name := r.w0, ver := r.w1, st := if r.tile.poison then .poisoned else if r.opt then .tentative else .committed,
    unlimited := r.w2 == 0, r := r.w2.toNat, creator := r.ident, creatorVt := r.vt, tile := { r.tile with poison := false }, wts := r.pts,
    dec := r.err.isSome, err := r.err.getD 0 }

/-- A VERST at its home, if it can be decided now: while no storage can be obtained it waits (R222). -/
def State.storeVersion (s : State) (cl : ClusterId) (r : Req) : Option State :=
  let make :=
    match if (s.cluster cl).entryFree r.job r.w0 r.w1 then s.storage cl r.job r.w0 r.tile else none with
    | some at' => some ((s.putVersion cl r.version at' r.err.isSome).replyTo (s.servedAt r) r {} false)
    | none => none
  match (s.cluster cl).version r.job r.w0 r.w1 with
  | none => make
  | some y =>
    if y.st = .absent then make
    else if !y.dec && y.creator == r.ident then some (s.replyTo (s.servedAt r) r {} false)
    else some (s.verFault r clsVerConflict)

/-! ## Reclamation (R416, R417) -/

/-- A waiting load keeps a version alive: an exact one, or one by time that would be granted it as things stand (DEDUCED, log 17). -/
def Cluster.keptFor (v : Cluster) (j : JobId) (nm ver : Word) : Bool :=
  v.waitedFor j nm ver || v.vwait.any fun r => r.kind == .verldAsof && r.job == j && r.w0 == nm && match v.latest j nm r.w1 with | some x => x.ver == ver | none => false

/-- Unlimited versions of a tile that a newer one at or below GVT supersedes die; dead entries below GVT return to none. -/
def State.reclaimTile (s : State) (cl : ClusterId) (j : JobId) (nm : Word) : State :=
  let v := s.cluster cl
  let g := s.homeGvt cl j
  let mine := fun (x : Version) => x.job == j && x.name == nm
  let newer := fun (x : Version) => v.vers.any fun y => mine y && y.final && decide (x.ver < y.ver) && decide (y.ver ≤ g)
  let vs := v.vers.map fun x => if mine x && x.unlimited && x.final && newer x && !v.keptFor j nm x.ver then x.kill else x
  let gone := fun (x : Version) => mine x && x.st == .dead && decide (x.ver < g) && !v.waitedFor j nm x.ver
  let died := (vs.filter gone).map (·.ver) ++ (v.died.filter fun d => d.1 == j && d.2.1 == nm).map (·.2.2)
  s.updCluster cl fun v =>
    { v with vers := vs.filter fun x => !gone x,
             died := v.died.filter (fun d => !(d.1 == j && d.2.1 == nm)) ++
               (match died with | [] => [] | a :: r => [(j, nm, r.foldl (fun m x => if x < m then x else m) a)]) }

/-! ## Passes over what waits (R227) -/

/-- A waiting request decided now, if it can be. -/
def State.decideVersion (s : State) (cl : ClusterId) (r : Req) : Option State :=
  if r.kind == .verst then s.storeVersion cl r else s.readVersion cl r

/-- The store of a request, decided now, creates a COMMITTED version. -/
def State.commits (s : State) (cl : ClusterId) (r : Req) : Bool :=
  r.kind == .verst && r.version.st == .committed && match (s.cluster cl).version r.job r.w0 r.w1 with | some y => y.st == .absent | none => true

/-- Waiting requests in arrival order, as far as they can be decided; a version that is created COMMITTED may supersede others of its tile. -/
def State.versionPass (s : State) (cl : ClusterId) (rs : List Req) : State × Bool :=
  match rs with
  | [] => (s, false)
  | r :: rest =>
    match s.decideVersion cl r with
    | some s' =>
      let s' := s'.updCluster cl fun v => { v with vwait := v.vwait.filter fun x => !(x.id == r.id && x.core == r.core) }
      let s' := if s.commits cl r then s'.reclaimTile cl r.job r.w0 else s'
      ((s'.versionPass cl rest).1, true)
    | none => s.versionPass cl rest

/-- Passes until no waiting load of the tile, and no store that waits for storage, can be decided. -/
def State.serveVersions (s : State) (cl : ClusterId) (j : JobId) (nm : Word) (fuel : Nat) : State :=
  match fuel with
  | 0 => s
  | n + 1 =>
    let (s', any) := s.versionPass cl ((s.cluster cl).vwait.filter fun r => r.kind == .verst || (r.job == j && r.w0 == nm))
    if any then s'.serveVersions cl j nm n else s'

def State.versionsChanged (s : State) (cl : ClusterId) (j : JobId) (nm : Word) : State :=
  s.serveVersions cl j nm ((s.cluster cl).vwait.length + 1)

/-- VERSION_LOAD_AT_HOME: VERLD.EQ, VERLD.ASOF and VERREL. A load that waits makes an entry ABSENT where there is none, if
the ephemeris has one free (DESIGN CHOICE, log 17). -/
def State.serveVerld (s : State) (r : Req) : State :=
  let cl := verHome r.job r.w0
  match s.readVersion cl r with
  | some s' => s'.versionsChanged cl r.job r.w0
  | none =>
    if s.stopHolds r then s.replyTo (s.servedAt r) r { withdrawn := true } false
    else s.updCluster cl fun v =>
      { v with vwait := v.vwait ++ [{ r with waiting := true }],
               vers := if r.kind == .verldAsof || (v.version r.job r.w0 r.w1).isSome || !v.entryFree r.job r.w0 r.w1 then v.vers
                       else v.vers ++ [{ job := r.job, name := r.w0, ver := r.w1, st := .absent }] }

def execVersionLoadAtHome (s : State) : Host.Outcome State Fault Refusal := .next (s.serve s.arg.n fun s r => s.serveVerld r)

/-- Reclamation of a tile, and what may proceed by it (R369 shows a version that has died so, R416 that its entry returns to none in the same action where
GVT exceeds it, which is followed; DEDUCED, log 17). -/
def State.reclaim (s : State) (cl : ClusterId) (j : JobId) (nm : Word) : State := (s.reclaimTile cl j nm).versionsChanged cl j nm

/-- What a home does when a GVT broadcast reaches it: waiting loads by time, then reclamation, tile by tile. -/
def State.homeBroadcast (s : State) (cl : ClusterId) (j : JobId) : State :=
  let v := s.cluster cl
  let names := ((v.vers.filter fun x => x.job == j).map (·.name) ++ (v.vwait.filter fun r => r.job == j).map (·.w0)).eraseDups
  names.foldl (fun s nm => (s.versionsChanged cl j nm).reclaim cl j nm) s

/-! ## What a store does at its home -/

/-- A version created at its home: the waiters are served; a committed one may supersede others. -/
def State.createVersion (s : State) (cl : ClusterId) (x : Version) (at' : Option Nat) (dec : Bool) : State :=
  let s := (s.putVersion cl x at' dec).versionsChanged cl x.job x.name
  if x.st = .committed then s.reclaim cl x.job x.name else s

/-- VERSION_STORE_AT_HOME: decided at once, or waiting for storage; its strand then parks on a reservation slot (R222; DEDUCED, log 17). -/
def State.serveVerst (s : State) (r : Req) : State :=
  let cl := verHome r.job r.w0
  let stands := match (s.cluster cl).version r.job r.w0 r.w1 with | some y => y.st != VSt.absent | none => false
  match s.storeVersion cl r with
  | some s' =>
    if stands then s'
    else
      let s' := s'.versionsChanged cl r.job r.w0
      if r.version.st = VSt.committed then s'.reclaim cl r.job r.w0 else s'
  | none => if s.stopHolds r then s.replyTo (s.servedAt r) r { withdrawn := true } false else
    let s := s.updCluster cl fun v => { v with vwait := v.vwait ++ [{ r with waiting := true }] }
    s.updStrand r.core r.strand fun t => { t with park := match t.park with | .reply n c => if n = r.id then .reply n 6 else .reply n c | p => p }

def execVersionStoreAtHome (s : State) : Host.Outcome State Fault Refusal := .next (s.serve s.arg.n fun s r => s.serveVerst r)

/-- VERSION_RETRACTION (R223, R228): its readers are told; the entry is ABSENT while loads wait for it, else none. The cluster's
dispenser counts the receipt (R358; DEDUCED, log 19). -/
def State.serveRetract (s : State) (r : Req) : State :=
  let cl := verHome r.job r.w0
  let s := s.replyTo (s.servedAt r) r {} false
  match (s.cluster cl).version r.job r.w0 r.w1 with
  | none => s
  | some x =>
    if x.st ≠ .tentative then s
    else
      let tell := x.marks ++ ((s.cluster cl).asof.filter fun m => m.job == r.job && m.name == r.w0 && m.ver == r.w1).map fun m => (m.core, m.t)
      let s := tell.foldl (fun s (m : CoreId × Ident) => s.sendNotice cl r.job m.1 { straggler := false, name := r.w0, ver := r.w1, t := m.2 }) s
      let s := if (s.cluster cl).waitedFor r.job r.w0 r.w1 then
          s.updVersion cl r.job r.w0 r.w1 fun x => { job := x.job, name := x.name, ver := x.ver, st := .absent }
        else s.dropVersion cl r.job r.w0 r.w1
      s.versionsChanged cl r.job r.w0

def execVersionRetraction (s : State) : Host.Outcome State Fault Refusal :=
  .next (match Tab.find s.msgs s.arg.n with
    | some m =>
      (s.updLeaf m.job (.dispenser m.dst.router) fun v => v.recv m.colour).serve s.arg.n fun s r => s.serveRetract r
    | none => s)

/-! ## Read counts and marks -/

/-- One mark of a reader removed. -/
def Version.unmark (x : Version) (c : CoreId) (t : Ident) : Version := { x with marks := x.marks.erase (c, t) }

/-- EXACT_READ_RELEASE (R227): the rollback of an exact read. -/
def State.serveRelease (s : State) (r : Req) : State :=
  let cl := verHome r.job r.w0
  let s := s.updVersion cl r.job r.w0 r.w1 fun x => if x.live then { (x.unmark r.core r.ident) with p := x.p - 1 } else x
  (s.versionsChanged cl r.job r.w0).replyTo (s.servedAt r) r {} false

def execExactReadRelease (s : State) : Host.Outcome State Fault Refusal := .next (s.serve s.arg.n fun s r => s.serveRelease r)

/-- READ_MARK_REMOVAL (R350, R363). -/
def State.serveUnmark (s : State) (r : Req) : State :=
  let cl := verHome r.job r.w0
  let s := s.updCluster cl fun v =>
    { v with asof := v.asof.eraseP fun m => m.job == r.job && m.name == r.w0 && m.ver == r.w1 && m.core == r.core && m.t == r.ident }
  s.replyTo (s.servedAt r) r {} false

def execReadMarkRemoval (s : State) : Host.Outcome State Fault Refusal := .next (s.serve s.arg.n fun s r => s.serveUnmark r)

/-- VERSION_COMMIT (R363): of a creation (`w2` 4) or of an exact read (`w2` 5). -/
def State.serveVerCommit (s : State) (r : Req) : State :=
  let cl := verHome r.job r.w0
  let s := s.updVersion cl r.job r.w0 r.w1 fun x =>
    if r.w2 = 4 then (if x.st = .tentative then { x with st := .committed } else x)
    else
      let x := x.unmark r.core r.ident
      if !x.live then x
      else if x.unlimited then { x with p := x.p - 1 }
      else if x.r ≤ 1 ∧ x.p ≤ 1 then x.kill
      else { x with r := x.r - 1, p := x.p - 1 }
  let s := s.versionsChanged cl r.job r.w0
  (if r.w2 = 4 then s.reclaim cl r.job r.w0 else s).replyTo (s.servedAt r) r {} false

def execVersionCommit (s : State) : Host.Outcome State Fault Refusal := .next (s.serve s.arg.n fun s r => s.serveVerCommit r)

/-! ## Queries (R229) -/

def VSt.num (x : VSt) : Nat := match x with | .absent => 1 | .tentative => 2 | .committed => 3 | .poisoned => 4 | .retracted => 5 | .dead => 6

/-- The result of VERQ for an entry. -/
def Version.query (x : Version) : Word :=
  BitVec.ofNat 16 (if x.st = .poisoned then x.err.toNat else 0) ++ BitVec.ofNat 16 (min x.p 0xFFFF) ++
    BitVec.ofNat 16 (if x.unlimited || x.st == .dead then 0 else x.r) ++ 0#12 ++ BitVec.ofBool x.near ++ BitVec.ofNat 3 x.st.num

def execVersionQueryAtHome (s : State) : Host.Outcome State Fault Refusal :=
  .next (s.serve s.arg.n fun s r =>
    let w := match (s.cluster (verHome r.job r.w0)).version r.job r.w0 r.w1 with | some x => x.query | none => 0
    s.replyTo (s.servedAt r) r { w0 := w } true)

/-! ## RESIZE (R157, R194) -/

/-- The lines that stand in some ways of a slice leave it (R186): mts rises, and dirty ones are written back. -/
def Cluster.evictWays (v : Cluster) (ws : List Nat) : Cluster :=
  (v.lines.filter fun e => match e.2.way with | some w => ws.contains w | none => false).foldl (fun v e => v.evictLine e.1) v

/-- Versions moved one by one to the HBM version storage of their job and space; none where one of them finds no room. -/
def Cluster.moveOut (v : Cluster) (xs : List Version) : Option Cluster :=
  match xs with
  | [] => some v
  | x :: r =>
    if v.hbmRoom x.job (spaceOf x.name) then
      ({ v with vers := v.vers.map fun y => if y.is x.job x.name x.ver then { y with near := false, vway := 0 } else y } : Cluster).moveOut r
    else none

/-- Version-store ways turned back into cache ways, the lowest first, as long as every version of the next can move. -/
def Cluster.shrink (v : Cluster) (n : Nat) : Cluster :=
  match n with
  | 0 => v
  | m + 1 =>
    if v.vways = 0 then v
    else match v.moveOut (v.inWay (16 - v.vways)) with
    | some v' => ({ v' with vways := v.vways - 1 } : Cluster).shrink m
    | none => v

/-- The version-store ways of a slice set to a number, as far as storage allows. -/
def Cluster.resize (v : Cluster) (n : Nat) : Cluster :=
  if v.vways < n then { v.evictWays ((List.range (n - v.vways)).map fun i => 15 - v.vways - i) with vways := n }
  else v.shrink (v.vways - n)

/-- RESIZE_AT_SLICE: the reply carries the number of version-store ways in effect. -/
def State.serveResize (s : State) (r : Req) : State :=
  let cl := clusterOf r.core
  let s := (s.updCluster cl fun v => v.resize r.w0.toNat).versionsChanged cl r.job 0
  s.replyTo (s.servedAt r) r { w0 := BitVec.ofNat 64 (s.cluster cl).vways } true

def execResizeAtSlice (s : State) : Host.Outcome State Fault Refusal := .next (s.serve s.arg.n fun s r => s.serveResize r)

end Sys2Proof.Machine
end

