-- ==== Sys2Proof/Machine/Gvt.lean ====
section
/-! DEFINITION. Global virtual time and commit: rounds, waves, reports, broadcasts, and the commit of optimistic tasks
(spec/18_optimistic.md R357 to R364; spec/21_preempt.md R394; spec/10_isa_memory.md R221; notes/assumptions 19). -/

namespace Sys2Proof.Machine

/-! ## What a leaf reports (R358, R394) -/

/-- A leaf by its number in the table of leaves. -/
def leafOf (n : Nat) : Leaf :=
  if n < 4096 then .core (BitVec.ofNat 12 n)
  else if n < 4160 then .dispenser (BitVec.ofNat 6 (n - 4096))
  else if n < 4192 then .decoder (BitVec.ofNat 5 (n - 4160))
  else if n = 4192 then .mgmt
  else .port (BitVec.ofNat 4 (n - 4193))

/-- The leaves that hold something of a job, or whose state differs from the others': the rest report nothing (DESIGN CHOICE, log 4). -/
def State.liveLeaves (s : State) (j : JobId) : List Nat :=
  let cores := s.cores.map (fun (e : Nat × Core) => e.1)
  ((s.job j).leaves.map (fun (e : Nat × LeafSt) => e.1) ++ cores ++ cores.map (fun c => 4096 + c / 64) ++ s.clusters.map (fun (e : Nat × Cluster) => 4096 + e.1) ++
    (List.range 32).map (4160 + ·) ++ [4192]).eraseDups

/-- The decoder that holds a queued request of a die: its first. -/
def State.decoderReqs (s : State) (d : Nat) : List DecReq :=
  (match (Tab.get {} s.decoders d).run with | some r => [r] | none => []) ++ (if d % 8 = 0 then Tab.get [] s.decQueues (d / 8) else [])

/-- The virtual times that count toward lmin at a leaf. -/
def State.leafTimes (s : State) (j : JobId) (x : Leaf) : List Word :=
  match x with
  | .core c =>
    let v := s.core c
    (v.strands.filterMap fun e => e.2.task).filterMap (fun q => if q.t.job = j then some q.t.vt else none) ++
      (v.rings.filter fun b => b.job == j && b.ts == .rolling).map (·.t.t.vt) ++
      (v.sendBuf.filter fun e => !e.left && e.t.t.job == j).map (·.t.t.vt) ++
      ((s.job j).saved.tasks.filter fun e => e.1 == c).map (·.2.2.1.t.vt)
  | .dispenser cl => (s.coresOf cl).flatMap fun c => ((s.core c).entries.filter fun q => q.t.job == j).map (·.t.vt)
  | .decoder d => ((s.decoderReqs d.toNat).filter fun r => r.job == j).map fun r => r.base + BitVec.ofNat 64 r.frames
  | .mgmt => (s.job j).launches.flatMap fun (e : Nat × Launch) => (e.2.waiting ++ e.2.entryTask.toList).map (·.t.vt)
  | .port _ => []

/-- The least of some times, never below GVT. -/
def leastTime (g : Word) (l : List Word) : Word := l.foldl (fun m t => let t := wmax t g; if t < m then t else m) 0xFFFFFFFFFFFFFFFF#64

/-- A strand has more entries or blocks in the side log than its save area holds, which keeps the cut open (R396). -/
def State.overLogged (s : State) (c : CoreId) (k : StrandId) : Bool :=
  let log := s.slogOf c k
  decide (8 < log.length) || decide (2 < (log.filter fun e => e.2.kind == 2).length)

/-- OUT (R394): what of a job is outstanding at a leaf, its strands that have not reached a boundary, or whose side log does not fit their areas, among
it. -/
def State.leafOut (s : State) (j : JobId) (x : Leaf) : Nat :=
  match x with
  | .core c =>
    let v := s.core c
    (v.reqs.filter fun r => r.job == j && !r.late).length + (v.copies.filter fun e => e.job == j).length +
      ((v.mq ++ v.mrun.toList).filter fun m => m.job == j).length + (v.slog.filter fun e => e.2.st == 2 && e.2.job == j).length +
      (v.rings.filter fun b => b.job == j && (b.ts == .committing || b.ts == .rolling)).length + (v.sendBuf.filter fun e => e.t.t.job == j).length +
      (v.strands.filter fun e => e.2.job == j && e.2.task.isSome && (!e.2.atBoundary || s.overLogged c (BitVec.ofNat 4 e.1))).length
  | .dispenser cl =>
    (s.msgs.filter fun (e : Nat × Msg) => e.2.job == j && e.2.src == s.epDispenser cl && match e.2.body with | .shipped q _ _ => q.isSome | _ => false).length
  | .decoder d => ((s.decoderReqs d.toNat).filter fun r => r.job == j && !r.paused && ((Tab.get {} s.decoders d.toNat).run == some r)).length
  | .mgmt => (s.msgs.filter fun (e : Nat × Msg) => e.2.job == j && e.2.src == s.epMgmt && match e.2.body with | .task _ _ => true | _ => false).length
  | .port _ => 0

/-! ## Rounds (R360) -/

/-- Network cycles between rounds: GVTPER plus 1 microseconds at the nominal clock (R361; DESIGN CHOICE, log 14). A round keeps the value with
which it started. -/
def State.gvtPeriod (s : State) : Nat := 2800 * ((s.treectl.extractLsb' 0 6).toNat + 1)

/-- The pending start of a round of a job forgotten. -/
def State.dropRoundStart (s : State) (j : JobId) : State :=
  { s with agenda := s.agenda.filter fun (e : Nat × Instr × StepArg) => !(e.2.1 == .gvtRoundStart && e.2.2.j == j) }

/-- A round opens on this device: flips to colour k go out to its leaves, within 32 cycles. -/
def State.openHere (s : State) (j : JobId) (k stop : Bool) : State :=
  let s := s.dropRoundStart j
  let s := s.updJob j fun v => { v with round := { v.round with active := true, k := k, stop := stop, reps := [], due := [], final := false, period := s.gvtPeriod },
                                        idleLeaf := if stop then { v.idleLeaf with stopped := true } else v.idleLeaf }
  (s.liveLeaves j).foldl (fun s n => s.push 16 (if stop then .stopFlip else .colourFlip) { j := j, leaf := leafOf n, ok := k }) s

/-- The root opens a round: flips go out to its own leaves and to the other devices, and a first wave follows. A stop takes its place where one
waits. -/
def State.openRound (s : State) (j : JobId) (stop : Bool) : State :=
  let k := !(s.job j).rootColour
  ((s.openHere j k stop).sendDomain j (.flip k stop)).push 32 .gvtWaveStart { j := j }

/-- GVT_ROUND_START: every GVTPER after the previous round has closed, at the root of the domain; nothing while the job is stopped or a round runs, or
is on no device of it. A stop asked of the root takes the round's place. -/
def State.startRound (s : State) (j : JobId) : State :=
  let v := s.job j
  if !(v.resident || v.round.users != []) || v.stopped || v.round.active || !s.isRoot || v.round.held != [] then s
  else s.openRound j (v.round.asked != [])

def execGvtRoundStart (s : State) : Host.Outcome State Fault Refusal := .next (s.startRound s.arg.j)

/-- COLOUR_FLIP of a leaf (R359). -/
def execColourFlip (s : State) : Host.Outcome State Fault Refusal :=
  .next (if (s.job s.arg.j).round.active then s.updLeaf s.arg.j s.arg.leaf fun v => v.flip (s.job s.arg.j).round.k else s)

/-- The number under which the report of another device is awaited. -/
def deviceLeaf (dev : Nat) : Nat := 4209 + dev

/-- GVT_WAVE_START: the request for reports travels down the tree, from the root to the other devices too, each of which makes one report of its
leaves'; the leaves that hold nothing have flipped and report nothing. -/
def State.startWave (s : State) (j : JobId) : State :=
  if !(s.job j).round.active then s
  else
    let ls := s.liveLeaves j
    let ds := if s.isRoot then s.peers else []
    let s := s.updJob j fun v => { v with round := { v.round with reps := [], due := ls ++ ds.map deviceLeaf }, idleLeaf := v.idleLeaf.flip v.round.k }
    let s := ds.foldl (fun s d => s.sendTree d j .wave) s
    let s := ls.foldl (fun s n => s.push 32 .leafReport { j := j, leaf := leafOf n }) s
    s.push 96 (if (s.job j).round.stop then .eclipseCutClose else .gvtRoundClose) { j := j }

def execGvtWaveStart (s : State) : Host.Outcome State Fault Refusal := .next (s.startWave s.arg.j)

/-- LEAF_REPORT: a leaf that has not flipped flips first. -/
def State.leafReport (s : State) (j : JobId) (x : Leaf) : State :=
  let r := (s.job j).round
  if !r.active then s
  else
    let s := s.updLeaf j x fun v => v.flip r.k
    let v := (s.job j).leaf x
    let rep : LeafRep := { leaf := leafNum x, lmin := leastTime v.gvt (s.leafTimes j x), smin := wmax v.smin v.gvt,
                           cnt := if v.colour then v.cnt0 else v.cnt1, out := s.leafOut j x }
    s.updJob j fun w => { w with round := { w.round with reps := w.round.reps ++ [rep], due := w.round.due.erase (leafNum x) } }

def execLeafReport (s : State) : Host.Outcome State Fault Refusal := .next (s.leafReport s.arg.j s.arg.leaf)

/-- The sum of the old-colour counts, the least time and the sum of OUT of a wave. -/
def Round.sum (r : Round) : Int := (r.reps.map (·.cnt)).foldl (· + ·) 0
def Round.least (r : Round) : Word := r.reps.foldl (fun m x => let y := if x.lmin < x.smin then x.lmin else x.smin; if y < m then y else m) 0xFFFFFFFFFFFFFFFF#64
def Round.lmin (r : Round) : Word := r.reps.foldl (fun m x => if x.lmin < m then x.lmin else m) 0xFFFFFFFFFFFFFFFF#64
def Round.smin (r : Round) : Word := r.reps.foldl (fun m x => if x.smin < m then x.smin else m) 0xFFFFFFFFFFFFFFFF#64
def Round.out (r : Round) : Nat := (r.reps.map (·.out)).sum

/-- The value of a balanced round broadcast to the leaves; GVT never decreases (R362). -/
def State.broadcast (s : State) (j : JobId) (g : Word) : State :=
  let g := wmax g (s.job j).gvt
  let ls := s.liveLeaves j
  let s := s.updJob j fun v => { v with gvt := g, rootColour := v.round.k, round := { v.round with active := false, stop := false, reps := [], due := [] },
                                        idleLeaf := { v.idleLeaf with gvt := g, isOpen := false } }
  let rounds := s.treectl.extractLsb' 32 32
  let s := { s with treectl := (if rounds = BitVec.allOnes 32 then rounds else rounds + 1) ++ s.treectl.extractLsb' 0 32 }
  ls.foldl (fun s n => s.push 32 .gvtBroadcastReceive { j := j, leaf := leafOf n, w0 := g }) s

/-- The reports of this device's leaves go up the tree as one (R360). -/
def State.reportUp (s : State) (j : JobId) : State :=
  let r := (s.job j).round
  if r.reps = [] then s else (s.updJob j fun v => { v with round := { v.round with reps := [] } }).sendTree s.root j (.report r.lmin r.smin r.sum r.out)

/-- GVT_ROUND_CLOSE: a wave whose counts balance closes the round; another wave is asked for otherwise, no sooner than 64 cycles after the last. A stop
that waits takes the place of the next round (R394). A device that is not the root sends its report. -/
def State.closeRound (s : State) (j : JobId) : State :=
  let r := (s.job j).round
  if !r.active || r.stop then s
  else if r.due ≠ [] then s.push 64 .gvtRoundClose { j := j }
  else if !s.isRoot then s.reportUp j
  else if r.sum ≠ 0 then s.push 64 .gvtWaveStart { j := j }
  else
    let s := (s.broadcast j r.least).sendDomain j (.gvt (wmax r.least (s.job j).gvt) false)
    let waits := match s.cut with | some x => !x.restore && x.job == j && x.phase == 0 | none => false
    if waits then s.push 64 .prectlStop {}
    else if r.final || r.asked != [] then s.push 64 .gvtRoundStart { j := j }
    else s.push r.period .gvtRoundStart { j := j }

/-! ## Messages of the tree from other devices (R360, R394) -/

/-- What a message of the tree does at its device. A device on which the job is not resident reports nothing. -/
def State.treeAct (s : State) (j : JobId) (dev : Nat) (t : Tree) : State :=
  let v := s.job j
  match t with
  | .flip k stop =>
    if !v.resident || s.isRoot then s
    else
      let s : State := { s with cut := s.cut.map fun x => if stop && !x.restore && x.job == j && x.phase == 0 then { x with phase := 1 } else x }
      s.openHere j k stop
  | .wave => if s.isRoot then s else if v.resident && v.round.active then s.startWave j else s.sendTree dev j (.report (0 - 1) (0 - 1) 0 0)
  | .report lmin smin cnt out =>
    if !s.isRoot || !v.round.due.contains (deviceLeaf dev) then s
    else s.updJob j fun v =>
      { v with round := { v.round with reps := v.round.reps ++ [{ leaf := deviceLeaf dev, lmin := lmin, smin := smin, cnt := cnt, out := out }],
                                       due := v.round.due.erase (deviceLeaf dev) } }
  | .gvt g final =>
    if s.isRoot || !v.round.active then s
    else if final then s.soon .eclipseCutClose { j := j, v := 1, w0 := g }
    else
      let s := s.broadcast j g
      if v.round.stop then s.goHere j else s
  | .ask =>
    if !s.isRoot then s
    else (s.updJob j fun v => { v with round := { v.round with asked := v.round.asked ++ [dev] } }).soon .gvtRoundStart { j := j }
  | .go =>
    if !s.isRoot then (if v.stopped && s.cut.all (fun x => x.job != j) then (s.remakeWaits j).goHere j else s)
    else
      let s := s.updJob j fun v => { v with round := { v.round with users := if v.round.users.contains dev then v.round.users else v.round.users ++ [dev] } }
      let own := match s.cut with | some x => x.job == j && !x.restore | none => false
      let s := s.stopEnds j dev
      let r := (s.job j).round
      if r.active && r.stop && r.asked = [] && !own then
        ((s.updJob j fun v => { v with round := { v.round with stop := false } }).goHere j).push 64 .gvtRoundClose { j := j }
      else if v.stopped && r.held = [] then (s.remakeWaits j).goHere j else s

/-- A message of the tree that has come over a link; one for another device goes on over a link. -/
def State.treeArrives (s : State) (m : Msg) : State :=
  match m.body with
  | .tree t => if m.dst.dev = s.devnum then s.treeAct m.job m.src.dev.toNat t else
    match s.portTo m.dst.dev 0 0 with
    | some p => s.linkOut p m
    | none => s
  | _ => s

def execGvtRoundClose (s : State) : Host.Outcome State Fault Refusal := .next (s.closeRound s.arg.j)

/-! ## Broadcasts (R357, R363, R417) -/

/-- GVT_BROADCAST_RECEIVE: the leaf is no longer open; a core's DONE tasks below the value begin to commit, a dispenser drops forwarding
entries and its slice reclaims, and the management core completes phases. -/
def State.receiveGvt (s : State) (j : JobId) (x : Leaf) (g : Word) : State :=
  let s := s.updLeaf j x fun v => { v with isOpen := false, gvt := wmax v.gvt g }
  match x with
  | .core c =>
    let go := ((s.core c).rings.filter fun b => b.job == j && b.ts == .done && decide (b.t.t.vt < g)).mergeSort fun a b => a.t.key ≤ b.t.key
    go.foldl (fun s b => (s.updBlock c b.t.t.ident fun b => { b with ts := .committing }).soon .commitStep { c := c, t := b.t.t.ident }) s
  | .dispenser cl =>
    (s.updCluster cl fun v => { v with fwd := v.fwd.filter fun f => !(f.job == j && decide (f.vt < g)) }).homeBroadcast cl j
  | .mgmt =>
    ((s.job j).phases.filter fun p => !p.complete && s.phaseOver j p).foldl
      (fun s p => s.soon .phaseCompletion { j := j, w0 := p.start }) s
  | .decoder _ => s
  | .port _ => s

def execGvtBroadcastReceive (s : State) : Host.Outcome State Fault Refusal := .next (s.receiveGvt s.arg.j s.arg.leaf s.arg.w0)

/-! ## Commit (R363, R221) -/

def LogEntry.isVersion (e : LogEntry) : Bool := match e with | .created .. => true | .exact .. => true | .asof .. => true | _ => false
def LogEntry.isAction (e : LogEntry) : Bool := match e with | .deferred .. => true | .spawn _ => true | _ => false

/-- The steps of a commit in order: version messages, then deferred actions and spawns. -/
def Block.plan (b : Block) : List LogEntry := b.log.filter LogEntry.isVersion ++ b.log.filter LogEntry.isAction

/-- The end of a commit: the block is freed and the task retires, unless it left by MIGRATE. -/
def State.endCommit (s : State) (c : CoreId) (b : Block) : State :=
  let s := s.updCore c fun v => { v with rings := v.rings.filter fun x => !(x.t.t.ident == b.t.t.ident) }
  if b.migrated then (s.countRetired b.job b.lslot b.t.t.vt).checkDone b.job b.lslot else s.retire b.job b.lslot b.t.t.vt

/-- One step of a commit performed; it waits for an acknowledgement, is done, or must be tried again. -/
inductive Acted where
  | wait (s : State) (id : Nat)
  | done (s : State)
  | again

/-- One entry of a committing task's log. -/
def State.commitEntry (s : State) (c : CoreId) (b : Block) (e : LogEntry) : Acted :=
  match e with
  | .created nm ver =>
    .wait (s.request { kind := .verCommit, core := c, job := b.job, lslot := b.lslot, w0 := nm, w1 := ver, w2 := 4, vt := b.t.t.vt, ident := b.t.t.ident }) s.nextId
  | .exact nm ver =>
    .wait (s.request { kind := .verCommit, core := c, job := b.job, lslot := b.lslot, w0 := nm, w1 := ver, w2 := 5, vt := b.t.t.vt, ident := b.t.t.ident }) s.nextId
  | .asof _ nm ver => .wait (s.blockReq c b .markRemoval nm ver) s.nextId
  | .deferred sig v va pc insn =>
    match (s.core c).slFree with
    | none => .again
    | some i =>
      let r : Req := { id := s.nextId, kind := if sig then .stff else .store, core := c, job := b.job, lslot := b.lslot, va := va, size := 8, w0 := v,
                       mask := BitVec.allOnes 128, pc := pc, insn := insn, vt := b.t.t.vt, ident := b.t.t.ident, isStore := true }
      match s.bumpId.perform r with
      | .fault cls s => .done (s.enterLog r (if sig then 9 else 8) cls i)
      | .done s => .done s
      | .sent s => .wait s r.id
  | .spawn t =>
    if !s.seqFree c || !(s.core c).sendRoom then .again
    else
      let tk := { t with odev := s.devnum, origin := c, seq := (s.core c).seq }
      let x := s.launch b.job t.lslot
      let s := s.updCore c fun v => { v with seq := v.seq + 1 }
      .wait (s.enterSend c 0 { t := tk, pinned := t.kind == 0x11#6 } (x.destOf c tk) []) s.nextId
  | .sent .. => .done s

/-- A task that precedes this one in event order commits on the core and has not started all of its deferred actions and spawns: those of one core's
tasks start in event order. -/
def State.actsBefore (s : State) (c : CoreId) (b : Block) : Bool :=
  (s.core c).rings.any fun x => x.job == b.job && x.ts == .committing && decide (x.t.key < b.t.key) && (x.plan.drop x.next).any LogEntry.isAction

/-- Steps of a commit one after another, as far as none must wait. -/
def State.commitRun (s : State) (c : CoreId) (t : Ident) (fuel : Nat) : State :=
  match fuel with
  | 0 => s
  | n + 1 =>
    match (s.core c).blockOf t with
    | none => s
    | some b =>
      match b.plan[b.next]? with
      | none => s.endCommit c b
      | some e =>
        if e.isAction && s.actsBefore c b then s.push 8 .commitStep { c := c, t := t }
        else match s.commitEntry c b e with
        | .wait s id => s.updBlock c t fun b => { b with next := b.next + 1, wait := some id }
        | .done s => (s.updBlock c t fun b => { b with next := b.next + 1, wait := none }).commitRun c t n
        | .again => s.push 64 .commitStep { c := c, t := t }

/-- COMMIT_STEP: the next steps of a commit, once the one that it waits for has been acknowledged. -/
def State.commit (s : State) (c : CoreId) (t : Ident) : State :=
  match (s.core c).blockOf t with
  | none => s
  | some b =>
    let waits := match b.wait with | some id => (s.core c).reqs.any (fun r => r.id == id) || (s.core c).sendBuf.any fun e => e.m == id | none => false
    if waits || (b.ts != .done && b.ts != .committing) then s
    else if b.ts == .done && !decide (b.t.t.vt < ((s.job b.job).leaf (.core c)).gvt) then s
    else (s.updBlock c t fun b => { b with ts := .committing, wait := none }).commitRun c t (b.log.length + 1)

def execCommitStep (s : State) : Host.Outcome State Fault Refusal := .next (s.commit s.arg.c s.arg.t)

end Sys2Proof.Machine
end

