-- ==== Sys2Proof/Machine/Shake.lean ====
section
/-! DEFINITION. SHAKE256, which measurement and save tags use (spec/03_bringup.md R62; spec/21_preempt.md R397); the function itself is
taken from FIPS 202 (PRESUMED; notes/assumptions/8.md). -/

namespace Sys2Proof.Machine

/-! ## The permutation Keccak-f[1600] on 25 lanes, lane x + 5 y -/

/-- The lane at a place. -/
def kLane (l : List Word) (i : Nat) : Word := (l[i]?).getD 0

/-- Rotation offsets by lane. -/
def kRot : List Nat := [0, 1, 62, 28, 27, 36, 44, 6, 55, 20, 3, 10, 43, 25, 39, 41, 45, 15, 21, 8, 18, 2, 61, 56, 14]

/-- Round constants. -/
def kRounds : List Word :=
  [0x0000000000000001#64, 0x0000000000008082#64, 0x800000000000808A#64, 0x8000000080008000#64, 0x000000000000808B#64, 0x0000000080000001#64,
   0x8000000080008081#64, 0x8000000000008009#64, 0x000000000000008A#64, 0x0000000000000088#64, 0x0000000080008009#64, 0x000000008000000A#64,
   0x000000008000808B#64, 0x800000000000008B#64, 0x8000000000008089#64, 0x8000000000008003#64, 0x8000000000008002#64, 0x8000000000000080#64,
   0x000000000000800A#64, 0x800000008000000A#64, 0x8000000080008081#64, 0x8000000000008080#64, 0x0000000080000001#64, 0x8000000080008008#64]

/-- One round: theta, rho, pi, chi, iota. -/
def kRound (l : List Word) (rc : Word) : List Word :=
  let col := (List.range 5).map fun x => kLane l x ^^^ kLane l (x + 5) ^^^ kLane l (x + 10) ^^^ kLane l (x + 15) ^^^ kLane l (x + 20)
  let d := (List.range 5).map fun x => kLane col ((x + 4) % 5) ^^^ (kLane col ((x + 1) % 5)).rotateLeft 1
  let t := (List.range 25).map fun i => kLane l i ^^^ kLane d (i % 5)
  -- pi: lane (x, y) comes from lane ((x + 3 y) mod 5, x)
  let p := (List.range 25).map fun i =>
    let x := i % 5
    let y := i / 5
    let j := (x + 3 * y) % 5 + 5 * x
    (kLane t j).rotateLeft ((kRot[j]?).getD 0)
  (List.range 25).map fun i =>
    let x := i % 5
    let y := i / 5
    let v := kLane p i ^^^ (~~~(kLane p ((x + 1) % 5 + 5 * y)) &&& kLane p ((x + 2) % 5 + 5 * y))
    if i = 0 then v ^^^ rc else v

def keccakF (l : List Word) : List Word := kRounds.foldl kRound l

/-! ## The sponge with a rate of 136 bytes -/

/-- A block of 136 bytes absorbed. -/
def absorb (l : List Word) (b : List Byte) : List Word :=
  keccakF ((List.range 25).map fun i => kLane l i ^^^ (if i < 17 then leBits 64 ((b.drop (8 * i)).take 8) else 0))

/-- The blocks of a message with its padding. -/
def absorbAll (l : List Word) (b : List Byte) (fuel : Nat) : List Word :=
  match fuel with
  | 0 => l
  | n + 1 =>
    if b.length < 136 then
      let z := List.replicate (136 - b.length) (0 : Byte)
      let z := match z with | [] => [] | _ :: r => (0x1F#8 : Byte) :: r
      let z := z.take (z.length - 1) ++ [(z.getLastD 0) ||| 0x80#8]
      absorb l (b ++ z)
    else absorbAll (absorb l (b.take 136)) (b.drop 136) n

/-- SHAKE256 of a message with an output of 64 bytes. -/
def shake256 (b : List Byte) : List Byte :=
  ((absorbAll (List.replicate 25 0) b (b.length / 136 + 1)).take 8).flatMap (bytesOf 8)

end Sys2Proof.Machine
end

