-- ==== Sys2Proof/Machine/Board.lean ====
section
/-! DEFINITION. The board: resets, bring-up, measurement and report, islands, machine checks and the registers outside the cores
(spec/03_bringup.md R57 to R67; spec/20_faults.md R386 to R390; spec/04_launch.md R68 to R70; spec/18_optimistic.md R361;
spec/21_preempt.md R391; notes/assumptions 1, 3, 8, 20). -/

namespace Sys2Proof.Machine

/-! ## Resets (R57, R58) -/

/-- Lines of the tiers put back to what memory holds of them (R199). -/
def State.loseLines (s : State) (ls : List (Nat × Line)) : State :=
  ls.foldl (fun (s : State) e => { s with mem := Memory.write s.mem (128 * e.1) (bytesOf 128 e.2) }) s

/-- The lines that the slices hold dirty and whose key tag satisfies a test, with what memory holds of them (R199, R201). -/
def State.dirtyLines (s : State) (p : Nat → Bool) : List (Nat × Line) :=
  s.clusters.flatMap fun (e : Nat × Cluster) =>
    e.2.lines.filterMap fun (h : Nat × HomeLine) => if p h.2.key then h.2.old.map fun l => (h.1, l) else none

/-- A bus address lies in host memory: inside the map of R172, or beyond it. -/
def isBus (a : Nat) : Bool := isHost a || decide (2 ^ 64 ≤ a)

/-- A cold reset with its cause: jobs, keys and everything inside the part is gone, dirty lines under a key with their slices; what the memories
outside the part hold as ciphertext, and plaintext, stays, and machine-check records stay; a power-on keeps neither. Every step that was due
is dropped, those of the agents outside the module too (DESIGN CHOICE, log 1). -/
def State.coldReset (s : State) (cause : Nat) : State :=
  let power := cause = 0
  let own : Nat → Bool := fun a => !isLocal a
  let r : State := { State.reset with fresh := s.fresh, nextId := s.nextId, resets := s.resets + 1, saveKey := Config.saveKey (s.resets + 1), rstcause := cause,
                                      mem := (s.loseLines (s.dirtyLines fun k => decide (k < 16))).mem.filter fun e => isBus e.1 || (!power && own e.1) }
  if power then r
  else { r with poisons := s.poisons.filter fun w => own (8 * w), empties := s.empties.filter fun w => own (8 * w), frames := s.frames,
                mcrec := s.mcrec, mcWritten := s.mcWritten, mcHeadIdx := s.mcHeadIdx }

def execPowerOn (s : State) : Host.Outcome State Fault Refusal := .next (s.coldReset 0)
def execHostReset (s : State) : Host.Outcome State Fault Refusal := .next (s.coldReset 1)
def execWatchdogExpiry (s : State) : Host.Outcome State Fault Refusal := .next (s.coldReset 3)

/-! ## Measurement and bring-up (R57, R59, R62, R65) -/

/-- The bytes of a 64-byte measurement slot, first byte in bits 7:0 (PRESUMED, log 8). -/
def measBytes (v : BitVec 512) : List Byte := bytesOf 64 v

/-- A slot extended with an image (R62). -/
def State.measure (s : State) (k : Nat) (image : List Byte) : State :=
  { s with meas := s.meas.set k (leBits 512 (shake256 (measBytes ((s.meas[k]?).getD 0) ++ shake256 image))) }

/-- ROM_MEASURE_FIRMWARE: stage 0 becomes stage 1. -/
def execRomMeasureFirmware (s : State) : Host.Outcome State Fault Refusal :=
  .next (if s.stage = 0 then { s.measure 0 s.arg.bytes with stage := 1 } else s)


/-- The default cap of an island (R64). -/
def defaultCap (k : Nat) : BitVec 12 := (Tab.get ({} : Island) resetIslands k).cap

/-- LOCK set (R65): caps that sum to more than 2,600 W give way to the defaults. -/
def State.lockCaps (s : State) : State :=
  if s.islock then s
  else
    let sum := ((List.range 24).map fun k => (s.island k).cap.toNat).sum
    let s : State := { s with islock := true }
    if 2600 < sum then { (List.range 24).foldl (fun s k => s.updIsland k fun v => { v with cap := defaultCap k }) s with isdflt := true } else s

def execIslctlLock (s : State) : Host.Outcome State Fault Refusal := .next s.lockCaps

/-- STAGE2_FIRMWARE_LOAD: the images are measured, the caps, the device number and the routes written; the link is up. -/
def execStage2FirmwareLoad (s : State) : Host.Outcome State Fault Refusal :=
  .next (if s.stage ≠ 1 then s
    else
      let s := ((s.measure 1 s.arg.bytes).measure 2 s.arg.bytes2).measure 3 s.arg.bytes3
      let caps := if s.islock then [] else s.arg.caps.zipIdx.filter fun e => decide (e.2 < 24)
      let s := caps.foldl (fun (s : State) e => s.updIsland e.2 fun v => { v with cap := e.1 }) s
      let rs := s.arg.routes.zipIdx.filter fun e => decide (e.2 < 64)
      { s.lockCaps with devnum := BitVec.ofNat 6 s.arg.n, routes := rs.map fun e => (e.2, e.1), stage := 2 })

/-- Whether all stacks of a die have ended training (R59). -/
def State.dieTrained (s : State) (d : Nat) : Bool := (List.range 3).all fun k => s.trainEnded.getLsbD (3 * d + k)

/-- The dies that can leave reduced service do: their clock rises and their DIESVC bit is set; with all four the module is in stage 4. -/
def State.fullService (s : State) : State :=
  if s.stage < 3 then s
  else
    let ds := (List.range 4).filter fun d => s.dieTrained d && !s.diesvc.getLsbD d
    let s := ds.foldl (fun s d =>
      let s := (List.range 4).foldl (fun s i => s.updIsland (4 * d + i) fun v => if v.hot then v else { v with mhz := 1400 }) s
      { s with diesvc := setBit s.diesvc d true }) s
    if s.diesvc = 15#4 then { s with stage := 4 } else s

/-- STACK_TRAINING_END: a stack is mappable, or has failed after three attempts; none is mappable before stage 3 (R57). -/
def execStackTrainingEnd (s : State) : Host.Outcome State Fault Refusal :=
  let k := s.arg.n
  .next (if s.stage < 3 ∨ 12 ≤ k ∨ s.trainEnded.getLsbD k then s
    else if s.arg.ok then ({ s with trained := setBit s.trained k true, trainEnded := setBit s.trainEnded k true } : State).fullService
    else
      let n := Tab.get 0 s.trainFails k + 1
      let s : State := { s with trainFails := Tab.put s.trainFails k n }
      if 3 ≤ n then ({ s with failed := setBit s.failed k true, trainEnded := setBit s.trainEnded k true } : State).fullService else s)

/-! ## Machine checks (R389, R390) -/

/-- A machine-check record, with the job (16: none), the island (24: none), cluster, unit and physical address. -/
def State.machineCheck (s : State) (kind sev job isl cl unit : Nat) (pa : Word) : State :=
  let r : McRec := { w0 := BitVec.ofNat 8 kind ++ BitVec.ofNat 2 sev ++ BitVec.ofNat 5 job ++ BitVec.ofNat 5 isl ++ BitVec.ofNat 6 cl ++ BitVec.ofNat 6 unit ++ 0#32,
                     w1 := s.tstamp, w2 := pa }
  { s with mcrec := Tab.put s.mcrec s.mcHeadIdx.toNat r, mcHeadIdx := s.mcHeadIdx + 1, mcWritten := s.mcWritten + 1, mcstat := s.mcstat ||| 1,
           msix := if s.mcctl.getLsbD 7 && decide ((s.mcctl.extractLsb' 0 7).toNat < 64) then s.msix ++ [s.mcctl.extractLsb' 0 7] else s.msix }

/-- A record of SEV 3 stands: the ring holds one (DEDUCED, log 20). -/
def State.severe (s : State) : Bool := s.mcrec.any fun (e : Nat × McRec) => e.2.w0.extractLsb' 54 2 == 3#2

/-- Jobs that satisfy a test cancelled, as a host CANCEL would. -/
def State.cancelJobs (s : State) (f : JobId → Job → Bool) : State :=
  s.jobs.foldl (fun (s : State) (e : Nat × Job) => if e.2.resident && f (BitVec.ofNat 4 e.1) e.2 then (s.cancelJob (BitVec.ofNat 4 e.1)).1 else s) s

/-- A launch is bound to a cluster of an island. -/
def Launch.onIsland (x : Launch) (k : Nat) : Bool := x.bound.isSome && (bitsOf x.cmask).any fun c => islandOf (BitVec.ofNat 6 c) == k

/-- The core stops with its island: what its lane unit, copy engine and matrix unit have under way ends where it stands (DESIGN CHOICE, log 14). -/
def Core.halt (v : Core) : Core :=
  let stop := fun (t : Strand) =>
    match t.held with
    | .lane | .tmulk | .transpose => { t with held := .none }
    | .dispense _ => { t with held := .none, st := if t.task.isSome then .ready else t.st }
    | _ => t
  { v with lane := none, copies := [], mq := [], mrun := none, mres := 0, bload := none, strands := v.strands.map fun e => (e.1, stop e.2) }

/-- THERMAL_HALT: a compute island halts until a cold reset; any other island halts the module, which starts again with RSTCAUSE 2. -/
def State.thermalHalt (s : State) (k : Nat) : State :=
  if 24 ≤ k ∨ (s.island k).halted then s
  else
    let s := s.updIsland k fun v => { v with halted := true }
    let s : State := { s with mcstat := s.mcstat ||| (1#64 <<< (8 + k)) }
    if k < 16 then
      let s : State := { s with cores := s.cores.map fun e => (e.1, if islandOf (clusterOf (BitVec.ofNat 12 e.1)) = k then e.2.halt else e.2) }
      (s.machineCheck 1 2 16 k 0 0 0).cancelJobs fun _ v => v.launches.any fun (e : Nat × Launch) => !e.2.complete && e.2.onIsland k
    else (s.machineCheck 2 3 16 k 0 0 0).coldReset 2

def execThermalHalt (s : State) : Host.Outcome State Fault Refusal := .next (s.thermalHalt s.arg.n)

/-- UCIE_LINK_FAILURE: every resident job is cancelled, and new jobs are refused. -/
def execUcieLinkFailure (s : State) : Host.Outcome State Fault Refusal := .next ((s.machineCheck 4 3 16 24 0 s.arg.n 0).cancelJobs fun _ _ => true)

/-- JENAY_PORT_FAILURE: the port leaves the route table, and each job whose messages crossed it is cancelled. -/
def execJenayPortFailure (s : State) : Host.Outcome State Fault Refusal :=
  let p := s.arg.n
  let s := s.machineCheck 5 2 16 24 0 p 0
  let s : State := { s with ports := Tab.upd {} s.ports p fun v => { v with failed := true },
                            routes := s.routes.map fun e => (e.1, setBit e.2 p false) }
  .next (s.cancelJobs fun _ v => v.ports.contains p)

/-- The degraded bit of a die. -/
def State.degrade (s : State) (d : Nat) : State := { s with mcstat := s.mcstat ||| (1#64 <<< (4 + d)) }

/-- HBM_STACK_FAILURE: the stack's range is no longer mappable, and no TLB holds a translation to it (R61). -/
def execHbmStackFailure (s : State) : Host.Outcome State Fault Refusal :=
  let k := s.arg.n
  let keep : TlbEntry → Bool := fun e => !(devOf e.pa == s.devnum && offOf e.pa / 0x1000000000 == k)
  .next (if 12 ≤ k ∨ !s.trained.getLsbD k then s
    else
      let s := (s.machineCheck 8 1 16 24 0 k 0).degrade (k / 3)
      { s with trained := setBit s.trained k false,
               clusters := s.clusters.map fun (e : Nat × Cluster) => (e.1, { e.2 with l2 := e.2.l2.filter keep }),
               cores := s.cores.map fun (e : Nat × Core) => (e.1, { e.2 with dtlb := e.2.dtlb.filter keep, itlb := e.2.itlb.filter keep }) })

/-- The die whose indirection table holds a frame: that of its location's stack, or of its home slice (DEDUCED, log 17). -/
def State.frameDie (s : State) (f : Nat) : Nat :=
  let at' := (s.frame f).at'
  if at' / 0x100000 < 12 then at' / 0x100000 / 3 else islandOf (homeSlice (f * 65536)) / 4

/-- UNCORRECTABLE_ERROR (R386). -/
def State.uncorrectable (s : State) (x : ErrSite) : State :=
  match x with
  | .memWord pa => s.setPoison [offOf pa / 8] true
  | .poolEntry c k r =>
    if r = 0 then s else s.updStrand c k fun t => { t with badX := if t.badX.contains r.toNat then t.badX else t.badX ++ [r.toNat] }
  | .tileEntry c n => (s.updSlot c n.toNat fun v => { v with st := 0, own := false, poison := true }).updCore c fun v => v.dropWb [n.toNat]
  | .weightBlock c n => s.updCore c fun v => v.dropWb [n.toNat]
  | .accElement c a n => s.setAcc c a fun v =>
    { v with el := Tab.put v.el n.toNat ((s.freeWord n.toNat).extractLsb' 0 32), bad := n.toNat :: v.bad.filter (· != n.toNat) }
  | .frameBoth f =>
    let d := s.frameDie f.toNat
    let s : State := { s with frames := Tab.put s.frames f.toNat { s.frame f.toNat with lost := true },
                              evictOff := if s.evictOff.contains d then s.evictOff else s.evictOff ++ [d] }
    (s.machineCheck 6 1 16 24 0 0 (BitVec.ofNat 64 (f.toNat * 65536))).degrade d
  | .versionState j nm ver =>
    let cl := verHome j nm
    let s := s.updCluster cl fun v => { v with vers := v.vers.filter fun e => !(e.job == j && e.name == nm && e.ver == ver) }
    (s.machineCheck 7 2 j.toNat 24 cl.toNat 0 0).cancelJobs fun i _ => i == j
  | .decoderRef d i => { s with decoders := Tab.put s.decoders d.toNat (let v := Tab.get {} s.decoders d.toNat; { v with badRefs := v.badRefs ||| (1#8 <<< i.toNat) }) }
  | .flitHeader cl =>
    let s : State := { s with flits := match s.flits.find? (fun f => f.router == cl) with | some f => s.flits.erase f | none => s.flits }
    (s.machineCheck 3 2 16 24 cl.toNat 0 0).cancelJobs fun _ _ => true

def execUncorrectableError (s : State) : Host.Outcome State Fault Refusal := .next (s.uncorrectable s.arg.site)

/-- SUPERVISOR_TIMEOUT: jobs with frozen strands in the cluster are cancelled. -/
def execSupervisorTimeout (s : State) : Host.Outcome State Fault Refusal :=
  let cl := s.arg.cl
  .next ((s.machineCheck 9 2 16 24 cl.toNat 0 0).cancelJobs fun j _ =>
    s.cores.any fun (e : Nat × Core) => e.1 / 64 == cl.toNat && e.2.strands.any fun k => k.2.st == .frozen && k.2.job == j && k.2.res.isSome)

/-! ## Islands (R64, R66) -/

/-- Steps, minimum and maximum of an island's clock; none for the fixed ones. -/
def clockRange (k : Nat) : Option (Nat × Nat × Nat) := if k < 16 then some (50, 700, 1400) else if k < 20 then some (100, 1400, 2800) else none

/-- The fastest clock that an island may have now: compute islands of a die in reduced service stay at 0.7 GHz (R57). -/
def State.clockMax (s : State) (k hi : Nat) : Nat := if k < 16 ∧ !s.diesvc.getLsbD (k / 4) then 700 else hi

/-- A sample of an island: the average over the last eight samples lowers or raises the clock by one step, a fixed-clock island limits its
requests, and the temperature drops the clock to its minimum or halts the island. Once it has fallen below 95 °C, the clock rises again only as
samples below the cap raise it (DESIGN CHOICE, log 14). -/
def State.sampleIsland (s : State) (k w t : Nat) : State :=
  let v := s.island k
  let l := (w :: v.samples).take 8
  let sum := l.sum
  let full := l.length = 8
  let high := full && decide (8 * v.cap.toNat < sum)
  let low := full && decide (10 * sum < 72 * v.cap.toNat)
  let b := if low then v.below + 1 else 0
  let hot := decide (105 ≤ t) || (v.hot && decide (95 ≤ t))
  let mhz := match clockRange k with
    | none => v.mhz
    | some (d, lo, hi) =>
      if hot then lo
      else if high then max lo (v.mhz - d)
      else if 64 ≤ b then min (s.clockMax k hi) (v.mhz + d)
      else v.mhz
  let s := s.updIsland k fun v =>
    { v with samples := l, watts := BitVec.ofNat 12 w, temp := BitVec.ofNat 8 t, hot := hot, mhz := mhz,
             below := if 64 ≤ b then 0 else b, throttled := (clockRange k).isNone && high }
  if 115 ≤ t then s.soon .thermalHalt { n := k } else s

/-- ISLAND_POWER_SAMPLE (R66). A halted island is measured no more: ISLSTAT keeps its last values (DESIGN CHOICE, log 14). -/
def execIslandPowerSample (s : State) : Host.Outcome State Fault Refusal :=
  .next (if s.arg.n < 24 ∧ !(s.island s.arg.n).halted then s.sampleIsland s.arg.n (s.arg.w0.extractLsb' 0 12).toNat (s.arg.w1.extractLsb' 0 8).toNat else s)

/-! ## The report (R63) -/

/-- BSTAT. -/
def State.bstat (s : State) : Word := 0#24 ++ s.diesvc ++ s.failed ++ s.trained ++ 0#9 ++ BitVec.ofNat 3 s.stage

/-- A report: its fixed fields, the signature over them, zeros to 2,048 bytes. -/
def State.reportBytes (s : State) : List Byte :=
  let body := bytesOf 4 0x5045524E#32 ++ bytesOf 4 1#32 ++ bytesOf 8 Config.serial ++ bytesOf 32 s.nonce ++ bytesOf 8 s.bstat ++
    s.meas.flatMap measBytes ++ bytesOf 2 1280#16
  body ++ bytesOf 1280 (Config.falcon body) ++ List.replicate (2048 - body.length - 1280) 0

/-- GO written: a report begins unless one is under way, with NONCE, REPADDR and the measurements of that moment, and with its BSTAT too (DESIGN
CHOICE, log 8: R63 names no moment for BSTAT). -/
def State.reportGo (s : State) : State := if s.repGo then s else { s with repGo := true, report := some (s.repaddr, s.reportBytes) }

def execRepctlGo (s : State) : Host.Outcome State Fault Refusal := .next s.reportGo

/-- Where a host bus address stands in memory: as a physical address without its device bits (R172), beyond 44 bits from 2^64. -/
def hostAddr (a : Word) : Nat := if a.toNat < 2 ^ 44 then 0x200000000000 + a.toNat else 2 ^ 64 + a.toNat

/-- REPORT_COMPLETE: the whole report stands in host memory and DONE is set, or the transfer faulted and ERR is set. -/
def execReportComplete (s : State) : Host.Outcome State Fault Refusal :=
  .next (match s.report with
    | none => s
    | some (a, bs) =>
      let s : State := { s with report := none, repGo := false }
      if s.arg.ok then { s with mem := Memory.write s.mem (hostAddr a) bs, repDone := true } else { s with repErr := true })

/-! ## The command window (R70 to R72) -/

/-- The word of a command slot. -/
def State.cmdWord (s : State) (slot w : Nat) : Word := (Tab.get 0#512 s.cmdslots slot).extractLsb' (64 * w) 64

/-- The acknowledgement of a KEYDESTROY in a slot is pending. -/
def State.ackPending (s : State) (slot : Nat) : Bool :=
  s.jobs.any fun (e : Nat × Job) => match e.2.teardown with | some (_, n, _) => n % 256 == slot | none => false

/-- The command in the slot at CMDHEAD, by its OP. -/
def State.cmdStep (s : State) : Instr :=
  match ((s.cmdWord s.cmdhead.toNat 0).extractLsb' 0 8).toNat with
  | 1 => .jobstart
  | 2 => .phaseopen
  | 3 => .cancelCommand
  | 4 => .keydestroy
  | _ => .reservedCommand

/-- The device takes the next slot, from stage 3 on, unless an acknowledgement that shares its index is pending. -/
def State.nextCommand (s : State) : State :=
  let s : State := if s.cmdhead = s.cmdtail then { s with ackRing := s.ackbase } else s
  if s.cmdhead = s.cmdtail || decide (s.stage < 3) || s.ackPending s.cmdhead.toNat then s else s.push 8 s.cmdStep {}

/-- A command is being taken. -/
def State.taking (s : State) : Bool :=
  s.agenda.any fun (e : Nat × Instr × StepArg) =>
    match e.2.1 with | .jobstart => true | .phaseopen => true | .cancelCommand => true | .keydestroy => true | .reservedCommand => true | _ => false

/-- CMDTAIL_WRITE: a write that passes CMDHEAD, or meets it while slots are unprocessed, is ignored and sets CMDERR. -/
def State.writeTail (s : State) (v : BitVec 8) : State :=
  let u := (s.cmdtail - s.cmdhead).toNat
  let d := (v - s.cmdtail).toNat
  if 256 ≤ u + d then { s with cmderr := true }
  else
    let s : State := { s with cmdtail := v }
    if s.taking then s else s.nextCommand

def execCmdtailWrite (s : State) : Host.Outcome State Fault Refusal := .next (s.writeTail (s.arg.w0.extractLsb' 0 8))

/-- STAGE3_REDUCED_SERVICE: all clusters come up at 0.7 GHz. -/
def execStage3ReducedService (s : State) : Host.Outcome State Fault Refusal :=
  .next (if s.stage = 2 then (({ s with stage := 3 } : State).fullService).nextCommand else s)

/-! ## Register writes (R10, R67, R69, R70, R361, R377, R389, R391) -/

/-- A 64-bit part of a wider value replaced. -/
def putWord {n : Nat} (v : BitVec n) (w : Nat) (x : Word) : BitVec n :=
  (v &&& ~~~((0xFFFFFFFFFFFFFFFF#64).setWidth n <<< (64 * w))) ||| (x.setWidth n <<< (64 * w))

/-- A write of a BAR 0 register at an 8-byte aligned offset, by the host or the management core. Read-only registers and reserved offsets
ignore it. HOSTJOB written with 17 to 31, which R70 treats as 16, holds 16 and reads it back (DESIGN CHOICE, log 19). -/
def State.writeBar (s : State) (who : Agent) (o : Nat) (v : Word) : State :=
  let host := who = .host
  if 0x1210 ≤ o ∧ o < 0x1230 then (if host then { s with nonce := putWord s.nonce ((o - 0x1210) / 8) v } else s)
  else if o = 0x1230 then (if host then { s with repaddr := v } else s)
  else if o = 0x1238 then
    if host then
      let s : State := { s with repDone := s.repDone && !v.getLsbD 1, repErr := s.repErr && !v.getLsbD 2 }
      if v.getLsbD 0 then s.reportGo else s
    else s
  else if 0x1240 ≤ o ∧ o < 0x1300 then
    if who = .mgmt ∧ !s.islock then s.updIsland ((o - 0x1240) / 8) fun x => { x with cap := v.extractLsb' 0 12 } else s
  else if o = 0x1300 then (if who = .mgmt ∧ v.getLsbD 0 then s.lockCaps else s)
  else if o = 0x1410 then { s with mcctl := v.extractLsb' 0 8 }
  else if o = 0x2000 then (if host then s.writeTail (v.extractLsb' 0 8) else s)
  else if o = 0x2010 then
    if host then
      let s : State := { s with ackbase := v &&& 0x000FFFFFFFFFF000#64 }
      if s.cmdhead = s.cmdtail then { s with ackRing := s.ackbase } else s
    else s
  else if o = 0x2018 then (if host then { s with cmderr := s.cmderr && !v.getLsbD 0 } else s)
  else if o = 0x2020 then (if host then { s with hostjob := if v.getLsbD 4 then 16#5 else v.extractLsb' 0 5 } else s)
  else if 0x10000 ≤ o ∧ o < 0x14000 then
    if host then { s with cmdslots := Tab.upd 0#512 s.cmdslots ((o - 0x10000) / 64) fun x => putWord x (o / 8 % 8) v } else s
  else if 0x20000 ≤ o ∧ o < 0x20400 then (if host then { s with msixTable := Tab.put s.msixTable ((o - 0x20000) / 8) v } else s)
  else s

/-- PRECTL written: W1C bits always, the rest only while no operation runs; GO starts the operation. -/
def State.writePrectl (s : State) (v : Word) : State :=
  let clear := s.prectl &&& ~~~(v &&& 0x280#64)
  if clear.getLsbD 8 then { s with prectl := clear }
  else
    let w := (clear &&& 0x280#64) ||| (v &&& 0x3F#64)
    if v.getLsbD 8 then ({ s with prectl := w ||| 0x100#64 } : State).soon (if v.getLsbD 5 then .prectlRestore else .prectlStop) {}
    else { s with prectl := w }

/-- WCTL of an accessor written: SEL, ASEL, and REPLAY, which starts a replay. -/
def State.writeWctl (s : State) (who : Agent) (c : CoreId) (v : Word) : State :=
  let w := v &&& 0x3F#64
  let s := s.updCore c fun x => if who = .supervisor then { x with wctlS := w } else { x with wctlM := w }
  if v.getLsbD 8 then s.soon .replay { who := who, c := c } else s

/-- A store of a supervisor or of the management core by physical address, with no key (R179, R200): to a tier once the line is clear, to host
memory, or to a local memory. It is acknowledged to its writer once it is performed (R180, R410). -/
def State.physStore (s : State) (x : StepArg) (a : Nat) (bs : List Byte) : State :=
  let put := fun (s : State) => ({ s.ownWrite none 0 true 0 a bs with physDone := s.physDone ++ [(x.who, BitVec.ofNat 46 a)] } : State)
  if bs = [] ∨ 128 < a % 128 + bs.length then s
  else if isTier a then
    if !s.stackOk a then s
    else if s.lineClear a then put s
    else (s.clearLine a).push 32 .registerWrite x
  else if isHost a ∨ (isLocal a ∧ localOff a + bs.length ≤ 0xC0000) then put s
  else s

/-- The supervisor of a cluster takes the oldest packet from its mailbox (R375); what its cores have kept for want of room then goes on. -/
def State.takePacket (s : State) (cl : ClusterId) : State :=
  let s := s.updCluster cl fun v => { v with mbox := v.mbox.drop 1 }
  (s.cores.filter fun (e : Nat × Core) => e.1 / 64 == cl.toNat && e.2.pktq != []).foldl (fun (s : State) (e : Nat × Core) =>
    s.soon .packetDelivery { c := BitVec.ofNat 12 e.1 }) s

/-- REGISTER_WRITE: `who` writes `w0` at `n` of the space. -/
def State.writeRegister (s : State) (x : StepArg) : State :=
  match x.space with
  | .bar0 => if x.who = .supervisor ∨ x.n % 8 ≠ 0 then s else s.writeBar x.who x.n x.w0
  | .gvtPeriod => if x.who = .mgmt then { s with treectl := s.treectl.extractLsb' 6 58 ++ x.w0.extractLsb' 0 6 } else s
  | .prectl => if x.who = .mgmt then s.writePrectl x.w0 else s
  | .presave => if x.who = .mgmt then { s with presave := x.w0 &&& 0x0000FFFFFFFF0000#64 } else s
  | .wctl c => if x.who = .host then s else s.writeWctl x.who c x.w0
  | .slotClear i =>
    if x.who = .mgmt ∧ !(Tab.get {} s.slotTable i.toNat).v then { s with slotTable := Tab.put s.slotTable i.toNat (bindRec (x.w0 &&& ~~~(1#64 <<< 63)) x.w1 x.w2) } else s
  | .route dev => if x.who = .mgmt then { s with routes := Tab.put s.routes dev.toNat (x.w0.extractLsb' 0 16) } else s
  | .measure k => if x.who = .mgmt ∧ 4 ≤ k ∧ k < 8 then s.measure k x.bytes else s
  | .phys pa n => if x.who = .host then s else s.physStore x pa.toNat (bytesOf (min n 8) x.w0)
  | .mailbox cl => if x.who = .supervisor then s.takePacket cl else s
  | .sram off => if x.who = .mgmt then { s with sram := Memory.write s.sram (off.toNat / 8 * 8) (bytesOf 8 x.w0) } else s

def execRegisterWrite (s : State) : Host.Outcome State Fault Refusal := .next (s.writeRegister s.arg)

end Sys2Proof.Machine
end

