-- ==== Sys2Proof/Machine/Branch.lean ====
section
/-! DEFINITION. Compare-skip, branches and ISYNC (spec/08_isa_scalar.md R146 to R150, spec/07_issue.md R134; spec/06_encoding.md
R99). -/

namespace Sys2Proof.Machine

/-- The conditions of CHK and CHKI (R146); the bit number of BS and BC is b[5:0]. -/
def intCond (cc : BitVec 3) (a b : Word) : Bool :=
  match cc.toNat with
  | 0 => a == b
  | 1 => a != b
  | 2 => a.slt b
  | 3 => !a.slt b
  | 4 => a.ult b
  | 5 => !a.ult b
  | 6 => a.getLsbD (b.extractLsb' 0 6).toNat
  | _ => !a.getLsbD (b.extractLsb' 0 6).toNat

/-- The shadow of a compare-skip (R134): a false condition annuls the next n instructions. -/
def State.shadow (s : State) (c : CoreId) (k : StrandId) (cond : Bool) (n : BitVec 2) : State :=
  if cond then s else s.updStrand c k fun t => { t with ann := n.toNat }

/-- CHK (R146). -/
def execChk (w u : Bool) (b a : BitVec 6) (cc : BitVec 3) (n : BitVec 2) (s : State) : Host.Outcome State Fault Refusal :=
  issue 4 { names := [a, b], srcs := [sx a u, sx b w] }
    (fun c k s => .done (s.shadow c k (intCond cc ((s.strand c k).rx a) ((s.strand c k).rx b)) n)) s

/-- CHKI (R146). -/
def execChki (i : BitVec 13) (a : BitVec 6) (u : Bool) (cc : BitVec 3) (n : BitVec 2) (s : State) : Host.Outcome State Fault Refusal :=
  issue 4 { names := [a], srcs := [sx a u] }
    (fun c k s => .done (s.shadow c k (intCond cc ((s.strand c k).rx a) (simm i)) n)) s

/-- FCHK (R147): a signaling NaN operand sets NV. -/
def execFchk (w u : Bool) (b a : BitVec 6) (cc : BitVec 3) (n : BitVec 2) (s : State) : Host.Outcome State Fault Refusal :=
  issue 4 { names := [a, b], srcs := [sx a u, sx b w] }
    (fun c k s =>
      let x := fp32 ((s.strand c k).rx a); let y := fp32 ((s.strand c k).rx b)
      .done ((s.orFlags c k (sigFlag [x, y])).shadow c k (fvCond cc.toNat x y) n)) s

/-- BR (R148). -/
def execBr (o : BitVec 25) (s : State) : Host.Outcome State Fault Refusal :=
  issue 4 {} (fun c k s => .jump s (branchTarget (s.strand c k).pc o)) s

/-- JL (R148). -/
def execJl (o : BitVec 19) (d : BitVec 6) (s : State) : Host.Outcome State Fault Refusal :=
  issue 4 { names := [d], dsts := [d] }
    (fun c k s =>
      let pc := (s.strand c k).pc
      .jump (s.writeX c k d ((pc + 4).setWidth 64)) (branchTarget pc o)) s

/-- JLR (R149). -/
def execJlr (i : BitVec 12) (u : Bool) (a d : BitVec 6) (s : State) : Host.Outcome State Fault Refusal :=
  issue 4 { names := [a, d], srcs := [sx a u], dsts := [d] }
    (fun c k s =>
      let pc := (s.strand c k).pc
      let t := branchTarget (vaOf ((s.strand c k).rx a)) i
      .jump (s.writeX c k d ((pc + 4).setWidth 64)) (t &&& ~~~1#48)) s

/-- ISYNC (R99, R150): the strand's fetch buffer and the core's instruction cache are emptied. -/
def execIsync (s : State) : Host.Outcome State Fault Refusal :=
  issue 4 {}
    (fun c k s => .jump (s.updCore c fun v => { v with icache := [] }) ((s.strand c k).pc + 4)) s

end Sys2Proof.Machine
end

