-- ==== Sys2Proof/Machine/Commands.lean ====
section
/-! DEFINITION. The commands of the host and the teardown of a job (spec/04_launch.md R70 to R72, R78; spec/24_retire.md R418 to R420;
spec/09_memory.md R188, R201; notes/assumptions 19). -/

namespace Sys2Proof.Machine

/-! ## Acknowledgements (R71) -/

/-- Word 0 of the acknowledgement of the command in a slot: its TAG and its OP. -/
def State.ackWord (s : State) (n : Nat) : Word :=
  let w := s.cmdWord (n % 256) 0
  0#32 ++ w.extractLsb' 16 16 ++ 0#8 ++ w.extractLsb' 0 8

/-- The acknowledgement with a word 0 in a slot, numbered with the ring's wraps before it: slot + 256 wraps. -/
def State.acknowledge (s : State) (w0 : Word) (n status : Nat) : State :=
  let w1 : Word := BitVec.ofNat 1 (n / 256) ++ 0#55 ++ BitVec.ofNat 8 status
  { s with mem := Memory.write s.mem (hostAddr s.ackRing + 16 * (n % 256)) (bytesOf 8 w0 ++ bytesOf 8 w1) }

/-- The slot at CMDHEAD with the wraps before it. -/
def State.cmdSlot (s : State) : Nat := s.cmdhead.toNat + 256 * s.wraps

/-- CMDHEAD moves past the slot, and the next one is taken. -/
def State.advanceHead (s : State) : State :=
  ({ s with cmdhead := s.cmdhead + 1, wraps := if s.cmdhead = 255#8 then s.wraps + 1 else s.wraps } : State).nextCommand

/-- The command in the slot at CMDHEAD ends with an acknowledgement. -/
def State.endCommand (s : State) (status : Nat) : State := (s.acknowledge (s.ackWord s.cmdSlot) s.cmdSlot status).advanceHead

/-- The effect of a command on the slot at CMDHEAD; nothing where no slot is due or it holds another command. -/
def State.command (s : State) (op : Instr) (f : State → (Nat → Word) → JobId → State) : State :=
  if s.cmdhead = s.cmdtail || s.stage < 3 || s.cmdStep != op then s
  else
    let w := fun i => s.cmdWord s.cmdhead.toNat i
    f s w ((w 0).extractLsb' 8 4)

/-! ## JOBSTART (R72) -/

/-- The job as JOBSTART makes it: its words, its key, its windows and its near map. -/
def jobOf (s : State) (w : Nat → Word) : Job :=
  { resident := true, ptroot := (w 1).extractLsb' 0 52 &&& ~~~0xFFF#52, hintbase := vaOf (w 3), jspill := vaOf (w 4), carea := vaOf (w 6), policy := w 7,
    key := some (leBits 512 (Memory.read s.mem (hostAddr (w 2)) 64)), prio := ((w 0).extractLsb' 12 3).toNat, share := ((w 0).extractLsb' 32 7).toNat,
    ven := (w 0).getLsbD 47, vec := (w 0).extractLsb' 40 7, c := { tstart := s.tstamp } }

/-- The 16 windows of a table (R188). -/
def windowsOf (bs : List Byte) : List (Word × Word) :=
  (List.range 16).map fun i => (leBits 64 ((bs.drop (16 * i)).take 8), leBits 64 ((bs.drop (16 * i + 8)).take 8))

/-- A JOBSTART that ends without effect: the job is as one that was never started. -/
def State.abandonStart (s : State) (j : JobId) (status : Nat) : State :=
  ({ s with jobs := Tab.del s.jobs j.toNat } : State).endCommand status

/-- The end of JOBSTART, once everything has been read: its entry launch is created. While the next sequence value of core 0 is live the
command waits; a job that a machine check has cancelled meanwhile does not start (R390; DEDUCED, log 19). -/
def State.finishStart (s : State) (j : JobId) (d : LaunchDesc) : State :=
  if (s.job j).cancelled then s.abandonStart j 4
  else match s.createLaunch 0 j d none with
  | .fault _ => s.abandonStart j 5
  | .desc => s.abandonStart j 6
  | .wait => (s.updJob j fun v => { v with starting := some d }).push 64 .jobstart {}
  | .made t _ =>
    let t := t.updJob j fun v => { v with starting := none }
    -- the root of the domain runs the rounds (R360)
    (if t.isRoot then t.push t.gvtPeriod .gvtRoundStart { j := j } else t.sendTree t.root j .go).endCommand 0

/-- JOBSTART: the job is made resident, its key, its tables and the blocks of its entry launch are read, each once, and the launch is
created; a failing step leaves nothing. -/
def State.jobStart (s : State) (w : Nat → Word) (j : JobId) : State :=
  match (s.job j).starting with
  | some d => s.finishStart j d
  | none =>
    if (s.job j).resident then s.endCommand 2
    else if s.severe then s.endCommand 4
    else if s.poisoned (hostAddr (w 2)) 64 then s.endCommand 5
    else
      let v := jobOf s w
      let t := s.updJob j fun o => { v with round := o.round, rootColour := o.rootColour }
      match t.jobBlock 0 j (v.hintbase + 4096) 256 1, t.jobBlock 0 j (v.hintbase + 4352) 32 1 with
      | .inl ws, .inl nm =>
        let t := t.updJob j fun v => { v with windows := windowsOf ws, near := leBits 256 nm }
        match t.readLaunch 0 j (vaOf (w 5)) with
        | .inr _ => s.endCommand 5
        | .inl d => (((t.visitRead 0 j (v.hintbase + 4096) 256).visitRead 0 j (v.hintbase + 4352) 32).visitLaunch 0 j (vaOf (w 5)) d).finishStart j d
      | _, _ => s.endCommand 5

def execJobstart (s : State) : Host.Outcome State Fault Refusal := .next (s.command .jobstart State.jobStart)

/-! ## PHASEOPEN, CANCEL, reserved codes (R31, R72, R78) -/

/-- The latest end of the phases of a job. -/
def Job.lastEnd (v : Job) : Word := v.phases.foldl (fun m p => if m < p.stop then p.stop else m) 0

/-- PHASEOPEN: the phase from the latest end on; the live tasks whose times it contains are counted in it. -/
def State.openPhase (s : State) (w : Nat → Word) (j : JobId) : State :=
  let v := s.job j
  let start := v.lastEnd
  if !v.resident || v.teardown.isSome then s.endCommand 2
  else if w 1 ≤ start then s.endCommand 4
  else
    let p : Phase := { start := start, stop := w 1, crec := vaOf (w 2), sigw := vaOf (w 3), ven := (w 0).getLsbD 47, vec := (w 0).extractLsb' 40 7,
                       c := { tstart := s.tstamp } }
    let p := { p with count := (v.early.filter p.has).length }
    let s := s.updJob j fun v => { v with phases := v.phases ++ [p], early := v.early.filter fun t => !p.has t }
    let s := if s.phaseOver j p then s.soon .phaseCompletion { j := j, w0 := start } else s
    s.endCommand 0

def execPhaseopen (s : State) : Host.Outcome State Fault Refusal := .next (s.command .phaseopen State.openPhase)

/-- CANCEL from the host. -/
def State.hostCancel (s : State) (w : Nat → Word) (j : JobId) : State :=
  let v := s.job j
  if !v.resident then s.endCommand 2
  else if v.teardown.isSome then s.endCommand 3
  else match s.cancel j ((w 1).extractLsb' 0 2) (w 2) with
    | (s, true) => s.endCommand 0
    | (s, false) => s.endCommand 3

def execCancelCommand (s : State) : Host.Outcome State Fault Refusal := .next (s.command .cancelCommand State.hostCancel)

def execReservedCommand (s : State) : Host.Outcome State Fault Refusal := .next (s.command .reservedCommand fun s _ _ => s.endCommand 1)

/-! ## KEYDESTROY and teardown (R418 to R420) -/

/-- KEYDESTROY: accepted when no launch of the job is incomplete; a final round begins, and the command is set aside. -/
def State.keyDestroy (s : State) (j : JobId) : State :=
  let v := s.job j
  if !v.resident || v.teardown.isSome then s.endCommand 2
  else if v.launches.any fun (e : Nat × Launch) => !e.2.complete then s.endCommand 4
  else
    let s := s.updJob j fun v => { v with teardown := some (1, s.cmdSlot, s.ackWord s.cmdSlot), stopped := false, round := { v.round with final := s.isRoot } }
    ((s.startRound j).push 64 .teardown { j := j }).advanceHead

def execKeydestroy (s : State) : Host.Outcome State Fault Refusal := .next (s.command .keydestroy fun s _ j => s.keyDestroy j)

/-- An access of the job is still under way, so that its bytes could reach memory after the key is gone (R201). -/
def State.busyJob (s : State) (j : JobId) : Bool :=
  (s.cores.any fun (e : Nat × Core) => e.2.reqs.any (fun r => r.job == j) || (e.2.mq ++ e.2.mrun.toList).any (fun m => m.job == j) ||
      e.2.copies.any fun x => x.job == j) ||
    s.msgs.any fun (e : Nat × Msg) => match e.2.body with | .req r => r.job == j | _ => false

/-- Step 2: dirty lines of the job leave the slices and the data caches without write-back, its version-store tiles go, and its key is erased.
Memory keeps the ciphertext last written to it. -/
def State.dropKey (s : State) (j : JobId) : State :=
  let s := s.loseLines (s.dirtyLines fun k => k == j.toNat)
  let clean := fun (h : HomeLine) => if h.key = j.toNat then { h with old := none, key := 16 } else h
  let s : State :=
    { s with
      clusters := s.clusters.map fun (e : Nat × Cluster) =>
        (e.1, { e.2 with lines := e.2.lines.map (fun (h : Nat × HomeLine) => (h.1, clean h.2)), vers := e.2.vers.filter fun v => !(v.job == j && v.near) })
      cores := s.cores.map fun (e : Nat × Core) =>
        (e.1, { e.2 with dcache := e.2.dcache.filter fun d => !(d.nc && d.job == j && d.dirty != 0) }) }
  s.updJob j fun v => { v with key := none }

/-- Step 3: every ephemeris entry of the job returns to none. -/
def State.dropVersions (s : State) (j : JobId) : State :=
  { s with clusters := s.clusters.map fun (e : Nat × Cluster) =>
      (e.1, { e.2 with vers := e.2.vers.filter (fun v => v.job != j), asof := e.2.asof.filter (fun v => v.job != j), died := e.2.died.filter (fun d => d.1 != j), vwait := e.2.vwait.filter fun r => r.job != j }) }

/-- Step 4: the job's translations, hint table, windows, near map and trap policy. -/
def State.dropTranslations (s : State) (j : JobId) : State :=
  let keep := fun (e : TlbEntry) => e.job != j
  let s : State :=
    { s with clusters := s.clusters.map fun (e : Nat × Cluster) => (e.1, { e.2 with l2 := e.2.l2.filter keep })
             cores := s.cores.map fun (e : Nat × Core) => (e.1, { e.2 with dtlb := e.2.dtlb.filter keep, itlb := e.2.itlb.filter keep }) }
  s.updJob j fun v => { v with hintbase := 0, windows := [], near := 0, policy := 0 }

/-- Step 5: what completed launches have left in the cores (R415), spill areas, save region, launch table and side-log entries. -/
def State.dropAreas (s : State) (j : JobId) : State :=
  let s := s.cores.foldl (fun (s : State) (e : Nat × Core) => s.scrub (BitVec.ofNat 12 e.1)) s
  let s := s.cores.foldl (fun (s : State) (e : Nat × Core) =>
    (e.2.slog.filter fun x => x.2.st != 0 && x.2.job == j).foldl (fun (s : State) (x : Nat × SlEntry) => s.dropSlog (BitVec.ofNat 12 e.1) x.1) s) s
  let s : State :=
    { s with cores := s.cores.map fun (e : Nat × Core) =>
        (e.1, { e.2 with spill := Tab.del e.2.spill j.toNat, refuse := e.2.refuse.filter fun x => x != j }) }
  s.updJob j fun v => { v with jspill := 0, launches := [], graphs := [], saved := {} }

/-- Step 7: the job's record, its signal word and its MSI-X vector, written with no key. -/
def State.recordJob (s : State) (j : JobId) : State :=
  let v := s.job j
  s.signalLevel j v.outlet (recordWords v.c 0 j 3 (statusOf v.c false 0) s.tstamp v.gvt 0)

/-- The end of a job: its number is free. The root of a domain goes on with the rounds of a job that other devices run (DESIGN CHOICE, log 19). -/
def State.endJob (s : State) (j : JobId) : State :=
  let v := s.job j
  let s := s.dropRoundStart j
  if v.round.users = [] then { s with jobs := Tab.del s.jobs j.toNat }
  else ({ s with jobs := Tab.put s.jobs j.toNat { round := v.round, rootColour := v.rootColour, idleLeaf := { colour := v.idleLeaf.colour } } } : State).push
    s.gvtPeriod .gvtRoundStart { j := j }

/-- TEARDOWN: the next step of the teardown of a job. Step 1 waits for the final round and for the phases. -/
def State.tearDown (s : State) (j : JobId) : State :=
  let v := s.job j
  match v.teardown with
  | none => s
  | some (n, slot, ack) =>
    let again := s.push 64 .teardown { j := j }
    let go := fun (s : State) => (s.updJob j fun v => { v with teardown := some (n + 1, slot, ack) }).push 8 .teardown { j := j }
    match n with
    | 1 =>
      if v.round.final || v.round.active then again
      else if v.gvt ≠ 0xFFFFFFFFFFFFFFFF#64 || v.phases.any (fun p => !p.complete) then again
      else go s
    | 2 => if s.busyJob j then again else go (s.dropKey j)
    | 3 => go (s.dropVersions j)
    | 4 => go (s.dropTranslations j)
    | 5 => go (s.dropAreas j)
    | 6 => go { s with hostjob := if s.hostjob = j.setWidth 5 then 16#5 else s.hostjob }
    | 7 => s.whenClear j v.outlet .teardown { j := j } fun s => go (s.recordJob j)
    | _ =>
      let s := s.acknowledge ack slot 0
      let s := s.endJob j
      if s.taking then s else s.nextCommand

def execTeardown (s : State) : Host.Outcome State Fault Refusal := .next (s.tearDown s.arg.j)

end Sys2Proof.Machine
end

