-- ==== Sys2Proof/Machine/Decoders.lean ====
section
/-! DEFINITION. The video decoders: what AV1 makes of the bitstream that they read is free, since its decoding is not in the manual
(spec/12_tiles.md R277 to R279; spec/13_isa_tile.md R303, R304; notes/assumptions 9). -/

namespace Sys2Proof.Machine

def State.decoder (s : State) (n : Nat) : Decoder := Tab.get {} s.decoders n
def State.setDecoder (s : State) (n : Nat) (v : Decoder) : State := { s with decoders := Tab.put s.decoders n v }

/-- The lowest-numbered idle decoder of a die. -/
def State.idleDecoder (s : State) (die : Nat) : Option Nat := ((List.range 8).map (8 * die + ·)).find? fun n => (s.decoder n).run.isNone

/-- The first request of a die's queue that its decoders may take: none of a stopped job (R395; DEDUCED, log 18). -/
def State.nextDecode (s : State) (die : Nat) : Option DecReq := (Tab.get [] s.decQueues die).find? fun r => !r.paused

/-- DECODE_REQUEST_START: the lowest-numbered idle decoder of a die takes the next request. -/
def State.startDecode (s : State) (die : Nat) : State :=
  match s.idleDecoder die, s.nextDecode die with
  | some n, some r =>
    (({ s with decQueues := Tab.put s.decQueues die ((Tab.get [] s.decQueues die).erase r) } : State).setDecoder n { run := some r }).push 64
      .frameDecoded { n := n }
  | _, _ => s

def execDecodeRequestStart (s : State) : Host.Outcome State Fault Refusal := .next (s.startDecode s.arg.n)

/-- The name of tile (tr, tc) of plane p (R277). -/
def frameName (tname : Word) (p tr tc : Nat) : Word :=
  tname.extractLsb' 42 22 ++ BitVec.ofNat 2 p ++ BitVec.ofNat 20 tr ++ BitVec.ofNat 20 tc

/-- The tiles of a plane of rows by columns samples: their rows and columns. -/
def planeTiles (rows cols w : Nat) : List (Nat × Nat) :=
  (List.range ((rows + 31) / 32)).flatMap fun tr => (List.range ((cols + w - 1) / w)).map fun tc => (tr, tc)

/-- The bytes of a bitstream, read through the job (R304): each with 0, or with the code of R279 under which it cannot be read. Their values then are
free. -/
def State.streamBytes (s : State) (j : JobId) (parts : List (BitVec 48 × Nat)) : List (Byte × Nat) :=
  parts.flatMap fun (va, n) =>
    let bad := fun (code : Nat) => (List.range n).map fun i => (s.freeByte (va.toNat + i), code)
    match s.jobPlace 0 j va n .r with
    | .inr _ => bad 5
    | .inl (x, leaf) =>
      let word := fun (i : Nat) => match x with
        | .own pa => s.memBad (offOf pa + i) 1
        | .loc c off => s.localBad c (off + i) 1
        | _ => false
      ((s.readTarget j x leaf n).1.zipIdx).map fun (b, i) => if word i then (s.freeByte (va.toNat + i), 6) else (b, 0)

/-- The bitstream of a request. -/
def State.bitstream (s : State) (r : DecReq) : List (Byte × Nat) :=
  s.streamBytes r.job (cutLines (vaOf r.bs) r.len.toNat (r.len.toNat / 128 + 2))

/-- The code of a frame (R279): what of its bitstream could not be read first, then what the stream says, then its references. Which comes first where
several hold is not stated (DEDUCED, log 9). -/
def Decoder.frameErr (d : Decoder) (bits : List (Byte × Nat)) (f : Av1Frame) : Nat :=
  match ((bits.take f.upto).drop d.pos).find? fun b => b.2 != 0 with
  | some b => b.2
  | none =>
    if f.refs &&& d.badRefs ≠ 0 then 6
    else if f.syntaxError || decide (bits.length < f.upto) then 1
    else if f.unsupported then 2
    else if 4352 < f.rows ∨ 8192 < f.cols then 3
    else if f.refs &&& d.tainted ≠ 0 then 4 else 0

/-- The tiles of a frame (R277): luma, and chroma of half the size, or of the full size for 4:4:4. -/
def frameTiles (f : Av1Frame) : List FrameTile :=
  [0, 1, 2].flatMap fun p =>
    let half := p != 0 && !f.full
    let h := if half then (f.rows + 1) / 2 else f.rows
    let c := if half then (f.cols + 1) / 2 else f.cols
    (planeTiles h c (if f.deep then 32 else 64)).map fun (tr, tc) => { plane := p, rows := h, cols := c, tr := tr, tc := tc }

/-- A tile of frame n: the samples inside the plane, 10-bit ones below 1,024, and zeros beyond its edge; undefined data where the frame is corrupt. -/
def State.frameTile (s : State) (bits : List Byte) (n : Nat) (w : FrameWork) (x : FrameTile) : Tile :=
  let byte := fun (b : Nat) =>
    if w.err ≠ 0 then s.freeByte (((x.plane * 2 ^ 20 + x.tr) * 2 ^ 20 + x.tc) * 2048 + b)
    else
      let row := 32 * x.tr + b / 64
      let col := if w.deep then 32 * x.tc + b % 64 / 2 else 64 * x.tc + b % 64
      let v := Config.av1Sample bits n x.plane row col
      if x.rows ≤ row ∨ x.cols ≤ col then 0#8
      else if w.deep then BitVec.ofNat 8 (v % 1024 / (if b % 2 = 1 then 256 else 1)) else BitVec.ofNat 8 v
  { bytes := (List.range 2048).map byte, layout := if w.deep then 2#4 ++ 0#12 else 9#4 ++ 0#12 }

/-- One version of a frame created at its home: the state, whether the tile is done, the conflict that a version which exists is, and the request whose
answer is awaited where the home is on another device. While the home has no storage or no entry, the tile stays to be done (DEDUCED, log 9). -/
def State.makeFrameTile (s : State) (n : Nat) (r : DecReq) (w : FrameWork) (nm : Word) (t : Tile) : State × Bool × Nat × Option Nat :=
  let cl := verHome r.job nm
  let ver := r.base + BitVec.ofNat 64 r.frames
  if verDev nm ≠ s.devnum then
    let q : Req := { kind := .verst, id := s.nextId, job := r.job, lslot := r.lslot, w0 := nm, w1 := ver, w2 := BitVec.ofNat 64 r.rcount,
                     tile := { t with poison := w.err != 0 }, isStore := true, vt := ver, ret := some (s.epDecoder n), pts := s.topTime,
                     err := some (BitVec.ofNat 16 w.err) }
    (s.sendTile { src := s.epDecoder n, dst := { dev := verDev nm, router := cl, ep := 65 }, kind := 0x05#6, job := r.job, body := .req q },
      true, 0, some s.nextId)
  else
    let go :=
      match if (s.cluster cl).entryFree r.job nm ver then s.storage cl r.job nm t else none with
      | some at' =>
        (s.createVersion cl { job := r.job, name := nm, ver := ver, st := if w.err = 0 then .committed else .poisoned, unlimited := r.rcount == 0,
                              r := r.rcount, dec := true, tile := t, err := BitVec.ofNat 16 w.err, wts := s.topTime } at' true, true, 0, none)
      | none => (s, false, 0, none)
    match (s.cluster cl).version r.job nm ver with
    | some y => if y.st = .absent then go else (s, true, 1, none)
    | none => go

/-- The versions of a decoded frame, as far as they can be created now. -/
def State.makeFrame (s : State) (n : Nat) (r : DecReq) (w : FrameWork) (bits : List Byte) : State × FrameWork × Nat :=
  w.todo.foldl (fun (acc : State × FrameWork × Nat) x =>
    let (s, ok, k, q) := acc.1.makeFrameTile n r w (frameName r.tname x.plane x.tr x.tc) (acc.1.frameTile bits r.frames w x)
    (s, { acc.2.1 with todo := if ok then acc.2.1.todo else acc.2.1.todo ++ [x], waits := acc.2.1.waits ++ q.toList }, acc.2.2 + k))
    (s, { w with todo := [] }, 0)

/-- The next frame of a request decoded (R279): the bitstream read, which the homes of its lines record (R196), its code found, its references brought up to date; at the end of the stream the
request ends. -/
def State.decodeFrame (s : State) (n : Nat) (r : DecReq) : State :=
  let d := s.decoder n
  let bits := s.bitstream r
  match if d.pos < bits.length then Config.av1Frame (bits.map (·.1)) r.frames else none with
  | none =>
    -- what is left cannot be read, so that AV1 cannot say what it holds: one corrupt frame, of which no size is known (DEDUCED, log 9)
    match (bits.drop d.pos).find? fun b => b.2 != 0 with
    | some b =>
      (s.setDecoder n { d with run := some { r with firsterr := if r.firsterr = 0 then b.2 else r.firsterr, corrupt := min 0xFFFF (r.corrupt + 1),
                                                    frames := r.frames + 1 }, pos := bits.length }).soon .decodeComplete { n := n, w0 := 0 }
    | none => s.soon .decodeComplete { n := n, w0 := 0 }
  | some f =>
    let err := d.frameErr bits f
    let n' := min f.upto bits.length - d.pos
    let s := s.visitParts 0 r.job (cutLines (vaOf r.bs + BitVec.ofNat 48 d.pos) n' (n' / 128 + 2))
    let kept := d.tainted &&& ~~~f.refresh
    (s.setDecoder n { run := some r, pos := f.upto, tainted := if err = 0 then kept else kept ||| f.refresh, badRefs := d.badRefs &&& ~~~f.refresh,
                      work := some { err := err, deep := f.deep, todo := frameTiles f } }).soon .frameDecoded { n := n }

/-- The versions of the frame in hand created; once all are, the frame counts and the next is due. -/
def State.endFrame (s : State) (n : Nat) (r : DecReq) (w : FrameWork) : State :=
  let d := s.decoder n
  let (s, w, confl) := s.makeFrame n r w ((s.bitstream r).map (·.1))
  let r := { r with confl := min 255 (r.confl + confl) }
  if w.todo ≠ [] ∨ w.waits ≠ [] then (s.setDecoder n { d with run := some r, work := some w }).push 64 .frameDecoded { n := n }
  else
    let r := { r with frames := r.frames + 1, firsterr := if r.firsterr = 0 then w.err else r.firsterr,
                      corrupt := if w.err = 0 then r.corrupt else min 0xFFFF (r.corrupt + 1) }
    (s.setDecoder n { d with run := some r, work := none }).push 64 .frameDecoded { n := n }

/-- FRAME_DECODED: a request ends where R304 says, pauses once its job is stopped at this decoder (R394), or goes on: a frame is decoded, and then its versions are created, all
COMMITTED, or POISONED with its code. -/
def State.frameDecoded (s : State) (n : Nat) : State :=
  match (s.decoder n).run with
  | none => s
  | some r =>
    let ends := fun (status : Word) => s.soon .decodeComplete { n := n, w0 := status }
    if r.cancelled then ends 3
    else if r.paused then s
    else match (s.decoder n).work with
    | some w => s.endFrame n r w
    | none =>
      if r.nframes ≠ 0 ∧ r.nframes ≤ r.frames then ends 1
      else if r.base.toNat + r.frames = 0xFFFFFFFFFFFFFFFF then ends 2
      else if (s.job r.job).stopped || ((s.job r.job).leaf (.decoder (BitVec.ofNat 5 n))).stopped then s.setDecoder n { s.decoder n with run := some { r with paused := true } }
      else s.decodeFrame n r

def execFrameDecoded (s : State) : Host.Outcome State Fault Refusal := .next (s.frameDecoded s.arg.n)

/-- The completion word (R304). -/
def DecReq.word (r : DecReq) (status : Nat) : Word :=
  BitVec.ofNat 4 status ++ BitVec.ofNat 4 r.firsterr ++ BitVec.ofNat 8 r.confl ++ BitVec.ofNat 16 r.corrupt ++ BitVec.ofNat 32 r.frames

/-- DECODE_COMPLETE: the completion word is signalled once its line is clear, then the launch's counter falls, and the decoder is idle. A fault on the
signal drops it and counts in the launch. -/
def State.decodeComplete (s : State) (n status : Nat) : State :=
  match (s.decoder n).run with
  | none => s
  | some r =>
    let vas := if r.sigw = 0 then [] else [vaOf r.sigw]
    if !s.jobClear r.job vas then (s.clearJob r.job vas).push 64 .decodeComplete { n := n, w0 := BitVec.ofNat 64 status }
    else
      let status := if r.cancelled then 3 else status
      let (s, bad) := if r.sigw = 0 then (s, none) else s.jobWrite r.job (vaOf r.sigw) (bytesOf 8 (r.word status)) true false
      let s := match bad with | some cls => s.updLaunch r.job r.lslot fun x => { x with c := x.c.fault cls 0 } | none => s
      let s := (s.setDecoder n {}).uncount r.job r.lslot
      s.soon .decodeRequestStart { n := r.die }

def execDecodeComplete (s : State) : Host.Outcome State Fault Refusal := .next (s.decodeComplete s.arg.n (s.arg.w0.extractLsb' 0 4).toNat)

end Sys2Proof.Machine
end

