-- ==== Sys2Proof/Machine/Freeze.lean ====
section
/-! DEFINITION. Pre-emption: the stop of a job at an eclipse cut, its save areas, and its restore (spec/21_preempt.md R391 to R402;
spec/20_faults.md R374, R378, R380, R383; notes/assumptions 8, 20). -/

namespace Sys2Proof.Machine

/-! ## Words of what is saved -/

/-- PCAUSE of a park (R380). -/
def Park.cause (p : Park) : Nat :=
  match p with
  | .none => 0
  | .reg _ => 1
  | .succ => 1
  | .acc _ => 1
  | .reply _ n => n
  | .replySlot => 4
  | .bar .. => 3
  | .barArw .. => 3
  | .fence .. => 4
  | .quiet => 4
  | .send => 6
  | .ring _ => 6
  | .copy => 6
  | .mqueue _ => 6
  | .slog _ => 6
  | .slogBytes .. => 6
  | .dqueue => 6

/-- STATE of a strand (R380). -/
def StrandSt.num (x : StrandSt) : Nat := match x with | .idle => 0 | .ready => 1 | .parked => 2 | .frozen => 3

/-- The eight words of a fault packet (R374). -/
def Packet.words (p : Packet) : List Word :=
  [p.core ++ p.strand ++ p.job ++ BitVec.ofNat 6 p.cls ++ BitVec.ofBool p.frozen ++ BitVec.ofBool p.slog ++ BitVec.ofBool p.defer ++
     BitVec.ofBool p.autok ++ BitVec.ofBool p.late ++ 0#1 ++ p.insn,
   p.lslot ++ p.pc, p.addr, p.pix, p.vt, 0#42 ++ p.sle ++ p.info, p.aux, p.tstamp]

/-- Word n of some bytes. -/
def wordAt (bs : List Byte) (o : Nat) : Word := leBits 64 ((bs.drop o).take 8)

/-- The packet that 64 bytes hold. -/
def Packet.ofBytes (bs : List Byte) : Packet :=
  let w := fun n => wordAt bs (8 * n)
  { core := (w 0).extractLsb' 52 12, strand := (w 0).extractLsb' 48 4, job := (w 0).extractLsb' 44 4, cls := ((w 0).extractLsb' 38 6).toNat,
    frozen := (w 0).getLsbD 37, slog := (w 0).getLsbD 36, defer := (w 0).getLsbD 35, autok := (w 0).getLsbD 34, late := (w 0).getLsbD 33,
    insn := (w 0).extractLsb' 0 32, lslot := (w 1).extractLsb' 48 16, pc := (w 1).extractLsb' 0 48, addr := w 2, pix := w 3, vt := w 4,
    sle := (w 5).extractLsb' 16 6, info := (w 5).extractLsb' 0 16, aux := w 6, tstamp := w 7 }

/-- A task with the envelope that 16 bytes hold. -/
def Task.withEnvelope (t : Task) (bs : List Byte) : Task :=
  let w := wordAt bs 0
  { t with origin := w.extractLsb' 52 12, seq := w.extractLsb' 32 20, odev := w.extractLsb' 26 6, anti := w.getLsbD 25, colour := w.getLsbD 24,
           kind := w.extractLsb' 18 6, job := w.extractLsb' 14 4, opt := w.getLsbD 13, dest := vaOf (wordAt bs 8) }

/-- The four words of a side-log entry (R383). -/
def SlEntry.words (e : SlEntry) : List Word :=
  [BitVec.ofNat 4 e.kind ++ e.strand ++ BitVec.ofNat 2 e.st ++ BitVec.ofNat 3 e.blk ++ BitVec.ofNat 3 e.sz ++ e.va,
   BitVec.ofNat 6 e.cls ++ e.job ++ 0#6 ++ e.pc, e.data.extractLsb' 0 64, e.data.extractLsb' 64 64]

/-- A side-log entry with the fields that 32 bytes hold. -/
def SlEntry.withBytes (e : SlEntry) (bs : List Byte) : SlEntry :=
  let w := fun n => wordAt bs (8 * n)
  { e with kind := ((w 0).extractLsb' 60 4).toNat, strand := (w 0).extractLsb' 56 4, st := ((w 0).extractLsb' 54 2).toNat,
           blk := ((w 0).extractLsb' 51 3).toNat, sz := ((w 0).extractLsb' 48 3).toNat, va := vaOf (w 0), cls := ((w 1).extractLsb' 58 6).toNat,
           job := (w 1).extractLsb' 54 4, pc := vaOf (w 1), data := w 3 ++ w 2 }

/-- Bytes filled up with zeros to a length, or cut. -/
def padTo (n : Nat) (bs : List Byte) : List Byte := bs.take n ++ List.replicate (n - bs.length) 0

/-- The words of a strand's context (R378). -/
def State.contextWords (s : State) (c : CoreId) (k : StrandId) : List Word :=
  let t := s.strand c k
  (List.range 64).map (fun n => t.rx (BitVec.ofNat 6 n)) ++
    [t.xF ||| 1, (0#36 ++ t.iF ++ (t.mF ||| 1) ++ t.aF), t.pc.setWidth 64, t.prog, t.desc, t.cur, t.endv, t.ext] ++
    (List.range 16).map (fun n => t.ra (BitVec.ofNat 4 n)) ++
    (List.range 8).flatMap (fun n => let m := t.rm' (BitVec.ofNat 3 n); [m.extractLsb' 0 64, m.extractLsb' 64 64]) ++
    (List.range 4).map (fun n => t.ri (BitVec.ofNat 2 n)) ++
    (List.range 18).map fun n =>
      if n = 5 then (t.flags.setWidth 64) ||| (BitVec.ofNat 64 t.ann <<< 6) ||| (if t.opt then 0x100#64 else 0) else s.ctlRead c k (BitVec.ofNat 9 n)

/-- The reply-slot directory of a strand: the fills that have arrived and wait (R396). -/
def Strand.directory (t : Strand) : List Word :=
  (t.fills.take 16).map fun f => 1#1 ++ 0#2 ++ f.1 ++ 0#55

/-- The data of a strand area: every byte before its tag (R396). -/
def State.strandArea (s : State) (c : CoreId) (k : StrandId) : List Byte :=
  let t := s.strand c k
  let log := (s.slogOf c k).mergeSort fun a b => a.2.ord ≤ b.2.ord
  let blks := (log.filter fun e => e.2.kind == 2).map fun e => bytesOf 128 (Tab.get (0 : Line) (s.core c).sblk e.2.blk)
  padTo 0x3F0 ((s.contextWords c k).flatMap (bytesOf 8)) ++
  bytesOf 8 (BitVec.ofNat 64 (t.st.num + 256 * (if t.st = .parked then t.park.cause else 0))) ++
  bytesOf 8 ((t.lslot ++ 0#48 : Word)) ++
  padTo 0x40 (match t.froze with | some p => if t.st = .frozen then p.words.flatMap (bytesOf 8) else [] | none => []) ++
  padTo 0x40 (match t.task with | some q => q.t.envelope.flatMap (bytesOf 8) | none => []) ++
  padTo 0x80 (t.directory.flatMap (bytesOf 8)) ++
  padTo 0x800 ((t.fills.take 16).flatMap fun f => padTo 128 (bytesOf 8 f.2.1)) ++
  padTo 0x100 ((log.take 8).flatMap fun e => e.2.words.flatMap (bytesOf 8)) ++
  padTo 0x100 (blks.take 2).flatten ++
  List.replicate 0xC0 0

/-! ## Save areas in memory (R392, R397, R399) -/

def State.saveBase (s : State) : BitVec 48 := vaOf s.presave
def State.strandVa (s : State) (c : CoreId) (k : StrandId) : BitVec 48 := s.saveBase + BitVec.ofNat 48 (4096 * (16 * c.toNat + k.toNat))
def State.coreVa (s : State) (c : CoreId) : BitVec 48 := s.saveBase + 0x10000000#48 + BitVec.ofNat 48 (0x100000 * c.toNat)

/-- The tag of an area over the bytes that precede it. -/
def State.areaTag (s : State) (j : JobId) (va : BitVec 48) (bs : List Byte) : List Byte :=
  (shake256 (bytesOf 32 s.saveKey ++ [j.setWidth 8] ++ bytesOf 8 (va.setWidth 64 : Word) ++ bs)).take 32

/-- Bytes stored from an address through the job's translation, line by line; the fault of the first line that cannot be, with its
address. The region lies in the device's own memory tiers. -/
def State.saveBytes (s : State) (j : JobId) (va : BitVec 48) (bs : List Byte) (fuel : Nat) : State ⊕ (State × Fault') :=
  match fuel, bs with
  | 0, _ => .inl s
  | _, [] => .inl s
  | n + 1, bs =>
    let room := 128 - va.toNat % 128
    match s.jobPlace 0 j va (bs.take room).length .w with
    | .inr cls => .inr (s, faultAt cls va)
    | .inl (.own pa, leaf) =>
      if !leaf.getLsbD 1 then .inr (s, faultAt clsPermission va)
      else
        let s := s.ownWrite (some (j, leaf.extractLsb' 54 8)) j (leaf.getLsbD 5) 0 (offOf pa) (bs.take room)
        s.saveBytes j (va + BitVec.ofNat 48 room) (bs.drop room) n
    | .inl _ => .inr (s, faultAt clsUnsupported va)

/-- Parts stored one after another. -/
def State.saveParts (s : State) (j : JobId) (parts : List (BitVec 48 × List Byte)) : State ⊕ (State × Fault') :=
  parts.foldl (fun r (va, bs) => match r with | .inl s => s.saveBytes j va bs (bs.length / 128 + 2) | .inr x => .inr x) (.inl s)

/-- The lines that some bytes from an address touch. -/
def linesOf (va : BitVec 48) (n : Nat) : List (BitVec 48) := (cutLines va n (n / 128 + 2)).map (·.1)

/-- A save runs once every line that it writes is clear (R68, R180; DEDUCED, log 17); until then its step is tried again. -/
def State.whenSaved (s : State) (j : JobId) (vas : List (BitVec 48)) (i : Instr) (x : StepArg) (f : State → State) : State :=
  if s.jobClear j vas then f s else (s.clearJob j vas).push 64 i x

/-- The generation that a valid word holds. -/
def State.generation (s : State) (j : JobId) (va : BitVec 48) : Nat :=
  match s.jobRead 0 j va 8 with
  | .inl (bs, _) => ((wordAt bs 0).extractLsb' 32 32).toNat
  | .inr _ => 0

/-- Tag and valid word written after the data (R399), with `pad` bytes of zeros after the tag (R396): the new generation. -/
def State.sealArea (s : State) (j : JobId) (va tagAt validAt : BitVec 48) (pad : Nat) (data : List Byte) : (State × Nat) ⊕ (State × Fault') :=
  let g := (s.generation j validAt + 1) % 2 ^ 32
  match s.saveBytes j tagAt (s.areaTag j va data ++ List.replicate pad 0) 4 with
  | .inr x => .inr x
  | .inl s =>
    match s.saveBytes j validAt (bytesOf 8 (BitVec.ofNat 32 g ++ 0x53564544#32 : Word)) 4 with
    | .inr x => .inr x
    | .inl s => .inl (s, g)

/-! ## The stop (R394) -/

def State.setErr (s : State) : State := { s with prectl := s.prectl ||| 0x80#64 }

/-- PRECTL_STOP: refused for a job that is not resident or is stopped; otherwise it takes the place of the next round. The root of a domain is asked for
it where another device is stopped (DESIGN CHOICE, log 19). -/
def State.stopJob (s : State) : State :=
  let j : JobId := s.prectl.extractLsb' 0 4
  let v := s.job j
  match s.cut with
  | some x =>
    if x.restore || x.phase ≠ 0 || (s.job x.job).round.active || !s.isRoot then s
    else ({ s with cut := some { x with phase := 1 } } : State).openRound x.job true
  | none =>
    let s : State := { s with prestat := 0 }
    if !v.resident || v.stopped then s.endCut true
    else
      let x : Cut := { scope := s.prectl.getLsbD 4, job := j }
      if !s.isRoot then ({ s with cut := some x } : State).sendTree s.root j .ask
      else if v.round.active then { s with cut := some x } else ({ s with cut := some { x with phase := 1 } } : State).openRound j true

def execPrectlStop (s : State) : Host.Outcome State Fault Refusal := .next s.stopJob

/-- The queue entries of a job on a core written to its spill area, each with SPMIN; an area that is full or faults cancels the job. -/
def State.spillQueue (s : State) (c : CoreId) (j : JobId) : State :=
  ((s.core c).queue.filter fun q => q.t.job == j).foldl (fun s q =>
    let v := s.core c
    if (s.job j).cancelled then s
    else if !v.spillRoom j q.t.anti then s.cancelStop j
    else match s.spillFault c j .w with
    | some cls => s.spillFailed c j cls
    | none => s.spillWrite c j (({ v with queue := v.queue.erase q } : Core).putSpill j q)) s

/-- Requests of a core that wait to be sent again leave at once (R393). -/
def State.reinjectAll (s : State) (c : CoreId) (j : JobId) : State :=
  (s.core c).reqs.foldl (fun s r =>
    match Tab.find s.msgs r.id with
    | some m => if r.job == j && m.refused then s.soon .backoffExpiry { n := r.id } else s
    | none => s) s

/-- STOP_FLIP of a leaf. -/
def State.stopFlip (s : State) (j : JobId) (x : Leaf) : State :=
  if !((s.job j).round.active && (s.job j).round.stop) then s
  else
    let s := s.updLeaf j x fun v => { v.flip (s.job j).round.k with stopped := true }
    match x with
    | .core c =>
      let ks := ((s.core c).strands.filter fun e => e.2.job == j && e.2.res.isSome && e.2.task.isSome).map fun e => (BitVec.ofNat 4 e.1 : StrandId)
      (ks.foldl (fun s k => s.withdraw c k) s).reinjectAll c j
    | .dispenser cl => (s.coresOf cl).foldl (fun s c => s.spillQueue c j) s
    | .decoder d =>
      if d.toNat % 8 = 0 then
        { s with decQueues := Tab.put s.decQueues (d.toNat / 8)
                   ((Tab.get [] s.decQueues (d.toNat / 8)).map fun r => if r.job == j then { r with paused := true } else r) }
      else s
    | .mgmt => s
    | .port _ => s

def execStopFlip (s : State) : Host.Outcome State Fault Refusal := .next (s.stopFlip s.arg.j s.arg.leaf)

/-- The cores bound to the job's launches, whether or not one had room for them. -/
def State.boundCores (s : State) (j : JobId) : List CoreId :=
  ((s.job j).launches.flatMap fun (e : Nat × Launch) => if e.2.complete then [] else e.2.coreList).eraseDups

/-- The resident strands of a job on a core. -/
def State.strandsOf (s : State) (c : CoreId) (j : JobId) : List StrandId :=
  ((s.core c).strands.filter fun e => match e.2.res with | some (i, _) => i == j | none => false).map fun e => BitVec.ofNat 4 e.1

/-- The next saves of the cut: strands, then cores, then the end. -/
def State.nextSaves (s : State) : State :=
  match s.cut with
  | none => s
  | some x =>
    match x.strands, x.cores with
    | [], [] =>
      -- the bind records of launches that no core holds any more are released (R398)
      let ls := if x.scope then (s.job x.job).launches.filter fun (e : Nat × Launch) => e.2.bound.isSome &&
          !(s.cores.any fun (c : Nat × Core) => c.2.installed.contains (x.job, BitVec.ofNat 16 e.1)) else []
      (ls.foldl (fun s (e : Nat × Launch) => s.unbind x.job (BitVec.ofNat 16 e.1)) s).endCut (s.prestat.extractLsb' 16 16 != 0)
    | [], c :: _ => s.push 64 .coreSave { c := c }
    | (c, k) :: _, _ => s.push 64 .strandSave { c := c, k := k }

/-- ECLIPSE_CUT_CLOSE: the old-colour counts and every OUT are 0: GVT is final, and the saves begin. Another wave is asked for otherwise. On another
device than the root it sends the report of a wave, and takes the final value `g` that the root has sent; a device whose own PRECTL has not asked for
the stop saves nothing (DESIGN CHOICE, log 19). -/
def State.closeCut (s : State) (j : JobId) (g : Option Word) : State :=
  let r := (s.job j).round
  if !r.active || !r.stop then s
  else if g.isNone && r.due ≠ [] then s.push 64 .eclipseCutClose { j := j }
  else if g.isNone && !s.isRoot then s.reportUp j
  else if g.isNone && (r.sum ≠ 0 || r.out ≠ 0) then s.push 64 .gvtWaveStart { j := j }
  else
    let s := s.broadcast j (g.getD r.least)
    let own := match s.cut with | some x => x.job == j && !x.restore | none => false
    let s := if !s.isRoot then s
      else (s.sendDomain j (.gvt (s.job j).gvt true)).updJob j fun v =>
        { v with round := { v.round with held := v.round.asked ++ (if own then [s.devnum.toNat] else []), asked := [] } }
    -- the WAITW registrations are withdrawn, to be made again at the restore (R393; DEDUCED, log 20)
    let waits := s.clusters.flatMap fun (e : Nat × Cluster) => e.2.waitw.filter fun r => r.job == j
    let s : State := { s with clusters := s.clusters.map fun (e : Nat × Cluster) => (e.1, { e.2 with waitw := e.2.waitw.filter fun r => r.job != j }) }
    let s := s.updJob j fun v => { v with stopped := true, saved := { whole := match s.cut with | some x => x.scope | none => false, waits := waits } }
    match if own then s.cut else none with
    | none => s
    | some x =>
      let cs := s.boundCores j
      ({ s with cut := some { x with phase := 2, cores := cs, strands := cs.flatMap fun c => (s.strandsOf c j).map fun k => (c, k) } } : State).nextSaves

def execEclipseCutClose (s : State) : Host.Outcome State Fault Refusal := .next (s.closeCut s.arg.j (if s.arg.v = 1 then some s.arg.w0 else none))

/-! ## Saves (R396 to R400) -/

/-- ABANDON and SAVED of PRESTAT counted. -/
def State.countAbandon (s : State) : State :=
  { s with prestat := s.prestat.extractLsb' 32 32 ++ (s.prestat.extractLsb' 16 16 + 1) ++ s.prestat.extractLsb' 0 16 }
def State.countSaved (s : State) : State :=
  { s with prestat := (s.prestat.extractLsb' 32 32 + 1) ++ s.prestat.extractLsb' 0 32 }

/-- The packet of class 32 of a save that is abandoned (R400); it counts as no task's fault. That of a core names the job, and no launch, strand or
instruction (DESIGN CHOICE, log 20). -/
def State.strandPacket (s : State) (c : CoreId) (k : StrandId) (f : Fault') : Packet := { s.packet c k { f with cls := 32 } with frozen := true, autok := false }
def State.corePacket (s : State) (c : CoreId) (j : JobId) (f : Fault') : Packet :=
  { cyc := s.cycle, core := c, job := j, cls := 32, addr := f.addr, tstamp := s.tstamp }

/-- A task of the job below GVT has not committed, or one rolls back: no save begins before (R395). -/
def State.committing (s : State) (j : JobId) : Bool :=
  s.cores.any fun (e : Nat × Core) => e.2.rings.any fun b =>
    b.job == j && (b.ts == .committing || b.ts == .rolling || (b.ts == .done && decide (b.t.t.vt < (s.job j).gvt)))

/-- A strand can be saved: it stands at a boundary, nothing of it is outstanding, no commit or rollback of the job runs, and its side-log entries
fit. -/
def State.canSave (s : State) (c : CoreId) (k : StrandId) (j : JobId) : Bool :=
  let t := s.strand c k
  t.atBoundary && t.pend.isEmpty && !((s.strandReqs c k).any fun r => !r.late) && !((s.core c).copies.any fun e => e.strand == k && e.job == j) &&
    !s.committing j && !s.overLogged c k

/-- The save of a strand done or abandoned: the next one follows. -/
def State.strandSaved (s : State) (c : CoreId) (k : StrandId) : State :=
  ({ s with cut := s.cut.map fun x => { x with strands := x.strands.filter fun e => e != (c, k) } } : State).nextSaves

/-- STRAND_SAVE: data, then tag, then valid word. A strand that cannot be saved yet is tried again. -/
def State.saveStrand (s : State) (c : CoreId) (k : StrandId) : State :=
  match s.cut with
  | none => s
  | some x =>
    if x.phase ≠ 2 || !x.strands.contains (c, k) then s
    else if !s.canSave c k x.job then s.push 64 .strandSave { c := c, k := k }
    else s.whenSaved x.job (linesOf (s.strandVa c k) 0x1000) .strandSave { c := c, k := k } fun s =>
      let j := x.job
      let va := s.strandVa c k
      let data := s.strandArea c k
      let done := match s.saveParts j [(va, data)] with
        | .inr e => Sum.inr e
        | .inl s => s.sealArea j va (va + 0xFC0) (va + 0xFF8) 24 data
      match done with
      | .inl (s, g) =>
        ((s.updJob j fun v => { v with saved := { v.saved with strands := v.saved.strands ++ [(c, k, g)] } }).countSaved).strandSaved c k
      | .inr (s, f) =>
        let p := s.strandPacket c k f
        let s := (s.sendPacket p).countAbandon
        -- one that was frozen keeps the fault that froze it
        (s.updStrand c k fun t => if t.st = .frozen then t else { t with st := .frozen, froze := some p }).strandSaved c k

def execStrandSave (s : State) : Host.Outcome State Fault Refusal := .next (s.saveStrand s.arg.c s.arg.k)

/-- The launches of a job bound on a core, lowest first, at most 16. -/
def State.launchesOn (s : State) (c : CoreId) (j : JobId) : List Lslot :=
  (((s.job j).launches.filter fun (e : Nat × Launch) => !e.2.complete && (e.2.boundTo c)).map fun e => BitVec.ofNat 16 e.1).take 16

/-- The bind record of a launch as saved: word 0 with V set, words 1 and 2, word 3 zero. -/
def State.bindWords (s : State) (j : JobId) (l : Lslot) : List Word :=
  match (s.launch j l).bound with
  | some n => let r := Tab.get {} s.slotTable n; [r.w0 ||| (1#64 <<< 63), r.w1, r.w2, 0]
  | none => [0, 0, 0, 0]

/-- An accumulator's bytes, its elements row by row. -/
def Acc.bytes (a : Acc) : List Byte := (List.range 1024).flatMap fun n => bytesOf 4 (Tab.get 0#32 a.el n)

/-- ACCST (R377). -/
def Core.accst (v : Core) : Word :=
  BitVec.ofNat 64 (((List.range 4).map fun k =>
    let a := v.accAt (BitVec.ofNat 2 k)
    (a.tag % 32 + (if a.int then 32 else 0) + (if a.full then 64 else 0)) * 256 ^ k).sum)

/-- The saved words of the hardware barriers (R398). -/
def State.barWords (s : State) (c : CoreId) (j : JobId) : List Word :=
  let ls := s.launchesOn c j
  (List.range 256).map fun h =>
    let b := Tab.get {} (s.core c).bars h
    match b.owner with
    | some (i, l, n) => if i = j then BitVec.ofNat 4 (ls.idxOf l) ++ BitVec.ofNat 8 n ++ 1#1 ++ 0#3 ++ b.gen ++ b.arv ++ b.exp else 0
    | none => 0

/-- The slots of a core tagged with a job. -/
def State.jobSlots (s : State) (c : CoreId) (j : JobId) : List Nat := (List.range 384).filter fun n => (s.slot c n).jobtag == j.toNat

/-- The bytes of a slot as a save writes them, those of a retention ring as they read (R345, R398). -/
def State.savedSlot (s : State) (c : CoreId) (n : Nat) : List Byte :=
  if (s.slot c n).ring then (List.range 2048).map fun k => s.ringByte c (2048 * n + k) else Memory.read s.mem (localBase c + 2048 * n) 2048

/-- The parts of a core area that are written (R398). -/
def State.coreParts (s : State) (c : CoreId) (j : JobId) (whole : Bool) : List (BitVec 48 × List Byte) :=
  let va := s.coreVa c
  let v := s.core c
  let at' := fun (o : Nat) => va + BitVec.ofNat 48 o
  (if whole then (s.jobSlots c j).map fun n => (at' (2048 * n), s.savedSlot c n) else []) ++
  [(at' 0xC0000, (List.range 384).flatMap fun n => bytesOf 8 (v.slot n).word),
   (at' 0xC1000, (List.range 4).flatMap fun k =>
      let a := v.accAt (BitVec.ofNat 2 k)
      if a.tag = j.toNat then a.bytes else List.replicate 4096 0),
   (at' 0xC5000, bytesOf 8 v.accst),
   (at' 0xC5800, (s.barWords c j).flatMap (bytesOf 8)),
   (at' 0xC6000, padTo 512 ((s.launchesOn c j).flatMap fun l => (s.bindWords j l).flatMap (bytesOf 8)))]

/-- What a stop of whole cores takes from a core: the shares are released as at completion; what the areas do not show stays with the job. -/
def State.takeCore (s : State) (c : CoreId) (j : JobId) : State :=
  let v := s.core c
  let ks := s.strandsOf c j
  let num := fun (p : Park) => match p with | .barArw h g d => (match (Tab.get {} v.bars h).owner with | some (_, _, n) => Park.barArw n g d | none => p) | p => p
  let tasks := ks.filterMap fun k => (v.strand k).task.map fun q => (c, k, q, num (v.strand k).park)
  let late := v.reqs.filter fun r => r.late && r.job == j
  let log := (v.slog.filter fun e => e.2.st != 0 && e.2.job == j && ks.contains e.2.strand && e.2.kind != 8 && e.2.kind != 9).mergeSort fun a b => a.2.ord ≤ b.2.ord
  let s := s.updJob j fun w =>
    { w with saved := { w.saved with
        tasks := w.saved.tasks ++ tasks, regs := w.saved.regs ++ ks.map (fun k => (c, k, (v.strand k).marked, (v.strand k).badX)),
        inst := w.saved.inst ++ (v.installed.filter fun e => e.1 == j).map (fun e => (c, e.2)), rings := w.saved.rings ++ (v.rings.filter fun b => b.job == j).map (fun b => (c, b)), reqs := w.saved.reqs ++ late,
        slog := w.saved.slog ++ log.map (fun e => (c, e.2)), scales := w.saved.scales ++ (s.jobSlots c j).map fun n => (c, n, (v.slot n).scales) } }
  let s := log.foldl (fun s e => s.dropSlog c e.1) s
  let s := s.updCore c fun v => { v with reqs := v.reqs.filter fun r => !(r.late && r.job == j) }
  (v.installed.filter fun e => e.1 == j).foldl (fun s e => s.releaseShare c j e.2) s

/-- CORE_SAVE: once the core's engines hold nothing of the job. A core whose save faults, or one of whose strands stays, keeps its bind. -/
def State.saveCore (s : State) (c : CoreId) : State :=
  match s.cut with
  | none => s
  | some x =>
    let j := x.job
    let v := s.core c
    if x.phase ≠ 2 || x.strands ≠ [] || !x.cores.contains c then s
    else if s.committing j || (v.mq ++ v.mrun.toList).any (fun m => m.job == j) || v.copies.any (fun e => e.job == j) || v.reqs.any (fun r => r.job == j && r.kind.isRow) then s.push 64 .coreSave { c := c }
    else
      let s := s.scrub c
      s.whenSaved j ((s.coreParts c j x.scope).flatMap (fun p => linesOf p.1 p.2.length) ++ linesOf (s.coreVa c + 0xC7FC0#48) 64) .coreSave { c := c } fun s =>
      let next := fun (s : State) => ({ s with cut := s.cut.map fun x => { x with cores := x.cores.filter fun d => d != c } } : State).nextSaves
      let va := s.coreVa c
      let done := match s.saveParts j (s.coreParts c j x.scope) with
        | .inr e => Sum.inr e
        | .inl s =>
          match s.jobRead 0 j va 0xC7FC0 with
          | .inr f => Sum.inr (s, f)
          | .inl (bs, _) => s.sealArea j va (va + 0xC7FC0) (va + 0xC7FF8) 0 bs
      match done with
      | .inr (s, f) => next (s.sendPacket (s.corePacket c j f)).countAbandon
      | .inl (s, g) =>
        let s := s.updJob j fun w => { w with saved := { w.saved with cores := w.saved.cores ++ [(c, g)] } }
        let stays := (s.strandsOf c j).any fun k => !((s.job j).saved.strands.any fun e => e.1 == c && e.2.1 == k)
        next (if x.scope && !stays then s.takeCore c j else s)

def execCoreSave (s : State) : Host.Outcome State Fault Refusal := .next (s.saveCore s.arg.c)

/-! ## Restore (R401, R402) -/

/-- An area as read: its bytes if it verifies. -/
def State.verified (s : State) (j : JobId) (va : BitVec 48) (tagAt validAt size gen : Nat) : Option (List Byte) :=
  match s.jobRead 0 j va size with
  | .inr _ => none
  | .inl (bs, bad) =>
    if bad = [] ∧ wordAt bs validAt = BitVec.ofNat 32 gen ++ 0x53564544#32 ∧ (bs.drop tagAt).take 32 = s.areaTag j va (bs.take tagAt) then some bs else none

/-- The strand with the context of a saved area. -/
def Strand.withContext (t : Strand) (bs : List Byte) : Strand :=
  let t := (List.range 126).foldl (fun (t : Strand) n => t.ctxWrite (8 * n) (wordAt bs (8 * n))) t
  { t with vt := wordAt bs 0x360, opt := (wordAt bs 0x388).getLsbD 8 }

/-- The replies of the directory written to their destinations. -/
def Strand.withReplies (t : Strand) (bs : List Byte) : Strand :=
  (List.range 16).foldl (fun (t : Strand) n =>
    let d := wordAt bs (0x480 + 8 * n)
    if d.getLsbD 63 ∧ d.extractLsb' 61 2 = 0#2 then
      let r : XReg := d.extractLsb' 55 6
      (t.putX r (wordAt bs (0x500 + 128 * n))).setF (.x r) true
    else t) { t with fills := [] }

/-- The share of a restored strand: its first slot, by the tile table. -/
def State.shareBase (s : State) (c : CoreId) (k : StrandId) (j : JobId) : Nat :=
  ((List.range 384).find? fun n => let e := s.slot c n; e.jobtag == j.toNat && e.strand == k && (e.use == 1 || e.use == 2)).getD 0

/-- A strand restored from its area (R401 steps 2 and 4). -/
def State.restoreStrand (s : State) (c : CoreId) (k : StrandId) (j : JobId) (bs : List Byte) (whole : Bool) : State :=
  let v := (s.job j).saved
  let l : Lslot := (wordAt bs 0x3F8).extractLsb' 48 16
  let x := s.launch j l
  let old := s.strand c k
  -- a core whose own save was abandoned has kept its strands (R400)
  let whole := whole && old.task.isNone
  let stash := v.tasks.find? fun e => e.1 == c && e.2.1 == k
  let t0 : Strand := if whole then { res := some (j, l), base := s.shareBase c k j, ntile := x.ntile, nscr := slotCount x.scrb, pool := x.poolShare } else old
  let t := ((t0.withContext bs).withReplies bs)
  let st := (wordAt bs 0x3F0).extractLsb' 0 2
  let park := if whole then (match stash with | some (_, _, _, p) => p | none => .none) else old.park
  -- the hardware barrier of a BAR.ARW that has arrived, found again by its number
  let park := match park with
    | .barArw n g d =>
      if whole then Park.barArw (((List.range 256).find? fun h => (Tab.get ({} : Bar) (s.core c).bars h).owner == some (j, l, n)).getD n) g d else park
    | _ => .none
  let task := if st = 0 then none else
    let q : QEntry := match if whole then stash.map (·.2.2.1) else old.task with | some q => q | none => {}
    let tk := { q.t with lslot := l, vt := t.vt }.withEnvelope ((bs.drop 0x440).take 16)
    some { q with t := tk, pinned := tk.kind == 0x11#6 || tk.kind == 0x12#6 }
  let p := Packet.ofBytes ((bs.drop 0x400).take 64)
  let (marked, badX) := match if whole then v.regs.find? fun e => e.1 == c && e.2.1 == k else none with | some e => e.2.2 | none => (t.marked, t.badX)
  let t := { t with marked := marked, badX := badX, st := if st = 0 then .idle else if st = 1 then .ready else if st = 2 then .parked else .frozen, park := park, held := .none, buf := [],
                    filling := false, task := task, froze := if st = 3 then some p else none }
  let s := s.setStrand c k t
  let s := if st = 3 then s.sendPacket { p with cyc := s.cycle } else s
  if whole then
    let log := ((v.slog.filter fun e => e.1 == c && e.2.strand == k).take 8).zipIdx
    log.foldl (fun s (e, n) =>
      match (s.core c).slFree with
      | none => s
      | some i =>
        let y := e.2.withBytes ((bs.drop (0xD00 + 32 * n)).take 32)
        match if y.kind = 2 then (s.core c).blkFree else none with
        | some b =>
          let idx := (log.filter fun z => decide (z.2 < n) && z.1.2.kind == 2).length
          let line : Line := leBits 1024 ((bs.drop (0xE00 + 128 * idx)).take 128)
          s.updCore c fun w => { w with slog := Tab.put w.slog i { y with blk := b }, sblk := Tab.put w.sblk b line, sblkUsed := w.sblkUsed ++ [b] }
        | none => s.updCore c fun w => { w with slog := Tab.put w.slog i y }) s
  else s

/-- A tile-table entry from its word. -/
def Slot.ofWord (w : Word) (scales : List (BitVec 16)) : Slot :=
  { layout := w.extractLsb' 48 16, scales := scales, rdc := (w.extractLsb' 37 3).toNat, jobtag := (w.extractLsb' 32 5).toNat, strand := w.extractLsb' 28 4,
    use := (w.extractLsb' 26 2).toNat, poison := w.getLsbD 3, own := w.getLsbD 2, st := (w.extractLsb' 0 2).toNat }

/-- A core restored from its area: tile table and local memory of the job's slots, accumulators, barriers. Of slots given up since the stop, by a CANCEL
of their launch, nothing comes back (R402): those of the shares of the strands `ks` that are restored do, and those that the core holds for the job. -/
def State.restoreCore (s : State) (c : CoreId) (j : JobId) (bs : List Byte) (whole : Bool) (ks : List StrandId) : State :=
  let v := (s.job j).saved
  let slots := (List.range 384).filter fun n =>
    let w := wordAt bs (0xC0000 + 8 * n)
    (w.extractLsb' 32 5).toNat == j.toNat &&
      ((s.slot c n).jobtag == j.toNat || (whole && ks.contains (w.extractLsb' 28 4) && ((w.extractLsb' 26 2).toNat == 1 || (w.extractLsb' 26 2).toNat == 2)))
  let s := slots.foldl (fun (s : State) n =>
    let sc := if whole then ((v.scales.find? fun e => e.1 == c && e.2.1 == n).map (·.2.2)).getD (s.slot c n).scales else (s.slot c n).scales
    let s := s.updSlot c n fun e => { Slot.ofWord (wordAt bs (0xC0000 + 8 * n)) sc with ring := e.ring }
    if whole then
      { s.clearPoison (localBase c + 2048 * n) 2048 with mem := Memory.write s.mem (localBase c + 2048 * n) ((bs.drop (2048 * n)).take 2048) }
    else s) s
  let accst := wordAt bs 0xC5000
  let s := (List.range 4).foldl (fun (s : State) k =>
    let b := accst.extractLsb' (8 * k) 8
    if (b.extractLsb' 0 5).toNat = j.toNat then
      s.setAcc c (BitVec.ofNat 2 k) fun _ =>
        { el := (List.range 1024).map fun n => (n, leBits 32 ((bs.drop (0xC1000 + 4096 * k + 4 * n)).take 4)), full := b.getLsbD 6, int := b.getLsbD 5, tag := j.toNat }
    else s) s
  (List.range 256).foldl (fun (s : State) h =>
    let w := wordAt bs (0xC5800 + 8 * h)
    if w.getLsbD 51 then
      let r := wordAt bs (0xC6000 + 32 * (w.extractLsb' 60 4).toNat)
      let l : Lslot := r.extractLsb' 40 16
      let n := (w.extractLsb' 52 8).toNat
      match (List.range 256).find? fun i => (Tab.get {} (s.core c).bars i).owner == some (j, l, n) with
      | some i => s.updCore c fun v => { v with bars := Tab.put v.bars i { gen := w.extractLsb' 32 16, arv := w.extractLsb' 16 16, exp := w.extractLsb' 0 16, owner := some (j, l, n) } }
      | none => s
    else s) s

/-- The saved bind records of a core agree field by field, V aside, with those that bind the job's launches now. -/
def State.recordsAgree (s : State) (c : CoreId) (j : JobId) : Bool :=
  match s.jobRead 0 j (s.coreVa c + 0xC6000) 512 with
  | .inr _ => true
  | .inl (bs, _) =>
    (List.range 16).all fun n =>
      let w := fun i => wordAt bs (32 * n + 8 * i)
      if w 0 = 0 then true
      else
        let l : Lslot := (w 0).extractLsb' 40 16
        -- a launch that a CANCEL has ended since the stop is bound no more (R402)
        !(s.job j).live l || ((s.launch j l).bound.isSome && s.bindWords j l == [w 0, w 1, w 2, 0])

/-- The launches that a stop of whole cores took from its cores are in place again, installed where there is room now. -/
def State.reinstall (s : State) (j : JobId) : State × Bool :=
  let due := fun (s : State) (e : CoreId × Lslot) => (s.job j).live e.2 && !(s.core e.1).installed.contains (j, e.2)
  let inst := (s.job j).saved.inst
  let s := inst.foldl (fun s e =>
    if due s e then
      let s := s.scrub e.1
      if (s.core e.1).canInstall (s.launch j e.2) then s.install e.1 j e.2 else s
    else s) s
  (s, !inst.any (due s))

/-- PRECTL_RESTORE. While a core has no room for what a stop of whole cores took from it, it waits (DEDUCED, log 20). -/
def State.restore (s : State) : State :=
  if s.cut.isSome then s else
  let j : JobId := s.prectl.extractLsb' 0 4
  let s : State := { s with prestat := 0 }
  let v := s.job j
  if !v.resident || !v.stopped then s.endCut true
  else if !(v.saved.cores.all fun e => s.recordsAgree e.1 j) then s.endCut true
  else
    let whole := v.saved.whole
    let areas : List (BitVec 48 × Nat) :=
      v.saved.cores.map (fun e => (s.coreVa e.1, 0xC8000)) ++ v.saved.strands.map fun e => (s.strandVa e.1 e.2.1, 0x1000)
    let s := areas.foldl (fun (s : State) e => s.visitRead 0 j e.1 e.2) s
    let cores := v.saved.cores.map fun e => (e.1, s.coreVa e.1 + 0xC7FF8, s.verified j (s.coreVa e.1) 0xC7FC0 0xC7FF8 0xC8000 e.2)
    let strands := v.saved.strands.map fun e => (e.1, e.2.1, s.strandVa e.1 e.2.1 + 0xFF8, s.verified j (s.strandVa e.1 e.2.1) 0xFC0 0xFF8 0x1000 e.2.2)
    let bad := (cores.filter fun e => e.2.2.isNone).map (·.2.1) ++ (strands.filter fun e => e.2.2.2.isNone).map (·.2.2.1)
    if bad ≠ [] then s.whenSaved j bad .prectlRestore {} fun s =>
      let s := bad.foldl (fun s va => match s.saveBytes j va (bytesOf 4 0x44474D44#32) 2 with | .inl s => s | .inr (s, _) => s) s
      let s : State := { s with prestat := s.prestat.extractLsb' 16 48 ++ BitVec.ofNat 16 bad.length }
      ((s.cancelJob j).1).endCut true
    else
      let (s, ready) := s.reinstall j
      if !ready then s.push 64 .prectlRestore {} else
      let strands := strands.filter fun (_, _, _, b) => match b with | some bs => v.live ((wordAt bs 0x3F8).extractLsb' 48 16) | none => false
      let s := cores.foldl (fun s (c, _, b) => match b with
        | some bs => s.restoreCore c j bs whole ((strands.filter fun e => e.1 == c).map (·.2.1))
        | none => s) s
      let s := if whole then
          v.saved.rings.foldl (fun s (e : CoreId × Block) => s.updCore e.1 fun x => { x with rings := x.rings ++ [e.2] })
            (v.saved.reqs.foldl (fun s r => s.updCore r.core fun x => { x with reqs := x.reqs ++ [r] }) s)
        else s
      let s := strands.foldl (fun s (c, k, _, b) => match b with | some bs => (s.restoreStrand c k j bs whole).countSaved | none => s) s
      ((((s.remakeWaits j).updJob j fun v => { v with saved := {} }).unstop j).endCut false)

def execPrectlRestore (s : State) : Host.Outcome State Fault Refusal := .next s.restore

end Sys2Proof.Machine
end

