-- ==== Sys2Proof/Machine/Mesh.lean ====
section
/-! DEFINITION. The network: arbitration and deflection, injection, ejection, request pools and refusal filters, throttling, and the Jenay
ports (spec/14_network.md R305 to R322; notes/assumptions 13). -/

namespace Sys2Proof.Machine

/-! ## Geometry (R2, R310, R319) -/

/-- The neighbour of a router on a port: +x, +y, −x, −y. -/
def neighbour (cl : ClusterId) (p : Nat) : Option ClusterId :=
  let x := cl.toNat % 8
  let y := cl.toNat / 8
  match p with
  | 0 => if x < 7 then some (cl + 1) else none
  | 1 => if y < 7 then some (cl + 8) else none
  | 2 => if 0 < x then some (cl - 1) else none
  | _ => if 0 < y then some (cl - 8) else none

/-- Hops between two routers. -/
def hops (a b : ClusterId) : Nat :=
  let d := fun (m n : Nat) => (m - n) + (n - m)
  d (a.toNat % 8) (b.toNat % 8) + d (a.toNat / 8) (b.toNat / 8)

/-- Network cycles of a hop: four more across a die boundary. -/
def hopTime (a b : ClusterId) : Nat :=
  if a.toNat % 8 / 4 = b.toNat % 8 / 4 ∧ a.toNat / 8 / 4 = b.toNat / 8 / 4 then 1 else 5

/-- A port is productive toward a router. -/
def productive (cl dst : ClusterId) (p : Nat) : Bool :=
  match neighbour cl p with
  | some n => decide (hops n dst < hops cl dst)
  | none => false

/-- The lowest free productive port, else the lowest free one. -/
def choosePort (cl dst : ClusterId) (free : List Nat) : Option Nat :=
  match free.find? (productive cl dst) with
  | some p => some p
  | none => free.head?

/-! ## Headers (R306) -/

/-- A flit of the current identity (R311). -/
def State.isComet (s : State) (f : Flit) : Bool := f.key.src.router.toNat == s.comet % 64 && f.key.tag.toNat == s.comet / 64

/-- INFO of a message: physical address bits 45:6 of a memory request, the tag that a reply answers; of other kinds 0 (DESIGN CHOICE, log 13). -/
def Msg.info (m : Msg) : BitVec 40 :=
  match m.body with
  | .req r => r.pa.extractLsb' 6 40
  | _ => if isReplyKind m.kind then m.answers.setWidth 40 else 0

/-- The 120 bits of a flit's header beside HECC: word 0, and word 1 bits 55 to 0. -/
def State.headerBits (s : State) (f : Flit) : BitVec 120 :=
  let word0 : Word := f.to'.router.extractLsb' 0 3 ++ f.to'.router.extractLsb' 3 3 ++ BitVec.ofNat 7 f.to'.ep ++
    f.key.src.router.extractLsb' 0 3 ++ f.key.src.router.extractLsb' 3 3 ++ BitVec.ofNat 7 f.key.src.ep ++
    BitVec.ofNat 2 f.plane ++ BitVec.ofNat 12 f.age ++ BitVec.ofBool f.col ++ BitVec.ofBool (s.isComet f) ++ f.kind ++ f.key.tag ++
    BitVec.ofNat 3 f.fidx ++ BitVec.ofNat 3 f.fcnt
  word0 ++ f.to'.dev ++ f.key.src.dev ++ f.job ++ f.info

/-- The header of a flit on a link: word 0 above word 1, with the SECDED code of the other bits. -/
def State.header (s : State) (f : Flit) : BitVec 128 :=
  let h := s.headerBits f
  h.extractLsb' 56 64 ++ Config.hecc h ++ h.extractLsb' 0 56

/-! ## Ejection (R313 to R315) -/

/-- Packets that no pool refuses: replies and notices, what the dispenser takes, anti-messages and retractions. -/
def Flit.never (f : Flit) : Bool := isReplyKind f.kind || f.dst.ep == 66 || f.anti || f.kind == 0x15#6

/-- `accepts` of R310: what becomes of a flit at its destination, by R315. -/
def State.accepts (s : State) (cl : ClusterId) (f : Flit) : Option (State × Eject) :=
  let v := s.cluster cl
  let e := f.dst.ep
  let pool := Tab.get [] v.pools e
  let flt := Tab.get [] v.filters e
  -- a port never refuses: it takes replies, anti-messages and comets always, the others as the link credits of the class admit (R311, R314, R321)
  if e = 68 then
    if f.to'.dev == s.devnum || isReplyKind f.kind || f.anti || s.isComet f ||
      decide (Tab.get 0 (s.port (portAt cl)).used (linkClass f.kind f.anti) < Config.linkCredits (linkClass f.kind f.anti)) then some (s, .take) else none
  else if f.never || pool.any (fun x => x.key == f.key && x.held.isNone) then some (s, .take)
  else match flt.find? (fun x => x.1 == f.key) with
    | some (_, due) =>
      let rest := flt.filter fun x => x.1 != f.key
      some (s.updCluster cl fun v => { v with filters := Tab.put v.filters e (if due ≤ 1 then rest else rest ++ [(f.key, due - 1)]) }, .drop false (due ≤ 1))
    | none =>
      let comet := s.isComet f
      let plain := (pool.filter fun x => !x.comet).length
      if plain < 63 then some (s.updCluster cl fun v => { v with pools := Tab.put v.pools e (pool ++ [{ key := f.key }]) }, .take)
      else if comet && !pool.any (·.comet) then some (s.updCluster cl fun v => { v with pools := Tab.put v.pools e (pool ++ [{ key := f.key, comet := true }]) }, .take)
      else if flt.length < 64 then
        some (s.updCluster cl fun v => { v with filters := if f.fcnt = 1 then v.filters else Tab.put v.filters e (flt ++ [(f.key, f.fcnt - 1)]) },
              .drop true (f.fcnt = 1))
      else none

/-- A tag given back to its router's pool (R309). -/
def State.freeTag (s : State) (k : PKey) : State := s.updCluster k.src.router fun v => { v with tags := v.tags.filter fun t => t != k.tag.toNat }

/-- FLIT_EJECTION: an accepted flit is held until its packet is whole; a dropped one sends the RETRY of its packet. The tag of a packet is
released with its last flit, unless a proxy entry keeps it (R322). -/
def State.ejectFlit (s : State) (cl : ClusterId) (n i : Nat) : State :=
  match s.flits.find? (fun f => f.router == cl && f.m == n && f.fidx == i && f.eject != .no) with
  | none => s
  | some f =>
    let s : State := { s with flits := s.flits.erase f }
    match f.eject with
    | .no => s
    | .take =>
      match Tab.find s.msgs n with
      | none => s
      | some m =>
        let m := { m with got := m.got ++ [i] }
        let s : State := { s with msgs := Tab.put s.msgs n m }
        if m.got.length < m.fcnt then s
        else (if f.proxied then s else s.freeTag f.key).soon .packetReassembled { n := n }
    | .drop retry last =>
      let s := if retry then s.sendNew { src := f.dst, dst := f.key.src, kind := 0x22#6, job := f.job, body := .retry n, answers := f.key.tag } else s
      if last && !f.proxied then s.freeTag f.key else s

def execFlitEjection (s : State) : Host.Outcome State Fault Refusal := .next (s.ejectFlit s.arg.cl s.arg.n s.arg.v)

/-! ## A router's cycle (R310) -/

/-- The order of arrivals: comets, greater age, lower port, lower FIDX. -/
def State.flitBefore (s : State) (a b : Flit) : Bool :=
  let ca := s.isComet a
  let cb := s.isComet b
  if ca != cb then ca
  else if ca && a.key == b.key then decide (a.fidx ≤ b.fidx)
  else if a.age ≠ b.age then decide (b.age < a.age)
  else decide (a.port ≤ b.port)

/-- A flit sent out on a port. -/
def Flit.sent (f : Flit) (now : Nat) (cl : ClusterId) (p : Nat) : Flit :=
  match neighbour cl p with
  | some n => { f with router := n, port := (p + 2) % 4, at' := now + hopTime cl n }
  | none => f

/-- The arrivals of a cycle one after another: ejections so far, free ports, and what has been counted for the throttle. -/
def State.arbitrate (s : State) (cl : ClusterId) (fs : List Flit) (ej : Nat) (free : List Nat) : State × List Nat :=
  match fs with
  | [] => (s, free)
  | f :: rest =>
    let count := fun (s : State) (d : Bool) =>
      s.updCluster cl fun v => { v with routedNow := v.routedNow + 1, deflNow := if d then v.deflNow + 1 else v.deflNow }
    match if f.dst.router = cl ∧ ej < 2 then s.accepts cl f else none with
    | some (s, e) =>
      let s : State := { s with flits := s.flits.map fun x => if x = f then { x with eject := e } else x }
      ((count s false).soon .flitEjection { cl := cl, n := f.m, v := f.fidx }).arbitrate cl rest (ej + 1) free
    | none =>
      match choosePort cl f.dst.router free with
      | some p =>
        let g := { f.sent s.now cl p with age := min (f.age + 1) 4095 }
        let s : State := { s with flits := s.flits.map fun x => if x = f then g else x }
        (count s (!productive cl f.dst.router p)).arbitrate cl rest ej (free.erase p)
      | none => s.arbitrate cl rest ej free

/-- The packet from which a plane may inject a flit: one that it has begun, else the oldest waiting of its class that the throttle allows, when
the class's turn is on this plane and a tag is free. -/
def State.injectable (s : State) (cl : ClusterId) (plane : Nat) : Option (Nat × Msg) :=
  let v := s.cluster cl
  let ms := v.inj.filterMap fun id => (Tab.find s.msgs id).map fun m => (id, m)
  let reply := decide (2 ≤ plane)
  match ms.find? (fun e => e.2.due.length < e.2.fcnt && e.2.plane == plane) with
  | some e => some e
  | none =>
    if (if reply then v.repPlane else v.reqPlane) != (plane % 2 == 1) || decide (1024 ≤ v.tags.length) then none
    else
      let now := reply || v.level = 0 || decide (v.lastInj + 2 ^ v.level ≤ s.now)
      ms.find? fun e => isReplyKind e.2.kind == reply && e.2.due.length == e.2.fcnt && (now || e.2.isAnti)

/-- A packet for a device without a route is dropped, and its request completes with the translation fault at the requester (R320). -/
def State.unroutable (s : State) (id : Nat) (m : Msg) : State :=
  let s := (s.updCluster m.src.router fun v => { v with inj := v.inj.filter fun x => x ≠ id }).dropMsg id
  let (s, dst, tag) := match m.proxy with
    | none => (s, m.src, 0)
    | some q =>
      let e := ((s.port q.toNat).proxies.find? fun (e : Proxy) => e.m == id).getD {}
      (s.updPort q.toNat fun x => { x with proxies := x.proxies.filter fun (y : Proxy) => y.m ≠ id }, e.src, e.tag)
  match m.body with
  | .req r =>
    s.sendNew { src := m.src, dst := dst, kind := 0x21#6, job := r.job, answers := tag,
                body := .reply r { fault := some { cls := clsTranslation, addr := r.va.setWidth 64 } } }
  | _ => s

/-- A flit injected on a free port; the packet's first one takes a tag and the plane, and the class's turn passes to the other plane. -/
def State.injectOn (s : State) (cl : ClusterId) (plane : Nat) (free : List Nat) : State :=
  match s.injectable cl plane with
  | none => s
  | some (id, m) =>
    let first := m.due.length = m.fcnt
    let v := s.cluster cl
    let tag := if first then (List.range 1024).find? (fun t => !v.tags.contains t) |>.getD 0 else m.tag.toNat
    let away := m.dst.dev ≠ s.devnum
    match if away && first then s.portTo m.dst.dev m.src.router tag else some m.via with
    | none => s.unroutable id m
    | some via =>
      let dst := if away then ({ dev := s.devnum, router := portRouter via, ep := 68 } : Ep) else m.dst
      match choosePort cl dst.router free, m.due with
      | some p, i :: rest =>
        let m := { m with plane := plane, tag := BitVec.ofNat 10 tag, due := rest, via := via }
        let f : Flit := { m := id, key := { src := m.src, tag := m.tag }, dst := dst, to' := m.dst, col := m.colour, job := m.job, info := m.info,
                          plane := plane, kind := m.kind, anti := m.isAnti, fidx := i, fcnt := m.fcnt, proxied := m.proxy.isSome }
        let s : State := { s with msgs := Tab.put s.msgs id m, flits := s.flits ++ [f.sent s.now cl p] }
        let s := match m.proxy with
          | some q => if first then s.updPort q.toNat fun x => { x with proxies := x.proxies.map fun (e : Proxy) => if e.m = id then { e with new := some m.tag } else e } else s
          | none => s
        s.updCluster cl fun v =>
          { v with routedNow := v.routedNow + 1, deflNow := if productive cl dst.router p then v.deflNow else v.deflNow + 1,
                   inj := if rest = [] then v.inj.filter (· ≠ id) else v.inj, tags := if first then v.tags ++ [tag] else v.tags,
                   lastInj := if first && plane < 2 then s.now else v.lastInj,
                   reqPlane := if first && plane < 2 then !v.reqPlane else v.reqPlane, repPlane := if first && 2 ≤ plane then !v.repPlane else v.repPlane }
      | _, _ => s

/-- ROUTER_CYCLE of a router and a plane. -/
def State.routerCycle (s : State) (cl : ClusterId) (plane : Nat) : State :=
  let fs := (s.flits.filter fun f => f.router == cl && f.plane == plane && decide (f.at' ≤ s.now) && f.eject == .no).mergeSort s.flitBefore
  let ports := (List.range 4).filter fun p => (neighbour cl p).isSome
  let (s, free) := s.arbitrate cl fs 0 ports
  s.injectOn cl plane free

def execRouterCycle (s : State) : Host.Outcome State Fault Refusal := .next (s.routerCycle s.arg.cl s.arg.n)

/-! ## Throttling (R317, R318) -/

/-- The target level of a window. -/
def targetLevel (defl routed : Nat) : Nat :=
  if 8 * defl ≤ routed then 0 else if 4 * defl ≤ routed then 1 else if 2 * defl ≤ routed then 2 else 3

/-- THROTTLE_WINDOW_END: the level rises to a higher target at once and falls by one toward a lower one. -/
def execThrottleWindowEnd (s : State) : Host.Outcome State Fault Refusal :=
  .next (s.updCluster s.arg.cl fun v =>
    let t := targetLevel v.deflNow v.routedNow
    { v with level := if v.level < t then t else if t < v.level then v.level - 1 else v.level, routedNow := 0, deflNow := 0,
             routed := BitVec.ofNat 16 (min v.routedNow 0xFFFF), defl := BitVec.ofNat 16 (min v.deflNow 0xFFFF) })

/-! ## Packets that are whole (R313, R315) -/

/-- The step that a request's packet asks of the place that serves it. -/
def reqStep (r : Req) (atCore : Bool) : Instr :=
  match r.kind with
  | .mbarInit | .mbarArr | .mbarWait => .barrierObjectOperation
  | .putreg => .putregFill
  | .claim _ => .iterationClaim
  | .waitw => .waitwRegistration
  | .resumec => .resumecRequest
  | .resize => .resizeAtSlice
  | .launch => .launchRequestAtManagementCore
  | .cancel => .cancelRequestAtManagementCore
  | .verst => .versionStoreAtHome
  | .verldEq | .verldAsof | .verrel => .versionLoadAtHome
  | .verq => .versionQueryAtHome
  | .retract => .versionRetraction
  | .readRelease => .exactReadRelease
  | .markRemoval => .readMarkRemoval
  | .verCommit => .versionCommit
  | .load | .loadM | .ldb | .pref | .filln | .rowRead => if atCore then .remoteLocalAccess else .coherentLoadRenewal
  | .store | .storeM | .stb | .hint | .rowWrite => if atCore then .remoteLocalAccess else .coherentStoreAtHome
  | .writeback | .flush | .inv => if atCore then .remoteLocalAccess else .noncoherentWriteback
  | .amo _ => if atCore then .remoteLocalAccess else .amoAtHome
  | .red _ | .rowRed .. => if atCore then .remoteLocalAccess else .reductionAtHome
  | .ldfe | .ldff | .stef | .stff | .fepurge => if atCore then .remoteLocalAccess else .fullEmptyAtHome

/-- A packet that its sender on this device, or the port that has proxied it, keeps until it is answered, since it may be refused by another device
(R316, R321, R421). -/
def State.keeps (s : State) (m : Msg) : Bool :=
  m.src.dev == s.devnum && (m.src.ep != 68 || m.proxy.isSome) && match m.body with | .req _ => true | .task q _ => !q.t.anti | .part _ => !isReplyKind m.kind | _ => false

/-- A packet leaves by the link of a Jenay port, at once or when a credit of its class returns (R320, R321); the port counts it (R359). -/
def State.leaves' (s : State) (n p : Nat) (m : Msg) : State :=
  let (s, m) := s.passPort p m
  let s : State := if s.keeps m then { s with msgs := (Tab.find s.msgs n).elim s.msgs fun x => Tab.put s.msgs n { x with passes := m.passes } } else s.dropMsg n
  let s := s.linkOut p m
  s.updJob m.job fun v => if v.resident && !v.ports.contains p then { v with ports := v.ports ++ [p] } else v

/-- The endpoint answers a packet from a port that would have no reply otherwise (R322): an anti-message, and a packet of the data of a tile. The
targets of PUTREG fills and retractions answer them in any case (DEDUCED, log 13); what travels on reply planes holds no entry. -/
def State.ackPort (s : State) (n : Nat) (m : Msg) : State :=
  let bare : Bool := match m.body with
    | .task q _ => q.t.anti
    | .part _ => !isReplyKind m.kind
    | _ => false
  if m.src.ep == 68 && bare then s.sendNew { src := m.dst, dst := m.src, kind := 0x21#6, job := m.job, body := .accepted n, answers := m.tag } else s

/-- A message that has arrived takes effect at its endpoint. The tag that its reply will name stays with a request, and with the copy that its core
keeps (R306). -/
def State.takeIn (s : State) (n : Nat) (m : Msg) : State :=
  if m.dst.ep = 68 then s.soon .jenayAnswerReturn { v := portAt m.dst.router, n := n }
  else
    match m.body with
    | .empty => s.dropMsg n
    | .req r =>
      let s : State := { s with msgs := Tab.put s.msgs n { m with body := .req { r with tag := m.tag } } }
      let s := if r.ret.isSome then s
        else s.updCore r.core fun v => { v with reqs := v.reqs.map fun x => if x.id = r.id then { x with tag := m.tag } else x }
      s.soon (reqStep r (m.dst.ep < 64)) { n := n }
    | .reply _ _ => s.soon .replyArrival { n := n }
    | .task q _ => s.soon (if q.t.anti then .antiMessageArrival else .taskMessageArrival) { n := n }
    | .accepted _ => s.soon .taskMessageAccepted { n := n }
    | .retry _ => s.soon .retryReceive { n := n }
    | .steal _ _ => s.soon .stealReply { n := n }
    | .shipped .. => s.soon .shippedTasksArrival { n := n }
    | .wake _ _ => s.soon .waitwWake { n := n }
    | .barNotice _ _ => s.soon .barrierObjectNotice { n := n }
    | .notice _ _ => s.soon .versionArrivalNotice { n := n }
    | .invalidate ln => (s.dropMsg n).soon .translationInvalidation { cl := m.dst.router, n := ln }
    | .invAck ln => (s.dropMsg n).invAcked m.src.router ln
    | .jenay _ => s.dropMsg n
    | .part _ => s.dropMsg n
    | .tree _ => s.dropMsg n

/-- One packet of message `n` has arrived: the message takes effect with its last packet, and until then waits without a pool entry (R305, R315;
DESIGN CHOICE, log 13). -/
def State.packetIn (s : State) (n : Nat) : State :=
  match Tab.find s.msgs n with
  | none => s
  | some m =>
    let s : State := { s with msgs := Tab.put s.msgs n { m with parts := m.parts - 1 } }
    if m.parts ≤ 1 then s.takeIn n { m with parts := 0 } else s.freePool n m

/-- PACKET_REASSEMBLED: the packet takes effect whole; a request keeps its pool entry until it has been taken in (R315). -/
def State.reassembled (s : State) (n : Nat) : State :=
  match Tab.find s.msgs n with
  | none => s
  | some m =>
    let s := if m.src = m.dst then s
      else s.updCluster m.dst.router fun v =>
        { v with pools := Tab.put v.pools m.dst.ep ((Tab.get [] v.pools m.dst.ep).map fun x =>
            if x.key == { src := m.src, tag := m.tag } && x.held.isNone then { x with held := some n } else x) }
    if m.dst.dev ≠ s.devnum then s.leaves' n m.via m
    else
      let s := s.ackPort n m
      match m.body with
      | .part k => (s.dropMsg n).packetIn k
      | _ => s.packetIn n

def execPacketReassembled (s : State) : Host.Outcome State Fault Refusal := .next (s.reassembled s.arg.n)

/-! ## Jenay ports (R320 to R322) -/

/-- JENAY_LINK_ARRIVAL: message `n` has come over the link of port `v`. Traffic of the tree stays out of the mesh (R308). Packets for other devices are
routed on; a request takes a proxy entry, and all enter the mesh as packets of the port, which counts them (R359). With no entry free they wait. A
RETRY gives back what ports have counted of its message. -/
def State.linkArrival (s : State) (p n : Nat) : State :=
  match Tab.find s.msgs n with
  | none => s
  | some m =>
    let port := s.port p
    let me : Ep := { dev := s.devnum, router := portRouter p, ep := 68 }
    let reply := isReplyKind m.kind
    if port.failed then s.dropMsg n
    else if m.kind == 0x30#6 then (s.dropMsg n).treeArrives m
    else if !reply && decide (1024 ≤ port.proxies.length) then s.push 64 .jenayLinkArrival { v := p, n := n }
    else
      let s := s.updJob m.job fun v => if v.resident && !v.ports.contains p then { v with ports := v.ports ++ [p] } else v
      let s := if reply then s
        else s.updPort p fun x => { x with proxies := x.proxies ++ [{ m := n, src := m.src, tag := m.tag, back := !m.isAnti }] }
      let (s, m') := s.passPort p m
      let body := match m'.body with
        | .req r => Body.req { r with id := n, ret := some me, sdev := m.src.dev }
        | b => b
      let s := match m.body with
        | .retry k => (Tab.find s.msgs k).elim s fun x => ({ s.unpass x with msgs := Tab.put s.msgs k { x with passes := [] } } : State)
        | _ => s
      s.inject n { m' with src := me, body := body, proxy := if reply then none else some (BitVec.ofNat 4 p) }

def execJenayLinkArrival (s : State) : Host.Outcome State Fault Refusal := .next (s.linkArrival s.arg.v s.arg.n)

/-- A reply that carries a tile. -/
def Msg.hasTile (m : Msg) : Bool := match m.body with | .reply r _ => m.kind == 0x20#6 && r.kind.loadsTile | _ => false

/-- JENAY_ANSWER_RETURN: an answer is matched by the tag that it names; the entry and its tag are freed, and the answer goes on to the original
source; an acknowledgement that only served the proxy ends here. A RETRY goes on once the refused packet has left the mesh. -/
def State.answerReturn (s : State) (p n : Nat) : State :=
  match Tab.find s.msgs n with
  | none => s
  | some m =>
    match (s.port p).proxies.find? (fun e => e.new == some m.answers) with
    | none => s.dropMsg n
    | some e =>
      let me : Ep := { dev := s.devnum, router := portRouter p, ep := 68 }
      let retry := match m.body with | .retry _ => true | _ => false
      if retry && s.inMesh e.m then s.push 8 .jenayAnswerReturn { v := p, n := n }
      else
        let s := (s.updPort p fun x => { x with proxies := x.proxies.filter fun y => y.m ≠ e.m }).freeTag { src := me, tag := m.answers }
        let s := match Tab.find s.msgs e.m with
          | some x => if retry then (s.unpass x).dropMsg e.m else if x.dst.dev ≠ s.devnum then s.dropMsg e.m else s
          | none => s
        let back : Msg := { m with src := me, dst := e.src, answers := e.tag }
        if !(e.back || retry) then s.dropMsg n
        else if m.hasTile then (s.inject n { back with parts := 5 }).sendParts n back
        else s.inject n back

def execJenayAnswerReturn (s : State) : Host.Outcome State Fault Refusal := .next (s.answerReturn s.arg.v s.arg.n)

/-- LINK_CREDIT_RETURN: the other end has freed a buffer of a class, and the oldest packet of the class that waits for a credit leaves. -/
def Port.credit (x : Port) (c : Nat) : Port :=
  match x.hold.find? fun m => linkClass m.kind m.isAnti == c with
  | some m => { x with hold := x.hold.erase m, out := x.out ++ [m] }
  | none => { x with used := Tab.put x.used c (Tab.get 0 x.used c - 1) }

def execLinkCreditReturn (s : State) : Host.Outcome State Fault Refusal := .next (s.updPort s.arg.v fun x => x.credit s.arg.n)

/-- LINK_LEVEL_REPLAY (R319): it adds time; no flit is dropped, duplicated or reordered. -/
def State.linkReplay (s : State) : State := s
def execLinkLevelReplay (s : State) : Host.Outcome State Fault Refusal := .next s.linkReplay

end Sys2Proof.Machine
end

