-- ==== Sys2Proof/Machine/Clock.lean ====
section
/-! DEFINITION. What the machine does next: the offered instruction, the next device step that is due, a step that the state itself calls
for, or the passing of a network cycle (notes/assumptions/4.md). -/

namespace Sys2Proof.Machine

/-- What a step does. -/
inductive Choice where
  /-- The strand that holds the slot executes an instruction. -/
  | run (i : Instr) (s : State)
  /-- A device step runs. -/
  | event (i : Instr) (s : State)
  /-- The state moves on by itself: a fault of checks 1 or 2 of R119, or time passes. -/
  | move (s : State)

/-- Checks 1 and 2 of R119 for the strand that holds the slot: fetched without fault, and an instruction. -/
def State.offered (s : State) (c : CoreId) (k : StrandId) : Choice :=
  match (s.strand c k).fetched with
  | .absent => .move s.took
  | .fault f => .move (s.took.raise c k f)
  | .instr p0 p1 _ =>
    match decodeParcels p0 p1 with
    | none => .move (s.took.raise c k (mkFault clsIllegalInsn))
    | some i => .run i s

/-! ## Steps that the state calls for -/

/-- The first answer of a function over a list. -/
def firstOf {α : Type} (l : List α) (f : α → Option (Instr × StepArg)) : Option (Instr × StepArg) := l.findSome? f

/-- A step of a core: a strand to wake (R126), an entry to refill (R81). -/
def State.coreStep (s : State) (c : CoreId) (v : Core) : Option (Instr × StepArg) :=
  match v.strands.find? (fun (e : Nat × Strand) => e.2.st == .parked && s.parkOver c (BitVec.ofNat 4 e.1) e.2.park) with
  | some e => some (.strandWake, { c := c, k := BitVec.ofNat 4 e.1 })
  | none => firstOf v.spill fun (e : Nat × List QEntry) =>
      let j : JobId := BitVec.ofNat 4 e.1
      if !((s.job j).leaf (.dispenser (clusterOf c))).stopped && v.refillDue j && !v.refuse.contains j then some (.spillRefill, { c := c, j := j }) else none

/-- The idle strands that an entry waits for, in order of core and strand, each with the priority class of its launch. -/
def State.competing (s : State) : List (Nat × CoreId × StrandId) :=
  s.cores.flatMap fun (e : Nat × Core) =>
    let c : CoreId := BitVec.ofNat 12 e.1
    e.2.strands.filterMap fun (k : Nat × Strand) =>
      match k.2.res with
      | some (j, l) =>
        if (s.launch j l).isBound && (s.choice c (BitVec.ofNat 4 k.1)).isSome then some ((s.launch j l).prio, c, BitVec.ofNat 4 k.1) else none
      | none => none

/-- The strand served next: by descending priority class, then by core, then by strand (R84). -/
def State.dispenseStep (s : State) : Option (Instr × StepArg) :=
  (s.competing.foldl (fun (b : Option (Nat × CoreId × StrandId)) x =>
    match b with
    | some y => if y.1 < x.1 then some x else b
    | none => some x) none).map fun x => (.dispense, { c := x.2.1, k := x.2.2 })

/-- A step of a launch that is bound: a strand that can become resident (R25), the rollback that ring pressure asks for (R347), the start
and the break of the wait for a donation (R88). -/
def State.launchStep (s : State) (j : JobId) (l : Lslot) (x : Launch) : Option (Instr × StepArg) :=
  if !x.isBound || x.complete then none
  else
    let cores := (s.cores.filter fun (e : Nat × Core) => x.boundTo (BitVec.ofNat 12 e.1)).map fun e => (BitVec.ofNat 12 e.1 : CoreId)
    match cores.find? (fun c => s.canReside c j l) with
    | some c => some (.strandBecomesResident, { c := c, j := j, l := l })
    | none =>
      match if x.opt then cores.find? (fun c => (s.pressed c j l).isSome) else none with
      | some c => some (.ringPressureRollback, { c := c, j := j, l := l })
      | none =>
        firstOf (bitsOf x.cmask) fun n =>
          let cl : ClusterId := BitVec.ofNat 6 n
          let y := (s.cluster cl).steal j l cl
          if (if s.starved cl j l then y.since.isNone && (nextVictim x.cmask cl y.last).isSome else y.since.isSome) then some (.stealRequest, { cl := cl, j := j, l := l }) else none

/-- The launches of all jobs, by descending priority class of their bind records, then in order of job and LSLOT. -/
def State.launchList (s : State) : List (JobId × Lslot × Launch) :=
  (s.jobs.flatMap fun (e : Nat × Job) => if e.2.resident then e.2.launches.map fun (l : Nat × Launch) => (BitVec.ofNat 4 e.1, BitVec.ofNat 16 l.1, l.2) else []).mergeSort
    fun a b => decide (b.2.2.prio ≤ a.2.2.prio)

/-- A frame to promote (R196). -/
def State.frameStep (s : State) : Option (Instr × StepArg) :=
  firstOf s.frameHits fun (e : Nat × List Nat) =>
    let d := s.frameDie e.1
    if e.2.length = 16 && (s.exchange d e.1).frameHits != s.frameHits then some (.frameExchange, { v := d, n := e.1 }) else none

/-- The first step that the state calls for (DESIGN CHOICE, log 4). -/
def State.called (s : State) : Option (Instr × StepArg) :=
  match firstOf s.cores (fun (e : Nat × Core) => s.coreStep (BitVec.ofNat 12 e.1) e.2) with
  | some x => some x
  | none =>
    let ls := s.launchList
    match firstOf ls (fun x => s.launchStep x.1 x.2.1 x.2.2) with
    | some x => some x
    | none =>
      match s.dispenseStep with
      | some x => some x
      | none => s.frameStep

/-! ## The passing of time -/

/-- A router has something to do on a plane in the next cycle. -/
def State.routerBusy (s : State) (cl : ClusterId) (plane : Nat) (now : Nat) : Bool :=
  s.flits.any (fun f => f.router == cl && f.plane == plane && decide (f.at' ≤ now) && f.eject == .no) ||
    (s.cluster cl).inj.any fun id => match Tab.find s.msgs id with | some m => isReplyKind m.kind == decide (2 ≤ plane) | none => false

/-- Core c may issue: its island runs, and the clusters are up. -/
def State.coreRuns (s : State) (c : CoreId) (v : Core) : Bool :=
  decide (3 ≤ s.stage) && !(s.island (islandOf (clusterOf c))).halted && v.strands.any fun (e : Nat × Strand) => e.2.task.isSome

/-- One network cycle passes: the steps that fall due with it are entered (R7, R127, R186, R310, R311, R317). -/
def State.tick (s : State) : State :=
  let t := s.now + 1
  let s : State := { s with now := t }
  let s := (s.flits.map (·.router) ++ (s.clusters.filter fun (e : Nat × Cluster) => e.2.inj != []).map fun e => BitVec.ofNat 6 e.1).eraseDups.foldl
    (fun (s : State) cl => (List.range 4).foldl (fun (s : State) p => if s.routerBusy cl p t then s.soon .routerCycle { cl := cl, n := p } else s) s) s
  let s := if t % 64 = 0 then s.soon .cometAdvance {} else s
  let s := if t % 1024 = 0 then
      s.clusters.foldl (fun (s : State) (e : Nat × Cluster) =>
        if e.2.routedNow = 0 ∧ e.2.level = 0 ∧ e.2.routed = 0 then s else s.soon .throttleWindowEnd { cl := BitVec.ofNat 6 e.1 }) s
    else s
  let s := if t % 32 = 0 then s.soon .ptsTick {} else s
  if t % 2 = 0 then
    s.cores.foldl (fun (s : State) (e : Nat × Core) => if s.coreRuns (BitVec.ofNat 12 e.1) e.2 then s.soon .barrelCycle { c := BitVec.ofNat 12 e.1 } else s) s
  else s

/-- A command of a supervisor to a frozen strand (R381). -/
def isCommand (i : Instr) (x : StepArg) : Bool :=
  match i with | .resume => true | .resumeWithSkip => true | .kill => !x.ok && x.v == 0 | _ => false

/-- A step of the same core cycle that goes before a command: a fill, or what stops the strand (R382). -/
def goesBefore (i : Instr) (x : StepArg) : Bool :=
  match i with
  | .replyArrival => true
  | .producerResultWrite => true
  | .putregFill => true
  | .rollback => true
  | .versionArrivalNotice => true
  | .antiMessageArrival => true
  | .kill => x.v == 1
  | _ => false

/-- A command gives way to the steps of its core cycle that precede it: it goes behind them, to the end of that cycle (R382). -/
def State.givesWay (s : State) (i : Instr) (x : StepArg) (r : List (Nat × Instr × StepArg)) : Bool :=
  isCommand i x && r.any fun e => decide (e.1 ≤ 2 * s.cycle + 1) && goesBefore e.2.1 e.2.2

/-- The next thing that happens: the offered instruction; the steps that are due, oldest first; those that the state calls for; time. -/
def State.choose (s : State) : Choice :=
  match s.offer with
  | some (c, k) => s.offered c k
  | none =>
    let rest := match s.called with
      | some (i, x) => Choice.event i { s with arg := x }
      | none => .move s.tick
    match s.agenda with
    | (d, i, x) :: r =>
      if d ≤ s.now then
        (if s.givesWay i x r then .move { s with agenda := agendaInsert r (2 * s.cycle + 1) i x } else .event i { s with agenda := r, arg := x })
      else rest
    | [] => rest

end Sys2Proof.Machine
end

