-- ==== Sys2Proof/Machine/Integer.lean ====
section
/-! DEFINITION. Integer and address arithmetic (spec/08_isa_scalar.md R142 to R145). -/

namespace Sys2Proof.Machine

/-! ## The functions (R142, R143) -/

def intAdd (a b : Word) : Word := a + b
def intSub (a b : Word) : Word := a - b
def intAnd (a b : Word) : Word := a &&& b
def intOr (a b : Word) : Word := a ||| b
def intXor (a b : Word) : Word := a ^^^ b
def intAndn (a b : Word) : Word := a &&& ~~~b
def intSll (a b : Word) : Word := a <<< (b.extractLsb' 0 6).toNat
def intSrl (a b : Word) : Word := a >>> (b.extractLsb' 0 6).toNat
def intSra (a b : Word) : Word := a.sshiftRight (b.extractLsb' 0 6).toNat
def intSlt (a b : Word) : Word := boolWord (a.slt b)
def intSltu (a b : Word) : Word := boolWord (a.ult b)
def intMin (a b : Word) : Word := if a.slt b then a else b
def intMax (a b : Word) : Word := if a.slt b then b else a
def intMinu (a b : Word) : Word := if a.ult b then a else b
def intMaxu (a b : Word) : Word := if a.ult b then b else a
def intMul (a b : Word) : Word := a * b
/-- Bits 127:64 of the signed product. -/
def intMulh (a b : Word) : Word := (a.signExtend 128 * b.signExtend 128).extractLsb' 64 64
/-- Bits 127:64 of the unsigned product. -/
def intMulhu (a b : Word) : Word := (a.setWidth 128 * b.setWidth 128).extractLsb' 64 64
/-- Truncated toward zero; a zero divisor gives all ones (R143). -/
def intDiv (a b : Word) : Word := if b = 0 then BitVec.allOnes 64 else a.sdiv b
def intDivu (a b : Word) : Word := if b = 0 then BitVec.allOnes 64 else a / b
/-- The sign of the dividend; a zero divisor gives the dividend (R143). -/
def intRem (a b : Word) : Word := if b = 0 then a else a.srem b
def intRemu (a b : Word) : Word := if b = 0 then a else a % b
/-- Leading zero bits from a bit number down. -/
def clzFrom (a : Word) (n : Nat) : Nat :=
  match n with
  | 0 => 0
  | k + 1 => if a.getLsbD k then 0 else 1 + clzFrom a k
def intClz (a : Word) : Word := BitVec.ofNat 64 (clzFrom a 64)
/-- Trailing zero bits of the top n bits. -/
def ctzFrom (a : Word) (n : Nat) : Nat :=
  match n with
  | 0 => 0
  | k + 1 => if a.getLsbD (63 - k) then 0 else 1 + ctzFrom a k
def intCtz (a : Word) : Word := BitVec.ofNat 64 (ctzFrom a 64)
/-- One bits below a bit number. -/
def popFrom (a : Word) (n : Nat) : Nat :=
  match n with
  | 0 => 0
  | k + 1 => (if a.getLsbD k then 1 else 0) + popFrom a k
def intPopc (a : Word) : Word := BitVec.ofNat 64 (popFrom a 64)
def intSh1add (a b : Word) : Word := a <<< 1 + b
def intSh2add (a b : Word) : Word := a <<< 2 + b
def intSh3add (a b : Word) : Word := a <<< 3 + b

/-- A division: a producer of 24 cycles (R140). -/
def opDiv (w u : Bool) (b a d : XReg) (f : Word → Word → Word) (s : State) : Host.Outcome State Fault Refusal :=
  issue 4 { names := [a, b, d], srcs := [sx a u, sx b w], dsts := [d] }
    (fun c k s => .done (s.produce c k d (f ((s.strand c k).rx a) ((s.strand c k).rx b)) 0 24)) s

/-- An operation with a sign-extended immediate (R144). -/
def opRI (i : BitVec 12) (u : Bool) (a d : XReg) (f : Word → Word → Word) (s : State) : Host.Outcome State Fault Refusal :=
  opR u a d (fun x => f x (simm i)) s

/-! ## The instructions -/

/-- ADD (R142). -/
def execAdd (w u : Bool) (b a d : BitVec 6) (s : State) : Host.Outcome State Fault Refusal := opRR w u b a d intAdd s
/-- SUB (R142). -/
def execSub (w u : Bool) (b a d : BitVec 6) (s : State) : Host.Outcome State Fault Refusal := opRR w u b a d intSub s
/-- AND (R142). -/
def execAnd (w u : Bool) (b a d : BitVec 6) (s : State) : Host.Outcome State Fault Refusal := opRR w u b a d intAnd s
/-- OR (R142). -/
def execOr (w u : Bool) (b a d : BitVec 6) (s : State) : Host.Outcome State Fault Refusal := opRR w u b a d intOr s
/-- XOR (R142). -/
def execXor (w u : Bool) (b a d : BitVec 6) (s : State) : Host.Outcome State Fault Refusal := opRR w u b a d intXor s
/-- ANDN (R142). -/
def execAndn (w u : Bool) (b a d : BitVec 6) (s : State) : Host.Outcome State Fault Refusal := opRR w u b a d intAndn s
/-- SLL (R142). -/
def execSll (w u : Bool) (b a d : BitVec 6) (s : State) : Host.Outcome State Fault Refusal := opRR w u b a d intSll s
/-- SRL (R142). -/
def execSrl (w u : Bool) (b a d : BitVec 6) (s : State) : Host.Outcome State Fault Refusal := opRR w u b a d intSrl s
/-- SRA (R142). -/
def execSra (w u : Bool) (b a d : BitVec 6) (s : State) : Host.Outcome State Fault Refusal := opRR w u b a d intSra s
/-- SLT (R142). -/
def execSlt (w u : Bool) (b a d : BitVec 6) (s : State) : Host.Outcome State Fault Refusal := opRR w u b a d intSlt s
/-- SLTU (R142). -/
def execSltu (w u : Bool) (b a d : BitVec 6) (s : State) : Host.Outcome State Fault Refusal := opRR w u b a d intSltu s
/-- MIN (R142). -/
def execMin (w u : Bool) (b a d : BitVec 6) (s : State) : Host.Outcome State Fault Refusal := opRR w u b a d intMin s
/-- MAX (R142). -/
def execMax (w u : Bool) (b a d : BitVec 6) (s : State) : Host.Outcome State Fault Refusal := opRR w u b a d intMax s
/-- MINU (R142). -/
def execMinu (w u : Bool) (b a d : BitVec 6) (s : State) : Host.Outcome State Fault Refusal := opRR w u b a d intMinu s
/-- MAXU (R142). -/
def execMaxu (w u : Bool) (b a d : BitVec 6) (s : State) : Host.Outcome State Fault Refusal := opRR w u b a d intMaxu s
/-- MUL (R142). -/
def execMul (w u : Bool) (b a d : BitVec 6) (s : State) : Host.Outcome State Fault Refusal := opRR w u b a d intMul s
/-- MULH (R142). -/
def execMulh (w u : Bool) (b a d : BitVec 6) (s : State) : Host.Outcome State Fault Refusal := opRR w u b a d intMulh s
/-- MULHU (R142). -/
def execMulhu (w u : Bool) (b a d : BitVec 6) (s : State) : Host.Outcome State Fault Refusal := opRR w u b a d intMulhu s
/-- SH1ADD (R142). -/
def execSh1add (w u : Bool) (b a d : BitVec 6) (s : State) : Host.Outcome State Fault Refusal := opRR w u b a d intSh1add s
/-- SH2ADD (R142). -/
def execSh2add (w u : Bool) (b a d : BitVec 6) (s : State) : Host.Outcome State Fault Refusal := opRR w u b a d intSh2add s
/-- SH3ADD (R142). -/
def execSh3add (w u : Bool) (b a d : BitVec 6) (s : State) : Host.Outcome State Fault Refusal := opRR w u b a d intSh3add s
/-- DIV (R142, R143). -/
def execDiv (w u : Bool) (b a d : BitVec 6) (s : State) : Host.Outcome State Fault Refusal := opDiv w u b a d intDiv s
/-- DIVU (R142, R143). -/
def execDivu (w u : Bool) (b a d : BitVec 6) (s : State) : Host.Outcome State Fault Refusal := opDiv w u b a d intDivu s
/-- REM (R142, R143). -/
def execRem (w u : Bool) (b a d : BitVec 6) (s : State) : Host.Outcome State Fault Refusal := opDiv w u b a d intRem s
/-- REMU (R142, R143). -/
def execRemu (w u : Bool) (b a d : BitVec 6) (s : State) : Host.Outcome State Fault Refusal := opDiv w u b a d intRemu s
/-- CLZ (R142). -/
def execClz (u : Bool) (a d : BitVec 6) (s : State) : Host.Outcome State Fault Refusal := opR u a d intClz s
/-- CTZ (R142). -/
def execCtz (u : Bool) (a d : BitVec 6) (s : State) : Host.Outcome State Fault Refusal := opR u a d intCtz s
/-- POPC (R142). -/
def execPopc (u : Bool) (a d : BitVec 6) (s : State) : Host.Outcome State Fault Refusal := opR u a d intPopc s
/-- ADDI (R144). -/
def execAddi (i : BitVec 12) (u : Bool) (a d : BitVec 6) (s : State) : Host.Outcome State Fault Refusal := opRI i u a d intAdd s
/-- ANDI (R144). -/
def execAndi (i : BitVec 12) (u : Bool) (a d : BitVec 6) (s : State) : Host.Outcome State Fault Refusal := opRI i u a d intAnd s
/-- ORI (R144). -/
def execOri (i : BitVec 12) (u : Bool) (a d : BitVec 6) (s : State) : Host.Outcome State Fault Refusal := opRI i u a d intOr s
/-- XORI (R144). -/
def execXori (i : BitVec 12) (u : Bool) (a d : BitVec 6) (s : State) : Host.Outcome State Fault Refusal := opRI i u a d intXor s
/-- SLTI (R144). -/
def execSlti (i : BitVec 12) (u : Bool) (a d : BitVec 6) (s : State) : Host.Outcome State Fault Refusal := opRI i u a d intSlt s
/-- SLTIU (R144). -/
def execSltiu (i : BitVec 12) (u : Bool) (a d : BitVec 6) (s : State) : Host.Outcome State Fault Refusal := opRI i u a d intSltu s
/-- SLLI (R144): the shift amount is unsigned. -/
def execSlli (i : BitVec 6) (u : Bool) (a d : BitVec 6) (s : State) : Host.Outcome State Fault Refusal :=
  opR u a d (fun x => intSll x (i.setWidth 64)) s
/-- SRLI (R144): the shift amount is unsigned. -/
def execSrli (i : BitVec 6) (u : Bool) (a d : BitVec 6) (s : State) : Host.Outcome State Fault Refusal :=
  opR u a d (fun x => intSrl x (i.setWidth 64)) s
/-- SRAI (R144): the shift amount is unsigned. -/
def execSrai (i : BitVec 6) (u : Bool) (a d : BitVec 6) (s : State) : Host.Outcome State Fault Refusal :=
  opR u a d (fun x => intSra x (i.setWidth 64)) s

/-- The 16-bit chunk of LIM at its place (R145). -/
def limChunk (i : BitVec 16) (sh : BitVec 2) : Word := (i.setWidth 64) <<< (16 * sh.toNat)

/-- LIM (R145). -/
def execLim (i : BitVec 16) (sh : BitVec 2) (d : BitVec 6) (s : State) : Host.Outcome State Fault Refusal :=
  issue 4 { names := [d], dsts := [d] } (fun c k s => .done (s.writeX c k d (limChunk i sh))) s

/-- LIMK (R145): RD is read and has no W bit. -/
def execLimk (i : BitVec 16) (sh : BitVec 2) (d : BitVec 6) (s : State) : Host.Outcome State Fault Refusal :=
  issue 4 { names := [d], srcs := [s0 (.x d)], dsts := [d] }
    (fun c k s => .done (s.writeX c k d (((s.strand c k).rx d &&& ~~~(limChunk 0xFFFF#16 sh)) ||| limChunk i sh))) s

end Sys2Proof.Machine
end

