-- ==== Sys2Proof/Machine/Dispatch.lean ====
section
/-! DEFINITION. The meaning of every step of the NH-7400: one arm per constructor of Instr. -/

namespace Sys2Proof.Machine

def exec (i : Instr) (s : State) : Host.Outcome State Fault Refusal :=
  match i with
  | .add w u b a d => Sys2Proof.Machine.execAdd w u b a d s
  | .sub w u b a d => Sys2Proof.Machine.execSub w u b a d s
  | .and w u b a d => Sys2Proof.Machine.execAnd w u b a d s
  | .or w u b a d => Sys2Proof.Machine.execOr w u b a d s
  | .xor w u b a d => Sys2Proof.Machine.execXor w u b a d s
  | .andn w u b a d => Sys2Proof.Machine.execAndn w u b a d s
  | .sll w u b a d => Sys2Proof.Machine.execSll w u b a d s
  | .srl w u b a d => Sys2Proof.Machine.execSrl w u b a d s
  | .sra w u b a d => Sys2Proof.Machine.execSra w u b a d s
  | .slt w u b a d => Sys2Proof.Machine.execSlt w u b a d s
  | .sltu w u b a d => Sys2Proof.Machine.execSltu w u b a d s
  | .min w u b a d => Sys2Proof.Machine.execMin w u b a d s
  | .max w u b a d => Sys2Proof.Machine.execMax w u b a d s
  | .minu w u b a d => Sys2Proof.Machine.execMinu w u b a d s
  | .maxu w u b a d => Sys2Proof.Machine.execMaxu w u b a d s
  | .mul w u b a d => Sys2Proof.Machine.execMul w u b a d s
  | .mulh w u b a d => Sys2Proof.Machine.execMulh w u b a d s
  | .mulhu w u b a d => Sys2Proof.Machine.execMulhu w u b a d s
  | .div w u b a d => Sys2Proof.Machine.execDiv w u b a d s
  | .divu w u b a d => Sys2Proof.Machine.execDivu w u b a d s
  | .rem w u b a d => Sys2Proof.Machine.execRem w u b a d s
  | .remu w u b a d => Sys2Proof.Machine.execRemu w u b a d s
  | .clz u a d => Sys2Proof.Machine.execClz u a d s
  | .ctz u a d => Sys2Proof.Machine.execCtz u a d s
  | .popc u a d => Sys2Proof.Machine.execPopc u a d s
  | .sh1add w u b a d => Sys2Proof.Machine.execSh1add w u b a d s
  | .sh2add w u b a d => Sys2Proof.Machine.execSh2add w u b a d s
  | .sh3add w u b a d => Sys2Proof.Machine.execSh3add w u b a d s
  | .addi i_ u a d => Sys2Proof.Machine.execAddi i_ u a d s
  | .andi i_ u a d => Sys2Proof.Machine.execAndi i_ u a d s
  | .ori i_ u a d => Sys2Proof.Machine.execOri i_ u a d s
  | .xori i_ u a d => Sys2Proof.Machine.execXori i_ u a d s
  | .slti i_ u a d => Sys2Proof.Machine.execSlti i_ u a d s
  | .sltiu i_ u a d => Sys2Proof.Machine.execSltiu i_ u a d s
  | .slli k u a d => Sys2Proof.Machine.execSlli k u a d s
  | .srli k u a d => Sys2Proof.Machine.execSrli k u a d s
  | .srai k u a d => Sys2Proof.Machine.execSrai k u a d s
  | .lim i_ s_ d => Sys2Proof.Machine.execLim i_ s_ d s
  | .limk i_ s_ d => Sys2Proof.Machine.execLimk i_ s_ d s
  | .chk w u b a c n => Sys2Proof.Machine.execChk w u b a c n s
  | .chki i_ a u c n => Sys2Proof.Machine.execChki i_ a u c n s
  | .fchk w u b a c n => Sys2Proof.Machine.execFchk w u b a c n s
  | .br o => Sys2Proof.Machine.execBr o s
  | .jl o d => Sys2Proof.Machine.execJl o d s
  | .jlr i_ u a d => Sys2Proof.Machine.execJlr i_ u a d s
  | .fadd w u b a d => Sys2Proof.Machine.execFadd w u b a d s
  | .fsub w u b a d => Sys2Proof.Machine.execFsub w u b a d s
  | .fmul w u b a d => Sys2Proof.Machine.execFmul w u b a d s
  | .fdiv w u b a d => Sys2Proof.Machine.execFdiv w u b a d s
  | .fsqrt u a d => Sys2Proof.Machine.execFsqrt u a d s
  | .fmin w u b a d => Sys2Proof.Machine.execFmin w u b a d s
  | .fmax w u b a d => Sys2Proof.Machine.execFmax w u b a d s
  | .fma w u b a d => Sys2Proof.Machine.execFma w u b a d s
  | .fcvtIF u a d => Sys2Proof.Machine.execFcvtIF u a d s
  | .fcvtFI u a d => Sys2Proof.Machine.execFcvtFI u a d s
  | .fclass u a d => Sys2Proof.Machine.execFclass u a d s
  | .ctlr n u d => Sys2Proof.Machine.execCtlr n u d s
  | .ctlw n u a => Sys2Proof.Machine.execCtlw n u a s
  | .ctlx n u a d => Sys2Proof.Machine.execCtlx n u a d s
  | .ctlset n u a => Sys2Proof.Machine.execCtlset n u a s
  | .ctlclr n u a => Sys2Proof.Machine.execCtlclr n u a s
  | .trap k u a => Sys2Proof.Machine.execTrap k u a s
  | .brk k => Sys2Proof.Machine.execBrk k s
  | .isync => Sys2Proof.Machine.execIsync s
  | .resize u a d => Sys2Proof.Machine.execResize u a d s
  | .spawn w u b a d => Sys2Proof.Machine.execSpawn w u b a d s
  | .spawna w u b a d => Sys2Proof.Machine.execSpawna w u b a d s
  | .migrate u a => Sys2Proof.Machine.execMigrate u a s
  | .exit => Sys2Proof.Machine.execExit s
  | .waitw u a => Sys2Proof.Machine.execWaitw u a s
  | .yield => Sys2Proof.Machine.execYield s
  | .suspend u a => Sys2Proof.Machine.execSuspend u a s
  | .resumec u a d => Sys2Proof.Machine.execResumec u a d s
  | .launch u a d => Sys2Proof.Machine.execLaunch u a d s
  | .cancel w u b a d => Sys2Proof.Machine.execCancel w u b a d s
  | .iter u a d => Sys2Proof.Machine.execIter u a d s
  | .itern i_ u a d => Sys2Proof.Machine.execItern i_ u a d s
  | .ld o z u a t => Sys2Proof.Machine.execLd o z u a t s
  | .st o z v u a t => Sys2Proof.Machine.execSt o z v u a t s
  | .ldb w u b a d => Sys2Proof.Machine.execLdb w u b a d s
  | .stb w u b a => Sys2Proof.Machine.execStb w u b a s
  | .pref u a => Sys2Proof.Machine.execPref u a s
  | .filln w u b a => Sys2Proof.Machine.execFilln w u b a s
  | .flush u a => Sys2Proof.Machine.execFlush u a s
  | .inv u a => Sys2Proof.Machine.execInv u a s
  | .hint w u b a => Sys2Proof.Machine.execHint w u b a s
  | .fence s_ k => Sys2Proof.Machine.execFence s_ k s
  | .putreg w u b a => Sys2Proof.Machine.execPutreg w u b a s
  | .deferSt w u b a => Sys2Proof.Machine.execDeferSt w u b a s
  | .deferSig w u b a => Sys2Proof.Machine.execDeferSig w u b a s
  | .ldM u a m => Sys2Proof.Machine.execLdM u a m s
  | .stM u a m => Sys2Proof.Machine.execStM u a m s
  | .ldfe u a d => Sys2Proof.Machine.execLdfe u a d s
  | .ldff u a d => Sys2Proof.Machine.execLdff u a d s
  | .stef w u b a => Sys2Proof.Machine.execStef w u b a s
  | .stff w u b a => Sys2Proof.Machine.execStff w u b a s
  | .fepurge u a => Sys2Proof.Machine.execFepurge u a s
  | .amoAdd w u b a d => Sys2Proof.Machine.execAmoAdd w u b a d s
  | .amoAnd w u b a d => Sys2Proof.Machine.execAmoAnd w u b a d s
  | .amoOr w u b a d => Sys2Proof.Machine.execAmoOr w u b a d s
  | .amoXor w u b a d => Sys2Proof.Machine.execAmoXor w u b a d s
  | .amoMin w u b a d => Sys2Proof.Machine.execAmoMin w u b a d s
  | .amoMax w u b a d => Sys2Proof.Machine.execAmoMax w u b a d s
  | .amoMinu w u b a d => Sys2Proof.Machine.execAmoMinu w u b a d s
  | .amoMaxu w u b a d => Sys2Proof.Machine.execAmoMaxu w u b a d s
  | .amoSwap w u b a d => Sys2Proof.Machine.execAmoSwap w u b a d s
  | .amoCas w u b a d => Sys2Proof.Machine.execAmoCas w u b a d s
  | .amoFadd w u b a d => Sys2Proof.Machine.execAmoFadd w u b a d s
  | .redAdd w u b a => Sys2Proof.Machine.execRedAdd w u b a s
  | .redFadd w u b a => Sys2Proof.Machine.execRedFadd w u b a s
  | .barInit n u a => Sys2Proof.Machine.execBarInit n u a s
  | .barArr n u a d => Sys2Proof.Machine.execBarArr n u a d s
  | .barWait n u a => Sys2Proof.Machine.execBarWait n u a s
  | .barArw n d => Sys2Proof.Machine.execBarArw n d s
  | .mbarInit u a d => Sys2Proof.Machine.execMbarInit u a d s
  | .mbarArr u a d => Sys2Proof.Machine.execMbarArr u a d s
  | .mbarWait u a d => Sys2Proof.Machine.execMbarWait u a d s
  | .verldEq w u b a s_ => Sys2Proof.Machine.execVerldEq w u b a s_ s
  | .verldAsof w u b a s_ => Sys2Proof.Machine.execVerldAsof w u b a s_ s
  | .verst k w u b a s_ => Sys2Proof.Machine.execVerst k w u b a s_ s
  | .verrel w u b a => Sys2Proof.Machine.execVerrel w u b a s
  | .verq w u b a d => Sys2Proof.Machine.execVerq w u b a d s
  | .vadd s_ e m y b a d => Sys2Proof.Machine.execVadd s_ e m y b a d s
  | .vsub s_ e m y b a d => Sys2Proof.Machine.execVsub s_ e m y b a d s
  | .vmul s_ e m y b a d => Sys2Proof.Machine.execVmul s_ e m y b a d s
  | .vdiv s_ e m y b a d => Sys2Proof.Machine.execVdiv s_ e m y b a d s
  | .vmin s_ e m y b a d => Sys2Proof.Machine.execVmin s_ e m y b a d s
  | .vmax s_ e m y b a d => Sys2Proof.Machine.execVmax s_ e m y b a d s
  | .vand s_ e m y b a d => Sys2Proof.Machine.execVand s_ e m y b a d s
  | .vor s_ e m y b a d => Sys2Proof.Machine.execVor s_ e m y b a d s
  | .vxor s_ e m y b a d => Sys2Proof.Machine.execVxor s_ e m y b a d s
  | .vshl s_ e m y b a d => Sys2Proof.Machine.execVshl s_ e m y b a d s
  | .vshr s_ e m y b a d => Sys2Proof.Machine.execVshr s_ e m y b a d s
  | .vdot s_ e m y b a d => Sys2Proof.Machine.execVdot s_ e m y b a d s
  | .vperm s_ e m y b a d => Sys2Proof.Machine.execVperm s_ e m y b a d s
  | .vgath s_ e m y b a d => Sys2Proof.Machine.execVgath s_ e m y b a d s
  | .vscat s_ e m y b a d => Sys2Proof.Machine.execVscat s_ e m y b a d s
  | .vcompr s_ e m y b a d => Sys2Proof.Machine.execVcompr s_ e m y b a d s
  | .vabs s_ e m y a d => Sys2Proof.Machine.execVabs s_ e m y a d s
  | .vneg s_ e m y a d => Sys2Proof.Machine.execVneg s_ e m y a d s
  | .vsqrt s_ e m y a d => Sys2Proof.Machine.execVsqrt s_ e m y a d s
  | .vrcp s_ e m y a d => Sys2Proof.Machine.execVrcp s_ e m y a d s
  | .vrsqrt s_ e m y a d => Sys2Proof.Machine.execVrsqrt s_ e m y a d s
  | .vexp2 s_ e m y a d => Sys2Proof.Machine.execVexp2 s_ e m y a d s
  | .vlog2 s_ e m y a d => Sys2Proof.Machine.execVlog2 s_ e m y a d s
  | .vtanh s_ e m y a d => Sys2Proof.Machine.execVtanh s_ e m y a d s
  | .vsigm s_ e m y a d => Sys2Proof.Machine.execVsigm s_ e m y a d s
  | .vmov s_ e m y a d => Sys2Proof.Machine.execVmov s_ e m y a d s
  | .vredsum s_ e m y a d => Sys2Proof.Machine.execVredsum s_ e m y a d s
  | .vredmax s_ e m y a d => Sys2Proof.Machine.execVredmax s_ e m y a d s
  | .vredmin s_ e m y a d => Sys2Proof.Machine.execVredmin s_ e m y a d s
  | .vscan s_ e m y a d => Sys2Proof.Machine.execVscan s_ e m y a d s
  | .vnorm s_ e m y a d => Sys2Proof.Machine.execVnorm s_ e m y a d s
  | .viota e m y d => Sys2Proof.Machine.execViota e m y d s
  | .vfma s_ e m y c b a d => Sys2Proof.Machine.execVfma s_ e m y c b a d s
  | .vfms s_ e m y c b a d => Sys2Proof.Machine.execVfms s_ e m y c b a d s
  | .vsel s_ e m y c b a d => Sys2Proof.Machine.execVsel s_ e m y c b a d s
  | .vadam s_ e m c b a d => Sys2Proof.Machine.execVadam s_ e m c b a d s
  | .vcmp s_ e m y c b a d => Sys2Proof.Machine.execVcmp s_ e m y c b a d s
  | .vcvt s_ e m y x r a d => Sys2Proof.Machine.execVcvt s_ e m y x r a d s
  | .vexpn s_ e m y b a d => Sys2Proof.Machine.execVexpn s_ e m y b a d s
  | .vbcast e m y w x p => Sys2Proof.Machine.execVbcast e m y w x p s
  | .vsetp w x p => Sys2Proof.Machine.execVsetp w x p s
  | .vgetp x p => Sys2Proof.Machine.execVgetp x p s
  | .vlen w x => Sys2Proof.Machine.execVlen w x s
  | .vaddCompact y s_ d => Sys2Proof.Machine.execVaddCompact y s_ d s
  | .vsubCompact y s_ d => Sys2Proof.Machine.execVsubCompact y s_ d s
  | .vmulCompact y s_ d => Sys2Proof.Machine.execVmulCompact y s_ d s
  | .vminCompact y s_ d => Sys2Proof.Machine.execVminCompact y s_ d s
  | .vmaxCompact y s_ d => Sys2Proof.Machine.execVmaxCompact y s_ d s
  | .vandCompact y s_ d => Sys2Proof.Machine.execVandCompact y s_ d s
  | .vorCompact y s_ d => Sys2Proof.Machine.execVorCompact y s_ d s
  | .vxorCompact y s_ d => Sys2Proof.Machine.execVxorCompact y s_ d s
  | .vshlCompact y s_ d => Sys2Proof.Machine.execVshlCompact y s_ d s
  | .vshrCompact y s_ d => Sys2Proof.Machine.execVshrCompact y s_ d s
  | .vmovCompact y s_ d => Sys2Proof.Machine.execVmovCompact y s_ d s
  | .vabsCompact y s_ d => Sys2Proof.Machine.execVabsCompact y s_ d s
  | .vnegCompact y s_ d => Sys2Proof.Machine.execVnegCompact y s_ d s
  | .vrcpCompact y s_ d => Sys2Proof.Machine.execVrcpCompact y s_ d s
  | .vexp2Compact y s_ d => Sys2Proof.Machine.execVexp2Compact y s_ d s
  | .vredsumCompact y s_ d => Sys2Proof.Machine.execVredsumCompact y s_ d s
  | .tload z x w u b a s_ => Sys2Proof.Machine.execTload z x w u b a s_ s
  | .tstore k w u b a s_ => Sys2Proof.Machine.execTstore k w u b a s_ s
  | .tzero u a s_ => Sys2Proof.Machine.execTzero u a s_ s
  | .tstat d s_ => Sys2Proof.Machine.execTstat d s_ s
  | .town s_ => Sys2Proof.Machine.execTown s_ s
  | .tfree s_ => Sys2Proof.Machine.execTfree s_ s
  | .tmul c b a => Sys2Proof.Machine.execTmul c b a s
  | .tmulk c b a => Sys2Proof.Machine.execTmulk c b a s
  | .tacc c a => Sys2Proof.Machine.execTacc c a s
  | .tmuls p c b a => Sys2Proof.Machine.execTmuls p c b a s
  | .twb y h c r a => Sys2Proof.Machine.execTwb y h c r a s
  | .tred w u b a c => Sys2Proof.Machine.execTred w u b a c s
  | .tprog u a => Sys2Proof.Machine.execTprog u a s
  | .cpy w u b a s_ => Sys2Proof.Machine.execCpy w u b a s_ s
  | .cpy2 w u b a s_ => Sys2Proof.Machine.execCpy2 w u b a s_ s
  | .cpyw w u b a s_ => Sys2Proof.Machine.execCpyw w u b a s_ s
  | .decode u a => Sys2Proof.Machine.execDecode u a s
  | .powerOn => Sys2Proof.Machine.execPowerOn s
  | .hostReset => Sys2Proof.Machine.execHostReset s
  | .watchdogExpiry => Sys2Proof.Machine.execWatchdogExpiry s
  | .romMeasureFirmware => Sys2Proof.Machine.execRomMeasureFirmware s
  | .stage2FirmwareLoad => Sys2Proof.Machine.execStage2FirmwareLoad s
  | .stage3ReducedService => Sys2Proof.Machine.execStage3ReducedService s
  | .stackTrainingEnd => Sys2Proof.Machine.execStackTrainingEnd s
  | .islctlLock => Sys2Proof.Machine.execIslctlLock s
  | .islandPowerSample => Sys2Proof.Machine.execIslandPowerSample s
  | .thermalHalt => Sys2Proof.Machine.execThermalHalt s
  | .ucieLinkFailure => Sys2Proof.Machine.execUcieLinkFailure s
  | .jenayPortFailure => Sys2Proof.Machine.execJenayPortFailure s
  | .hbmStackFailure => Sys2Proof.Machine.execHbmStackFailure s
  | .uncorrectableError => Sys2Proof.Machine.execUncorrectableError s
  | .supervisorTimeout => Sys2Proof.Machine.execSupervisorTimeout s
  | .repctlGo => Sys2Proof.Machine.execRepctlGo s
  | .reportComplete => Sys2Proof.Machine.execReportComplete s
  | .registerWrite => Sys2Proof.Machine.execRegisterWrite s
  | .cmdtailWrite => Sys2Proof.Machine.execCmdtailWrite s
  | .jobstart => Sys2Proof.Machine.execJobstart s
  | .phaseopen => Sys2Proof.Machine.execPhaseopen s
  | .cancelCommand => Sys2Proof.Machine.execCancelCommand s
  | .keydestroy => Sys2Proof.Machine.execKeydestroy s
  | .reservedCommand => Sys2Proof.Machine.execReservedCommand s
  | .teardown => Sys2Proof.Machine.execTeardown s
  | .hostCxlMemoryAccess => Sys2Proof.Machine.execHostCxlMemoryAccess s
  | .backInvalidateResponse => Sys2Proof.Machine.execBackInvalidateResponse s
  | .bind => Sys2Proof.Machine.execBind s
  | .strandBecomesResident => Sys2Proof.Machine.execStrandBecomesResident s
  | .launchCompletion => Sys2Proof.Machine.execLaunchCompletion s
  | .graphCompletion => Sys2Proof.Machine.execGraphCompletion s
  | .phaseCompletion => Sys2Proof.Machine.execPhaseCompletion s
  | .taskMessageArrival => Sys2Proof.Machine.execTaskMessageArrival s
  | .antiMessageArrival => Sys2Proof.Machine.execAntiMessageArrival s
  | .spillRefill => Sys2Proof.Machine.execSpillRefill s
  | .dispense => Sys2Proof.Machine.execDispense s
  | .sendBufferDeparture => Sys2Proof.Machine.execSendBufferDeparture s
  | .taskMessageAccepted => Sys2Proof.Machine.execTaskMessageAccepted s
  | .stealRequest => Sys2Proof.Machine.execStealRequest s
  | .stealReply => Sys2Proof.Machine.execStealReply s
  | .shippedTasksArrival => Sys2Proof.Machine.execShippedTasksArrival s
  | .stealPauseExpiry => Sys2Proof.Machine.execStealPauseExpiry s
  | .iterationClaim => Sys2Proof.Machine.execIterationClaim s
  | .fetchFill => Sys2Proof.Machine.execFetchFill s
  | .barrelCycle => Sys2Proof.Machine.execBarrelCycle s
  | .strandWake => Sys2Proof.Machine.execStrandWake s
  | .producerResultWrite => Sys2Proof.Machine.execProducerResultWrite s
  | .replyArrival => Sys2Proof.Machine.execReplyArrival s
  | .putregFill => Sys2Proof.Machine.execPutregFill s
  | .pageWalk => Sys2Proof.Machine.execPageWalk s
  | .translationInvalidation => Sys2Proof.Machine.execTranslationInvalidation s
  | .invalidationAcknowledgement => Sys2Proof.Machine.execInvalidationAcknowledgement s
  | .coherentLoadRenewal => Sys2Proof.Machine.execCoherentLoadRenewal s
  | .coherentStoreAtHome => Sys2Proof.Machine.execCoherentStoreAtHome s
  | .ptsTick => Sys2Proof.Machine.execPtsTick s
  | .noncoherentWriteback => Sys2Proof.Machine.execNoncoherentWriteback s
  | .amoAtHome => Sys2Proof.Machine.execAmoAtHome s
  | .reductionAtHome => Sys2Proof.Machine.execReductionAtHome s
  | .fullEmptyAtHome => Sys2Proof.Machine.execFullEmptyAtHome s
  | .waiterWithdrawal => Sys2Proof.Machine.execWaiterWithdrawal s
  | .waitwRegistration => Sys2Proof.Machine.execWaitwRegistration s
  | .waitwWake => Sys2Proof.Machine.execWaitwWake s
  | .resumecRequest => Sys2Proof.Machine.execResumecRequest s
  | .remoteLocalAccess => Sys2Proof.Machine.execRemoteLocalAccess s
  | .resizeAtSlice => Sys2Proof.Machine.execResizeAtSlice s
  | .frameExchange => Sys2Proof.Machine.execFrameExchange s
  | .scrubLine => Sys2Proof.Machine.execScrubLine s
  | .versionStoreAtHome => Sys2Proof.Machine.execVersionStoreAtHome s
  | .versionLoadAtHome => Sys2Proof.Machine.execVersionLoadAtHome s
  | .versionQueryAtHome => Sys2Proof.Machine.execVersionQueryAtHome s
  | .versionRetraction => Sys2Proof.Machine.execVersionRetraction s
  | .exactReadRelease => Sys2Proof.Machine.execExactReadRelease s
  | .readMarkRemoval => Sys2Proof.Machine.execReadMarkRemoval s
  | .versionCommit => Sys2Proof.Machine.execVersionCommit s
  | .barrierObjectOperation => Sys2Proof.Machine.execBarrierObjectOperation s
  | .barrierObjectNotice => Sys2Proof.Machine.execBarrierObjectNotice s
  | .mbarWaitTimeout => Sys2Proof.Machine.execMbarWaitTimeout s
  | .laneStep => Sys2Proof.Machine.execLaneStep s
  | .laneInstructionComplete => Sys2Proof.Machine.execLaneInstructionComplete s
  | .copyRowTransfer => Sys2Proof.Machine.execCopyRowTransfer s
  | .transposeRowRead => Sys2Proof.Machine.execTransposeRowRead s
  | .fillLanding => Sys2Proof.Machine.execFillLanding s
  | .drainComplete => Sys2Proof.Machine.execDrainComplete s
  | .matrixCommandStart => Sys2Proof.Machine.execMatrixCommandStart s
  | .matrixCommandComplete => Sys2Proof.Machine.execMatrixCommandComplete s
  | .tmulkStep => Sys2Proof.Machine.execTmulkStep s
  | .decodeRequestStart => Sys2Proof.Machine.execDecodeRequestStart s
  | .frameDecoded => Sys2Proof.Machine.execFrameDecoded s
  | .decodeComplete => Sys2Proof.Machine.execDecodeComplete s
  | .routerCycle => Sys2Proof.Machine.execRouterCycle s
  | .cometAdvance => Sys2Proof.Machine.execCometAdvance s
  | .flitEjection => Sys2Proof.Machine.execFlitEjection s
  | .packetReassembled => Sys2Proof.Machine.execPacketReassembled s
  | .retryReceive => Sys2Proof.Machine.execRetryReceive s
  | .backoffExpiry => Sys2Proof.Machine.execBackoffExpiry s
  | .throttleWindowEnd => Sys2Proof.Machine.execThrottleWindowEnd s
  | .jenayLinkArrival => Sys2Proof.Machine.execJenayLinkArrival s
  | .jenayAnswerReturn => Sys2Proof.Machine.execJenayAnswerReturn s
  | .gvtRoundStart => Sys2Proof.Machine.execGvtRoundStart s
  | .colourFlip => Sys2Proof.Machine.execColourFlip s
  | .leafReport => Sys2Proof.Machine.execLeafReport s
  | .gvtWaveStart => Sys2Proof.Machine.execGvtWaveStart s
  | .gvtRoundClose => Sys2Proof.Machine.execGvtRoundClose s
  | .gvtBroadcastReceive => Sys2Proof.Machine.execGvtBroadcastReceive s
  | .commitStep => Sys2Proof.Machine.execCommitStep s
  | .versionArrivalNotice => Sys2Proof.Machine.execVersionArrivalNotice s
  | .rollback => Sys2Proof.Machine.execRollback s
  | .ringPressureRollback => Sys2Proof.Machine.execRingPressureRollback s
  | .packetDelivery => Sys2Proof.Machine.execPacketDelivery s
  | .resume => Sys2Proof.Machine.execResume s
  | .resumeWithSkip => Sys2Proof.Machine.execResumeWithSkip s
  | .kill => Sys2Proof.Machine.execKill s
  | .contextWrite => Sys2Proof.Machine.execContextWrite s
  | .tileTableWrite => Sys2Proof.Machine.execTileTableWrite s
  | .accumulatorWrite => Sys2Proof.Machine.execAccumulatorWrite s
  | .sideLogDiscard => Sys2Proof.Machine.execSideLogDiscard s
  | .replay => Sys2Proof.Machine.execReplay s
  | .replayEntryResult => Sys2Proof.Machine.execReplayEntryResult s
  | .prectlStop => Sys2Proof.Machine.execPrectlStop s
  | .stopFlip => Sys2Proof.Machine.execStopFlip s
  | .eclipseCutClose => Sys2Proof.Machine.execEclipseCutClose s
  | .strandSave => Sys2Proof.Machine.execStrandSave s
  | .coreSave => Sys2Proof.Machine.execCoreSave s
  | .prectlRestore => Sys2Proof.Machine.execPrectlRestore s
  | .launchRequestAtManagementCore => Sys2Proof.Machine.execLaunchRequestAtManagementCore s
  | .cancelRequestAtManagementCore => Sys2Proof.Machine.execCancelRequestAtManagementCore s
  | .linkLevelReplay => Sys2Proof.Machine.execLinkLevelReplay s
  | .linkCreditReturn => Sys2Proof.Machine.execLinkCreditReturn s

end Sys2Proof.Machine
end

