-- ==== Sys2Proof/Machine/Step.lean ====
section
/-! DEFINITION. One step of the machine, and the placing of an instruction where the next step fetches it. -/

namespace Sys2Proof.Machine

/-- One step: the offered instruction, the next device step that is due, or the passing of time. Every step takes a new set of free
values. -/
def step (s : State) : Host.Outcome State Fault Refusal :=
  match s.newFresh.choose with
  | .run i s' => exec i s'
  | .event i s' => exec i s'
  | .move s' => .next s'

/-- The state with an instruction placed where the next step fetches it (notes/assumptions/5.md): a resident job and launch, strand 0
of core 0 ready at the start of its local code with the instruction in memory and in its fetch buffer, holding the issue slot. -/
def State.withFetchWord (s : State) (nbits w : Nat) : State :=
  let v := w % 2 ^ nbits
  let s := s.updJob 0 fun j => { j with resident := true, phases := [{ stop := 0xFFFFFFFFFFFFFFFF#64, count := 1 }] }
  let s := s.updLaunch 0 0 fun l =>
    { l with nreg := 62, nbar := 16, ntile := 8, codeb := 4, started := true, count := 1, bound := some 0, cmask := 1, cores := 1 }
  let s := s.updSlot 0 0 fun _ => { jobtag := 0, use := 3 }
  let s := (List.range 8).foldl (fun s n => s.updSlot 0 (n + 1) fun _ => { jobtag := 0, use := 1 }) s
  let s := { s.updCore 0 fun x => { x with seq := 1, installed := [(0#4, 0#16)] } with
    mem := Memory.write s.mem (localBase 0) (toBytes 4 v), offer := some (0#12, 0#4) }
  s.updStrand 0 0 fun _ =>
    { st := .ready, res := some (0#4, 0#16), base := 1, ntile := 8, pool := 64, pc := 0x7FFFFFF00000#48, task := some {},
      buf := [{ va := 0x7FFFFFF00000#48, bytes := BitVec.ofNat 128 v }] }

end Sys2Proof.Machine
end

