-- ==== Sys2Proof/Machine/Registers.lean ====
section
/-! DEFINITION. What the registers outside the strands read as: BAR 0, the management core's registers, the debug windows of the cores, the
entries of the retention rings and the trace rings (spec/01_work.md R13; spec/03_bringup.md R67; spec/04_launch.md R69, R70, R73, R422;
spec/09_memory.md R192; spec/18_optimistic.md R345, R361; spec/20_faults.md R377 to R380, R383, R389;
spec/21_preempt.md R391). -/

namespace Sys2Proof.Machine

/-! ## BAR 0 (R69) -/

/-- The identity region (R422). -/
def State.readIdentity (s : State) (o : Nat) : Word :=
  if o = 0x000 then 0x5552740001000000#64
  else if o = 0x008 then (if s.stage < 3 then 0 else s.devnum.setWidth 64)
  else if o = 0x010 then Config.serial
  else 0

/-- ISLSTAT of an island (R67). -/
def Island.stat (v : Island) : Word := 0#24 ++ v.temp ++ 0#4 ++ v.watts ++ BitVec.ofNat 16 v.mhz

/-- MCHEAD (R389). -/
def State.mcHead (s : State) : Word := 0#16 ++ s.mcWritten ++ 0#11 ++ s.mcHeadIdx

/-- The housekeeping region (R67, R389). -/
def State.readHousekeeping (s : State) (o : Nat) : Word :=
  if o = 0x000 then s.bstat
  else if o = 0x008 then BitVec.ofNat 64 s.rstcause
  else if 0x010 ≤ o ∧ o < 0x210 then ((s.meas[(o - 0x10) / 64]?).getD 0).extractLsb' (64 * ((o - 0x10) / 8 % 8)) 64
  else if 0x210 ≤ o ∧ o < 0x230 then s.nonce.extractLsb' (64 * ((o - 0x210) / 8)) 64
  else if o = 0x230 then s.repaddr
  else if o = 0x238 then 0#61 ++ BitVec.ofBool s.repErr ++ BitVec.ofBool s.repDone ++ BitVec.ofBool s.repGo
  else if 0x240 ≤ o ∧ o < 0x300 then (s.island ((o - 0x240) / 8)).cap.setWidth 64
  else if o = 0x300 then 0#62 ++ BitVec.ofBool s.isdflt ++ BitVec.ofBool s.islock
  else if 0x308 ≤ o ∧ o < 0x3C8 then (s.island ((o - 0x308) / 8)).stat
  else if o = 0x400 then s.mcstat
  else if o = 0x408 then s.mcHead
  else if o = 0x410 then s.mcctl.setWidth 64
  else if 0x800 ≤ o ∧ o < 0x1000 then
    let r := Tab.get {} s.mcrec ((o - 0x800) / 64)
    match (o - 0x800) / 8 % 8 with | 0 => r.w0 | 1 => r.w1 | 2 => r.w2 | _ => 0
  else 0

/-- The command registers (R70). -/
def State.readCommand (s : State) (o : Nat) : Word :=
  if o = 0x000 then s.cmdtail.setWidth 64
  else if o = 0x008 then s.cmdhead.setWidth 64
  else if o = 0x010 then s.ackbase
  else if o = 0x018 then (BitVec.ofBool s.cmderr).setWidth 64
  else if o = 0x020 then s.hostjob.setWidth 64
  else 0

/-- A 64-bit read of BAR 0 at an 8-byte aligned offset. The pending-bit array reads 0: the model sends an MSI-X message at once. -/
def State.readBar (s : State) (o : Nat) : Word :=
  if o < 0x1000 then s.readIdentity o
  else if o < 0x2000 then s.readHousekeeping (o - 0x1000)
  else if o < 0x3000 then s.readCommand (o - 0x2000)
  else if 0x10000 ≤ o ∧ o < 0x14000 then s.cmdWord ((o - 0x10000) / 64) (o / 8 % 8)
  else if 0x20000 ≤ o ∧ o < 0x20400 then Tab.get 0 s.msixTable ((o - 0x20000) / 8)
  else 0

/-! ## The management core's registers (R73, R361, R391) -/

/-- A word of a bind record. -/
def State.readSlotTable (s : State) (n w : Nat) : Word :=
  let r := Tab.get {} s.slotTable n
  match w with
  | 0 => if r.v then r.w0 ||| 0x8000000000000000#64 else r.w0 &&& 0x7FFFFFFFFFFFFFFF#64
  | 1 => r.w1
  | 2 => r.w2
  | _ => 0

/-! ## The debug window of a core (R377 to R379) -/

/-- SLSTAT: the entries of the side log that are not yet performed, and whether it is full. -/
def Core.slstat (v : Core) : Word :=
  let n := (v.slog.filter fun (e : Nat × SlEntry) => e.2.st != 0).length
  0#56 ++ BitVec.ofBool v.slFree.isNone ++ BitVec.ofNat 7 n

/-- The control word of a strand (R380). -/
def Strand.controlWord (t : Strand) : Word :=
  let cls := match t.froze with | some p => if t.st = .frozen then p.cls else 0 | none => 0
  0#40 ++ BitVec.ofNat 8 (if t.st = .parked then t.park.cause else 0) ++ 0#1 ++ BitVec.ofBool t.opt ++ BitVec.ofNat 6 cls ++ BitVec.ofNat 2 t.st.num ++ 0#6

/-- Two elements of an accumulator; undefined unless it is full and no queued matrix command names it (R379). -/
def State.readAcc (s : State) (c : CoreId) (a : BitVec 2) (n : Nat) : Word :=
  let v := s.core c
  let x := v.accAt a
  if x.full && !v.accNamed a then Tab.get 0#32 x.el (2 * n + 1) ++ Tab.get 0#32 x.el (2 * n) else s.freeWord n

/-- WCTL of an accessor; REPLAY reads 1 while a replay runs. -/
def Core.readWctl (v : Core) (who : Agent) : Word :=
  v.wctl who ||| (if v.replay != [] || v.slog.any (fun (e : Nat × SlEntry) => e.2.st == 2) then 0x100#64 else 0)

/-- A 64-bit read of the window of a core by an accessor at an 8-byte aligned offset. -/
def State.readWindow (s : State) (who : Agent) (c : CoreId) (o : Nat) : Word :=
  let v := s.core c
  if o = 0 then v.readWctl who
  else if o = 8 then v.slstat
  else if o = 0x10 then v.accst
  else if 0x80 ≤ o ∧ o < 0x100 then (s.strand c (BitVec.ofNat 4 ((o - 0x80) / 8))).controlWord
  else if 0x400 ≤ o ∧ o < 0x800 then ((s.contextWords c ((v.wctl who).extractLsb' 0 4))[(o - 0x400) / 8]?).getD 0
  else if 0x800 ≤ o ∧ o < 0x1000 then (((Tab.get ({} : SlEntry) v.slog ((o - 0x800) / 32)).words)[o / 8 % 4]?).getD 0
  else if 0x1000 ≤ o ∧ o < 0x1C00 then (v.slot ((o - 0x1000) / 8)).word
  else if 0x1C00 ≤ o ∧ o < 0x2000 then (Tab.get (0 : Line) v.sblk ((o - 0x1C00) / 128)).extractLsb' (64 * (o / 8 % 16)) 64
  else if 0x2000 ≤ o ∧ o < 0x3000 then s.readAcc c ((v.wctl who).extractLsb' 4 2) ((o - 0x2000) / 8)
  else 0

/-! ## Trace rings (R192) -/

/-- An entry of the trace ring of a slice port: its two words, undefined where nothing has been recorded. -/
def State.readTrace (s : State) (cl : ClusterId) (n : Nat) : Word × Word :=
  match Tab.find (s.cluster cl).trace n with
  | some e => e
  | none => (s.freeWord (2 * n), s.freeWord (2 * n + 1))

end Sys2Proof.Machine
end

