-- ==== Sys2Proof/Safety.lean ====
section
/-! DEFINITION. What a safe state is, and the terms in which statements speak of an instruction that issues: when nothing holds it up
(spec/06_encoding.md R119, spec/07_issue.md R128 to R133), and what it leaves as it was. -/

namespace Sys2Proof

open Machine

/-- A step does not stop the model. -/
def Safe (s : State) : Prop := ∃ t, step s = .next t

/-- Strand k of core c holds the issue slot, and no check of R119 and no rule of R131 holds up an instruction with these sources and
destinations: they exist, the sources are full and without error, the destinations are full, and the successor's forwarding slot is empty
and no result for it outstanding where nf is a destination. -/
structure CanIssue (s : State) (c : CoreId) (k : StrandId) (srcs dsts : List XReg) : Prop where
  slot : s.offer = some (c, k)
  legal : ∀ r, r ∈ srcs ∨ r ∈ dsts → r = 63#6 ∨ r.toNat ≤ (s.launchOf (s.strand c k)).nreg
  full : ∀ r ∈ srcs, (s.strand c k).full (.x r) = true
  sound : ∀ r ∈ srcs, r.toNat ∉ (s.strand c k).badX
  dests : ∀ r ∈ dsts, r ≠ 63#6 → (s.strand c k).full (.x r) = true
  room : 63#6 ∈ dsts → (s.strand c (k + 1)).full (.x 63#6) = false ∧ s.producing c k 63#6 = false

/-- A strand before and after an instruction that writes only the x registers ds of it: the other x registers, and everything else but
the pc, the fetch buffer and the records of its last issue, are as they were. -/
structure Kept (a b : Strand) (ds : List XReg) : Prop where
  regs : ∀ r, r ∉ ds → b.rx r = a.rx r
  fulls : ∀ r, r ∉ ds → b.full (.x r) = a.full (.x r)
  rest : { b with x := a.x, xF := a.xF, badX := a.badX, pc := a.pc, buf := a.buf, last := a.last, issued := a.issued, marked := a.marked,
                  walked := a.walked, wants := a.wants } = a

/-- Everything but some strands of a core is as it was: every byte of memory, every other strand, every core but for its strands, and the
rest of the machine, the issue slot apart. -/
structure Elsewhere (s t : State) (c : CoreId) (ks : List StrandId) : Prop where
  memory : ∀ a, Memory.get t.mem a = Memory.get s.mem a
  strands : ∀ d n, ¬(d = c ∧ n ∈ ks) → t.strand d n = s.strand d n
  cores : ∀ d, { t.core d with strands := (s.core d).strands } = s.core d
  rest : { t with cores := s.cores, offer := s.offer } = s

/-- The x registers of the issuing strand that an instruction changes: its destination, unless that is nf, and its own slot where a source
is nf (R133). -/
def changed (srcs : List XReg) (d : XReg) : List XReg := (if d = 63#6 then [] else [d]) ++ srcs.filter (· = 63#6)

/-- The strands of a core that an instruction changes: its own, and the successor where it writes nf (R133). -/
def touched (k : StrandId) (d : XReg) : List StrandId := if d = 63#6 then [k, k + 1] else [k]

/-- A strand at the end of an instruction that completes: the pc past it, its own forwarding slot emptied where a source is nf (R133). -/
def Machine.Strand.ended (a : Strand) (now len : Nat) (nf : Bool) : Strand :=
  { a with pc := a.pc + BitVec.ofNat 48 len, last := now, issued := true, marked := [], walked := none, wants := 0,
           xF := if nf then setBit a.xF 63 false else a.xF }

/-- What an instruction leaves that writes x register d: it holds the value (of the successor for nf, R133) and is full, x0 discards it,
the strand goes on at the pc given with the fetch buffer given, reading nf empties the strand's own slot, and nothing else changes. -/
structure Wrote (s t : State) (c : CoreId) (k : StrandId) (srcs : List XReg) (d : XReg) (v : Word) (pc : BitVec 48) (buf : List Group) :
    Prop where
  value : d ≠ 0#6 → (t.strand c (destStrand k d)).rx d = v ∧ (t.strand c (destStrand k d)).full (.x d) = true
  next : (t.strand c k).pc = pc ∧ (t.strand c k).buf = buf
  slot : 63#6 ∈ srcs → (t.strand c k).full (.x 63#6) = false
  kept : Kept (s.strand c k) (t.strand c k) (changed srcs d)
  succ : d = 63#6 → Kept (s.strand c (k + 1)) (t.strand c (k + 1)) [63#6] ∧ (t.strand c (k + 1)).pc = (s.strand c (k + 1)).pc ∧
    (t.strand c (k + 1)).buf = (s.strand c (k + 1)).buf
  elsewhere : Elsewhere s t c (touched k d)

/-- An instruction computes register d from the strand it issues on, and completes. -/
def Computes (i : Instr) (srcs : List XReg) (d : XReg) (v : Strand → Word) : Prop :=
  ∀ (s : State) (c : CoreId) (k : StrandId), CanIssue s c k srcs [d] →
    ∃ t, exec i s = .next t ∧
      Wrote s t c k srcs d (v (s.strand c k)) ((s.strand c k).pc + 4#48) (s.strand c k).buf

/-- An instruction completes with a change of its own strand only. -/
def Changes (i : Instr) (srcs : List XReg) (f : Strand → Strand) : Prop :=
  ∀ (s : State) (c : CoreId) (k : StrandId), CanIssue s c k srcs [] →
    ∃ t, exec i s = .next t ∧ t.strand c k = (f (s.strand c k)).ended s.cycle 4 (decide (63#6 ∈ srcs)) ∧ Elsewhere s t c [k]

end Sys2Proof
end

