-- ==== Sys2Proof/Certificates/Slice0/Obligations.lean ====
section
/-! DEFINITION. The statements about the NH-7400. Each docstring names the rules of spec/ that it formalises. The terms `CanIssue`, `Kept`,
`Elsewhere`, `Wrote`, `Computes` and `Changes` are those of Sys2Proof/Safety.lean. -/

open Sys2Proof Sys2Proof.Machine

/-! ## Terms of the scalar statements -/

/-- The integer conditions by CC (R146). -/
def Sys2Proof.condition (cc : BitVec 3) (a b : Word) : Bool :=
  if cc = 0#3 then decide (a = b) else if cc = 1#3 then decide (a ≠ b)
  else if cc = 2#3 then decide (a.toInt < b.toInt) else if cc = 3#3 then decide (b.toInt ≤ a.toInt)
  else if cc = 4#3 then decide (a.toNat < b.toNat) else if cc = 5#3 then decide (b.toNat ≤ a.toNat)
  else if cc = 6#3 then a.getLsbD (b.toNat % 64) else !a.getLsbD (b.toNat % 64)

/-- An FP32 pattern is a NaN; is a signaling one (R32, R42). -/
def Sys2Proof.isNaN32 (x : BitVec 32) : Bool := decide (0x7F800000 < x.toNat % 2 ^ 31)
def Sys2Proof.isSignaling32 (x : BitVec 32) : Bool := isNaN32 x && !x.getLsbD 22

/-- The order of FP32 patterns that are no NaN: as their numeric values, −0 equal to +0. -/
def Sys2Proof.order32 (x : BitVec 32) : Int := if x.getLsbD 31 then -((x.toNat % 2 ^ 31 : Nat) : Int) else (x.toNat % 2 ^ 31 : Nat)

/-- The conditions of FCHK by CC: EQ, NE, LT, GE, LE, GT, UN, OR (R147). -/
def Sys2Proof.floatCondition (cc : BitVec 3) (x y : BitVec 32) : Bool :=
  if isNaN32 x || isNaN32 y then cc == 1#3 || cc == 6#3
  else if cc = 0#3 then decide (order32 x = order32 y) else if cc = 1#3 then decide (order32 x ≠ order32 y)
  else if cc = 2#3 then decide (order32 x < order32 y) else if cc = 3#3 then decide (order32 y ≤ order32 x)
  else if cc = 4#3 then decide (order32 x ≤ order32 y) else if cc = 5#3 then decide (order32 y < order32 x)
  else cc == 7#3

/-- Whether an FP32 pattern lies below another, −0 below +0 (R151). -/
def Sys2Proof.below32 (x y : BitVec 32) : Bool :=
  decide (order32 x < order32 y) || (decide (order32 x = order32 y) && x.getLsbD 31 && !y.getLsbD 31)

/-- FMIN and FMAX (R151): a NaN gives way to the other operand, two give the canonical NaN, else the lesser or the greater value. -/
def Sys2Proof.minMax32 (greater : Bool) (x y : BitVec 32) : BitVec 32 :=
  if isNaN32 x && isNaN32 y then 0x7FC00000#32 else if isNaN32 x then y else if isNaN32 y then x
  else if (if greater then below32 x y else below32 y x) then y else x

/-- The class of an FP32 pattern as the bit number of R152. -/
def Sys2Proof.class32 (x : BitVec 32) : Nat :=
  let m := x.toNat % 2 ^ 31
  if isNaN32 x then (if isSignaling32 x then 8 else 9)
  else if m = 0x7F800000 then (if x.getLsbD 31 then 0 else 7)
  else if m = 0 then (if x.getLsbD 31 then 3 else 4)
  else if m < 2 ^ 23 then (if x.getLsbD 31 then 2 else 5)
  else if x.getLsbD 31 then 1 else 6

/-- An instruction computes register d and sets flags of STS, and changes nothing else (R46, R139). -/
def Sys2Proof.ComputesF (i : Instr) (srcs : List XReg) (d : XReg) (v : Strand → Word × BitVec 5) : Prop :=
  ∀ (s : State) (c : CoreId) (k : StrandId), CanIssue s c k srcs [d] →
    ∃ t, exec i s = .next t ∧ (t.strand c k).flags = (s.strand c k).flags ||| (v (s.strand c k)).2 ∧
      Wrote s (t.updStrand c k fun b => { b with flags := (s.strand c k).flags }) c k srcs d (v (s.strand c k)).1
        ((s.strand c k).pc + 4#48) (s.strand c k).buf

/-- The step that writes a result some core cycles after issue, at the end of that cycle. -/
def Sys2Proof.resultDue (s : State) (c : CoreId) (k : StrandId) (d : XReg) (cycles : Nat) : Nat × Instr × StepArg :=
  (s.now + (2 * cycles + 1), .producerResultWrite, { c := c, k := k, n := d.toNat })

/-- What a producer of the core leaves (R130, R140, R205): register d empty (of the successor for nf), the strand behind the instruction, and
PRODUCER_RESULT_WRITE on the agenda; that step, run in the state that the issue leaves, writes the value, sets the register full and ORs the
flags (R46). Nothing else changes. -/
structure Sys2Proof.ResultLater (s t : State) (c : CoreId) (k : StrandId) (srcs : List XReg) (d : XReg) (cycles : Nat) (v : Word)
    (fl : BitVec 5) : Prop where
  empty : d ≠ 0#6 → (t.strand c (destStrand k d)).full (.x d) = false
  next : (t.strand c k).pc = (s.strand c k).pc + 4#48 ∧ (t.strand c k).flags = (s.strand c k).flags
  due : resultDue s c k d cycles ∈ t.agenda
  elsewhere : Elsewhere s { t with agenda := s.agenda } c (touched k d)
  written : ∃ u, exec .producerResultWrite { t with arg := (resultDue s c k d cycles).2.2 } = .next u ∧
    (u.strand c k).flags = (s.strand c k).flags ||| fl ∧
    Wrote s (({ u with agenda := s.agenda, arg := s.arg } : State).updStrand c k fun b => { b with flags := (s.strand c k).flags }) c k
      srcs d v ((s.strand c k).pc + 4#48) (s.strand c k).buf

/-- No result and no fill of register d is outstanding: so it is in every state a run reaches in which d is full (R131, R132). -/
def Sys2Proof.NoneDue (s : State) (c : CoreId) (k : StrandId) (d : XReg) : Prop :=
  (∀ p ∈ (s.strand c k).pend, p.r ≠ .x d) ∧ ∀ f ∈ (s.strand c (destStrand k d)).fills, f.1 ≠ d

/-- An instruction issues as a producer of register d, whatever its operands. -/
def Sys2Proof.Produces (i : Instr) (srcs : List XReg) (d : XReg) (cycles : Nat) (v : Strand → Word × BitVec 5) : Prop :=
  ∀ (s : State) (c : CoreId) (k : StrandId), CanIssue s c k srcs [d] → NoneDue s c k d →
    ∃ t, exec i s = .next t ∧ ResultLater s t c k srcs d cycles (v (s.strand c k)).1 (v (s.strand c k)).2

/-! ## Scalar instructions (spec/08_isa_scalar.md) -/

/-- Every two-source INT instruction that is not a division computes its function of R142 into RD, for every operand register, every W
bit and every value, and changes nothing else: x0 discards, nf goes to the successor (R133, R139), no flag changes (R143). Signed
values are read as integers, and a product of more than 64 bits is split as R142 says. -/
def Sys2Proof.IntegerResults : Prop :=
  ∀ (w u : Bool) (b a d : XReg),
    Computes (.add w u b a d) [a, b] d (fun t => BitVec.ofNat 64 ((t.rx a).toNat + (t.rx b).toNat)) ∧
    Computes (.sub w u b a d) [a, b] d (fun t => BitVec.ofInt 64 ((t.rx a).toInt - (t.rx b).toInt)) ∧
    Computes (.and w u b a d) [a, b] d (fun t => t.rx a &&& t.rx b) ∧
    Computes (.or w u b a d) [a, b] d (fun t => t.rx a ||| t.rx b) ∧
    Computes (.xor w u b a d) [a, b] d (fun t => t.rx a ^^^ t.rx b) ∧
    Computes (.andn w u b a d) [a, b] d (fun t => t.rx a &&& ~~~(t.rx b)) ∧
    Computes (.sll w u b a d) [a, b] d (fun t => BitVec.ofNat 64 ((t.rx a).toNat * 2 ^ ((t.rx b).toNat % 64))) ∧
    Computes (.srl w u b a d) [a, b] d (fun t => BitVec.ofNat 64 ((t.rx a).toNat / 2 ^ ((t.rx b).toNat % 64))) ∧
    Computes (.sra w u b a d) [a, b] d (fun t => BitVec.ofInt 64 ((t.rx a).toInt / 2 ^ ((t.rx b).toNat % 64))) ∧
    Computes (.slt w u b a d) [a, b] d (fun t => if (t.rx a).toInt < (t.rx b).toInt then 1#64 else 0#64) ∧
    Computes (.sltu w u b a d) [a, b] d (fun t => if (t.rx a).toNat < (t.rx b).toNat then 1#64 else 0#64) ∧
    Computes (.min w u b a d) [a, b] d (fun t => if (t.rx a).toInt ≤ (t.rx b).toInt then t.rx a else t.rx b) ∧
    Computes (.max w u b a d) [a, b] d (fun t => if (t.rx b).toInt ≤ (t.rx a).toInt then t.rx a else t.rx b) ∧
    Computes (.minu w u b a d) [a, b] d (fun t => if (t.rx a).toNat ≤ (t.rx b).toNat then t.rx a else t.rx b) ∧
    Computes (.maxu w u b a d) [a, b] d (fun t => if (t.rx b).toNat ≤ (t.rx a).toNat then t.rx a else t.rx b) ∧
    Computes (.mul w u b a d) [a, b] d (fun t => BitVec.ofNat 64 ((t.rx a).toNat * (t.rx b).toNat)) ∧
    Computes (.mulh w u b a d) [a, b] d (fun t => BitVec.ofInt 64 ((t.rx a).toInt * (t.rx b).toInt / 2 ^ 64)) ∧
    Computes (.mulhu w u b a d) [a, b] d (fun t => BitVec.ofNat 64 ((t.rx a).toNat * (t.rx b).toNat / 2 ^ 64)) ∧
    Computes (.sh1add w u b a d) [a, b] d (fun t => BitVec.ofNat 64 (2 * (t.rx a).toNat + (t.rx b).toNat)) ∧
    Computes (.sh2add w u b a d) [a, b] d (fun t => BitVec.ofNat 64 (4 * (t.rx a).toNat + (t.rx b).toNat)) ∧
    Computes (.sh3add w u b a d) [a, b] d (fun t => BitVec.ofNat 64 (8 * (t.rx a).toNat + (t.rx b).toNat))

/-- CLZ, CTZ and POPC count bits (R142): the run of zero bits from the top, from the bottom, and the one bits; 64 zero bits when a = 0. -/
def Sys2Proof.CountResults : Prop :=
  ∀ (u : Bool) (a d : XReg),
    Computes (.clz u a d) [a] d
      (fun t => BitVec.ofNat 64 ((List.range 64).takeWhile fun n => !(t.rx a).getLsbD (63 - n)).length) ∧
    Computes (.ctz u a d) [a] d (fun t => BitVec.ofNat 64 ((List.range 64).takeWhile fun n => !(t.rx a).getLsbD n).length) ∧
    Computes (.popc u a d) [a] d (fun t => BitVec.ofNat 64 ((List.range 64).filter fun n => (t.rx a).getLsbD n).length)

/-- The immediate forms compute the functions of R142 with b the sign-extended IMM12, and the shifts take the amount k (R144). SLTIU
compares with the sign-extended immediate as unsigned values. -/
def Sys2Proof.ImmediateResults : Prop :=
  ∀ (m : BitVec 12) (n : BitVec 6) (u : Bool) (a d : XReg),
    Computes (.addi m u a d) [a] d (fun t => BitVec.ofInt 64 ((t.rx a).toInt + m.toInt)) ∧
    Computes (.andi m u a d) [a] d (fun t => t.rx a &&& m.signExtend 64) ∧
    Computes (.ori m u a d) [a] d (fun t => t.rx a ||| m.signExtend 64) ∧
    Computes (.xori m u a d) [a] d (fun t => t.rx a ^^^ m.signExtend 64) ∧
    Computes (.slti m u a d) [a] d (fun t => if (t.rx a).toInt < m.toInt then 1#64 else 0#64) ∧
    Computes (.sltiu m u a d) [a] d (fun t => if (t.rx a).toNat < (m.signExtend 64).toNat then 1#64 else 0#64) ∧
    Computes (.slli n u a d) [a] d (fun t => BitVec.ofNat 64 ((t.rx a).toNat * 2 ^ n.toNat)) ∧
    Computes (.srli n u a d) [a] d (fun t => BitVec.ofNat 64 ((t.rx a).toNat / 2 ^ n.toNat)) ∧
    Computes (.srai n u a d) [a] d (fun t => BitVec.ofInt 64 ((t.rx a).toInt / 2 ^ n.toNat))

/-- LIM puts the chunk at bit 16 * SH over zeros, LIMK puts it there and keeps the other 48 bits of RD (R145). -/
def Sys2Proof.ChunkResults : Prop :=
  ∀ (m : BitVec 16) (sh : BitVec 2) (d : XReg),
    Computes (.lim m sh d) [] d (fun _ => BitVec.ofNat 64 (m.toNat * 2 ^ (16 * sh.toNat))) ∧
    (Computes (.limk m sh d) [d] d (fun t =>
      ((List.range 4).foldl (fun v n => v ||| (if n = sh.toNat then m else (t.rx d).extractLsb' (16 * n) 16).setWidth 64 <<< (16 * n)) 0#64)))

/-- Division never faults (R143): DIV, DIVU, REM and REMU issue for every value of their operands and leave RD empty; PRODUCER_RESULT_WRITE
is due 24 core cycles later (R140) and, run, writes the quotient truncated toward zero or the remainder with the sign of the dividend:
all ones or the dividend for a zero divisor, −2^63 or 0 for −2^63 divided by −1. No flag of STS changes. -/
def Obligations.DivisionResults : Prop :=
  ∀ (w u : Bool) (b a d : XReg),
    Produces (.div w u b a d) [a, b] d 24 (fun t => (if (t.rx b).toInt = 0 then BitVec.allOnes 64
      else BitVec.ofInt 64 ((t.rx a).toInt.tdiv (t.rx b).toInt), 0#5)) ∧
    Produces (.divu w u b a d) [a, b] d 24 (fun t => (if (t.rx b).toNat = 0 then BitVec.allOnes 64
      else BitVec.ofNat 64 ((t.rx a).toNat / (t.rx b).toNat), 0#5)) ∧
    Produces (.rem w u b a d) [a, b] d 24 (fun t => (BitVec.ofInt 64 ((t.rx a).toInt.tmod (t.rx b).toInt), 0#5)) ∧
    Produces (.remu w u b a d) [a, b] d 24 (fun t => (BitVec.ofNat 64 ((t.rx a).toNat % (t.rx b).toNat), 0#5))

/-- CHK and CHKI evaluate the condition of R146 on values read as signed or unsigned integers, open a shadow of N instructions when it is
false (R134) and none when it is true, and write no register and no flag. -/
def Sys2Proof.CompareSkips : Prop :=
  ∀ (w u : Bool) (b a : XReg) (m : BitVec 13) (n : BitVec 2),
    (∀ cc : BitVec 3, Changes (.chk w u b a cc n) [a, b] (fun t => if condition cc (t.rx a) (t.rx b) then t else { t with ann := n.toNat })) ∧
    (∀ cc : BitVec 3, Changes (.chki m a u cc n) [a]
      (fun t => if condition cc (t.rx a) (m.signExtend 64) then t else { t with ann := n.toNat }))

/-- FCHK compares the FP32 values of bits 31:0 (R147): a pair with a NaN is unordered, only NE and UN hold of it; an ordered pair is compared
as numbers, −0 equal to +0; a signaling NaN sets NV. The shadow is that of R134. -/
def Sys2Proof.FloatCompareSkips : Prop :=
  ∀ (w u : Bool) (b a : XReg) (cc : BitVec 3) (n : BitVec 2),
    Changes (.fchk w u b a cc n) [a, b] (fun t =>
      let x := (t.rx a).extractLsb' 0 32
      let y := (t.rx b).extractLsb' 0 32
      let t := if isSignaling32 x || isSignaling32 y then { t with flags := t.flags ||| 16#5 } else t
      if floatCondition cc x y then t else { t with ann := n.toNat })

/-- The branches of R148 and R149: BR, JL and JLR continue at their targets, modulo 2^48, with an empty fetch buffer; JL and JLR write the
address of the next instruction. -/
def Sys2Proof.Branches : Prop :=
  (∀ (o : BitVec 25) (s : State) (c : CoreId) (k : StrandId), CanIssue s c k [] [] →
    ∃ t, exec (.br o) s = .next t ∧ Elsewhere s t c [k] ∧ Kept (s.strand c k) (t.strand c k) [] ∧
      (t.strand c k).pc = BitVec.ofInt 48 ((s.strand c k).pc.toNat + 2 * o.toInt) ∧ (t.strand c k).buf = []) ∧
  (∀ (o : BitVec 19) (d : XReg) (s : State) (c : CoreId) (k : StrandId), CanIssue s c k [] [d] →
    ∃ t, exec (.jl o d) s = .next t ∧
      Wrote s t c k [] d (((s.strand c k).pc + 4#48).setWidth 64) (BitVec.ofInt 48 ((s.strand c k).pc.toNat + 2 * o.toInt)) []) ∧
  (∀ (m : BitVec 12) (u : Bool) (a d : XReg) (s : State) (c : CoreId) (k : StrandId), CanIssue s c k [a] [d] →
    ∃ t, exec (.jlr m u a d) s = .next t ∧
      Wrote s t c k [a] d (((s.strand c k).pc + 4#48).setWidth 64)
        (BitVec.ofInt 48 (((s.strand c k).rx a).toNat + 2 * m.toInt) &&& ~~~1#48) [])

/-- ISYNC empties the strand's fetch buffer and the instruction cache of its core, and the strand goes on behind it (R99, R150). -/
def Sys2Proof.Isync : Prop :=
  ∀ (s : State) (c : CoreId) (k : StrandId), CanIssue s c k [] [] →
    ∃ t, exec .isync s = .next t ∧ (t.core c).icache = [] ∧ (t.strand c k).buf = [] ∧ (t.strand c k).pc = (s.strand c k).pc + 4#48 ∧
      Kept (s.strand c k) (t.strand c k) [] ∧ Elsewhere s (t.updCore c fun v => { v with icache := (s.core c).icache }) c [k]

/-- FADD, FSUB, FMUL, FMA and the conversions give the exact result rounded once in RM.MODE into bits 31:0 (all 64 bits for FCVT.I.F), with
its flags ORed into STS (R151, R42, R44, R46); bits 63:32 of FP32 operands are ignored. -/
def Sys2Proof.FloatResults : Prop :=
  ∀ (w u : Bool) (b a d : XReg),
    ComputesF (.fadd w u b a d) [a, b] d (fun t => toFp32 t.mode (exAdd t.mode (fp32 (t.rx a)) (fp32 (t.rx b)))) ∧
    ComputesF (.fsub w u b a d) [a, b] d (fun t => toFp32 t.mode (exAdd t.mode (fp32 (t.rx a)) (fp32 (t.rx b)).negate)) ∧
    ComputesF (.fmul w u b a d) [a, b] d (fun t => toFp32 t.mode (exMul (fp32 (t.rx a)) (fp32 (t.rx b)))) ∧
    (ComputesF (.fma w u b a d) [a, b, d] d
      (fun t => toFp32 t.mode (exFma t.mode (fp32 (t.rx a)) (fp32 (t.rx b)) (fp32 (t.rx d))))) ∧
    ComputesF (.fcvtIF u a d) [a] d (fun t =>
      let r := roundInt (-2 ^ 63) (2 ^ 63 - 1) t.mode { v := fp32 (t.rx a) }
      (BitVec.ofInt 64 r.1, r.2)) ∧
    ComputesF (.fcvtFI u a d) [a] d (fun t => toFp32 t.mode { v := ofInt (t.rx a).toInt }) ∧
    Produces (.fdiv w u b a d) [a, b] d 16 (fun t => toFp32 t.mode (exDiv (fp32 (t.rx a)) (fp32 (t.rx b)))) ∧
    Produces (.fsqrt u a d) [a] d 16 (fun t => toFp32 t.mode (exSqrt (fp32 (t.rx a))))

/-- FMIN and FMAX give the lesser or greater FP32 value with −0 below +0, the other operand for one NaN and the canonical NaN for two; NV is set
by a signaling NaN; bits 63:32 are 0 (R151, R139). -/
def Sys2Proof.FloatMinMax : Prop :=
  ∀ (w u : Bool) (b a d : XReg),
    let lo := fun (t : Strand) (r : XReg) => (t.rx r).extractLsb' 0 32
    let nv := fun (t : Strand) => if isSignaling32 (lo t a) || isSignaling32 (lo t b) then 16#5 else 0#5
    ComputesF (.fmin w u b a d) [a, b] d (fun t => ((minMax32 false (lo t a) (lo t b)).setWidth 64, nv t)) ∧
    ComputesF (.fmax w u b a d) [a, b] d (fun t => ((minMax32 true (lo t a) (lo t b)).setWidth 64, nv t))

/-- FCLASS sets the one bit that R152 gives the class of bits 31:0, and clears all others. -/
def Obligations.FloatClass : Prop :=
  ∀ (u : Bool) (a d : XReg), Computes (.fclass u a d) [a] d (fun t => 1#64 <<< class32 ((t.rx a).extractLsb' 0 32))

/-! ## Terms of the statements about control registers and faults -/

/-- The counts of a level with one more fault (R376, R77). -/
def Sys2Proof.oneMore (cls : Nat) (first : Word) (x : Counts) : Counts :=
  { x with nfault := min (x.nfault + 1) (2 ^ 32 - 1), errsum := x.errsum ||| (1#64 <<< cls), first := if x.first = 0 then first else x.first }

/-- A strand takes a fault (R372, R374 to R376), and nothing else happens: it freezes at its pc with its registers, full bits, flags and annulment
count as they were (`nf` says that a completed TRAP has read its forwarding slot), its fetch buffer but for groups that hold a fault or poison; the
packet of R374 is queued behind those of its core, and its delivery is due in the next core cycle, with the kill of a class that the trap policy
names (R373); the fault counts in the records of launch, graph, phases and job. Memory, the other strands, the requests, send buffer, queues and
everything else of the core, the other cores, jobs and launches, the rest of the agenda and of the machine are as they were. -/
structure Sys2Proof.TakesFault (s t : State) (c : CoreId) (k : StrandId) (f : Fault') (pc : BitVec 48) (nf : Bool := false) : Prop where
  frozen : (t.strand c k).st = .frozen
  pc : (t.strand c k).pc = pc
  same : { t.strand c k with
      st := (s.strand c k).st, park := (s.strand c k).park, held := (s.strand c k).held, walked := (s.strand c k).walked,
      froze := (s.strand c k).froze, pc := (s.strand c k).pc, last := (s.strand c k).last, issued := (s.strand c k).issued,
      marked := (s.strand c k).marked, wants := (s.strand c k).wants, xF := (s.strand c k).xF, buf := (s.strand c k).buf } = s.strand c k
  fulls : (t.strand c k).xF = if nf then setBit (s.strand c k).xF 63 false else (s.strand c k).xF
  buf : (t.strand c k).buf = (s.strand c k).buf.filter Group.sound
  others : ∀ d n, ¬(d = c ∧ n = k) → t.strand d n = s.strand d n
  packet : ∃ p, (t.core c).pktq = (s.core c).pktq ++ [p] ∧ (t.strand c k).froze = some p ∧
    p.core = c ∧ p.strand = k ∧ p.job = (s.strand c k).job ∧ p.lslot = (s.strand c k).lslot ∧ p.cls = f.cls ∧ p.frozen = true ∧ p.slog = false ∧
    p.defer = false ∧ p.late = false ∧ p.pc = (s.strand c k).pc ∧ p.addr = f.addr ∧ p.info = f.info ∧ p.aux = f.aux ∧
    p.pix = (if f.pix0 then 0 else (s.strand c k).pix) ∧ p.vt = (s.strand c k).vt ∧ p.insn = (s.strand c k).insn ∧ p.tstamp = s.tstamp
  core : { t.core c with strands := (s.core c).strands, pktq := (s.core c).pktq } = s.core c
  cores : ∀ d, d ≠ c → t.core d = s.core d
  delivery : (s.now + 2, Instr.packetDelivery, ({ c := c } : StepArg)) ∈ t.agenda
  agenda : (∀ e ∈ s.agenda, e ∈ t.agenda) ∧ ∀ e ∈ t.agenda, e ∈ s.agenda ∨ e = (s.now + 2, Instr.packetDelivery, ({ c := c } : StepArg)) ∨
    ((s.job (s.strand c k).job).policy.getLsbD f.cls = true ∧
      e = (s.now, Instr.kill, ({ c := c, k := k, t := (s.strand c k).ident, ok := true } : StepArg)))
  counted : { t.job (s.strand c k).job with launches := (s.job (s.strand c k).job).launches, graphs := (s.job (s.strand c k).job).graphs } =
    { s.job (s.strand c k).job with
      c := oneMore f.cls (c ++ k ++ (s.strand c k).pc) (s.job (s.strand c k).job).c
      phases := (s.job (s.strand c k).job).phases.map fun p =>
        if p.start ≤ (s.strand c k).vt ∧ (s.strand c k).vt < p.stop then { p with c := oneMore f.cls (c ++ k ++ (s.strand c k).pc) p.c } else p }
  launches : ∀ l, t.launch (s.strand c k).job l =
    if l = (s.strand c k).lslot ∧ Tab.has (s.job (s.strand c k).job).launches l.toNat = true then
      { s.launch (s.strand c k).job l with c := oneMore f.cls (c ++ k ++ (s.strand c k).pc) (s.launch (s.strand c k).job l).c }
    else s.launch (s.strand c k).job l
  graphs : ∀ g, let x := Tab.get ({} : Graph) (s.job (s.strand c k).job).graphs g
    Tab.get ({} : Graph) (t.job (s.strand c k).job).graphs g =
      if (s.launch (s.strand c k).job (s.strand c k).lslot).graph.map (·.toNat) = some g then
        { x with c := oneMore f.cls (c ++ k ++ (s.strand c k).pc) x.c } else x
  jobs : ∀ i, i ≠ (s.strand c k).job → t.job i = s.job i
  rest : { t with cores := s.cores, jobs := s.jobs, agenda := s.agenda, offer := s.offer, fresh := s.fresh } = s

/-- The two-source INT instructions, divisions among them, on the same registers (R106, R107). -/
def Sys2Proof.intInstrs (w u : Bool) (b a d : XReg) : List Instr :=
  [.add w u b a d, .sub w u b a d, .and w u b a d, .or w u b a d, .xor w u b a d, .andn w u b a d, .sll w u b a d, .srl w u b a d,
   .sra w u b a d, .slt w u b a d, .sltu w u b a d, .min w u b a d, .max w u b a d, .minu w u b a d, .maxu w u b a d, .mul w u b a d,
   .mulh w u b a d, .mulhu w u b a d, .div w u b a d, .divu w u b a d, .rem w u b a d, .remu w u b a d, .sh1add w u b a d,
   .sh2add w u b a d, .sh3add w u b a d]

/-- A value stored in a control register that a strand may write (R117, R154). -/
def Sys2Proof.storeCtl (n : BitVec 9) (v : Word) (t : Strand) : Strand :=
  if n = 0x002#9 then { t with pix := v }
  else if n = 0x003#9 then { t with vl := BitVec.ofNat 64 (min v.toNat 65536) }
  else if n = 0x004#9 then { t with rm := BitVec.ofNat 64 (v.toNat % 8) }
  else if n = 0x005#9 then { t with flags := BitVec.ofNat 5 v.toNat }
  else if n = 0x007#9 then { t with scoff := v }
  else if n = 0x009#9 then { t with lease := BitVec.ofNat 64 (v.toNat % 2 ^ 32) }
  else if n = 0x00E#9 then { t with rslot := min (max v.toNat 4) 16 }
  else t

/-- The value of a control register that a strand may write, as it reads it (R117, R136). -/
def Sys2Proof.readCtl (n : BitVec 9) (t : Strand) : Word :=
  if n = 0x002#9 then t.pix else if n = 0x003#9 then t.vl else if n = 0x004#9 then t.rm
  else if n = 0x005#9 then BitVec.ofNat 64 (t.flags.toNat + if t.opt then 256 else 0)
  else if n = 0x007#9 then t.scoff else if n = 0x009#9 then t.lease else BitVec.ofNat 64 t.rslot

/-- The numbers of the registers that a strand may write (R117). -/
def Sys2Proof.writableCtl : List (BitVec 9) := [0x002#9, 0x003#9, 0x004#9, 0x005#9, 0x007#9, 0x009#9, 0x00E#9]

/-- The registers that a strand only reads, with their values (R117, R80, R345, R25, R77, R318). -/
def Sys2Proof.liveCtl (s : State) (c : CoreId) (k : StrandId) : List (BitVec 9 × Word) :=
  let t := s.strand c k
  [(0x000#9, t.vt), (0x001#9, (Tab.get (s.job t.job).idleLeaf (s.job t.job).leaves c.toNat).gvt),
   (0x006#9, BitVec.ofNat 64 (s.devnum.toNat * 2 ^ 16 + c.toNat * 16 + k.toNat)), (0x008#9, 0x7FFE00000000#64),
   (0x00A#9, let v := Tab.get ({} : Cluster) s.clusters (c.toNat / 64)
      BitVec.ofNat 64 (v.routed.toNat * 2 ^ 24 + v.defl.toNat * 2 ^ 8 + v.level % 4)),
   (0x00B#9, (s.launchOf t).window), (0x00C#9, BitVec.ofNat 64 ((s.job t.job).jspill.toNat + 0x80000 * c.toNat)),
   (0x00D#9, if (s.launchOf t).opt then
      BitVec.ofNat 64 (0x7FFFFFF00000 + 2048 * ((s.launchOf t).codeoff / 2048 + ((s.launchOf t).codeb + 2047) / 2048)) else 0#64),
   (0x00F#9, (s.core c).xdrop), (0x010#9, BitVec.ofNat 64 s.cycle), (0x011#9, s.tstamp),
   (0x012#9, BitVec.ofNat 64 (if t.ntile = 0 then 0 else t.base)),
   (0x013#9, BitVec.ofNat 64 (if t.nscr = 0 then 0 else 2048 * (t.base + t.ntile)))]

/-! ## Control registers, traps and faults (spec/06_encoding.md R117 to R119, spec/08_isa_scalar.md R153 to R156, spec/20_faults.md) -/

/-- CTLR reads every control register that R117 lists into RD: the writable ones, the live ones, and i0 to i3 where they are full. -/
def Sys2Proof.ControlReads : Prop :=
  ∀ (u : Bool) (d : XReg) (s : State) (c : CoreId) (k : StrandId), CanIssue s c k [] [d] →
    (∀ n ∈ writableCtl, ∃ t, exec (.ctlr n false d) s = .next t ∧
      Wrote s t c k [] d (readCtl n (s.strand c k)) ((s.strand c k).pc + 4#48) (s.strand c k).buf) ∧
    (∀ e ∈ liveCtl s c k, ∃ t, exec (.ctlr e.1 false d) s = .next t ∧
      Wrote s t c k [] d e.2 ((s.strand c k).pc + 4#48) (s.strand c k).buf) ∧
    (∀ n : BitVec 2, (s.strand c k).full (.i n) = true → ∃ t, exec (.ctlr (0x020#9 + n.setWidth 9) u d) s = .next t ∧
      Wrote s t c k [] d ((s.strand c k).ri n) ((s.strand c k).pc + 4#48) (s.strand c k).buf)

/-- CTLW, CTLSET, CTLCLR and CTLX write the registers that a strand may write, each with the stored form of R154: VL at most 65,536, RSLOT
within 4 and 16, LEASE in bits 31:0, STS in its five flags, RM in its three bits; CTLX writes the old value into RD. -/
def Sys2Proof.ControlWrites : Prop :=
  ∀ (u : Bool) (a d : XReg), ∀ n ∈ writableCtl,
    Changes (.ctlw n u a) [a] (fun t => storeCtl n (t.rx a) t) ∧
    Changes (.ctlset n u a) [a] (fun t => storeCtl n (readCtl n t ||| t.rx a) t) ∧
    Changes (.ctlclr n u a) [a] (fun t => storeCtl n (readCtl n t &&& ~~~(t.rx a)) t) ∧
    ∀ (s : State) (c : CoreId) (k : StrandId), CanIssue s c k [a] [d] →
      ∃ t, exec (.ctlx n u a d) s = .next t ∧
        Wrote (s.updStrand c k fun x => storeCtl n (x.rx a) x) t c k [a] d (readCtl n (s.strand c k)) ((s.strand c k).pc + 4#48)
          (s.strand c k).buf

/-- BRK does not complete: the strand freezes at the BRK with a breakpoint packet that carries the code (R156). -/
def Sys2Proof.Breakpoint : Prop :=
  ∀ (code : BitVec 9) (s : State) (c : CoreId) (k : StrandId), CanIssue s c k [] [] →
    ∃ t, exec (.brk code) s = .next t ∧ TakesFault s t c k { cls := 21, info := code.setWidth 16 } (s.strand c k).pc

/-- TRAP completes: the pc moves to the next instruction, the strand freezes, and a trap packet carries the pc of the TRAP, the code and
x[RS1] (R155). -/
def Sys2Proof.Trap : Prop :=
  ∀ (code : BitVec 9) (u : Bool) (a : XReg) (s : State) (c : CoreId) (k : StrandId), CanIssue s c k [a] [] →
    ∃ t, exec (.trap code u a) s = .next t ∧
      TakesFault s t c k { cls := 20, addr := (s.strand c k).rx a, info := code.setWidth 16 } ((s.strand c k).pc + 4#48) (decide (a = 63#6))

/-- Check 3 of R119: an INT instruction that names a register above NREG, other than nf, takes the illegal-register fault (R23), whatever its
registers hold. -/
def Sys2Proof.IllegalRegister : Prop :=
  ∀ (w u : Bool) (b a d : XReg) (s : State) (c : CoreId) (k : StrandId), s.offer = some (c, k) →
    (∃ r, (r = a ∨ r = b ∨ r = d) ∧ r ≠ 63#6 ∧ (s.launchOf (s.strand c k)).nreg < r.toNat) →
    ∀ i ∈ intInstrs w u b a d, ∃ t, exec i s = .next t ∧ TakesFault s t c k { cls := 2 } (s.strand c k).pc

/-- Check 5 of R119 and R131: an empty source with W = 1 raises the empty-register fault, and one with W = 0 parks the strand, which then
changes nothing but its own state. -/
def Sys2Proof.EmptySources : Prop :=
  ∀ (w u : Bool) (b a d : XReg) (s : State) (c : CoreId) (k : StrandId), s.offer = some (c, k) →
    (∀ r, r = a ∨ r = b ∨ r = d → r = 63#6 ∨ r.toNat ≤ (s.launchOf (s.strand c k)).nreg) →
    ∀ i ∈ intInstrs w u b a d,
      ((u = true ∧ (s.strand c k).full (.x a) = false) ∨ (w = true ∧ (s.strand c k).full (.x b) = false) →
        ∃ t, exec i s = .next t ∧ TakesFault s t c k { cls := 4 } (s.strand c k).pc) ∧
      (∀ r, ((u = false ∧ r = a) ∨ (w = false ∧ r = b ∧ (s.strand c k).full (.x a) = true)) → (s.strand c k).full (.x r) = false →
        ((w = true → (s.strand c k).full (.x b) = true) ∧ (u = true → (s.strand c k).full (.x a) = true)) →
        ∃ t, exec i s = .next t ∧ t.strand c k = { s.strand c k with st := .parked, park := .reg (.x r) } ∧ Elsewhere s t c [k])

/-! ## Terms of the statements about tasks and requests -/

/-- A request that a strand has made (R204): it stands last among those of its core, names the strand and its task, and memory and the
other strands are as they were (nf lies in the successor). The earlier requests stand, but for the count of a FILLN of a line stored to (R193)
and the mark of a fill whose line the core writes back (R336). -/
structure Sys2Proof.Requested (s t : State) (c : CoreId) (k : StrandId) (r : Req) : Prop where
  last : ∃ l, (t.core c).reqs = l ++ [r] ∧
    ∀ q ∈ (s.core c).reqs, ∃ p ∈ l, { p with stale := q.stale, w0 := if q.kind = .filln then q.w0 else p.w0 } = q
  who : r.core = c ∧ r.strand = k ∧ r.job = (s.strand c k).job ∧ r.lslot = (s.strand c k).lslot ∧ r.vt = (s.strand c k).vt ∧
    r.pc = (s.strand c k).pc
  memory : ∀ a, Memory.get t.mem a = Memory.get s.mem a
  others : ∀ e n, ¬(e = c ∧ (n = k ∨ n = k + 1)) → t.strand e n = s.strand e n

/-- A producer has issued whose result comes with a reply: its destination is empty (of the successor for nf), the strand goes on behind it,
and its other registers and the rest of it are as they were (R130). -/
structure Sys2Proof.GoesOn (s t : State) (c : CoreId) (k : StrandId) (srcs : List XReg) (d : XReg) : Prop where
  empty : d ≠ 0#6 → (t.strand c (destStrand k d)).full (.x d) = false
  next : (t.strand c k).pc = (s.strand c k).pc + 4#48 ∧ (t.strand c k).buf = (s.strand c k).buf
  kept : Kept (s.strand c k) (t.strand c k) (changed srcs d)
  succ : d ≠ 63#6 → t.strand c (k + 1) = s.strand c (k + 1)

/-- An instruction has issued on whose reply its strand parks, at the pc of the instruction, its destination empty (R126, R206). -/
structure Sys2Proof.WaitsOn (s t : State) (c : CoreId) (k : StrandId) (d : XReg) (id cause : Nat) : Prop where
  empty : d ≠ 0#6 → (t.strand c (destStrand k d)).full (.x d) = false
  parked : (t.strand c k).st = .parked ∧ (t.strand c k).park = .reply id cause ∧ (t.strand c k).pc = (s.strand c k).pc
  kept : Kept (s.strand c k)
    { t.strand c k with st := (s.strand c k).st, park := (s.strand c k).park, waitNf := (s.strand c k).waitNf,
                        waitTill := (s.strand c k).waitTill } (if d = 63#6 then [] else [d])
  succ : d ≠ 63#6 → t.strand c (k + 1) = s.strand c (k + 1)

/-- A strand whose run has ended (R161): idle, with no task and no iteration state; its registers stay. -/
structure Sys2Proof.RunEnded (s t : State) (c : CoreId) (k : StrandId) : Prop where
  idle : (t.strand c k).st = .idle ∧ (t.strand c k).task = none ∧ (t.strand c k).cur = 0 ∧ (t.strand c k).endv = 0 ∧ (t.strand c k).ann = 0
  regs : ∀ r, r ≠ 63#6 → (t.strand c k).rx r = (s.strand c k).rx r
  others : ∀ e n, ¬(e = c ∧ n = k) → t.strand e n = s.strand e n
  memory : ∀ a, Memory.get t.mem a = Memory.get s.mem a

/-- A run may end (R161), and no transposing TLOAD of the strand was stopped. -/
def Sys2Proof.MayEnd (s : State) (c : CoreId) (k : StrandId) : Prop := s.quiet c k = true ∧ (s.core c).leftFilling k = []

/-- xn is the lowest of x1 to x6 that a record takes and whose pool entry holds an uncorrectable error (R161, R388). -/
def Sys2Proof.FirstBadArg (s : State) (c : CoreId) (k : StrandId) (n : Nat) : Prop :=
  1 ≤ n ∧ n ≤ 6 ∧ n ≤ (s.launchOf (s.strand c k)).nreg ∧ n ∈ (s.strand c k).badX ∧ ∀ m, 1 ≤ m → m < n → m ∉ (s.strand c k).badX

/-- Words 2 to 7 of a record as the registers x1 to x6 give them: 0 beyond NREG (R161). -/
def Sys2Proof.argWords (s : State) (c : CoreId) (k : StrandId) : List Word :=
  [1#6, 2#6, 3#6, 4#6, 5#6, 6#6].map fun r => if r.toNat ≤ (s.launchOf (s.strand c k)).nreg then (s.strand c k).rx r else 0#64

/-- The entry of a task set aside is in its core's queue, with the continuation and the hold given (R161, R162). -/
def Sys2Proof.SetAside (s t : State) (c : CoreId) (k : StrandId) (q : QEntry) (hold : Hold) : Prop :=
  (t.core c).queue = insertQ (s.core c).queue
    { q with t := { q.t with pc := (s.strand c k).pc + 4#48, args := argWords s c k }, hold := hold, block := (s.strand c k).opt }

/-- The queue of a core takes an entry of a job: it is not full, the job has nothing spilled there, and its dispenser is not stopped
(R81, R394). -/
def Sys2Proof.QueueTakes (s : State) (c : CoreId) (j : JobId) : Prop :=
  (s.core c).queue.length < 56 ∧ Tab.get [] (s.core c).spill j.toNat = [] ∧
    (Tab.get (s.job j).idleLeaf (s.job j).leaves (4096 + c.toNat / 64)).stopped = false

/-- A translated 8-byte or wider access reaches a coherent word of the device's own tiers, with nothing of the strand before it. -/
def Sys2Proof.ReachesHome (s : State) (c : CoreId) (k : StrandId) (va : BitVec 48) (n : Nat) (need : Need) (pa : BitVec 52) (leaf : Word) :
    Prop :=
  va.toNat % n = 0 ∧ s.reach c k va n need = .at' (.own pa) leaf ∧ s.nonCoherent (s.strand c k).job va leaf = false ∧
    s.slogOverlap c k va n = false ∧ s.slogPage c k va = none

/-! ## Task instructions (spec/08_isa_scalar.md R157 to R169) -/

/-- The irrevocable instructions of the chapter raise the irrevocable-in-optimistic fault at issue in an optimistic task and change no other
state; TRAP and BRK take their own faults there (R141). -/
def Obligations.IrrevocableInOptimistic : Prop :=
  ∀ (w u : Bool) (b a d : XReg) (m : BitVec 12) (code : BitVec 9) (s : State) (c : CoreId) (k : StrandId), (s.strand c k).opt = true →
    (∀ i ∈ [Instr.resize u a d, .resumec u a d, .launch u a d, .iter u a d], CanIssue s c k [a] [d] →
      ∃ t, exec i s = .next t ∧ TakesFault s t c k { cls := 18 } (s.strand c k).pc) ∧
    (∀ i ∈ [Instr.waitw u a, .suspend u a], CanIssue s c k [a] [] →
      ∃ t, exec i s = .next t ∧ TakesFault s t c k { cls := 18 } (s.strand c k).pc) ∧
    (CanIssue s c k [a, b] [d] → ∃ t, exec (.cancel w u b a d) s = .next t ∧ TakesFault s t c k { cls := 18 } (s.strand c k).pc) ∧
    (CanIssue s c k [a] [d] → s.claiming c k = false → (s.strand c k).rx a ≠ (s.strand c k).desc ∨ (s.strand c k).endv ≤ (s.strand c k).cur →
      ∃ t, exec (.itern m u a d) s = .next t ∧ TakesFault s t c k { cls := 18 } (s.strand c k).pc) ∧
    (CanIssue s c k [a] [] → ∃ t, exec (.trap code u a) s = .next t ∧
      TakesFault s t c k { cls := 20, addr := (s.strand c k).rx a, info := code.setWidth 16 } ((s.strand c k).pc + 4#48) (decide (a = 63#6))) ∧
    (CanIssue s c k [] [] → ∃ t, exec (.brk code) s = .next t ∧
      TakesFault s t c k { cls := 21, info := code.setWidth 16 } (s.strand c k).pc)

/-- RESIZE (with SLICE set in the trap policy), RESUMEC (with a device that has a route) and CANCEL send their request to the agent that
serves them, with a reply slot and RD empty (R140, R157, R165, R167). -/
def Sys2Proof.AgentRequests : Prop :=
  ∀ (w u : Bool) (b a d : XReg) (s : State) (c : CoreId) (k : StrandId), (s.strand c k).opt = false → s.slotFree c k = true →
    (CanIssue s c k [a] [d] → (s.job (s.strand c k).job).policy.getLsbD 63 = true →
      ∃ t r, exec (.resize u a d) s = .next t ∧ Requested s t c k r ∧ GoesOn s t c k [a] d ∧
        r.kind = .resize ∧ r.dest = .x d ∧ r.slot = true ∧ r.w0 = BitVec.ofNat 64 (min ((s.strand c k).rx a).toNat 15)) ∧
    (CanIssue s c k [a] [d] → ((s.strand c k).rx a).extractLsb' 58 6 = s.devnum →
      ∃ t r, exec (.resumec u a d) s = .next t ∧ Requested s t c k r ∧ GoesOn s t c k [a] d ∧
        r.kind = .resumec ∧ r.dest = .x d ∧ r.slot = true ∧ r.w0 = (s.strand c k).rx a) ∧
    (CanIssue s c k [a, b] [d] →
      ∃ t r, exec (.cancel w u b a d) s = .next t ∧ Requested s t c k r ∧ GoesOn s t c k [a, b] d ∧
        r.kind = .cancel ∧ r.dest = .x d ∧ r.slot = true ∧ r.w0 = (s.strand c k).rx a ∧ r.w1 = (s.strand c k).rx b &&& 3#64)

/-- LAUNCH asks the management core for the launch of the descriptor at x[RS1], and its strand parks on the reply (R166; that it parks is the
model's reading, log 19). -/
def Sys2Proof.LaunchRequests : Prop :=
  ∀ (u : Bool) (a d : XReg) (s : State) (c : CoreId) (k : StrandId), CanIssue s c k [a] [d] → (s.strand c k).opt = false →
    ((s.strand c k).rx a).toNat % 64 = 0 → s.seqFree c = true → (s.core c).sendRoom = true → s.slotFree c k = true →
    ∃ t r, exec (.launch u a d) s = .next t ∧ Requested s t c k r ∧ WaitsOn s t c k d r.id 6 ∧
      r.kind = .launch ∧ r.w0 = (s.strand c k).rx a ∧ r.dest = .x d ∧ r.slot = true

/-- SPAWN and SPAWNA in a conservative task create a task of a live conservative launch: the record takes VT, PC, the launch and six arguments
from registers (zeros for x0), the launch counts one task more, the message enters the send buffer with the next sequence number
(R159, R158, R18, R29, R421). RD is x0 or one of x1 to x57 (R158). -/
def Sys2Proof.Spawns : Prop :=
  ∀ (w u : Bool) (b a d : XReg) (s : State) (c : CoreId) (k : StrandId), d.toNat ≤ 57 →
    let t0 := s.strand c k
    let l : Lslot := if (t0.rx a).getLsbD 0 then (t0.rx a).extractLsb' 48 16 else t0.lslot
    let args := if d = 0#6 then List.replicate 6 0#64 else (List.range 6).map fun n => t0.rx (d + BitVec.ofNat 6 n)
    CanIssue s c k ([a, b] ++ argRegs d) [] → t0.opt = false → (s.job t0.job).live l = true → (s.launch t0.job l).opt = false →
    t0.vt ≤ t0.rx b → s.seqFree c = true → (s.core c).sendRoom = true →
    ∀ i kind, (i, kind) ∈ [(Instr.spawn w u b a d, 0x10#6), (.spawna w u b a d, 0x11#6)] →
      ∃ t e l', exec i s = .next t ∧ (t.core c).sendBuf = l' ++ [e] ∧ l'.length = (s.core c).sendBuf.length ∧
        e.strand = k ∧ e.t.pinned = (kind == 0x11#6) ∧
        e.t.t = { odev := s.devnum, origin := c, seq := (s.core c).seq, kind := kind, job := t0.job, opt := false,
                  dest := if kind = 0x11#6 then (args.headD 0#64).extractLsb' 0 48 else 0, lslot := l,
                  pc := (t0.rx a).extractLsb' 0 48 &&& ~~~1#48, vt := t0.rx b, args := args } ∧
        (t.core c).seq = (s.core c).seq + 1 ∧ (t.launch t0.job l).count = (s.launch t0.job l).count + 1 ∧
        (t.strand c k).pc = t0.pc + 4#48 ∧ Kept t0 (t.strand c k) (([a, b] ++ argRegs d).filter (· = 63#6)) ∧
        (∀ e n, ¬(e = c ∧ n = k) → t.strand e n = s.strand e n) ∧ ∀ x, Memory.get t.mem x = Memory.get s.mem x

/-- MIGRATE in a conservative task sends its continuation to the core that owns the address x[RS1]: a pinned message with the task's own VT and
launch, the next pc and x1 to x6; the task retires here, and the launch's count stays (R160, R27, R29). That the retirement is counted at issue is
the model's reading (log 19, DEDUCED). Where one of x1 to x6 cannot be read, MIGRATE takes the data-error fault instead (R388). -/
def Sys2Proof.Migrates : Prop :=
  ∀ (u : Bool) (a : XReg) (s : State) (c : CoreId) (k : StrandId),
    let t0 := s.strand c k
    CanIssue s c k [a] [] → t0.opt = false → MayEnd s c k → t0.badX = [] → s.seqFree c = true → (s.core c).sendRoom = true →
    ∃ t e l', exec (.migrate u a) s = .next t ∧ RunEnded s t c k ∧ (t.core c).sendBuf = l' ++ [e] ∧ e.t.pinned = true ∧
      e.t.t.kind = 0x12#6 ∧ e.t.t.dest = (t0.rx a).extractLsb' 0 48 ∧ e.t.t.vt = t0.vt ∧ e.t.t.lslot = t0.lslot ∧ e.t.t.job = t0.job ∧
      e.t.t.pc = t0.pc + 4#48 ∧ e.t.t.args = argWords s c k ∧ e.t.t.seq = (s.core c).seq ∧ (t.core c).seq = (s.core c).seq + 1 ∧
      (t.launch t0.job t0.lslot).count = (s.launch t0.job t0.lslot).count ∧
      (t.job t0.job).c.retired = (s.job t0.job).c.retired + 1

/-- A register of x1 to x6 that MIGRATE or YIELD would write into the record and that holds an uncorrectable error raises the data-error fault of
the instruction, which names the register (R388). -/
def Sys2Proof.UnreadableArguments : Prop :=
  ∀ (u : Bool) (a : XReg) (s : State) (c : CoreId) (k : StrandId) (n : Nat), s.quiet c k = true → FirstBadArg s c k n →
    (CanIssue s c k [a] [] →
      ∃ t, exec (.migrate u a) s = .next t ∧ TakesFault s t c k { cls := 13, info := BitVec.ofNat 16 n } (s.strand c k).pc) ∧
    (CanIssue s c k [] [] →
      ∃ t, exec .yield s = .next t ∧ TakesFault s t c k { cls := 13, info := BitVec.ofNat 16 n } (s.strand c k).pc)

/-- EXIT ends a conservative task: its strand is idle, the task retires, counted in its launch and its job (R161, R27, R414); an optimistic
task is DONE in its ring (R348). -/
def Sys2Proof.Exits : Prop :=
  ∀ (s : State) (c : CoreId) (k : StrandId), CanIssue s c k [] [] → MayEnd s c k →
    let t0 := s.strand c k
    (t0.opt = false → ∃ t, exec .exit s = .next t ∧ RunEnded s t c k ∧
      (t.launch t0.job t0.lslot).count = (s.launch t0.job t0.lslot).count - 1 ∧
      (t.launch t0.job t0.lslot).c.retired = (s.launch t0.job t0.lslot).c.retired + 1 ∧
      (t.job t0.job).c.retired = (s.job t0.job).c.retired + 1) ∧
    (t0.opt = true → ∃ t, exec .exit s = .next t ∧ RunEnded s t c k ∧
      (t.core c).rings = (s.core c).rings.map (fun b => if b.t.t.ident = t0.ident then { b with ts := .done, strand := none } else b))

/-- YIELD, and SUSPEND and WAITW in a conservative task, end the run and set the task aside in its core's queue with pc behind the instruction
and x1 to x6 as arguments: eligible after YIELD, held by SUSPEND, which stores the handle with release, and by WAITW, which registers at
the word's home (R161 to R164). YIELD of an optimistic task sets its entry aside with its retention block, which is then written back (R348). -/
def Sys2Proof.SetsAside : Prop :=
  ∀ (u : Bool) (a : XReg) (s : State) (c : CoreId) (k : StrandId) (q : QEntry) (pa : BitVec 52) (leaf : Word),
    let t0 := s.strand c k
    let va := (t0.rx a).extractLsb' 0 48
    MayEnd s c k → t0.task = some q → t0.badX = [] → QueueTakes s c q.t.job →
    (CanIssue s c k [] [] → ∃ t, exec .yield s = .next t ∧ RunEnded s t c k ∧ SetAside s t c k q .none ∧
      (t.core c).rings = if t0.opt then
          (s.core c).rings.map (fun b => if b.t.t.ident = q.t.ident then { b with ts := .writtenBack, strand := none } else b)
        else (s.core c).rings) ∧
    (CanIssue s c k [a] [] → t0.opt = false → ReachesHome s c k va 8 .w pa leaf →
      ∃ t r, exec (.suspend u a) s = .next t ∧ RunEnded s t c k ∧ SetAside s t c k q .suspend ∧ r ∈ (t.core c).reqs ∧ r.kind = .stff ∧
        r.va = va ∧ r.pa = pa ∧ r.w0 = s.devnum ++ c ++ q.t.odev ++ q.t.origin ++ q.t.seq ++ t0.job ++ 0#4) ∧
    (CanIssue s c k [a] [] → t0.opt = false → ReachesHome s c k va 8 .r pa leaf →
      ∃ t r, exec (.waitw u a) s = .next t ∧ RunEnded s t c k ∧ SetAside s t c k q .waitw ∧ r ∈ (t.core c).reqs ∧ r.kind = .waitw ∧
        r.va = va ∧ r.pa = pa)

/-- ITER asks for a chunk of the nest whose descriptor x[RS1] names (R168); ITERN hands out the next index of the strand's chunk: RD holds it,
i0 to i3 hold its digits by the extents, an extent of 0 counting as 1 (R92, R93, R169). Where the chunk is used up, or x[RS1] names another nest,
ITERN claims the next chunk with RD and i0 to i3 empty, and its strand parks on the reply (R169). -/
def Sys2Proof.Iterates : Prop :=
  ∀ (m : BitVec 12) (u : Bool) (a d : XReg) (s : State) (c : CoreId) (k : StrandId) (pa : BitVec 52) (leaf : Word),
    let t0 := s.strand c k
    let va := (t0.rx a).extractLsb' 0 48
    let e := fun n => let x := (t0.ext.extractLsb' (16 * n) 16).toNat; if x = 0 then 1 else x
    CanIssue s c k [a] [d] → s.claiming c k = false →
    (t0.opt = false → va.toNat % 64 = 0 → ReachesHome s c k va 8 .w pa leaf → s.slotFree c k = true →
      ∃ t r, exec (.iter u a d) s = .next t ∧ Requested s t c k r ∧ GoesOn s t c k [a] d ∧ r.kind = .claim true ∧ r.w0 = t0.rx a ∧
        r.dest = .x d) ∧
    (t0.opt = false → t0.rx a ≠ t0.desc ∨ t0.endv ≤ t0.cur → va.toNat % 64 = 0 → ReachesHome s c k va 8 .w pa leaf → s.slotFree c k = true →
      ∃ t r, exec (.itern m u a d) s = .next t ∧ Requested s t c k r ∧ (t.strand c k).iF = 0#4 ∧
        WaitsOn s (t.updStrand c k fun b => { b with iF := t0.iF }) c k d r.id 1 ∧ r.kind = .claim false ∧ r.w0 = t0.rx a ∧
        r.w2 = m.signExtend 64 ∧ r.pa = pa ∧ r.dest = .x d) ∧
    (t0.rx a = t0.desc → t0.cur < t0.endv →
      ∃ t, exec (.itern m u a d) s = .next t ∧ (d ≠ 0#6 → (t.strand c (destStrand k d)).rx d = t0.cur) ∧
        (∀ n : BitVec 2, (t.strand c k).full (.i n) = true) ∧
        ((t.strand c k).ri 0).toNat = t0.cur.toNat % e 0 ∧ ((t.strand c k).ri 1).toNat = t0.cur.toNat / e 0 % e 1 ∧
        ((t.strand c k).ri 2).toNat = t0.cur.toNat / (e 0 * e 1) % e 2 ∧
        ((t.strand c k).ri 3).toNat = t0.cur.toNat / (e 0 * e 1 * e 2) % e 3 ∧
        (t.strand c k).cur = t0.cur + 1 ∧ (t.strand c k).pc = t0.pc + 4#48 ∧
        (∀ r, r ≠ d → (t.strand c k).rx r = t0.rx r) ∧ (∀ x, Memory.get t.mem x = Memory.get s.mem x) ∧
        ∀ f n, ¬(f = c ∧ n ∈ touched k d) → t.strand f n = s.strand f n)

/-! ## Terms of the statements about memory instructions -/

/-- n bytes at a virtual address lie in the executing core's own local memory at an offset, in slots of the strand's job that no engine holds,
healthy, with nothing of the strand before the access (R170, R171, R265, R328, R384). -/
structure Sys2Proof.OwnLocal (s : State) (c : CoreId) (k : StrandId) (va : BitVec 48) (n off : Nat) : Prop where
  window : windowOf c va = some (c, off)
  aligned : va.toNat % n = 0
  backed : s.localCheck c (s.strand c k).job off n = none
  idle : ∀ m ∈ slotsOf off n, (s.slot c m).busy = false
  healthy : s.poisoned (localBase c + off) n = false
  clear : s.slogOverlap c k va n = false ∧ s.blockInto c k off n = false ∧ s.slogPage c k va = none

/-- Bytes stored from an address, and every other byte of memory as it was. -/
def Sys2Proof.Stored (s t : State) (a : Nat) (bs : List Byte) : Prop :=
    (∀ n (h : n < bs.length), Memory.get t.mem (a + n) = bs[n]) ∧ ∀ x, x < a ∨ a + bs.length ≤ x → Memory.get t.mem x = Memory.get s.mem x

/-- The n bytes that hold a value, lowest first (R5). -/
def Sys2Proof.leBytes (n : Nat) (v : Nat) : List Byte := (List.range n).map fun i => BitVec.ofNat 8 (v / 256 ^ i)

/-- The value of bytes of memory, the first in the low bits (R5). -/
def Sys2Proof.leValue (s : State) (a n : Nat) : Nat := ((List.range n).map fun i => (Memory.get s.mem (a + i)).toNat * 256 ^ i).sum

/-- The address of LD and ST (R105, R209): x[RS1] plus the offset scaled by the access size, in 48 bits. -/
def Sys2Proof.ldAddr (t : Strand) (a : XReg) (o : BitVec 9) (z : BitVec 2) : BitVec 48 :=
  BitVec.ofInt 48 ((t.rx a).toNat + o.toInt * 2 ^ z.toNat)

/-- The new value of an AMO by its number; none where CAS writes nothing (R219). FADD adds two FP32 lanes, rounding to nearest even. -/
def Sys2Proof.amoValue (op : Nat) (old b cas : Word) : Option Word :=
  if op = 0 then some (old + b) else if op = 1 then some (old &&& b) else if op = 2 then some (old ||| b)
  else if op = 3 then some (old ^^^ b)
  else if op = 4 then some (if old.toInt ≤ b.toInt then old else b) else if op = 5 then some (if b.toInt ≤ old.toInt then old else b)
  else if op = 6 then some (if old.toNat ≤ b.toNat then old else b) else if op = 7 then some (if b.toNat ≤ old.toNat then old else b)
  else if op = 8 then some b else if op = 9 then (if old = cas then some b else none)
  else some ((toFp32 0 (exAdd 0 (fp32 (old >>> 32)) (fp32 (b >>> 32)))).1.extractLsb' 0 32 ++
    (toFp32 0 (exAdd 0 (fp32 old) (fp32 b))).1.extractLsb' 0 32)

/-- The AMO instructions on the same registers, with their numbers (R219). -/
def Sys2Proof.amoInstrs (w u : Bool) (b a d : XReg) : List (Instr × Nat) :=
  [(.amoAdd w u b a d, 0), (.amoAnd w u b a d, 1), (.amoOr w u b a d, 2), (.amoXor w u b a d, 3), (.amoMin w u b a d, 4),
   (.amoMax w u b a d, 5), (.amoMinu w u b a d, 6), (.amoMaxu w u b a d, 7), (.amoSwap w u b a d, 8), (.amoCas w u b a d, 9),
   (.amoFadd w u b a d, 10)]

/-- A strand goes on behind an instruction without a destination: its pc, its own slot if a source is nf, nothing else of it; no other
strand changes. -/
structure Sys2Proof.Passed (s t : State) (c : CoreId) (k : StrandId) (srcs : List XReg) (len : Nat := 4) : Prop where
  next : (t.strand c k).pc = (s.strand c k).pc + BitVec.ofNat 48 len ∧ (t.strand c k).buf = (s.strand c k).buf
  kept : Kept (s.strand c k) (t.strand c k) (srcs.filter (· = 63#6))
  others : ∀ e n, ¬(e = c ∧ n = k) → t.strand e n = s.strand e n

/-! ## Memory instructions (spec/10_isa_memory.md) -/

/-- LD of 1, 2, 4 or 8 bytes of the own local memory writes them zero-extended into RD, LD.m writes 16 bytes into a mask register (R209, R211,
R205); LD to x0 is a touch that changes no register and no byte (R210). -/
def Sys2Proof.LocalLoads : Prop :=
  ∀ (o : BitVec 9) (z : BitVec 2) (u : Bool) (a d : XReg) (m : BitVec 3) (s : State) (c : CoreId) (k : StrandId) (off : Nat),
    (CanIssue s c k [a] [d] → NoneDue s c k d → d ≠ 0#6 → OwnLocal s c k (ldAddr (s.strand c k) a o z) (2 ^ z.toNat) off →
      ∃ t, exec (.ld o z u a d) s = .next t ∧
        ResultLater s t c k [a] d 3 (BitVec.ofNat 64 (leValue s (localBase c + off) (2 ^ z.toNat))) 0#5) ∧
    (CanIssue s c k [a] [] → OwnLocal s c k (ldAddr (s.strand c k) a o z) (2 ^ z.toNat) off →
      ∃ t, exec (.ld o z u a 0#6) s = .next t ∧ Passed s t c k [a] ∧ Elsewhere s t c [k]) ∧
    (CanIssue s c k [a] [] → m ≠ 0#3 → (s.strand c k).full (.m m) = true → (∀ p ∈ (s.strand c k).pend, p.r ≠ .m m) →
      OwnLocal s c k (((s.strand c k).rx a).extractLsb' 0 48) 16 off →
      ∃ t, exec (.ldM u a m) s = .next t ∧ (t.strand c k).full (.m m) = false ∧ (t.strand c k).pc = (s.strand c k).pc + 4#48 ∧
        Elsewhere s { t with agenda := s.agenda } c [k] ∧
        (s.now + 7, Instr.producerResultWrite, ({ c := c, k := k, n := 64 + m.toNat } : StepArg)) ∈ t.agenda ∧
        ∃ v, exec .producerResultWrite { t with arg := { c := c, k := k, n := 64 + m.toNat } } = .next v ∧
          (v.strand c k).full (.m m) = true ∧ (v.strand c k).rm' m = BitVec.ofNat 128 (leValue s (localBase c + off) 16) ∧
          ∀ n, n ≠ m → (v.strand c k).rm' n = (s.strand c k).rm' n)

/-- The private scratch of a strand: the slots of its share behind its tile operands hold n bytes from an offset (R25, R208). -/
def Sys2Proof.OwnScratch (s : State) (c : CoreId) (k : StrandId) (off n : Nat) : Prop :=
  2048 * ((s.strand c k).base + (s.strand c k).ntile) ≤ off ∧
    off + n ≤ 2048 * ((s.strand c k).base + (s.strand c k).ntile + (s.strand c k).nscr)

/-- ST of 1, 2, 4 or 8 bytes and ST.m of 16 to the own local memory, in an optimistic task to its private scratch, store the low bytes of the
register there, little-endian, and no other byte; the strand goes on with its registers as they were (R209, R211, R208, R5). -/
def Sys2Proof.LocalStores : Prop :=
  ∀ (o : BitVec 9) (z : BitVec 2) (v u : Bool) (a r : XReg) (m : BitVec 3) (s : State) (c : CoreId) (k : StrandId) (off : Nat),
    (CanIssue s c k [a, r] [] → OwnLocal s c k (ldAddr (s.strand c k) a o z) (2 ^ z.toNat) off →
      ((s.strand c k).opt = true → OwnScratch s c k off (2 ^ z.toNat)) →
      ∃ t, exec (.st o z v u a r) s = .next t ∧ Passed s t c k [a, r] ∧
        Stored s t (localBase c + off) (leBytes (2 ^ z.toNat) ((s.strand c k).rx r).toNat)) ∧
    (CanIssue s c k [a] [] → (s.strand c k).full (.m m) = true → OwnLocal s c k (((s.strand c k).rx a).extractLsb' 0 48) 16 off →
      ((s.strand c k).opt = true → OwnScratch s c k off 16) →
      ∃ t, exec (.stM u a m) s = .next t ∧ Passed s t c k [a] ∧
        Stored s t (localBase c + off) (leBytes 16 ((s.strand c k).rm' m).toNat))

/-- A misaligned LD, LD.m, ST or ST.m takes the alignment fault with the address (R209, R211), and a store outside the private scratch the
irrevocable fault in an optimistic task (R208). -/
def Sys2Proof.AccessFaults : Prop :=
  ∀ (o : BitVec 9) (z : BitVec 2) (v u : Bool) (a r : XReg) (m : BitVec 3) (s : State) (c : CoreId) (k : StrandId),
    let va := ldAddr (s.strand c k) a o z
    let ma := ((s.strand c k).rx a).extractLsb' 0 48
    (CanIssue s c k [a] [r] → r ≠ 0#6 → va.toNat % 2 ^ z.toNat ≠ 0 →
      ∃ t, exec (.ld o z u a r) s = .next t ∧ TakesFault s t c k { cls := 10, addr := va.setWidth 64 } (s.strand c k).pc) ∧
    (CanIssue s c k [a, r] [] → (s.strand c k).opt = false → va.toNat % 2 ^ z.toNat ≠ 0 →
      ∃ t, exec (.st o z v u a r) s = .next t ∧ TakesFault s t c k { cls := 10, addr := va.setWidth 64 } (s.strand c k).pc) ∧
    (CanIssue s c k [a] [] → (s.strand c k).full (.m m) = true → ma.toNat % 16 ≠ 0 →
      (∃ t, exec (.ldM u a m) s = .next t ∧ TakesFault s t c k { cls := 10, addr := ma.setWidth 64 } (s.strand c k).pc) ∧
      ((s.strand c k).opt = false →
        ∃ t, exec (.stM u a m) s = .next t ∧ TakesFault s t c k { cls := 10, addr := ma.setWidth 64 } (s.strand c k).pc)) ∧
    (CanIssue s c k [a, r] [] → (s.strand c k).opt = true → s.inScratch c k va (2 ^ z.toNat) = false →
      ∃ t, exec (.st o z v u a r) s = .next t ∧ TakesFault s t c k { cls := 18 } (s.strand c k).pc)

/-- LDB sends for a block of 128 bytes into the own local memory and leaves RD empty, STB sends the block from there, HINT sends the store to
NEXTUSE of its entry of the hint table (R212, R213). -/
def Sys2Proof.BlockRequests : Prop :=
  ∀ (w u : Bool) (b a d : XReg) (s : State) (c : CoreId) (k : StrandId) (pa : BitVec 52) (leaf : Word) (lo : Nat),
    let t0 := s.strand c k
    let g := (t0.rx a).extractLsb' 0 48
    let l := (t0.rx b).extractLsb' 0 48
    let hint := (s.job t0.job).hintbase + BitVec.ofNat 48 (16 * (t0.rx a).toNat % 4096) + 8#48
    t0.opt = false → s.slotFree c k = true →
    (CanIssue s c k [a, b] [d] → OwnLocal s c k l 128 lo → ReachesHome s c k g 128 .r pa leaf →
      (s.core c).dfind (offOf pa / 128) (s.keyOf t0.job (leaf.getLsbD 5)) = none →
      ∃ t r, exec (.ldb w u b a d) s = .next t ∧ Requested s t c k r ∧ GoesOn s t c k [a, b] d ∧ r.kind = .ldb ∧ r.pa = pa ∧ r.size = 128 ∧
        r.dest = .x d ∧ r.w0 = t0.rx a ∧ r.w1 = BitVec.ofNat 64 lo) ∧
    (CanIssue s c k [a, b] [] → OwnLocal s c k l 128 lo → ReachesHome s c k g 128 .w pa leaf →
      (s.core c).dfind (offOf pa / 128) (s.keyOf t0.job (leaf.getLsbD 5)) = none →
      ∃ t r, exec (.stb w u b a) s = .next t ∧ Requested s t c k r ∧ Passed s t c k [a, b] ∧ r.kind = .stb ∧ r.pa = pa ∧
        r.line = BitVec.ofNat 1024 (leValue s (localBase c + lo) 128) ∧ r.mask = BitVec.allOnes 128) ∧
    (CanIssue s c k [a, b] [] → ReachesHome s c k hint 8 .w pa leaf →
      ∃ t r, exec (.hint w u b a) s = .next t ∧ Requested s t c k r ∧ Passed s t c k [a, b] ∧ r.kind = .hint ∧ r.va = hint ∧ r.pa = pa ∧
        r.w0 = t0.rx b)

/-- PREF asks for a line that the core does not hold, FILLN asks for it with its count; FLUSH sends the dirty bytes of a line home, and INV
does and drops the accessor's copy, while copies under other keys stay (R213, R193, R189). -/
def Sys2Proof.LineRequests : Prop :=
  ∀ (w u : Bool) (b a : XReg) (s : State) (c : CoreId) (k : StrandId) (pa : BitVec 52) (leaf : Word) (x : DLine),
    let t0 := s.strand c k
    let va := (t0.rx a).extractLsb' 0 48
    let key := s.keyOf t0.job (leaf.getLsbD 5)
    s.reach c k va 1 .r = .at' (.own pa) leaf → s.filling c k pa = false → s.slotFree c k = true →
    (CanIssue s c k [a] [] → s.hit c pa key = none →
      ∃ t r, exec (.pref u a) s = .next t ∧ Requested s t c k r ∧ Passed s t c k [a] ∧ r.kind = .pref ∧ r.pa = pa ∧ r.size = 128) ∧
    (CanIssue s c k [a, b] [] → t0.rx b ≠ 0#64 → (s.core c).dfind (offOf pa / 128) key = none →
      ∃ t r, exec (.filln w u b a) s = .next t ∧ Requested s t c k r ∧ Passed s t c k [a, b] ∧ r.kind = .filln ∧ r.pa = pa ∧
        r.w0 = BitVec.ofNat 64 (min (t0.rx b).toNat 65535)) ∧
    (CanIssue s c k [a] [] → (s.core c).dfind (offOf pa / 128) key = some x → x.dirty ≠ 0#128 →
      (∃ t r, exec (.flush u a) s = .next t ∧ (∃ q, (t.core c).reqs = q ++ [r]) ∧ Passed s t c k [a] ∧ r.kind = .flush ∧ r.line = x.data ∧
        r.mask = x.dirty ∧ ∀ y, Memory.get t.mem y = Memory.get s.mem y) ∧
      ∃ t r, exec (.inv u a) s = .next t ∧ (∃ q, (t.core c).reqs = q ++ [r]) ∧ Passed s t c k [a] ∧ r.kind = .inv ∧ r.line = x.data ∧
        r.mask = x.dirty ∧ (t.core c).dfind (offOf pa / 128) key = none ∧
        (∀ y ∈ (s.core c).dcache, ¬(y.line = offOf pa / 128 ∧ y.key = key) → y ∈ (t.core c).dcache) ∧ ∀ y, Memory.get t.mem y = Memory.get s.mem y)

/-- A row that a copy or a TRED has yet to move lies in the own local memory of a core. -/
def Sys2Proof.rowsHere (c : CoreId) (rows : List (List Piece)) : Prop :=
  ∃ ps ∈ rows, ∃ p ∈ ps, localBase c ≤ offOf p.pa ∧ offOf p.pa < localBase c + 0x100000

/-- What a FENCE waits for (R214): .acq (kinds 1 and 3) for the strand's outstanding loads, .rel (kinds 2 and 3) for its outstanding stores, its
side-log entries and the rows of its drains and TREDs; at scope .core only where they touch the core's own local memory (an LDB does), and at a
wider one for the write-backs that the core has under way too. -/
structure Sys2Proof.FenceMay (s : State) (c : CoreId) (k : StrandId) (kind scope : Nat) : Prop where
  loads : kind % 2 = 1 → ∀ r ∈ (s.core c).reqs, r.strand = k → r.isLoad = true →
    scope = 0 ∧ r.kind ≠ .ldb ∧ ¬(localBase c ≤ offOf r.pa ∧ offOf r.pa < localBase c + 0x100000)
  stores : 2 ≤ kind → ∀ r ∈ (s.core c).reqs, r.strand = k → r.isStore = true →
    scope = 0 ∧ r.kind ≠ .ldb ∧ ¬(localBase c ≤ offOf r.pa ∧ offOf r.pa < localBase c + 0x100000)
  log : 2 ≤ kind → ∀ e ∈ s.slogOf c k, scope = 0 ∧ ∀ off, windowOf c e.2.va ≠ some (c, off)
  copies : 2 ≤ kind → ∀ e ∈ (s.core c).copies, e.strand = k → e.op = .drain → scope = 0 ∧ ¬rowsHere c e.rows
  reductions : 2 ≤ kind → ∀ m ∈ (s.core c).mq ++ (s.core c).mrun.toList, m.strand = k → m.rows ≠ [] → scope = 0 ∧ ¬rowsHere c m.rows
  writeBacks : 2 ≤ kind → scope ≠ 0 → ∀ r ∈ (s.core c).reqs, r.kind.carriesDirty = false

/-- FENCE completes and changes nothing once nothing that it waits for is left, and otherwise parks its strand (R214). Where the data cache holds
dirty bytes, a release of a wider scope than .core first sends the dirty bytes of each line home, from when on the copies are clean, and parks. -/
def Sys2Proof.Fences : Prop :=
  ∀ (scope : BitVec 4) (kind : BitVec 2) (s : State) (c : CoreId) (k : StrandId), CanIssue s c k [] [] →
    (kind.toNat < 2 ∨ scope = 0#4 ∨ (∀ x ∈ (s.core c).dcache, x.dirty = 0#128) →
      (FenceMay s c k kind.toNat scope.toNat → ∃ t, exec (.fence scope kind) s = .next t ∧ Passed s t c k [] ∧ Elsewhere s t c [k]) ∧
      (¬FenceMay s c k kind.toNat scope.toNat → ∃ t, exec (.fence scope kind) s = .next t ∧
        t.strand c k = { s.strand c k with st := .parked, park := .fence kind.toNat scope.toNat } ∧ Elsewhere s t c [k])) ∧
    (2 ≤ kind.toNat → scope ≠ 0#4 → (∃ x ∈ (s.core c).dcache, x.dirty ≠ 0#128) →
      ((s.core c).dcache.map fun x => (x.line, x.key)).Nodup →
      ∃ t, exec (.fence scope kind) s = .next t ∧ (t.strand c k).st = .parked ∧ (t.strand c k).park = .fence kind.toNat scope.toNat ∧
        (t.strand c k).pc = (s.strand c k).pc ∧ (t.core c).dcache = (s.core c).dcache.map (fun x => { x with dirty := 0#128 }) ∧
        (∀ x ∈ (s.core c).dcache, x.dirty ≠ 0#128 → ∃ r ∈ (t.core c).reqs, r.kind = .writeback ∧ r.line = x.data ∧ r.mask = x.dirty ∧
          r.pa = s.devnum ++ BitVec.ofNat 46 (128 * x.line)) ∧
        (∀ y, Memory.get t.mem y = Memory.get s.mem y) ∧ ∀ d n, ¬(d = c ∧ n = k) → t.strand d n = s.strand d n)

/-- PUTREG sends its value and its target to the target's core and completes at issue; x0 and nf as a target are an illegal operand (R215). -/
def Sys2Proof.PutReg : Prop :=
  ∀ (w u : Bool) (b a : XReg) (s : State) (c : CoreId) (k : StrandId), CanIssue s c k [a, b] [] → (s.strand c k).opt = false →
    let x := (s.strand c k).rx a
    (x.extractLsb' 24 6 ≠ 0#6 ∧ x.extractLsb' 24 6 ≠ 63#6 →
      ∃ t r, exec (.putreg w u b a) s = .next t ∧ Requested s t c k r ∧ Passed s t c k [a, b] ∧ r.kind = .putreg ∧ r.w0 = (s.strand c k).rx b ∧
        r.w1 = x) ∧
    (x.extractLsb' 24 6 = 0#6 ∨ x.extractLsb' 24 6 = 63#6 →
      ∃ t, exec (.putreg w u b a) s = .next t ∧ TakesFault s t c k { cls := 11 } (s.strand c k).pc)

/-- DEFER.ST and DEFER.SIG in an optimistic task enter the action in the task's block of the ring and store nothing (R221, R345); DEFER.ST in a
conservative task stores at once. -/
def Sys2Proof.Deferred : Prop :=
  ∀ (w u : Bool) (b a : XReg) (s : State) (c : CoreId) (k : StrandId) (pa : BitVec 52) (leaf : Word) (off : Nat),
    let t0 := s.strand c k
    let va := (t0.rx a).extractLsb' 0 48
    CanIssue s c k [a, b] [] →
    (t0.opt = true → ReachesHome s c k va 8 .w pa leaf → s.ringRoom c k 2 = true →
      ∀ i sig, (i, sig) ∈ [(Instr.deferSt w u b a, false), (.deferSig w u b a, true)] →
        ∃ t, exec i s = .next t ∧ Passed s t c k [a, b] ∧ (∀ y, Memory.get t.mem y = Memory.get s.mem y) ∧
          (t.core c).rings = (s.core c).rings.map (fun x =>
            if x.strand = some k then { x with log := x.log ++ [.deferred sig (t0.rx b) va t0.pc t0.insn] } else x)) ∧
    (t0.opt = false → OwnLocal s c k va 8 off →
      ∃ t, exec (.deferSt w u b a) s = .next t ∧ Passed s t c k [a, b] ∧ Stored s t (localBase c + off) (leBytes 8 (t0.rx b).toNat))

/-- The full-empty operations leave for the home of their word (R216, R217): LDFE, LDFF and STEF park on the reply, with RD empty for the
loads; STFF and FEPURGE go on. -/
def Sys2Proof.FullEmptyRequests : Prop :=
  ∀ (w u : Bool) (b a d : XReg) (s : State) (c : CoreId) (k : StrandId) (pa : BitVec 52) (leaf : Word),
    let t0 := s.strand c k
    let va := (t0.rx a).extractLsb' 0 48
    t0.opt = false → s.slotFree c k = true →
    (CanIssue s c k [a] [d] → ReachesHome s c k va 8 .w pa leaf →
      ∃ t r, exec (.ldfe u a d) s = .next t ∧ Requested s t c k r ∧ WaitsOn s t c k d r.id 5 ∧ r.kind = .ldfe ∧ r.pa = pa ∧ r.dest = .x d) ∧
    (CanIssue s c k [a] [d] → ReachesHome s c k va 8 .r pa leaf →
      ∃ t r, exec (.ldff u a d) s = .next t ∧ Requested s t c k r ∧ WaitsOn s t c k d r.id 5 ∧ r.kind = .ldff ∧ r.pa = pa ∧ r.dest = .x d) ∧
    (CanIssue s c k [a, b] [] → ReachesHome s c k va 8 .w pa leaf →
      (∃ t r, exec (.stef w u b a) s = .next t ∧ Requested s t c k r ∧ WaitsOn s t c k 0#6 r.id 5 ∧ r.kind = .stef ∧ r.pa = pa ∧
        r.w0 = t0.rx b) ∧
      ∃ t r, exec (.stff w u b a) s = .next t ∧ Requested s t c k r ∧ Passed s t c k [a, b] ∧ r.kind = .stff ∧ r.pa = pa ∧ r.w0 = t0.rx b) ∧
    (CanIssue s c k [a] [] → ReachesHome s c k va 8 .w pa leaf →
      ∃ t r, exec (.fepurge u a) s = .next t ∧ Requested s t c k r ∧ Passed s t c k [a] ∧ r.kind = .fepurge ∧ r.pa = pa)

/-- An AMO on a word of the own local memory stores its new value there, for CAS only where the word equals x[RD], and delivers the old value to
RD, where x0 discards it (R133); an AMO on a word of a tier leaves as a request with RD empty (R219, R205). -/
def Sys2Proof.Atomics : Prop :=
  ∀ (w u : Bool) (b a d : XReg) (s : State) (c : CoreId) (k : StrandId) (pa : BitVec 52) (leaf : Word) (off : Nat),
    let t0 := s.strand c k
    let va := (t0.rx a).extractLsb' 0 48
    t0.opt = false → ∀ e ∈ amoInstrs w u b a d,
      let srcs := if e.2 = 9 then [a, b, d] else [a, b]
      (CanIssue s c k srcs [d] → NoneDue s c k d → OwnLocal s c k va 8 off →
        let old := BitVec.ofNat 64 (leValue s (localBase c + off) 8)
        let s1 := match amoValue e.2 old (t0.rx b) (t0.rx d) with | some v => s.localWrite c off (leBytes 8 v.toNat) | none => s
        (∀ v, amoValue e.2 old (t0.rx b) (t0.rx d) = some v → Stored s s1 (localBase c + off) (leBytes 8 v.toNat)) ∧
        ∃ t, exec e.1 s = .next t ∧
          if d = 0#6 then Passed s1 t c k srcs ∧ Elsewhere s1 t c [k] else ResultLater s1 t c k srcs d 3 old 0#5) ∧
      (CanIssue s c k srcs [d] → ReachesHome s c k va 8 .w pa leaf → s.slotFree c k = true →
        ∃ t r, exec e.1 s = .next t ∧ Requested s t c k r ∧ GoesOn s t c k srcs d ∧ r.kind = .amo e.2 ∧ r.pa = pa ∧ r.dest = .x d ∧
          r.w0 = t0.rx b ∧ r.w1 = t0.rx d)

/-- RED.ADD and RED.FADD on a word of the own local memory add into it, FADD by lanes, and no register changes; on a word of a tier they leave
as a request (R220). -/
def Sys2Proof.Reductions : Prop :=
  ∀ (w u : Bool) (b a : XReg) (s : State) (c : CoreId) (k : StrandId) (pa : BitVec 52) (leaf : Word) (off : Nat),
    let t0 := s.strand c k
    let va := (t0.rx a).extractLsb' 0 48
    CanIssue s c k [a, b] [] → t0.opt = false →
    ∀ e ∈ [(Instr.redAdd w u b a, 16, 0), (.redFadd w u b a, 17, 10)],
      (OwnLocal s c k va 8 off → ∀ v, amoValue e.2.2 (BitVec.ofNat 64 (leValue s (localBase c + off) 8)) (t0.rx b) 0#64 = some v →
        ∃ t, exec e.1 s = .next t ∧ Passed s t c k [a, b] ∧ Stored s t (localBase c + off) (leBytes 8 v.toNat)) ∧
      (ReachesHome s c k va 8 .w pa leaf → s.slotFree c k = true →
        ∃ t r, exec e.1 s = .next t ∧ Requested s t c k r ∧ Passed s t c k [a, b] ∧ r.kind = .red e.2.1 ∧ r.pa = pa ∧ r.w0 = t0.rx b)

/-! ## Hardware barriers, barrier objects and versions (spec/10_isa_memory.md R222 to R233) -/

/-- The hardware barrier that a number of the strand's launch names (R231, R26). -/
def Sys2Proof.barOf (s : State) (c : CoreId) (k : StrandId) (b : BitVec 8) : Bar := (s.bar c k b).2

/-- The hardware barriers of R231, for a number below NBAR. INIT sets EXP from a count of 1 to 65,535 while no arrival stands. ARR adds its
count to ARV, or, where that makes EXP, clears ARV and advances GEN, and RD receives GEN from before. WAIT goes on while GEN differs from
x[RS1] and parks while it equals it. ARW arrives with 1; where that advances GEN, RD receives the new GEN. An arrival is a release: it issues
once the strand's earlier accesses are performed (R331). -/
def Sys2Proof.Barriers : Prop :=
  ∀ (b : BitVec 8) (u : Bool) (a d : XReg) (s : State) (c : CoreId) (k : StrandId),
    let x := (s.strand c k).rx a
    let v := barOf s c k b
    b.toNat < (s.launchOf (s.strand c k)).nbar →
    (CanIssue s c k [a] [] → (s.strand c k).opt = false → 1 ≤ x.toNat → x.toNat ≤ 65535 → v.arv = 0 →
      ∃ t, exec (.barInit b u a) s = .next t ∧ barOf t c k b = { v with exp := BitVec.ofNat 16 x.toNat } ∧ Passed s t c k [a] ∧
        ∀ y, Memory.get t.mem y = Memory.get s.mem y) ∧
    (CanIssue s c k [a] [d] → (s.strand c k).opt = false → s.released c k = true → v.exp ≠ 0 → 1 ≤ x.toNat → v.arv.toNat + x.toNat ≤ v.exp.toNat →
      ∃ t, exec (.barArr b u a d) s = .next t ∧
        barOf t c k b = (if v.arv.toNat + x.toNat = v.exp.toNat then { v with arv := 0, gen := v.gen + 1 }
          else { v with arv := BitVec.ofNat 16 (v.arv.toNat + x.toNat) }) ∧
        (d ≠ 0#6 → (t.strand c (destStrand k d)).rx d = v.gen.setWidth 64) ∧ (t.strand c k).pc = (s.strand c k).pc + 4#48 ∧
        Kept (s.strand c k) (t.strand c k) (changed [a] d) ∧ ∀ y, Memory.get t.mem y = Memory.get s.mem y) ∧
    (CanIssue s c k [a] [] → v.gen.toNat ≠ x.toNat % 2 ^ 16 →
      ∃ t, exec (.barWait b u a) s = .next t ∧ Passed s t c k [a] ∧ Elsewhere s t c [k]) ∧
    (CanIssue s c k [a] [] → v.gen.toNat = x.toNat % 2 ^ 16 →
      ∃ t, exec (.barWait b u a) s = .next t ∧ (t.strand c k).st = .parked ∧ (t.strand c k).pc = (s.strand c k).pc ∧ Elsewhere s t c [k]) ∧
    (CanIssue s c k [] [d] → (s.strand c k).opt = false → s.released c k = true → v.exp ≠ 0 → v.arv.toNat + 1 = v.exp.toNat →
      ∃ t, exec (.barArw b d) s = .next t ∧ barOf t c k b = { v with arv := 0, gen := v.gen + 1 } ∧
        (d ≠ 0#6 → (t.strand c (destStrand k d)).rx d = (v.gen + 1).setWidth 64) ∧ (t.strand c k).pc = (s.strand c k).pc + 4#48 ∧
        Kept (s.strand c k) (t.strand c k) (changed [] d) ∧ ∀ y, Memory.get t.mem y = Memory.get s.mem y)

/-- An arrival beyond EXP takes the barrier-overrun fault. A number that the launch does not have, a count out of range, an arrival at a
barrier that INIT has not set and an INIT of one with arrivals take the illegal-operand fault; INIT and the arrivals take the irrevocable fault
in an optimistic task (R231, R141). -/
def Sys2Proof.BarrierFaults : Prop :=
  ∀ (b : BitVec 8) (u : Bool) (a d : XReg) (s : State) (c : CoreId) (k : StrandId),
    let x := (s.strand c k).rx a
    let v := barOf s c k b
    let faults := fun (i : Instr) (cls : Nat) => ∃ t, exec i s = .next t ∧ TakesFault s t c k { cls := cls } (s.strand c k).pc
    let no := (s.launchOf (s.strand c k)).nbar ≤ b.toNat
    (CanIssue s c k [a] [] → (s.strand c k).opt = false → no ∨ x.toNat = 0 ∨ 65535 < x.toNat ∨ v.arv ≠ 0 → faults (.barInit b u a) 11) ∧
    (CanIssue s c k [a] [] → no → faults (.barWait b u a) 11) ∧
    (CanIssue s c k [a] [d] → (s.strand c k).opt = false → s.released c k = true →
      (¬no → v.exp ≠ 0 → 1 ≤ x.toNat → x.toNat ≤ 65535 → v.exp.toNat < v.arv.toNat + x.toNat → faults (.barArr b u a d) 16) ∧
      (no ∨ v.exp = 0 ∨ x.toNat = 0 ∨ 65535 < x.toNat → faults (.barArr b u a d) 11)) ∧
    (CanIssue s c k [] [d] → (s.strand c k).opt = false → s.released c k = true →
      (¬no → v.exp ≠ 0 → v.exp.toNat < v.arv.toNat + 1 → faults (.barArw b d) 16) ∧ (no ∨ v.exp = 0 → faults (.barArw b d) 11)) ∧
    ((s.strand c k).opt = true →
      (CanIssue s c k [a] [] → faults (.barInit b u a) 18) ∧ (CanIssue s c k [a] [d] → faults (.barArr b u a d) 18) ∧
      (CanIssue s c k [] [d] → faults (.barArw b d) 18))

/-- MBAR.INIT, MBAR.ARR and MBAR.WAIT on an object of 16 aligned bytes in the local memory of a core of the same cluster leave for its bank,
and the strand parks on the reply; RD is the count for INIT and ARR, and for WAIT phase and limit, and then empty (R233). -/
def Sys2Proof.BarrierObjects : Prop :=
  ∀ (u : Bool) (a d : XReg) (s : State) (c e : CoreId) (k : StrandId) (off : Nat) (leaf : Word),
    let t0 := s.strand c k
    let va := (t0.rx a).extractLsb' 0 48
    va.toNat % 16 = 0 → s.slogOverlap c k va 16 = false → s.reach c k va 16 .w = .at' (.loc e off) leaf →
    e.toNat / 64 = c.toNat / 64 → s.slotFree c k = true →
    (∀ i kind, (i, kind) ∈ [(Instr.mbarInit u a d, ReqKind.mbarInit), (.mbarArr u a d, .mbarArr)] → CanIssue s c k [a, d] [] →
      t0.opt = false → 1 ≤ (t0.rx d).toNat → (t0.rx d).toNat ≤ 65535 →
      ∃ t r, exec i s = .next t ∧ Requested s t c k r ∧ WaitsOn s t c k 0#6 r.id 3 ∧ r.kind = kind ∧ r.w0 = t0.rx d ∧
        r.pa = s.devnum ++ BitVec.ofNat 46 (localBase e + off)) ∧
    (CanIssue s c k [a, d] [d] →
      ∃ t r, exec (.mbarWait u a d) s = .next t ∧ Requested s t c k r ∧ WaitsOn s t c k d r.id 3 ∧ r.kind = .mbarWait ∧ r.w0 = t0.rx d ∧
        r.dest = .x d ∧ r.pa = s.devnum ++ BitVec.ofNat 46 (localBase e + off) ∧
        ((t0.rx d).toNat / 2 ^ 32 ≠ 0 → (t.strand c k).waitTill = some (s.cycle + (t0.rx d).toNat / 2 ^ 32)))

/-- The faults of the barrier objects: a count out of range of INIT and ARR and an object that lies in no local memory of the cluster take the
illegal-operand fault, one that is not 16-byte aligned the alignment fault, INIT and ARR in an optimistic task the irrevocable fault
(R233, R141). -/
def Sys2Proof.BarrierObjectFaults : Prop :=
  ∀ (u : Bool) (a d : XReg) (s : State) (c : CoreId) (k : StrandId),
    let t0 := s.strand c k
    let va := (t0.rx a).extractLsb' 0 48
    let faults := fun (i : Instr) (f : Fault') => ∃ t, exec i s = .next t ∧ TakesFault s t c k f t0.pc
    let at' := fun (i : Instr) =>
      (va.toNat % 16 ≠ 0 → faults i { cls := 10, addr := va.setWidth 64 }) ∧
      (va.toNat % 16 = 0 → s.slogOverlap c k va 16 = false →
        (∀ e off leaf, s.reach c k va 16 .w = .at' (.loc e off) leaf → e.toNat / 64 ≠ c.toNat / 64 → faults i { cls := 11, addr := va.setWidth 64 }) ∧
        ∀ pa leaf, s.reach c k va 16 .w = .at' (.own pa) leaf → faults i { cls := 11, addr := va.setWidth 64 })
    (∀ i ∈ [Instr.mbarInit u a d, .mbarArr u a d], CanIssue s c k [a, d] [] →
      (t0.opt = true → faults i { cls := 18 }) ∧
      (t0.opt = false → ((t0.rx d).toNat = 0 ∨ 65535 < (t0.rx d).toNat → faults i { cls := 11 }) ∧
        (1 ≤ (t0.rx d).toNat → (t0.rx d).toNat ≤ 65535 → at' i))) ∧
    (CanIssue s c k [a, d] [d] → at' (.mbarWait u a d))

/-- A version request goes to the home of the tile name that RS1 gives, with the version of RS2, and its strand parks on the version:
VERLD.EQ and VERLD.ASOF with their slot FILLING from issue, VERREL without a slot; VERQ does not park and leaves RD empty
(R222, R225, R226, R229). An optimistic task needs two free ring entries (R346). -/
def Sys2Proof.VersionLoads : Prop :=
  ∀ (w u : Bool) (b a d : XReg) (sl : BitVec 9) (s : State) (c : CoreId) (k : StrandId) (n : Nat),
    let t0 := s.strand c k
    ((t0.rx a).extractLsb' 50 6 = s.devnum) → s.slotFree c k = true → (t0.opt = true → s.ringRoom c k 2 = true) →
    (∀ i kind, (i, kind) ∈ [(Instr.verldEq w u b a sl, ReqKind.verldEq), (.verldAsof w u b a sl, .verldAsof)] → CanIssue s c k [a, b] [] →
      (kind = .verldAsof → t0.opt = true ∨ t0.rx b < t0.vt) → s.operandSlot c k sl.toNat .fill = .inl n → n < 384 →
      (s.core c).copyFree = true →
      ∃ t r, exec i s = .next t ∧ Requested s t c k r ∧ WaitsOn s t c k 0#6 r.id 2 ∧ r.kind = kind ∧ r.w0 = t0.rx a ∧ r.w1 = t0.rx b ∧
        r.dest = .slot (BitVec.ofNat 9 n) ∧ (t.slot c n).st = 1 ∧ (t.slot c n).own = true) ∧
    (CanIssue s c k [a, b] [] →
      ∃ t r, exec (.verrel w u b a) s = .next t ∧ Requested s t c k r ∧ WaitsOn s t c k 0#6 r.id 2 ∧ r.kind = .verrel ∧ r.w0 = t0.rx a ∧
        r.w1 = t0.rx b) ∧
    (CanIssue s c k [a, b] [d] →
      ∃ t r, exec (.verq w u b a d) s = .next t ∧ Requested s t c k r ∧ GoesOn s t c k [a, b] d ∧ r.kind = .verq ∧ r.w0 = t0.rx a ∧
        r.w1 = t0.rx b ∧ r.dest = .x d)

/-- VERST drains its slot into a version named by RS1 and numbered by RS2, with the read count of the register after RS2: it is sent with the
slot's bytes, layout word and scales behind everything the strand did before, and the strand parks on it (R224, R330). A version below the
task's own VT takes the causality fault. -/
def Sys2Proof.VersionStores : Prop :=
  ∀ (kp w u : Bool) (b a : XReg) (sl : BitVec 9) (s : State) (c : CoreId) (k : StrandId) (n : Nat),
    let t0 := s.strand c k
    let cnt := t0.rx (b + 1#6)
    CanIssue s c k [a, b, b + 1#6] [] → cnt.toNat ≤ 65535 → t0.rx b ≠ BitVec.allOnes 64 →
    (t0.vt ≤ t0.rx b → s.operandSlot c k sl.toNat .drain = .inl n → n < 384 → (t0.rx a).extractLsb' 50 6 = s.devnum →
      (t0.opt = true → s.ringRoom c k 2 = true) → (s.core c).copyFree = true → s.slotFree c k = true →
      ∃ t r, exec (.verst kp w u b a sl) s = .next t ∧ Requested s t c k r ∧ WaitsOn s t c k 0#6 r.id 2 ∧ r.kind = .verst ∧
        r.w0 = t0.rx a ∧ r.w1 = t0.rx b ∧ r.w2 = cnt ∧ r.tile.bytes = s.slotBytes c n ∧ r.tile.layout = (s.slot c n).layout ∧
        r.tile.scales = (s.slot c n).scales ∧ (t.slot c n).st = 3) ∧
    (t0.rx b < t0.vt → ∃ t, exec (.verst kp w u b a sl) s = .next t ∧ TakesFault s t c k { cls := 17 } t0.pc)

/-! ## Terms of the statements about the lane unit -/

/-- Element i of a stream as memory holds it (R236, R39). -/
def Sys2Proof.elem (s : State) (c : CoreId) (p : Word) (w i : Nat) : Nat :=
  let a := laneAddr p w i
  let x := leValue s (localBase c + a.1) (max (w / 8) 1)
  if w = 4 then (if a.2 then x / 16 else x % 16) else x

/-- Bit i of a bit stream (R236). -/
def Sys2Proof.bitElem (s : State) (c : CoreId) (p : Word) (i : Nat) : Bool := (Memory.get s.mem (localBase c + bitAddr p i)).getLsbD (i % 8)

/-- Memory with a value at an address of a core's local memory: of whole bytes, or of one nibble (R39). -/
def Sys2Proof.putAt (c : CoreId) (w : Nat) (m : List Host.Cell) (a : Nat × Bool) (v : Nat) : List Host.Cell :=
  let x := localBase c + a.1
  let b := (Memory.get m x).toNat
  if w = 4 then Memory.set m x (BitVec.ofNat 8 (if a.2 then b % 16 + 16 * (v % 16) else b / 16 * 16 + v % 16)) else Memory.write m x (leBytes (w / 8) v)

/-- Memory with a bit of a bit stream. -/
def Sys2Proof.putBitAt (c : CoreId) (m : List Host.Cell) (p : Word) (i : Nat) (v : Bool) : List Host.Cell :=
  let x := localBase c + bitAddr p i
  let b := (Memory.get m x).toNat
  Memory.set m x (BitVec.ofNat 8 (if b.testBit (i % 8) = v then b else if v then b + 2 ^ (i % 8) else b - 2 ^ (i % 8)))

/-- Where the elements 0 to n − 1 of a stream lie, as offsets and sizes. -/
def Sys2Proof.lies (p : Word) (w : Nat) (is : List Nat) : List (Nat × Nat) := is.map fun i => ((laneAddr p w i).1, max (w / 8) 1)
def Sys2Proof.bitsLie (p : Word) (is : List Nat) : List (Nat × Nat) := is.map fun i => (bitAddr p i, 1)

/-- No byte lies in both. -/
def Sys2Proof.Apart (xs ys : List (Nat × Nat)) : Prop := ∀ x ∈ xs, ∀ y ∈ ys, x.1 + x.2 ≤ y.1 ∨ y.1 + y.2 ≤ x.1

/-- The alignment of a stream (R237). -/
def Sys2Proof.Aligned (r : LaneRole) (p : Word) : Prop :=
  match r with
  | .elem w | .packed w => if w = 4 then ptrLen p % 2 = 0 else ptrOff p % (w / 8) = 0 ∧ ptrStr p % (w / 8 : Nat) = 0
  | .bits => True
  | .result => ptrOff p % 4 = 0
  | .base w => ptrOff p % (w / 8) = 0
  | .hyper => ptrOff p % 32 = 0

/-- A pointer after an instruction over n elements, j of them packed (R238). -/
def Sys2Proof.moved (r : LaneRole) (p : Word) (n j : Nat) : Word :=
  (p.extractLsb' 20 44 : BitVec 44) ++ BitVec.ofNat 20 (match r with
    | .elem w => (laneAddr p w n).1 | .packed w => (laneAddr p w j).1 | .bits => ptrOff p + (n + 7) / 8 | .result => ptrOff p + 4
    | .base _ | .hyper => ptrOff p)

/-- The elements of a stream of VL, those that are still to be done from PIX on, and those of them that the mask selects (R240, R244). -/
def Sys2Proof.every (t : Strand) : List Nat := List.range t.vl.toNat
def Sys2Proof.todo (t : Strand) : List Nat := (every t).filter fun i => t.pix.toNat ≤ i
def Sys2Proof.masked (t : Strand) (m : BitVec 3) : List Nat := (todo t).filter fun i => (t.rm' m).getLsbD (i % 128)

/-- The elements of a step by the widest stream (R241), the step that an element falls into from PIX on, and the number of steps; an instruction
with nothing left to do takes one. -/
def Sys2Proof.perStep (widest : Nat) : Nat := 1024 / max widest 4
def Sys2Proof.stepOf (t : Strand) (widest i : Nat) : Nat := (i - t.pix.toNat) / perStep widest
def Sys2Proof.laneSteps (t : Strand) (widest : Nat) : Nat := max 1 ((t.vl.toNat - t.pix.toNat + perStep widest - 1) / perStep widest)

/-- What an element of one step writes overlaps nothing that an element of a later step reads. -/
def Sys2Proof.StepsApart (t : Strand) (widest : Nat) (wr rd : Nat → List (Nat × Nat)) : Prop :=
  ∀ i ∈ todo t, ∀ j ∈ todo t, stepOf t widest i < stepOf t widest j → Apart (wr i) (rd j)

/-- A lane instruction that can issue and that nothing stops: its registers, pointers and mask are full, the lane unit is free and no LDB or STB
and nothing else of the strand that touches its local memory is under way, VL is not 0, its streams are aligned, every byte that it reads or
writes is backed and of the strand's job, no engine holds it, no byte read is poisoned, an optimistic task writes within its private scratch, and
no stop is asked for (R131, R208, R237, R242, R245). -/
structure Sys2Proof.LaneFits (s : State) (c : CoreId) (k : StrandId) (xs : List XReg) (m : BitVec 3) (ps : List (BitVec 4 × LaneRole))
    (rd wr : List (Nat × Nat)) : Prop where
  can : CanIssue s c k xs []
  full : (∀ p ∈ ps, (s.strand c k).full (.a p.1) = true) ∧ (s.strand c k).full (.m m) = true
  free : (s.core c).lane = none ∧ (∀ r ∈ (s.core c).reqs, r.strand = k → r.kind ≠ .ldb ∧ r.kind ≠ .stb) ∧
    s.blockInto c k 0 0x100000 = false
  some : 0 < (s.strand c k).vl.toNat
  aligned : ∀ p ∈ ps, Aligned p.2 ((s.strand c k).ra p.1)
  bytes : ∀ x ∈ rd ++ wr, s.localCheck c (s.strand c k).job x.1 x.2 = none ∧ ∀ n ∈ slotsOf x.1 x.2, (s.slot c n).busy = false
  sound : ∀ x ∈ rd, s.poisoned (localBase c + x.1) x.2 = false
  go : ((s.strand c k).opt = true → ∀ x ∈ wr, OwnScratch s c k x.1 x.2) ∧ s.stopAsked c k = false

/-- n LANE_STEPs of a core, one after another. -/
def Sys2Proof.LaneChain (c : CoreId) : Nat → State → State → Prop
  | 0, t, u => u = t
  | n + 1, t, u => ∃ v, exec .laneStep { t with arg := { c := c } } = .next v ∧ LaneChain c n v u

/-- The issue of a lane instruction, its n LANE_STEPs and its LANE_INSTRUCTION_COMPLETE, due when the last of them has run, and what holds then. -/
def Sys2Proof.LaneRuns (n : Nat) (i : Instr) (s : State) (c : CoreId) (k : StrandId) (P : State → Prop) : Prop :=
  ∃ t u v, exec i s = .next t ∧ (t.strand c k).held = .lane ∧ (s.now + 4, Instr.laneStep, ({ c := c } : StepArg)) ∈ t.agenda ∧
    LaneChain c n t u ∧ (u.strand c k).held = .lane ∧
    (∃ n, (n, Instr.laneInstructionComplete, ({ c := c } : StepArg)) ∈ u.agenda) ∧
    exec .laneInstructionComplete { u with arg := { c := c } } = .next v ∧ P v

/-- What a completed lane instruction leaves: the memory and the flags given, the pointers it names advanced unless they are kept, each once,
PIX 0, the strand behind it and free, the lane unit free, and every other register and strand as it was (R238, R242, R244, R247). -/
structure Sys2Proof.LaneDone (s v : State) (c : CoreId) (k : StrandId) (len : Nat) (xs : List XReg) (ks kd : Bool)
    (srcs : List (BitVec 4 × LaneRole)) (d : BitVec 4 × LaneRole) (j : Nat) (mem : List Host.Cell) (fl : BitVec 5) : Prop where
  memory : v.mem = mem
  pointers : ∀ p, (v.strand c k).ra p =
    if p = d.1 ∧ kd = false then moved d.2 ((s.strand c k).ra p) (s.strand c k).vl.toNat j
    else if ks then (s.strand c k).ra p
    else match srcs.find? (fun x => x.1 = p) with
      | some x => moved x.2 ((s.strand c k).ra p) (s.strand c k).vl.toNat j
      | none => (s.strand c k).ra p
  flags : (v.strand c k).flags = (s.strand c k).flags ||| fl
  next : (v.strand c k).pc = (s.strand c k).pc + BitVec.ofNat 48 len ∧ (v.strand c k).pix = 0 ∧ (v.strand c k).held = .none
  free : (v.core c).lane = none
  fulls : ∀ r, r ∉ xs.filter (· = 63#6) → (v.strand c k).full (.x r) = (s.strand c k).full (.x r)
  same : { v.strand c k with
      a := (s.strand c k).a, flags := (s.strand c k).flags, pc := (s.strand c k).pc, pix := (s.strand c k).pix, held := (s.strand c k).held,
      last := (s.strand c k).last, issued := (s.strand c k).issued, marked := (s.strand c k).marked, walked := (s.strand c k).walked,
      wants := (s.strand c k).wants, xF := (s.strand c k).xF } = s.strand c k
  others : ∀ e n, ¬(e = c ∧ n = k) → v.strand e n = s.strand e n

/-- An elementwise lane instruction: from PIX on each selected destination element takes its value, in order, from the sources as they were
before, and its flags enter STS (R240, R241, R244, R247), in as many steps as VL asks for, in a conservative or an optimistic task, where no step
writes what a later one reads. -/
def Sys2Proof.LaneEach (i : Instr) (len : Nat) (xs : List XReg) (m : BitVec 3) (ks kd : Bool) (srcs : List (BitVec 4 × LaneRole))
    (d : BitVec 4) (w : Nat) (val : State → CoreId → Strand → Nat → Nat × BitVec 5) : Prop :=
  ∀ (s : State) (c : CoreId) (k : StrandId),
    let t := s.strand c k
    let width := fun (r : LaneRole) => match r with | .elem w => w | _ => 0
    let widest := (srcs.map fun p => width p.2).foldl max w
    let rd := fun (is : List Nat) => srcs.flatMap fun p => match p.2 with | .elem w => lies (t.ra p.1) w is | _ => bitsLie (t.ra p.1) is
    LaneFits s c k xs m (srcs ++ [(d, .elem w)]) (rd (todo t)) (lies (t.ra d) w (masked t m)) →
      StepsApart t widest (fun i => lies (t.ra d) w [i]) (fun j => rd [j]) →
      LaneRuns (laneSteps t widest) i s c k fun v =>
        LaneDone s v c k len xs ks kd srcs (d, .elem w) 0
          ((masked t m).foldl (fun mem i => putAt c w mem (laneAddr (t.ra d) w i) (val s c t i).1) s.mem)
          ((masked t m).foldl (fun f i => f ||| (val s c t i).2) 0#5)

/-- A value of an integer type wraps, one of another type is rounded into it (R249, R42, R43). -/
def Sys2Proof.intoType (ty : Nat) (t : Strand) (i : Int) (x : Ex) : Nat × BitVec 5 :=
  if tyInt ty then (intBits (fmtBits ty) i, 0#5) else encodeFmt ty t.mode t.sat x

/-- The two-source elementwise instructions with their short forms, and what they compute (R251): ty is the type, a and b the elements. -/
def Sys2Proof.laneTwo : List ((Bool → Bool → BitVec 3 → BitVec 4 → BitVec 4 → BitVec 4 → BitVec 4 → Instr) ×
    Option (BitVec 3 → BitVec 4 → BitVec 4 → Instr) × (Nat → Strand → Nat → Nat → Nat × BitVec 5)) :=
  [(.vadd, some .vaddCompact, fun ty t a b => intoType ty t (tyVal ty a + tyVal ty b) (exAdd t.mode (decodeFmt ty a) (decodeFmt ty b))),
   (.vsub, some .vsubCompact, fun ty t a b => intoType ty t (tyVal ty a - tyVal ty b) (exAdd t.mode (decodeFmt ty a) (decodeFmt ty b).negate)),
   (.vmul, some .vmulCompact, fun ty t a b => intoType ty t (tyVal ty a * tyVal ty b) (exMul (decodeFmt ty a) (decodeFmt ty b))),
   (.vdiv, none, fun ty t a b =>
      if tyInt ty && tyVal ty b == 0 then (2 ^ fmtBits ty - 1, 0#5)
      else intoType ty t ((tyVal ty a).tdiv (tyVal ty b)) (exDiv (decodeFmt ty a) (decodeFmt ty b))),
   (.vmin, some .vminCompact, fun ty _ a b => if tyInt ty then (if tyVal ty b < tyVal ty a then b else a, 0#5) else fvMinMax false ty a b),
   (.vmax, some .vmaxCompact, fun ty _ a b => if tyInt ty then (if tyVal ty a < tyVal ty b then b else a, 0#5) else fvMinMax true ty a b),
   (.vand, some .vandCompact, fun _ _ a b => (a &&& b, 0#5)), (.vor, some .vorCompact, fun _ _ a b => (a ||| b, 0#5)),
   (.vxor, some .vxorCompact, fun _ _ a b => (a ^^^ b, 0#5)),
   (.vshl, some .vshlCompact, fun ty _ a b => (a * 2 ^ (b % fmtBits ty) % 2 ^ fmtBits ty, 0#5)),
   (.vshr, some .vshrCompact, fun ty _ a b => (intBits (fmtBits ty) (tyVal ty a / 2 ^ (b % fmtBits ty)), 0#5))]

/-- The one-source elementwise instructions (R251, R252). VABS and VNEG clear or invert the sign; T8 zero and NaR stay. -/
def Sys2Proof.laneOne : List ((Bool → Bool → BitVec 3 → BitVec 4 → BitVec 4 → BitVec 4 → Instr) ×
    Option (BitVec 3 → BitVec 4 → BitVec 4 → Instr) × (Nat → Strand → Nat → Nat × BitVec 5)) :=
  [(.vabs, some .vabsCompact, fun ty _ a =>
      if tyInt ty then (intBits (fmtBits ty) (tyVal ty a).natAbs, 0#5) else if ty = 5 ∧ a % 128 = 0 then (a, 0#5) else (a % 2 ^ (fmtBits ty - 1), 0#5)),
   (.vneg, some .vnegCompact, fun ty _ a =>
      if tyInt ty then (intBits (fmtBits ty) (-tyVal ty a), 0#5) else if ty = 5 ∧ a % 128 = 0 then (a, 0#5) else (a ^^^ 2 ^ (fmtBits ty - 1), 0#5)),
   (.vmov, some .vmovCompact, fun _ _ a => (a, 0#5)),
   (.vsqrt, none, fun ty t a => encodeFmt ty t.mode t.sat (exSqrt (decodeFmt ty a))),
   (.vrcp, some .vrcpCompact, fun ty t a => encodeFmt ty t.mode t.sat (exDiv (.fin false 1 0) (decodeFmt ty a))),
   (.vrsqrt, none, fun ty t a => encodeFmt ty t.mode t.sat (exRsqrt (decodeFmt ty a))),
   (.vexp2, some .vexp2Compact, fun ty t a => encodeFmt ty t.mode t.sat (exExp2 (decodeFmt ty a))),
   (.vlog2, none, fun ty t a => encodeFmt ty t.mode t.sat (exLog2 (decodeFmt ty a))),
   (.vtanh, none, fun ty t a => encodeFmt ty t.mode t.sat (exTanh (decodeFmt ty a))),
   (.vsigm, none, fun ty t a => encodeFmt ty t.mode t.sat (exSigm (decodeFmt ty a)))]

/-- The type of a compact type code below 7 (R40). -/
def Sys2Proof.shortType (y : BitVec 3) : Nat := [8, 7, 6, 3, 2, 1, 5][y.toNat]?.getD 5

/-- An instruction that writes one 4-byte result at its destination (R258): the running value starts as the identity, or, from a PIX that is not
0, as the result element; each step takes in the selected elements of its own; `fin` makes the result of it. -/
def Sys2Proof.LaneResult (i : Instr) (len : Nat) (m : BitVec 3) (ks kd : Bool) (srcs : List (BitVec 4)) (d : BitVec 4) (w ident : Nat)
    (val : Strand → Nat → List (Nat × Nat) → Nat × BitVec 5) (fin : Strand → Nat → Nat × BitVec 5 := fun _ r => (r, 0#5)) : Prop :=
  ∀ (s : State) (c : CoreId) (k : StrandId),
    let t := s.strand c k
    let res := [(ptrOff (t.ra d), 4)]
    let rd := fun (is : List Nat) => srcs.flatMap fun p => lies (t.ra p) w is
    let els := fun (n : Nat) => ((masked t m).filter fun i => stepOf t w i = n).map fun i =>
      (elem s c (t.ra (srcs.headD 0)) w i, elem s c (t.ra (srcs.getLastD 0)) w i)
    let run := (List.range (laneSteps t w)).foldl (fun r n => let x := val t r.1 (els n); (x.1, r.2 ||| x.2))
      (if t.pix = 0 then ident else leValue s (localBase c + ptrOff (t.ra d)) 4, 0#5)
    LaneFits s c k [] m (srcs.map (fun p => (p, .elem w)) ++ [(d, .result)]) (rd (todo t) ++ if t.pix = 0 then [] else res) res →
      t.pix.toNat < t.vl.toNat → Apart res (rd (every t)) →
      LaneRuns (laneSteps t w) i s c k fun v =>
        LaneDone s v c k len [] ks kd (srcs.map fun p => (p, .elem w)) (d, .result) 0
          (Memory.write s.mem (localBase c + ptrOff (t.ra d)) (leBytes 4 (fin t run.1).1)) (run.2 ||| (fin t run.1).2)

/-- A sum of terms, exact, added to the running value and rounded once to FP32; in integer types modulo 2^32 (R51, R258). -/
def Sys2Proof.sum32 (ty : Nat) (t : Strand) (r : Nat) (is : List Int) (xs : List Ex) : Nat × BitVec 5 :=
  if tyInt ty then (intBits 32 (is.foldl (· + ·) (BitVec.ofNat 32 r).toInt), 0#5)
  else roundIeee 8 23 t.mode (sumEx t.mode (exOf (decodeFmt 8 r) :: xs))

/-- The running FP32 or INT32 value of VSCAN after n elements from PIX on (R259): a masked-out element counts as 0. -/
def Sys2Proof.scanTo (ty : Nat) (t : Strand) (m : BitVec 3) (el : Nat → Nat) (start : Nat) : Nat → Nat × BitVec 5
  | 0 => (start, 0#5)
  | n + 1 =>
    let i := t.pix.toNat + n
    let r := scanTo ty t m el start n
    let x := laneScan ty t.mode r.1 (if (t.rm' m).getLsbD (i % 128) then some (el i) else none)
    (x.1, r.2 ||| x.2)

/-! ## The lane unit (spec/11_isa_vector.md) -/

/-- VSETP, VGETP and VLEN complete in the pipeline: the pointer takes x[XR] with bits 63:52 cleared, x[XR] takes the pointer, VL takes
min(x[XR], 65,536) and x[XR] the rest (R250). With VL 0 every other lane instruction, the 16-bit forms among them, completes and does nothing
(R239). -/
def Obligations.LaneMoves : Prop :=
  ∀ (w ks kd : Bool) (x : XReg) (p e a b d : BitVec 4) (m rnd : BitVec 3) (y y' : BitVec 4) (s : State) (c : CoreId) (k : StrandId),
    let t0 := s.strand c k
    (CanIssue s c k [x] [] → t0.full (.a p) = true →
      ∃ t, exec (.vsetp w x p) s = .next t ∧ Passed s { t with cores := (t.setStrand c k { t.strand c k with a := t0.a }).cores } c k [x] ∧
        (t.strand c k).ra p = ((t0.rx x).extractLsb' 0 52).setWidth 64 ∧ ∀ q, q ≠ p → (t.strand c k).ra q = t0.ra q) ∧
    (CanIssue s c k [] [x] → t0.full (.a p) = true →
      ∃ t, exec (.vgetp x p) s = .next t ∧ Wrote s t c k [] x (t0.ra p) (t0.pc + 4#48) t0.buf) ∧
    (CanIssue s c k [x] [x] →
      ∃ t, exec (.vlen w x) s = .next t ∧ (t.strand c k).vl = BitVec.ofNat 64 (min (t0.rx x).toNat 65536) ∧
        (x ≠ 0#6 → (t.strand c (destStrand k x)).rx x = BitVec.ofNat 64 ((t0.rx x).toNat - 65536)) ∧ (t.strand c k).pc = t0.pc + 4#48 ∧
        Kept t0 { t.strand c k with vl := t0.vl } (changed [x] x) ∧ ∀ y, Memory.get t.mem y = Memory.get s.mem y) ∧
    (CanIssue s c k [] [] → (∀ q, t0.full (.a q) = true) → t0.full (.m m) = true → (s.core c).lane = none →
      (∀ r ∈ (s.core c).reqs, r.strand = k → r.kind ≠ .ldb ∧ r.kind ≠ .stb) → s.blockInto c k 0 0x100000 = false → t0.vl = 0 →
      (CanIssue s c k [x] [] → ∃ t, exec (.vbcast kd m y w x d) s = .next t ∧ Passed s t c k [x] ∧ Elsewhere s t c [k]) ∧
      (∀ z : BitVec 3, ∀ i ∈ (laneTwo.filterMap fun e => e.2.1.map fun f => f z a d) ++ (laneOne.filterMap fun e => e.2.1.map fun f => f z a d) ++
          [.vredsumCompact z a d], ∃ t, exec i s = .next t ∧ Passed s t c k [] 2 ∧ Elsewhere s t c [k]) ∧
      ∀ i ∈ laneTwo.map (fun e => e.1 ks kd m y b a d) ++ laneOne.map (fun e => e.1 ks kd m y a d) ++
          [.vdot ks kd m y b a d, .vperm ks kd m y b a d, .vgath ks kd m y b a d, .vscat ks kd m y b a d, .vcompr ks kd m y b a d,
           .vexpn ks kd m y b a d, .vredsum ks kd m y a d, .vredmax ks kd m y a d, .vredmin ks kd m y a d, .vscan ks kd m y a d,
           .vnorm ks kd m y a d, .viota kd m y d, .vfma ks kd m y e b a d, .vfms ks kd m y e b a d, .vsel ks kd m y e b a d,
           .vadam ks kd m e b a d, .vcmp ks kd m y e b a d, .vcvt ks kd m y y' rnd a d],
        ∃ t, exec i s = .next t ∧ Passed s t c k [] ∧ Elsewhere s t c [k])

/-- The two-source elementwise instructions and their 16-bit forms compute what R251 says, element by element, from PA and PB, and a 16-bit form
from its destination and PS with m0 and both pointers advanced (R115). -/
def Sys2Proof.LaneTwoSources : Prop :=
  ∀ e ∈ laneTwo, (∀ (ks kd : Bool) (m : BitVec 3) (y b a d : BitVec 4),
      LaneEach (e.1 ks kd m y b a d) 4 [] m ks kd [(a, .elem (fmtBits y.toNat)), (b, .elem (fmtBits y.toNat))] d (fmtBits y.toNat)
        (fun s c t i => e.2.2 y.toNat t (elem s c (t.ra a) (fmtBits y.toNat) i) (elem s c (t.ra b) (fmtBits y.toNat) i))) ∧
    ∀ f ∈ e.2.1, ∀ (y : BitVec 3) (b d : BitVec 4), y ≠ 7#3 →
      LaneEach (f y b d) 2 [] 0#3 false false [(d, .elem (fmtBits (shortType y))), (b, .elem (fmtBits (shortType y)))] d (fmtBits (shortType y))
        (fun s c t i => e.2.2 (shortType y) t (elem s c (t.ra d) (fmtBits (shortType y)) i) (elem s c (t.ra b) (fmtBits (shortType y)) i))

/-- The one-source elementwise instructions and their 16-bit forms compute what R251 and R252 say. -/
def Sys2Proof.LaneOneSource : Prop :=
  ∀ e ∈ laneOne, (∀ (ks kd : Bool) (m : BitVec 3) (y a d : BitVec 4),
      LaneEach (e.1 ks kd m y a d) 4 [] m ks kd [(a, .elem (fmtBits y.toNat))] d (fmtBits y.toNat)
        (fun s c t i => e.2.2 y.toNat t (elem s c (t.ra a) (fmtBits y.toNat) i))) ∧
    ∀ f ∈ e.2.1, ∀ (y : BitVec 3) (a d : BitVec 4), y ≠ 7#3 →
      LaneEach (f y a d) 2 [] 0#3 false false [(a, .elem (fmtBits (shortType y)))] d (fmtBits (shortType y))
        (fun s c t i => e.2.2 (shortType y) t (elem s c (t.ra a) (fmtBits (shortType y)) i))

/-- VFMA and VFMS, VSEL, VIOTA, VBCAST and VCVT (R251, R253, R254, R256, R250): a × b ± c with one rounding, the element of PA where the bit of
PC is set and else of PB, the element's number, the low bits of x[XR], and the conversion between types, which copies where they are equal. -/
def Sys2Proof.LaneOthers : Prop :=
  ∀ (ks kd w : Bool) (m rnd : BitVec 3) (y y' c b a d : BitVec 4) (x : XReg),
    let ty := y.toNat
    let wd := fmtBits ty
    let sty := y'.toNat
    (∀ e ∈ [((Instr.vfma ks kd m y c b a d : Instr), false), (.vfms ks kd m y c b a d, true)],
      LaneEach e.1 4 [] m ks kd [(a, .elem wd), (b, .elem wd), (c, .elem wd)] d wd (fun s cc t i =>
        let p := elem s cc (t.ra a) wd i
        let q := elem s cc (t.ra b) wd i
        let r := elem s cc (t.ra c) wd i
        intoType ty t (tyVal ty p * tyVal ty q + if e.2 then -tyVal ty r else tyVal ty r)
          (exFma t.mode (decodeFmt ty p) (decodeFmt ty q) (if e.2 then (decodeFmt ty r).negate else decodeFmt ty r)))) ∧
    LaneEach (.vsel ks kd m y c b a d) 4 [] m ks kd [(a, .elem wd), (b, .elem wd), (c, .bits)] d wd (fun s cc t i =>
      (if bitElem s cc (t.ra c) i then elem s cc (t.ra a) wd i else elem s cc (t.ra b) wd i, 0#5)) ∧
    LaneEach (.viota kd m y d) 4 [] m false kd [] d wd (fun _ _ t i => intoType ty t i { v := ofInt i }) ∧
    LaneEach (.vbcast kd m y w x d) 4 [x] m false kd [] d wd (fun _ _ t _ => ((t.rx x).toNat % 2 ^ wd, 0#5)) ∧
    LaneEach (.vcvt ks kd m y y' rnd a d) 4 [] m ks kd [(a, .elem (fmtBits sty))] d wd (fun s cc t i =>
      let v := elem s cc (t.ra a) (fmtBits sty) i
      let mode := if rnd = 0#3 then t.mode else rnd.toNat - 4
      let z := decodeFmt sty v
      if ty = sty ∧ ¬((ty = 6 ∨ ty = 7 ∨ ty = 8) ∧ z.isSig = true) then (v, 0#5)
      else encodeFmt ty mode t.sat { v := if z.isSig then .nan false else z, fl := if z.isSig then 16#5 else 0#5 })

/-- VREDSUM with its 16-bit form, VDOT, VNORM, VREDMAX and VREDMIN write their one result, rounded once a step (R258), VSCAN its sums (R259),
where the result does not overlap a source. -/
def Sys2Proof.LaneReductions : Prop :=
  ∀ (ks kd : Bool) (m : BitVec 3) (y : BitVec 4) (z : BitVec 3) (b a d : BitVec 4),
    let ty := y.toNat
    let w := fmtBits ty
    let total := fun (ty : Nat) (t : Strand) (r : Nat) (l : List (Nat × Nat)) =>
      sum32 ty t r (l.map fun e => tyVal ty e.1) (l.map fun e => exOf (decodeFmt ty e.1))
    LaneResult (.vredsum ks kd m y a d) 4 m ks kd [a] d w 0 (total ty) ∧
    (z ≠ 7#3 → LaneResult (.vredsumCompact z a d) 2 0#3 false false [a] d (fmtBits (shortType z)) 0 (total (shortType z))) ∧
    LaneResult (.vdot ks kd m y b a d) 4 m ks kd [a, b] d w 0 (fun t r l =>
      sum32 ty t r (l.map fun e => tyVal ty e.1 * tyVal ty e.2) (l.map fun e => exMul (decodeFmt ty e.1) (decodeFmt ty e.2))) ∧
    (tyInt ty = false → LaneResult (.vnorm ks kd m y a d) 4 m ks kd [a] d w 0
      (fun t r l => sum32 ty t r [] (l.map fun e => exMul (decodeFmt ty e.1) (decodeFmt ty e.1)))
      (fun t r => roundIeee 8 23 t.mode (exSqrt (decodeFmt 8 r)))) ∧
    (∀ e ∈ [((Instr.vredmax ks kd m y a d : Instr), true), (.vredmin ks kd m y a d, false)],
      LaneResult e.1 4 m ks kd [a] d w
        (if tyInt ty then intBits 32 (if ty = 9 then (if e.2 then 0 else 255) else if e.2 then -(2 ^ (w - 1) : Int) else 2 ^ (w - 1) - 1)
         else if e.2 then 0xFF800000 else 0x7F800000)
        (fun _ r l =>
          if tyInt ty then
            (intBits 32 (l.foldl (fun r x => if e.2 then max r (tyVal ty x.1) else min r (tyVal ty x.1)) (BitVec.ofNat 32 r).toInt), 0#5)
          else l.foldl (fun r x => redPick e.2 ty r x.1) (r, 0#5))) ∧
    ∀ (s : State) (c : CoreId) (k : StrandId),
      let t := s.strand c k
      let before := if t.pix = 0 then [] else lies (t.ra d) 32 [t.pix.toNat - 1]
      let at' := scanTo ty t m (elem s c (t.ra a) w) (if t.pix = 0 then 0 else elem s c (t.ra d) 32 (t.pix.toNat - 1))
      LaneFits s c k [] m [(a, .elem w), (d, .elem 32)] (lies (t.ra a) w (todo t) ++ before) (lies (t.ra d) 32 (todo t)) →
        StepsApart t 32 (fun i => lies (t.ra d) 32 [i]) (fun j => lies (t.ra a) w [j]) →
        LaneRuns (laneSteps t 32) (.vscan ks kd m y a d) s c k fun v =>
          LaneDone s v c k 4 [] ks kd [(a, .elem w)] (d, .elem 32) 0
            ((todo t).foldl (fun mem i => putAt c 32 mem (laneAddr (t.ra d) 32 i) (at' (i - t.pix.toNat + 1)).1) s.mem) (at' (todo t).length).2

/-- VCMP writes the bits of its comparison, VCOMPR and VEXPN pack and unpack by a bit stream, VGATH, VSCAT and VPERM move elements by indices
(R255, R256, R257), where no overlap leaves what they write undefined and no step writes what a later one reads. The packed position of an
element is the number of selected elements before it, those before PIX included. -/
def Sys2Proof.LaneSelections : Prop :=
  ∀ (ks kd : Bool) (m : BitVec 3) (y cc b a d : BitVec 4) (s : State) (c : CoreId) (k : StrandId),
    let ty := y.toNat
    let w := fmtBits ty
    let t := s.strand c k
    let all := every t
    let go := todo t
    let on := masked t m
    let el := fun (p : BitVec 4) => elem s c (t.ra p) w
    let picked := all.filter fun i => (t.rm' m).getLsbD (i % 128) && bitElem s c (t.ra b) i
    let sel := picked.filter fun i => t.pix.toNat ≤ i
    let pos := fun (i : Nat) => (picked.filter fun j => j < i).length
    let ix := fun (i : Nat) => elem s c (t.ra b) 32 i
    let at' := fun (p : BitVec 4) (x : Nat) => ((ptrOff (t.ra p) + x * w / 8) % 2 ^ 20, false)
    let bytes := fun (l : List (Nat × Bool)) => l.map fun x => (x.1, max (w / 8) 1)
    (let val := fun (i : Nat) =>
       if tyInt ty then
         ([decide (tyVal ty (el a i) = tyVal ty (el b i)), decide (tyVal ty (el a i) ≠ tyVal ty (el b i)), decide (tyVal ty (el a i) < tyVal ty (el b i)),
           decide (tyVal ty (el b i) ≤ tyVal ty (el a i)), decide (tyVal ty (el a i) ≤ tyVal ty (el b i)),
           decide (tyVal ty (el b i) < tyVal ty (el a i)), false, true][cc.toNat]?.getD true, 0#5)
       else (fvCond cc.toNat (decodeFmt ty (el a i)) (decodeFmt ty (el b i)),
         if (decodeFmt ty (el a i)).isSig || (decodeFmt ty (el b i)).isSig then 16#5 else 0#5)
     LaneFits s c k [] m [(a, .elem w), (b, .elem w), (d, .bits)] (lies (t.ra a) w go ++ lies (t.ra b) w go) (bitsLie (t.ra d) on) →
       StepsApart t w (fun i => bitsLie (t.ra d) [i]) (fun j => lies (t.ra a) w [j] ++ lies (t.ra b) w [j]) →
       LaneRuns (laneSteps t w) (.vcmp ks kd m y cc b a d) s c k fun v =>
         LaneDone s v c k 4 [] ks kd [(a, .elem w), (b, .elem w)] (d, .bits) 0
           (on.foldl (fun mem i => putBitAt c mem (t.ra d) i (val i).1) s.mem) (on.foldl (fun f i => f ||| (val i).2) 0#5)) ∧
    (LaneFits s c k [] m [(a, .elem w), (b, .bits), (d, .packed w)] (lies (t.ra a) w go ++ bitsLie (t.ra b) all)
        (lies (t.ra d) w (sel.map pos)) →
      StepsApart t w (fun i => lies (t.ra d) w (([i].filter (· ∈ sel)).map pos)) (fun j => lies (t.ra a) w [j] ++ bitsLie (t.ra b) [j]) →
      LaneRuns (laneSteps t w) (.vcompr ks kd m y b a d) s c k fun v =>
        LaneDone s v c k 4 [] ks kd [(a, .elem w), (b, .bits)] (d, .packed w) picked.length
          (sel.foldl (fun mem i => putAt c w mem (laneAddr (t.ra d) w (pos i)) (el a i)) s.mem) 0#5) ∧
    (LaneFits s c k [] m [(a, .packed w), (b, .bits), (d, .elem w)] (lies (t.ra a) w (sel.map pos) ++ bitsLie (t.ra b) all)
        (lies (t.ra d) w sel) →
      StepsApart t w (fun i => lies (t.ra d) w [i]) (fun j => lies (t.ra a) w (([j].filter (· ∈ sel)).map pos) ++ bitsLie (t.ra b) [j]) →
      LaneRuns (laneSteps t w) (.vexpn ks kd m y b a d) s c k fun v =>
        LaneDone s v c k 4 [] ks kd [(a, .packed w), (b, .bits)] (d, .elem w) picked.length
          (sel.foldl (fun mem i => putAt c w mem (laneAddr (t.ra d) w i) (el a (pos i))) s.mem) 0#5) ∧
    (w ≠ 4 → LaneFits s c k [] m [(a, .base w), (b, .elem 32), (d, .elem w)] (lies (t.ra b) 32 go ++ bytes (go.map fun i => at' a (ix i)))
        (lies (t.ra d) w on) → Apart (lies (t.ra d) w all) (bytes (all.map fun i => at' a (ix i))) →
      StepsApart t 32 (fun i => lies (t.ra d) w [i]) (fun j => lies (t.ra b) 32 [j]) →
      LaneRuns (laneSteps t 32) (.vgath ks kd m y b a d) s c k fun v =>
        LaneDone s v c k 4 [] ks kd [(a, .base w), (b, .elem 32)] (d, .elem w) 0
          (on.foldl (fun mem i => putAt c w mem (laneAddr (t.ra d) w i) (leValue s (localBase c + (at' a (ix i)).1) (w / 8))) s.mem) 0#5) ∧
    (w ≠ 4 → LaneFits s c k [] m [(a, .elem w), (b, .elem 32), (d, .base w)] (lies (t.ra a) w go ++ lies (t.ra b) 32 go)
        (bytes (on.map fun i => at' d (ix i))) →
      Apart (bytes ((all.filter fun i => (t.rm' m).getLsbD (i % 128)).map fun i => at' d (ix i))) (lies (t.ra a) w all ++ lies (t.ra b) 32 all) →
      LaneRuns (laneSteps t 32) (.vscat ks kd m y b a d) s c k fun v =>
        LaneDone s v c k 4 [] ks kd [(a, .elem w), (b, .elem 32)] (d, .base w) 0
          (on.foldl (fun mem i => putAt c w mem (at' d (ix i)) (el a i)) s.mem) 0#5) ∧
    (LaneFits s c k [] m [(a, .elem w), (b, .elem 32), (d, .elem w)]
        (lies (t.ra b) 32 go ++ lies (t.ra a) w ((go.filter fun i => ix i < t.vl.toNat).map ix)) (lies (t.ra d) w on) →
      Apart (lies (t.ra d) w all) (lies (t.ra a) w ((all.filter fun i => ix i < t.vl.toNat).map ix)) →
      StepsApart t 32 (fun i => lies (t.ra d) w [i]) (fun j => lies (t.ra b) 32 [j]) →
      LaneRuns (laneSteps t 32) (.vperm ks kd m y b a d) s c k fun v =>
        LaneDone s v c k 4 [] ks kd [(a, .elem w), (b, .elem 32)] (d, .elem w) 0
          (on.foldl (fun mem i => putAt c w mem (laneAddr (t.ra d) w i) (if ix i < t.vl.toNat then el a (ix i) else 0)) s.mem) 0#5)

/-- VADAM updates weight and both moments of each selected element by the operations of R260, each rounded to nearest even in FP32, with the
hyperparameters at the pointer after PC, in as many steps as VL asks for, where no step writes what a later one reads. -/
def Sys2Proof.LaneAdam : Prop :=
  ∀ (ks kd : Bool) (m : BitVec 3) (c b a d : BitVec 4) (s : State) (e : CoreId) (k : StrandId), c ≠ 15#4 →
    let t := s.strand e k
    let on := masked t m
    let h := fun (n : Nat) => decodeFmt 8 (leValue s (localBase e + ptrOff (t.ra (c + 1#4)) + 4 * n) 4)
    let el := fun (p : BitVec 4) (i : Nat) => decodeFmt 8 (elem s e (t.ra p) 32 i)
    let rd := fun (is : List Nat) => lies (t.ra a) 32 is ++ lies (t.ra b) 32 is ++ lies (t.ra c) 32 is ++ lies (t.ra d) 32 is
    let wr := fun (is : List Nat) => lies (t.ra b) 32 is ++ lies (t.ra c) 32 is ++ lies (t.ra d) 32 is
    let r := fun (x : Ex) => decodeFmt 8 (rnd32 0 x)
    let g2 := fun (i : Nat) => r (exMul (el a i) (el a i))
    let m' := fun (i : Nat) => exFma 0 (h 1) (r (exAdd 0 (el b i) (el a i).negate)) (el a i)
    let v' := fun (i : Nat) => exFma 0 (h 2) (r (exAdd 0 (el c i) (g2 i).negate)) (g2 i)
    let den := fun (i : Nat) => r (exAdd 0 (r (exSqrt (r (exMul (r (v' i)) (h 5))))) (h 3))
    let q := fun (i : Nat) => r (exDiv (r (exMul (r (m' i)) (h 4))) (den i))
    let w' := fun (i : Nat) => exFma 0 (h 0).negate (r (exFma 0 (h 6) (el d i) (q i))) (el d i)
    LaneFits s e k [] m [(a, .elem 32), (b, .elem 32), (c, .elem 32), (c + 1#4, .hyper), (d, .elem 32)]
        (rd (todo t) ++ [(ptrOff (t.ra (c + 1#4)), 32)]) (wr on) →
      StepsApart t 32 (fun i => wr [i]) (fun j => rd [j]) →
      LaneRuns (laneSteps t 32) (.vadam ks kd m c b a d) s e k fun v =>
        ∃ fl, LaneDone s v e k 4 [] ks kd [(a, .elem 32), (b, .elem 32), (c, .elem 32), (c + 1#4, .hyper)] (d, .elem 32) 0
          (on.foldl (fun mem i =>
            putAt e 32 (putAt e 32 (putAt e 32 mem (laneAddr (t.ra b) 32 i) (rnd32 0 (m' i))) (laneAddr (t.ra c) 32 i) (rnd32 0 (v' i)))
              (laneAddr (t.ra d) 32 i) (rnd32 0 (w' i))) s.mem) fl

/-- LANE_STEP, where a stop is asked for at the boundary, frees the lane unit with every pointer as at issue, PIX as it stands and no element
touched; a running reduction leaves its value in the result element (R244, R394). Otherwise a step that is not the last moves PIX on by the
elements of a step and the next step is due (R241). -/
def Sys2Proof.LaneStops : Prop :=
  ∀ (s : State) (c : CoreId) (r : LaneRun), (s.core c).lane = some r → s.arg.c = c → r.a0.length = 16 →
    (s.stopAsked c r.strand = true → r.op.reduces = false ∨ r.fresh = true →
      ∃ t, exec .laneStep s = .next t ∧ (t.core c).lane = none ∧ (t.strand c r.strand).held = .none ∧ t.mem = s.mem ∧
        (∀ p, some ((t.strand c r.strand).ra p) = r.a0[p.toNat]?) ∧ (t.strand c r.strand).pix = (s.strand c r.strand).pix ∧
        (t.strand c r.strand).pc = (s.strand c r.strand).pc) ∧
    (s.stopAsked c r.strand = false → r.op.reduces = false → r.op.kind ≠ .scan →
      let e := 1024 / ((r.op.srcs ++ [(r.op.d, r.op.dst)]).map fun x => match x.2 with | .elem w | .packed w | .base w => w | _ => 0).foldl max 4
      let pix := (s.strand c r.strand).pix.toNat
      let idx := (List.range e).map (pix + ·)
      pix + e < r.vl → r.vl ≤ 65536 → s.laneCheck c r.strand (r.near pix idx).1 (r.near pix idx).2 = none →
      s.laneFar c (if r.fresh then s.laneBegin c r pix else r) idx = ([], []) →
      ∃ t n, exec .laneStep s = .next t ∧ (t.strand c r.strand).pix.toNat = pix + e ∧ (n, Instr.laneStep, ({ c := c } : StepArg)) ∈ t.agenda ∧
        (∃ r', (t.core c).lane = some r' ∧ r'.a0 = r.a0 ∧ r'.fresh = false) ∧ (t.strand c r.strand).held = (s.strand c r.strand).held)

/-! ## Terms of the statements about tiles, copies and the matrix unit -/

/-- The parts of row r of a copy by its control word (R286): STRIDE is its bits 31:0. -/
def Sys2Proof.rowParts (va : BitVec 48) (w : Word) (r : Nat) : List (BitVec 48 × Nat) := cutLines (rowVa va (w.extractLsb' 0 32) r) 64 65

/-- A part in a local-memory window as the copy engine names it: by its physical address. -/
def Sys2Proof.localPart (s : State) (c : CoreId) (x : BitVec 48 × Nat) : Piece :=
  match windowOf c x.1 with
  | some (e, off) => { pa := s.devnum ++ BitVec.ofNat 46 (localBase e + off), n := x.2, va := x.1 }
  | none => {}

/-- The n rows of a copy lie in local memory that the job may reach, and address and stride are multiples of the element size of LFMT
(R170, R171, R286). -/
structure Sys2Proof.LocalRows (s : State) (c : CoreId) (k : StrandId) (va : BitVec 48) (w : Word) (n : Nat) : Prop where
  start : (windowOf c va).isSome = true
  parts : ∀ r < n, ∀ x ∈ rowParts va w r, ∃ e off, windowOf c x.1 = some (e, off) ∧ s.localCheck e (s.strand c k).job off x.2 = none
  aligned : va.toNat % alignSize (w.extractLsb' 36 4).toNat = 0 ∧ (w.extractLsb' 0 32).toNat % alignSize (w.extractLsb' 36 4).toNat = 0

/-- A copy of n slots has issued: its entry stands last in the copy engine with the rows given, its first row is due two core cycles later, the
strand is behind it with PIX 0, and memory is as it was (R269, R286, R289). -/
structure Sys2Proof.CopyIssued (s t : State) (c : CoreId) (k : StrandId) (srcs : List XReg) (va : BitVec 48) (w : Word) (slots : List Nat)
    (e : Copy) : Prop where
  entry : (t.core c).copies = (s.core c).copies ++ [e]
  what : e.slots = slots ∧ e.row = 0 ∧ e.job = (s.strand c k).job ∧ e.strand = k
  rows : e.rows = (List.range (32 * slots.length)).map fun r => (rowParts va w r).map (localPart s c)
  due : (s.now + 4, Instr.copyRowTransfer, ({ c := c, n := e.id } : StepArg)) ∈ t.agenda
  passed : Passed (s.updStrand c k fun x => { x with pix := 0 }) t c k srcs
  memory : t.mem = s.mem

/-- The command that a matrix instruction of a strand enters. -/
def Sys2Proof.cmdOf (s : State) (c : CoreId) (k : StrandId) (op : MOp) (acc : BitVec 2) : MCmd :=
  { op := op, acc := acc, job := (s.strand c k).job, strand := k, prog := (s.strand c k).prog, sat := (s.strand c k).sat }

/-- A matrix instruction has entered its command at the tail of the queue, whose start is due, and the strand is behind it (R271). -/
structure Sys2Proof.Entered (s t : State) (c : CoreId) (m : MCmd) : Prop where
  queue : (t.core c).mq = (s.core c).mq ++ [m]
  due : (s.now, Instr.matrixCommandStart, ({ c := c } : StepArg)) ∈ t.agenda
  memory : t.mem = s.mem

/-- A command marks its accumulator empty and holds its operand slots (R263, R271). -/
def Sys2Proof.Holds (s t : State) (c : CoreId) (acc : BitVec 2) (ns : List Nat) : Prop :=
  ((t.core c).accAt acc).full = false ∧ ((t.core c).accAt acc).el = ((s.core c).accAt acc).el ∧
  ∀ n, t.slot c n = { s.slot c n with rdc := (s.slot c n).rdc + if n ∈ ns then 1 else 0 }

/-- The layouts of A and B that a TMUL with the program word P takes (R53, R281): under a program INT32 or FP32 without scales, else T4 to FP32,
FP32 without scales; both the same; a transposed A in 2-byte formats only. -/
def Sys2Proof.PairOk (prog : Word) (la lb : BitVec 16) : Prop :=
  loFmt la = loFmt lb ∧ (if prog ≠ 0 then loFmt la = 3 ∨ loFmt la = 8 else 4 ≤ loFmt la ∧ loFmt la ≤ 8) ∧
  (prog ≠ 0 ∨ loFmt la = 8 → loBlk la = 0 ∧ loBlk lb = 0) ∧ (loX la = true → loFmt la = 2 ∨ loFmt la = 6 ∨ loFmt la = 7)

/-- K of a pair by format (R295). -/
def Sys2Proof.kOf (fmt : Nat) : Nat := 512 / fmtBits fmt

/-- The element of B that multiplies a[i][k] for column j (R295): b[k][j] is M(k, j) where the matrix has K rows, else M(j, k). -/
def Sys2Proof.bAt (B : Tile) (k j : Nat) : Nat × Nat :=
  if (if loX B.layout then tileCols (loFmt B.layout) else 32) = kOf (loFmt B.layout) then (k, j) else (j, k)

/-- c[i][j] after a pair without a program: the old value plus the exact products of the blocks present, rounded once to FP32 (R50, R51). -/
def Sys2Proof.pairSum (A B : Tile) (present : Nat → Bool) (c i j : Nat) : Nat :=
  (roundIeee 8 23 0 (sumEx 0 (exOf (decodeFmt 8 c) ::
    ((List.range (kOf (loFmt A.layout))).filter fun k => present (k / 8)).map fun k =>
      let a := A.mat i k
      let b := B.mat (bAt B k j).1 (bAt B k j).2
      { exMul a.v b.v with fl := (exMul a.v b.v).fl ||| a.fl ||| b.fl }))).1

/-- c[i][j] after a pair under a program: the program on s, a[i][k] and b[k][j] for k from 0 to 15 in turn (R52, R275). -/
def Sys2Proof.pairUnder (prog : Word) (A B : Tile) (c i j : Nat) : Nat :=
  (List.range 16).foldl (fun s k => (progStep prog (loFmt A.layout == 3) s (A.raw i k) (B.raw (bAt B k j).1 (bAt B k j).2)).1) c

/-- Element n of an accumulator as a command of a job takes it: +0 under another tag (R283). -/
def Sys2Proof.accElem (a : Acc) (j : JobId) (n : Nat) : Nat := if a.tag = j.toNat then (Tab.get 0#32 a.el n).toNat else 0

/-! ## Tile slots and copies (spec/12_tiles.md, spec/13_isa_tile.md) -/

/-- TZERO, TSTAT, TOWN and TFREE complete in the pipeline (R294): a legal layout word makes the slot READY with 2,048 zero bytes and any other is
an illegal operand; TSTAT writes the slot's entry as R262 lays it out, the layout's reserved bits 0 (R266, R8); TOWN changes nothing; TFREE leaves the slot EMPTY and its bytes. -/
def Sys2Proof.TileSlots : Prop :=
  ∀ (u : Bool) (a d : XReg) (ts : BitVec 9) (s : State) (c : CoreId) (k : StrandId) (n : Nat),
    let l := (s.strand c k).rx a
    let lo := l.extractLsb' 0 16
    let legal := l.toNat < 2 ^ 16 ∧ l.toNat % 64 = 0 ∧ loFmt lo < 10 ∧ loBlk lo = 0 ∧
      (if loZ lo = true ∨ loX lo = true then geomOf (loFmt lo) = some (lo.extractLsb' 6 2) else lo.extractLsb' 6 2 = 0#2) ∧
      (loX lo = true → loFmt lo ≠ 0 ∧ loFmt lo ≠ 4)
    let x := s.slot c n
    (CanIssue s c k [a] [] → legal → s.operandSlot c k ts.toNat .fill = .inl n →
      ∃ t, exec (.tzero u a ts) s = .next t ∧ Passed s t c k [a] ∧ t.mem = Memory.write s.mem (localBase c + 2048 * n) (List.replicate 2048 0#8) ∧
        t.slot c n = { x with layout := lo, scales := [], poison := false, own := false, st := 2 } ∧ ∀ m, m ≠ n → t.slot c m = s.slot c m) ∧
    (CanIssue s c k [a] [] → ¬legal → ∃ t, exec (.tzero u a ts) s = .next t ∧ TakesFault s t c k { cls := 11 } (s.strand c k).pc) ∧
    (CanIssue s c k [] [d] → s.operandSlot c k ts.toNat .inspect = .inl n → x.st < 4 → x.use < 4 → x.jobtag < 32 → x.rdc < 8 →
      x.scales.length < 256 →
      ∃ t, exec (.tstat d ts) s = .next t ∧
        Wrote s t c k [] d (BitVec.ofNat 64 (x.st + (if x.own then 4 else 0) + (if x.poison then 8 else 0) + x.use * 2 ^ 26 +
          x.strand.toNat * 2 ^ 28 + x.jobtag * 2 ^ 32 + x.rdc * 2 ^ 37 + x.scales.length * 2 ^ 40 + x.layout.toNat / 64 * 2 ^ 54))
          ((s.strand c k).pc + 4#48) (s.strand c k).buf) ∧
    (CanIssue s c k [] [] → s.operandSlot c k ts.toNat .release = .inl n →
      ∃ t, exec (.town ts) s = .next t ∧ Passed s t c k [] ∧ Elsewhere s t c [k]) ∧
    (CanIssue s c k [] [] → s.operandSlot c k ts.toNat .release true = .inl n →
      ∃ t, exec (.tfree ts) s = .next t ∧ Passed s t c k [] ∧ t.mem = s.mem ∧
        t.slot c n = { x with st := 0, poison := false, layout := 0#16, scales := [] } ∧ ∀ m, m ≠ n → t.slot c m = s.slot c m)

/-- TLOAD, CPY, CPY2 and CPYW into slots, with an operand in local memory, hold the copy engine with their rows and leave their slots FILLING and
engine-owned (R288, R289, R292); with a follow-on, the commands take their entries of the matrix queue and their accumulator is empty
(R293). A transposing TLOAD holds its strand (R290). TSTORE, CPY and CPY2 to memory leave their slots DRAINING (R291, R292). -/
def Sys2Proof.TileCopies : Prop :=
  ∀ (z w u kp : Bool) (b a : XReg) (ts : BitVec 9) (s : State) (c : CoreId) (k : StrandId) (slots fs : List Nat) (n : Nat),
    let t0 := s.strand c k
    let va := (t0.rx a).extractLsb' 0 48
    let cw := t0.rx b
    let fmt := (cw.extractLsb' 36 4).toNat
    CanIssue s c k [a, b] [] → t0.opt = false → (s.core c).copyFree = true →
    (∀ e ∈ [((Instr.tload z false w u b a ts : Instr), CopyIns.tload z false), (.cpy w u b a ts, .cpy), (.cpy2 w u b a ts, .cpy2),
        (.cpyw w u b a ts, .cpyw)],
      let m := if e.2 = .cpy2 then 2 else 1
      let zz := if e.2 = .tload z false then z else cw.getLsbD 40
      e.2.legal cw ts.toNat (s.launchOf t0).ntile = true → ((e.2 = .cpy ∨ e.2 = .cpy2) → cw.getLsbD 42 = false) →
      fillLegal fmt 0 (cw.extractLsb' 34 2) zz false va (cw.extractLsb' 0 32) = true → LocalRows s c k va cw (32 * m) →
      (∀ r < 32 * m, s.slogOverlap c k (rowVa va (cw.extractLsb' 0 32) r) 64 = false) →
      s.operandSlots c k .fill ((List.range m).map (ts.toNat + ·)) = .inl slots →
      (cw.getLsbD 55 = false →
        ∃ t x, exec e.1 s = .next t ∧ CopyIssued s t c k [a, b] va cw slots x ∧ x.op = .fill ∧ x.layout = mkLayout fmt 0 zz false (cw.extractLsb' 34 2) ∧
          x.fol = [] ∧ x.weight = (e.2 == .cpyw) ∧ ∀ i ∈ slots, (t.slot c i).st = 1 ∧ (t.slot c i).own = true ∧ (t.slot c i).poison = false) ∧
      (cw.getLsbD 55 = true → e.2 ≠ .tload z false → ((s.core c).accAt (cw.extractLsb' 52 2)).full = true → m ≤ (s.core c).mfree →
        s.operandSlots c k .read ((List.range m).map ((cw.extractLsb' 43 9).toNat + ·)) = .inl fs →
        (∀ f ∈ fs, if cw.getLsbD 54 then PairOk t0.prog (s.slot c f).layout (mkLayout fmt 0 zz false (cw.extractLsb' 34 2))
                   else PairOk t0.prog (mkLayout fmt 0 zz false (cw.extractLsb' 34 2)) (s.slot c f).layout) →
        ∃ t x, exec e.1 s = .next t ∧ CopyIssued s t c k [a, b] va cw slots x ∧ x.op = .fill ∧
          x.fol.map (·.op) = (slots.zip fs).map (fun p => if cw.getLsbD 54 then .tmul p.2 p.1 else .tmul p.1 p.2) ∧
          (∀ y ∈ x.fol, y.acc = cw.extractLsb' 52 2 ∧ y.prog = t0.prog) ∧ ((t.core c).accAt (cw.extractLsb' 52 2)).full = false ∧
          (t.core c).mres = (s.core c).mres + m)) ∧
    (cw.getLsbD 55 = false → (CopyIns.tload z true).legal cw ts.toNat (s.launchOf t0).ntile = true →
      fillLegal fmt 0 (cw.extractLsb' 34 2) z true va (cw.extractLsb' 0 32) = true → LocalRows s c k va cw 32 →
      (∀ r < 32, s.slogOverlap c k (rowVa va (cw.extractLsb' 0 32) r) 64 = false) → t0.pix = 0 →
      s.operandSlot c k ts.toNat .fill = .inl n →
      ∃ t x, exec (.tload z true w u b a ts) s = .next t ∧ (t.core c).copies = (s.core c).copies ++ [x] ∧ x.slots = [n] ∧ x.row = 0 ∧ x.xp = true ∧
        x.va = va ∧ x.stride = cw.extractLsb' 0 32 ∧ x.layout = mkLayout fmt 0 z true (cw.extractLsb' 34 2) ∧ (t.strand c k).held = .transpose ∧
        (t.strand c k).pc = t0.pc ∧ (t.slot c n).st = 1 ∧ (t.slot c n).own = true ∧ t.mem = s.mem ∧
        (s.now + 4, Instr.transposeRowRead, ({ c := c, k := k, n := x.id, w0 := cw } : StepArg)) ∈ t.agenda) ∧
    (∀ e ∈ [((Instr.tstore kp w u b a ts : Instr), CopyIns.tstore kp, kp), (.cpy w u b a ts, .cpy, cw.getLsbD 41),
        (.cpy2 w u b a ts, .cpy2, cw.getLsbD 41)],
      let m := if e.2.1 = .cpy2 then 2 else 1
      e.2.1.legal cw ts.toNat (s.launchOf t0).ntile = true → ((e.2.1 = .cpy ∨ e.2.1 = .cpy2) → cw.getLsbD 42 = true) →
      LocalRows s c k va cw (32 * m) → s.operandSlots c k .drain ((List.range m).map (ts.toNat + ·)) = .inl slots →
      ∃ t x, exec e.1 s = .next t ∧ CopyIssued s t c k [a, b] va cw slots x ∧ x.op = .drain ∧ x.keep = e.2.2 ∧
        ∀ i ∈ slots, (t.slot c i).st = 3 ∧ (t.slot c i).own = true)

/-- COPY_ROW_TRANSFER moves one row: into its slot, at byte 64r, the bytes of its part in the own local memory; out of its slot, to its place there;
and the next row, or the end, is due (R287, R291). A part elsewhere that the core holds no non-coherent copy of leaves as a request of the
engine, and memory is as it was (R287). TRANSPOSE_ROW_READ places each element of a source row at its transposed place,
moves PIX on, and after the last row the strand goes on (R268, R290). -/
def Sys2Proof.CopyRows : Prop :=
  ∀ (s : State) (c : CoreId) (k : StrandId) (x : Copy) (p : Piece) (n r i : Nat) (w : Word),
    s.arg.c = c → s.arg.n = x.id → (s.core c).copyAt x.id = some x →
    let idle := fun (a m : Nat) => ∀ j ∈ slotsOf (localOff a) m, (s.slot (localCore a) j).busy = false
    let goesOn := fun (t : State) => ∃ y, (t.core c).copyAt x.id = some y ∧ y.row = x.row + 1 ∧ y.rows = x.rows
    (x.row = 32 * i + r → r < 32 → x.slots[i]? = some n → n < 384 → x.rows[x.row]? = some [p] → p.n = 64 → devOf p.pa = s.devnum →
      isLocal (offOf p.pa) = true → localCore (offOf p.pa) = c → s.pieceHeld c x.strand x.id p = false → localOff (offOf p.pa) % 64 = 0 →
      idle (offOf p.pa) 64 →
      (x.op = .fill → x.undef = false → x.xp = false → loZ x.layout = false →
        ∃ t, exec .copyRowTransfer s = .next t ∧ Stored s t (localBase c + 2048 * n + 64 * r) (Memory.read s.mem (offOf p.pa) 64) ∧
          goesOn t ∧
          (if x.row + 1 < x.rows.length then (s.now + 2, Instr.copyRowTransfer, ({ c := c, n := x.id } : StepArg)) ∈ t.agenda
           else (s.core c).rowsOut x.id = false → (s.now, Instr.fillLanding, ({ c := c, n := x.id } : StepArg)) ∈ t.agenda)) ∧
      (x.op = .drain →
        ∃ t, exec .copyRowTransfer s = .next t ∧ Stored s t (offOf p.pa) (Memory.read s.mem (localBase c + 2048 * n + 64 * r) 64) ∧
          goesOn t ∧
          (if x.row + 1 < x.rows.length then (s.now + 2, Instr.copyRowTransfer, ({ c := c, n := x.id } : StepArg)) ∈ t.agenda
           else (s.now, Instr.drainComplete, ({ c := c, n := x.id } : StepArg)) ∈ t.agenda))) ∧
    (x.rows[x.row]? = some [p] → s.direct c x.job p = false → x.xp = false → x.op = .fill ∨ x.op = .drain →
      ∃ t q l, exec .copyRowTransfer s = .next t ∧ t.mem = s.mem ∧ (t.core c).reqs = l ++ [q] ∧ q.pa = p.pa ∧ q.size = p.n ∧
        (∀ r ∈ (s.core c).reqs, ∃ z ∈ l, { z with w0 := if r.kind = .filln then r.w0 else z.w0 } = r) ∧
        q.w0 = BitVec.ofNat 64 x.id ∧ q.slot = x.req.slot ∧ q.kind = (if x.op = .fill then .rowRead else .rowWrite) ∧ goesOn t) ∧
    (s.arg.k = k → s.arg.w0 = w → x.slots = [n] → n < 384 →
      (s.stopAsked c k = true →
        ∃ t, exec .transposeRowRead s = .next t ∧ (t.core c).copyAt x.id = none ∧ (t.strand c k).held = .none ∧
          (t.strand c k).pix = BitVec.ofNat 64 x.row ∧ (t.strand c k).pc = (s.strand c k).pc ∧ t.slot c n = s.slot c n ∧ t.mem = s.mem) ∧
      (s.stopAsked c k = false → x.op = .fill → x.xp = true → x.strand = k → (s.core c).rowsOut x.id = false →
        x.row < 32 → LocalRows s c k x.va w 32 → x.stride = w.extractLsb' 0 32 →
        loFmt x.layout = (w.extractLsb' 36 4).toNat → loBlk x.layout = 0 → loFmt x.layout ∈ [0, 1, 2, 3, 5, 6, 7, 8, 9] →
        rowParts x.va w x.row = [(rowVa x.va x.stride x.row, 64)] →
        (∀ off, windowOf c (rowVa x.va x.stride x.row) = some (c, off) → s.pieceHeld c k x.id (localPart s c (rowVa x.va x.stride x.row, 64)) = false →
          (∀ j ∈ slotsOf off 64, (s.slot c j).busy = false) → (off + 64 ≤ 2048 * n ∨ 2048 * n + 2048 ≤ off) →
          ∃ t, exec .transposeRowRead s = .next t ∧
            (∀ j < tileCols (loFmt x.layout),
              let at' := if fmtBits (loFmt x.layout) = 32 then (16 * (x.row / 16) + j, x.row % 16)
                else if fmtBits (loFmt x.layout) = 8 then (j % 32, 32 * (j / 32) + x.row) else (j, x.row)
              tileElem (loFmt x.layout) (loZ x.layout) (t.slotBytes c n) at'.1 at'.2 =
                tileElem (loFmt x.layout) false (Memory.read s.mem (localBase c + off) 64) 0 j) ∧
            (∀ y, y < localBase c + 2048 * n ∨ localBase c + 2048 * n + 2048 ≤ y → Memory.get t.mem y = Memory.get s.mem y) ∧
            (if x.row < 31 then (t.strand c k).pix = BitVec.ofNat 64 (x.row + 1) ∧ (t.strand c k).pc = (s.strand c k).pc
             else (t.strand c k).pix = 0 ∧ (t.strand c k).pc = (s.strand c k).pc + 4#48 ∧ (t.strand c k).held = .none))))

/-- FILL_LANDING makes the slots of a copy READY and strand-owned in one action, with layout and scales, poisoned where a row or a scale was
bad, and enters its follow-on commands in the queue; a poisoned landing runs none and fills the accumulator with NaN (R263, R270, R287,
R293). DRAIN_COMPLETE makes them EMPTY, or READY where they are kept (R263, R291). -/
def Sys2Proof.CopyEnds : Prop :=
  ∀ (s : State) (c : CoreId) (x : Copy), s.arg.c = c → s.arg.n = x.id → (s.core c).copyAt x.id = some x → (x.slots : List Nat).Nodup →
    (let bad := fun (i n : Nat) => (x.poison : List Bool)[i]?.getD false || (s.slot c n).poison
     (x.fol = [] → ∃ t, exec .fillLanding s = .next t ∧ t.mem = s.mem ∧ (t.core c).copyAt x.id = none ∧
       (∀ (i n : Nat), x.slots[i]? = some n →
         t.slot c n = { s.slot c n with st := 2, own := false, layout := x.layout, scales := x.scales[i]?.getD [], poison := bad i n }) ∧
       ∀ m, m ∉ x.slots → t.slot c m = s.slot c m) ∧
     (x.fol ≠ [] → (∀ (i n : Nat), x.slots[i]? = some n → bad i n = false) → x.fol.length ≤ (s.core c).mres →
       ∃ t, exec .fillLanding s = .next t ∧ (t.core c).mq = (s.core c).mq ++ x.fol ∧ (t.core c).mres = (s.core c).mres - x.fol.length ∧
         ∀ (i n : Nat), x.slots[i]? = some n → (t.slot c n).st = 2 ∧ (t.slot c n).own = false ∧ (t.slot c n).rdc = (s.slot c n).rdc + 1) ∧
     (∀ m l, x.fol = m :: l → (∃ (i n : Nat), x.slots[i]? = some n ∧ bad i n = true) →
       ∃ t, exec .fillLanding s = .next t ∧ (t.core c).mq = (s.core c).mq ∧ (t.core c).mres = (s.core c).mres - x.fol.length ∧
         (∀ n, (t.slot c n).rdc = (s.slot c n).rdc - (x.folReads : List Nat).count n) ∧ ((t.core c).accAt m.acc).full = true ∧ ∀ e < 1024, Tab.get 0#32 ((t.core c).accAt m.acc).el e = 0x7FC00000#32)) ∧
    (∃ t, exec .drainComplete s = .next t ∧ t.mem = s.mem ∧ (t.core c).copyAt x.id = none ∧
        (∀ n ∈ x.slots, t.slot c n = { s.slot c n with st := if x.keep then 2 else 0, own := false }) ∧
        ∀ m, m ∉ x.slots → t.slot c m = s.slot c m)

/-! ## The matrix unit (spec/12_tiles.md R271 to R276, spec/13_isa_tile.md R295 to R302) -/

/-- TMUL, TMULS, TACC, TWB and TRED enter their command at issue (R296, R298, R300, R301, R302), with the accumulator empty and the operands held,
TWB with its slot FILLING; TPROG sets the program word, and a word against the rules is an illegal operand (R299); TMULK holds its strand
and its first step is due (R276, R297). -/
def Sys2Proof.MatrixIssue : Prop :=
  ∀ (w u h : Bool) (x b' a' : XReg) (b a : BitVec 9) (cd : BitVec 2) (p : BitVec 4) (y : BitVec 4) (rnd : BitVec 3) (s : State) (c : CoreId)
      (k : StrandId) (na nb : Nat),
    let t0 := s.strand c k
    (CanIssue s c k [] [] → ((s.core c).accAt cd).full = true → 0 < (s.core c).mfree →
      (s.operandSlots c k .read [a.toNat, b.toNat] = .inl [na, nb] → PairOk t0.prog (s.slot c na).layout (s.slot c nb).layout →
        ∃ t, exec (.tmul cd b a) s = .next t ∧ Passed s t c k [] ∧ Entered s t c (cmdOf s c k (.tmul na nb) cd) ∧ Holds s t c cd [na, nb]) ∧
      (∀ ps used, s.operandSlots c k .read [a.toNat, b.toNat] = .inl [na, nb] → t0.full (.a p) = true →
        (loFmt (s.slot c na).layout = 5 ∨ loFmt (s.slot c na).layout = 6 ∨ loFmt (s.slot c na).layout = 7) →
        PairOk 0#64 (s.slot c na).layout (s.slot c nb).layout →
        s.skipList c t0.job (ptrOff (t0.ra p)) (kOf (loFmt (s.slot c na).layout) / 8) 0 0 9 [] = .inl (ps, used) →
        ∃ t, exec (.tmuls p cd b a) s = .next t ∧ Entered s t c { cmdOf s c k (.tmuls na nb ps) cd with prog := 0#64 } ∧ Holds s t c cd [na, nb] ∧
          ptrOff ((t.strand c k).ra p) = (ptrOff (t0.ra p) + used) % 2 ^ 20 ∧ (∀ q, q ≠ p → (t.strand c k).ra q = t0.ra q) ∧
          Passed (s.updStrand c k fun r => { r with a := (t.strand c k).a }) t c k []) ∧
      (s.operandSlot c k a.toNat .read = .inl na →
        ∃ t, exec (.tacc cd a) s = .next t ∧ Passed s t c k [] ∧ Entered s t c (cmdOf s c k (.tacc na) cd) ∧ Holds s t c cd [na]) ∧
      (s.operandSlot c k a.toNat .fill = .inl na →
        ∃ t kp, exec (.twb y h cd rnd a) s = .next t ∧ Passed s t c k [] ∧
          Entered s t c (cmdOf s c k (.twb na y h (if rnd = 0#3 then t0.mode else rnd.toNat - 4) kp) cd) ∧
          (kp = true ↔ fmtBits y.toNat = 8 ∧ (s.slot c na).st = 2 ∧ (s.slot c na).poison = false ∧ loFmt (s.slot c na).layout = y.toNat ∧
            loZ (s.slot c na).layout = false ∧ loX (s.slot c na).layout = false ∧ loBlk (s.slot c na).layout = 0 ∧
            (s.slot c na).layout.extractLsb' 0 6 = 0#6) ∧
          (t.slot c na).st = 1 ∧ (t.slot c na).own = true ∧ (t.core c).accAt cd = (s.core c).accAt cd)) ∧
    (CanIssue s c k [x] [] → (progLegal (t0.rx x) = true →
        ∃ t, exec (.tprog u x) s = .next t ∧ (t.strand c k).prog = t0.rx x ∧
          Passed (s.updStrand c k fun r => { r with prog := t0.rx x }) t c k [x] ∧ t.mem = s.mem) ∧
      (progLegal (t0.rx x) = false → ∃ t, exec (.tprog u x) s = .next t ∧ TakesFault s t c k { cls := 11 } t0.pc)) ∧
    (CanIssue s c k [a', b'] [] → t0.opt = false → ((s.core c).accAt cd).full = true → 0 < (s.core c).mfree →
      let va := (t0.rx a').extractLsb' 0 48
      let cw := t0.rx b'
      let fmt := (cw.extractLsb' 36 4).toNat
      let size := 32 * (fmtBits fmt / 8)
      (CopyIns.tred).legal cw 0 0 = true → fmt ∈ [3, 6, 7, 8] →
      ((((s.core c).accAt cd).int = true ∧ ((s.core c).accAt cd).tag = t0.job.toNat) ↔ fmt = 3) →
      va.toNat % size = 0 → (cw.extractLsb' 0 32).toNat % size = 0 →
      (∀ i < 32, ∃ e off, windowOf c (rowVa va (cw.extractLsb' 0 32) i) = some (e, off) ∧ s.localCheck e t0.job off size = none) →
      ∃ t m, exec (.tred w u b' a' cd) s = .next t ∧ Passed (s.updStrand c k fun r => { r with pix := 0 }) t c k [a', b'] ∧ Entered s t c m ∧
        m.op = .tred va ((List.range 32).map fun i => [localPart s c (rowVa va (cw.extractLsb' 0 32) i, size)]) fmt ∧ m.acc = cd ∧ m.job = t0.job ∧
        (t.core c).accAt cd = (s.core c).accAt cd) ∧
    (CanIssue s c k [] [] → ((s.core c).accAt cd).full = true → t0.vl.toNat ≤ 384 →
      (t0.vl = 0 → ∃ t, exec (.tmulk cd b a) s = .next t ∧ Passed s t c k [] ∧ Elsewhere s t c [k]) ∧
      (t0.vl ≠ 0 → t0.pix = 0 → a.toNat + t0.vl.toNat ≤ (s.launchOf t0).ntile → b.toNat + t0.vl.toNat ≤ (s.launchOf t0).ntile →
        (∀ i < t0.vl.toNat, (s.tileSlot c k (a.toNat + i)).isSome = true ∧ (s.tileSlot c k (b.toNat + i)).isSome = true) →
        s.operandSlots c k .read [a.toNat, b.toNat] = .inl [na, nb] → PairOk t0.prog (s.slot c na).layout (s.slot c nb).layout →
        ∃ t, exec (.tmulk cd b a) s = .next t ∧ (t.strand c k).held = .tmulk ∧ (t.strand c k).pc = t0.pc ∧
          (t.strand c k).mulk = some { a := a.toNat, b := b.toNat, n := t0.vl.toNat, acc := cd, busy := false } ∧
          ((t.core c).accAt cd).full = false ∧ (s.now + 2, Instr.tmulkStep, ({ c := c, k := k } : StepArg)) ∈ t.agenda ∧ t.mem = s.mem))

/-- MATRIX_COMMAND_START takes the head of the queue when the unit is idle; the command ends after the cycles of R271 and R300 to R302, with what is left
of 16 for a B operand that the weight buffer lacks. TMULK_STEP enters the pair that PIX names once it is READY, and after the last one the
strand goes on with PIX 0 and the accumulator full (R276, R297). -/
def Sys2Proof.MatrixQueue : Prop :=
  ∀ (s : State) (c : CoreId) (k : StrandId) (m : MCmd) (rest : List MCmd) (x : MulK) (na nb : Nat), s.arg.c = c →
    ((s.core c).mrun = none → (s.core c).mq = m :: rest →
      let fmt := fun (n : Nat) => loFmt (s.slot c n).layout
      let miss := fun (b : Nat) => if (s.core c).wb.any (fun e => e.slot == b) then 0
        else 16 - (match (s.core c).bload with | some t => s.cycle - t | none => 0)
      let cycles := match m.op with
        | .tmul a b => (if m.prog ≠ 0 then 512 else if fmt a = 8 then 128 else 64) + miss b
        | .tmuls a b ps => (if ps = [] then 4 else ps.length * (64 / (kOf (fmt a) / 8))) + miss b
        | .tacc _ => 16 | .twb .. => 16 | .tred .. => 32
      ∃ t, exec .matrixCommandStart s = .next t ∧ (t.core c).mrun = some m ∧ (t.core c).mq = rest ∧
        (s.now + 2 * cycles, Instr.matrixCommandComplete, ({ c := c } : StepArg)) ∈ t.agenda ∧ t.mem = s.mem) ∧
    (s.arg.k = k → (s.strand c k).mulk = some x →
      (s.arg.ok = true → x.n ≤ (s.strand c k).pix.toNat + 1 → (s.strand c k).pix.toNat < 2 ^ 32 →
        ∃ t, exec .tmulkStep s = .next t ∧ (t.strand c k).held = .none ∧ (t.strand c k).mulk = none ∧ (t.strand c k).pix = 0 ∧
          (t.strand c k).pc = (s.strand c k).pc + 4#48 ∧ ((t.core c).accAt x.acc).full = true ∧ t.mem = s.mem) ∧
      (s.arg.ok = false → x.busy = false → (s.strand c k).pix.toNat < x.n → s.stopAsked c k = false → 0 < (s.core c).mfree →
        s.operandSlots c k .read [x.a + (s.strand c k).pix.toNat, x.b + (s.strand c k).pix.toNat] = .inl [na, nb] →
        PairOk (s.strand c k).prog (s.slot c na).layout (s.slot c nb).layout →
        ∃ t, exec .tmulkStep s = .next t ∧ Entered s t c { cmdOf s c k (.tmul na nb) x.acc with step := true } ∧
          (t.strand c k).mulk = some { x with busy := true } ∧ (t.strand c k).pc = (s.strand c k).pc ∧ (t.strand c k).pix = (s.strand c k).pix) ∧
      (s.arg.ok = false → x.busy = false → (s.strand c k).pix.toNat < x.n → s.stopAsked c k = true →
        ∃ t, exec .tmulkStep s = .next t ∧ (t.strand c k).held = .none ∧ (t.strand c k).mulk = none ∧ (t.strand c k).pix = (s.strand c k).pix ∧
          (t.strand c k).pc = (s.strand c k).pc ∧ ((t.core c).accAt x.acc).full = true))

/-- MATRIX_COMMAND_COMPLETE leaves the unit idle and the next command due. TMUL and TMULS leave in every c[i][j] the sum of R50 over the blocks
present, or what the program gives (R296, R298, R52), TACC the tile (R300), with the accumulator full, tagged with the job, its type set and the
holds released; B is rebuilt from the weight buffer where that holds it (R273). A poisoned operand, or an unreadable word of an element that the command reads,
leaves NaN in every element and POISON set (R272); so does an accumulator that holds an error, without POISON (R386), and TWB and TRED find NaN
in every element of it (log 18, DEDUCED). TWB writes the converted elements and makes its slot READY (R301); TRED adds the
accumulator's rows to own local memory in order (R302). Every command leaves its accumulator with the job's tag (R283). In a core cycle in which
the core's barrel has yet to issue, a command completes after that (R46). -/
def Obligations.MatrixResults : Prop :=
  ∀ (s : State) (c : CoreId) (m : MCmd), s.arg.c = c → (s.core c).mrun = some m → m.step = false → m.more = false →
    (∀ e ∈ s.agenda, e.1 ≤ s.now → e.2.1 = .barrelCycle → e.2.2.c ≠ c) →
    let old := (s.core c).accAt m.acc
    let sound := old.tag = m.job.toNat → old.bad = []
    let claimed := if old.tag = m.job.toNat then old else { old with el := [], int := false, tag := m.job.toNat, bad := [] }
    let found := if claimed.bad = [] then claimed else nanAcc m.job
    let unread := fun (n i j : Nat) => (let l := (s.slot c n).layout
      let e := matElem l i j
      s.poisoned (localBase c + 2048 * n + elemPos (loFmt l) (loZ l) e.1 e.2 / 8) 1 = true ∧ s.slotBad c n = true)
    let inTile := fun (n i j : Nat) => (let l := (s.slot c n).layout
      i < 32 ∧ j < 32 ∧ i < (if loX l then tileCols (loFmt l) else 32) ∧ j < (if loX l then 32 else tileCols (loFmt l)))
    let idle := fun (t : State) => (t.core c).mrun = none ∧ (s.now, Instr.matrixCommandStart, ({ c := c } : StepArg)) ∈ t.agenda
    let wrote := fun (t : State) (int : Bool) (v : Nat → Nat → Nat) =>
      idle t ∧ t.mem = s.mem ∧ ((t.core c).accAt m.acc).full = true ∧ ((t.core c).accAt m.acc).int = int ∧ ((t.core c).accAt m.acc).tag = m.job.toNat ∧
        ∀ i < 32, ∀ j < 32, Tab.get 0#32 ((t.core c).accAt m.acc).el (32 * i + j) = BitVec.ofNat 32 (v i j)
    (∀ a b, m.op = .tmul a b → (s.tileOf c a).poison = false → (s.tileOf c b).poison = false → sound →
      let A := s.tileOf c a
      let B := s.bTile c b
      ∃ t, exec .matrixCommandComplete s = .next t ∧
        wrote t (m.prog != 0#64 && loFmt A.layout == 3) (fun i j =>
          if m.prog = 0#64 then pairSum A B (fun k => decide (k < 16)) (accElem old m.job (32 * i + j)) i j
          else pairUnder m.prog A B (accElem old m.job (32 * i + j)) i j) ∧
        ∀ n, (t.slot c n).rdc = (s.slot c n).rdc - if n = a ∨ n = b then 1 else 0) ∧
    (∀ a b, m.op = .tmul a b → (s.tileOf c a).poison = false → (s.tileOf c b).poison = false → ¬sound →
      ∃ t, exec .matrixCommandComplete s = .next t ∧ wrote t false (fun _ _ => 0x7FC00000) ∧
        ∀ n, t.slot c n = { s.slot c n with rdc := (s.slot c n).rdc - if n = a ∨ n = b then 1 else 0 }) ∧
    (∀ a b ps, m.op = .tmuls a b ps → ps ≠ [] → (s.tileOf c a).poison = false → (s.tileOf c b).poison = false → sound →
      ∃ t, exec .matrixCommandComplete s = .next t ∧
        wrote t false (fun i j => pairSum (s.tileOf c a) (s.bTile c b) (fun k => ps.contains k) (accElem old m.job (32 * i + j)) i j)) ∧
    (∀ a, m.op = .tacc a → (s.slot c a).poison = false → (∀ i j, inTile a i j → ¬unread a i j) →
      let A := s.tileOf c a
      let f := loFmt A.layout
      let int := f == 0 || tyInt f
      let rows := if loX A.layout then tileCols f else 32
      let cols := if loX A.layout then 32 else tileCols f
      ∃ t, exec .matrixCommandComplete s = .next t ∧ wrote t int (fun i j =>
        if i < rows ∧ j < cols then
          (if int then intBits 32 (if f = 0 then (A.raw i j : Nat) else tyVal f (A.raw i j)) else (roundIeee 8 23 0 (A.mat i j)).1)
        else 0)) ∧
    (∀ a b, m.op = .tmul a b → ((s.slot c a).poison = true ∨ (s.slot c b).poison = true ∨
        ∃ i k, i < 32 ∧ k < kOf (loFmt (s.slot c a).layout) ∧ unread a i k) →
      ∃ t, exec .matrixCommandComplete s = .next t ∧ idle t ∧ t.mem = s.mem ∧ ((t.core c).accAt m.acc).full = true ∧
        ((t.core c).accAt m.acc).tag = m.job.toNat ∧ (∀ n < 1024, Tab.get 0#32 ((t.core c).accAt m.acc).el n = 0x7FC00000#32) ∧
        ((s.slot c b).poison = false → (t.slot c a).poison = true) ∧ ∀ n, (n = a ∨ n = b) → (s.slot c n).poison = true → (t.slot c n).poison = true) ∧
    (∀ a, m.op = .tacc a → ((s.slot c a).poison = true ∨ ∃ i j, inTile a i j ∧ unread a i j) →
      ∃ t, exec .matrixCommandComplete s = .next t ∧ idle t ∧ t.mem = s.mem ∧ ((t.core c).accAt m.acc).full = true ∧
        (∀ n < 1024, Tab.get 0#32 ((t.core c).accAt m.acc).el n = 0x7FC00000#32) ∧ (t.slot c a).poison = true) ∧
    (∀ n ty h mode kp, m.op = .twb n ty h mode kp → ty.toNat ∈ [1, 2, 3, 5, 6, 7, 8, 9] → n < 384 →
      let f := ty.toNat
      let hn := if h then 1 else 0
      ∃ t, exec .matrixCommandComplete s = .next t ∧ idle t ∧
        t.slot c n = { s.slot c n with st := 2, own := false, layout := ty ++ 0#12, scales := [], poison := false } ∧
        (∀ r < 32, ∀ q < tileCols f, tileElem f false (t.slotBytes c n) r q =
          if fmtBits f = 8 ∧ q / 32 ≠ hn then (if kp then tileElem f false (s.slotBytes c n) r q else 0)
          else
            let v := accElem found m.job (32 * r + if fmtBits f = 32 then 16 * hn + q else if fmtBits f = 8 then q % 32 else q)
            (encodeFmt f mode m.sat (exOf (if found.int then ofInt (val32 v) else decodeFmt 8 v))).1 % 2 ^ fmtBits f) ∧
        (t.core c).accAt m.acc = found ∧
        ∀ y, y < localBase c + 2048 * n ∨ localBase c + 2048 * n + 2048 ≤ y → Memory.get t.mem y = Memory.get s.mem y) ∧
    (∀ (va : BitVec 48) (ps : List Piece) (fmt : Nat), m.op = .tred va (ps.map fun p => [p]) fmt → fmt ∈ [3, 6, 7, 8] → ps.length ≤ 32 → s.poisons = [] → s.tredHeld c m = false →
      (∀ p ∈ ps, p.n = 32 * (fmtBits fmt / 8) ∧ devOf p.pa = s.devnum ∧ isLocal (offOf p.pa) = true ∧ localCore (offOf p.pa) = c ∧
        localOff (offOf p.pa) % p.n = 0 ∧ ∀ j ∈ slotsOf (localOff (offOf p.pa)) p.n, (s.slot (localCore (offOf p.pa)) j).busy = false) →
      let w := fmtBits fmt / 8
      let add := fun (o v : Nat) => if fmt = 3 then intBits 32 (val32 o + val32 v)
        else (encodeFmt fmt 0 true (exAdd 0 (decodeFmt fmt o) (if found.int then ofInt (val32 v) else decodeFmt 8 v))).1
      ∃ t, exec .matrixCommandComplete s = .next t ∧ idle t ∧ (t.core c).accAt m.acc = found ∧
        t.mem = ps.zipIdx.foldl (fun mem x => (List.range 32).foldl (fun mem e =>
          let a := offOf x.1.pa + e * w
          let o := ((List.range w).map fun b => (Memory.get mem (a + b)).toNat * 256 ^ b).sum
          Memory.write mem a (leBytes w (add o (accElem found m.job (32 * x.2 + e))))) mem) s.mem)

/-! ## Video decoding (spec/13_isa_tile.md R303, R304) -/

/-- DECODE with its descriptor in the own local memory enters the request at its die's queue and counts as a task of its launch; DECODE_REQUEST_START
gives the next request to the lowest-numbered idle decoder of the die; FRAME_DECODED finds the code of the next frame from the bitstream (what
AV1 makes of it is free, log 9), then creates its versions, COMMITTED or POISONED with its code, and counts the frame, and a corrupt one, once
all are created; at the end of the stream, of the frames asked for, or when cancelled, DECODE_COMPLETE is due, which signals the completion
word, unless SIGW is 0, and ends the request with its counter; a signal that faults counts in its launch (R278, R279, R303, R304). What is left
of a stream and cannot be read counts as one corrupt frame where AV1 makes no frame of it (log 9, DEDUCED). -/
def Obligations.Decoding : Prop :=
  ∀ (u : Bool) (a : XReg) (s : State) (c : CoreId) (k : StrandId) (off d n : Nat) (r : DecReq),
    let t0 := s.strand c k
    let va := (t0.rx a).extractLsb' 0 48
    let w := fun (i : Nat) => leValue s (localBase c + off + 8 * i) 8
    let die := c.toNat / 64 % 8 / 4 + 2 * (c.toNat / 2048)
    (CanIssue s c k [a] [] → t0.opt = false → OwnLocal s c k va 64 off → s.sameLine c k (s.devnum ++ BitVec.ofNat 46 (localBase c + off)) = [] →
      w 2 % 2 ^ 42 = 0 → w 4 < 2 ^ 48 → w 6 = 0 → w 7 = 0 → t0.vt.toNat ≤ w 3 →
      w 2 / 2 ^ 50 % 64 = s.devnum.toNat → w 5 % 8 = 0 → (Tab.get [] s.decQueues die).length < 16 →
      ∃ t q, exec (.decode u a) s = .next t ∧ Passed s t c k [a] ∧ Tab.get [] t.decQueues die = Tab.get [] s.decQueues die ++ [q] ∧
        q.bs.toNat = w 0 ∧ q.len.toNat = w 1 ∧ q.tname.toNat = w 2 ∧ q.base.toNat = w 3 ∧ q.nframes = w 4 / 2 ^ 16 ∧ q.rcount = w 4 % 2 ^ 16 ∧
        q.sigw.toNat = w 5 ∧ q.job = t0.job ∧ q.lslot = t0.lslot ∧ (t.launch t0.job t0.lslot).count = (s.launch t0.job t0.lslot).count + 1 ∧
        (s.now, Instr.decodeRequestStart, ({ n := die } : StepArg)) ∈ t.agenda ∧ t.mem = s.mem) ∧
    (s.arg.n = d → 8 * d ≤ n → n < 8 * d + 8 → (s.decoder n).run = none → (∀ i, 8 * d ≤ i → i < n → (s.decoder i).run ≠ none) →
      (∀ q, Tab.get [] s.decQueues d = r :: q → r.paused = false →
        ∃ t, exec .decodeRequestStart s = .next t ∧ (t.decoder n).run = some r ∧ Tab.get [] t.decQueues d = q ∧ t.mem = s.mem)) ∧
    (s.arg.n = n → (s.decoder n).run = some r →
      (r.cancelled = true → ∃ t, exec .frameDecoded s = .next t ∧ { t with agenda := s.agenda } = s ∧
        (s.now, Instr.decodeComplete, ({ n := n, w0 := 3#64 } : StepArg)) ∈ t.agenda) ∧
      (r.cancelled = false → r.paused = false → (s.decoder n).work = none →
        (r.nframes ≠ 0 ∧ r.nframes ≤ r.frames → ∃ t, exec .frameDecoded s = .next t ∧ { t with agenda := s.agenda } = s ∧
          (s.now, Instr.decodeComplete, ({ n := n, w0 := 1#64 } : StepArg)) ∈ t.agenda) ∧
        ((r.nframes = 0 ∨ r.frames < r.nframes) → r.base.toNat + r.frames ≠ 2 ^ 64 - 1 → (s.job r.job).stopped = false →
          ((s.job r.job).leaf (.decoder (BitVec.ofNat 5 n))).stopped = false →
          let bits := s.bitstream r
          let done := bits.length ≤ (s.decoder n).pos ∨ Config.av1Frame (bits.map (·.1)) r.frames = none
          (done → (∀ b ∈ bits.drop (s.decoder n).pos, b.2 = 0) →
            ∃ t, exec .frameDecoded s = .next t ∧ { t with agenda := s.agenda } = s ∧
              (s.now, Instr.decodeComplete, ({ n := n, w0 := 0#64 } : StepArg)) ∈ t.agenda) ∧
          (∀ b, done → (bits.drop (s.decoder n).pos).find? (fun b => b.2 ≠ 0) = some b →
            ∃ t q, exec .frameDecoded s = .next t ∧ t.mem = s.mem ∧ (t.decoder n).run = some q ∧ q.frames = r.frames + 1 ∧
              q.corrupt = min 65535 (r.corrupt + 1) ∧ q.firsterr = (if r.firsterr = 0 then b.2 else r.firsterr) ∧
              (s.now, Instr.decodeComplete, ({ n := n, w0 := 0#64 } : StepArg)) ∈ t.agenda) ∧
          (∀ f, (s.decoder n).pos < bits.length → Config.av1Frame (bits.map (·.1)) r.frames = some f →
            ∃ t, exec .frameDecoded s = .next t ∧ t.mem = s.mem ∧ (t.decoder n).run = some r ∧ (t.decoder n).pos = f.upto ∧
              (t.decoder n).work = some { err := (s.decoder n).frameErr bits f, deep := f.deep, todo := frameTiles f } ∧
              ((s.decoder n).frameErr bits f = 0 → (t.decoder n).tainted = (s.decoder n).tainted &&& ~~~f.refresh) ∧
              ((s.decoder n).frameErr bits f ≠ 0 → (t.decoder n).tainted &&& f.refresh = f.refresh) ∧
              (s.now, Instr.frameDecoded, ({ n := n } : StepArg)) ∈ t.agenda))) ∧
      (∀ y, r.cancelled = false → r.paused = false → (s.decoder n).work = some y → y.waits = [] →
        (y.todo = [] → ∃ t, exec .frameDecoded s = .next t ∧ t.mem = s.mem ∧ (t.decoder n).work = none ∧
          ∃ q, (t.decoder n).run = some q ∧ q.frames = r.frames + 1 ∧ q.job = r.job ∧ q.base = r.base ∧ q.confl = min 255 r.confl ∧
            q.corrupt = (if y.err = 0 then r.corrupt else min 65535 (r.corrupt + 1)) ∧
            q.firsterr = (if r.firsterr = 0 then y.err else r.firsterr)) ∧
        (∀ x at', y.todo = [x] → r.tname.extractLsb' 50 6 = s.devnum →
          let nm := frameName r.tname x.plane x.tr x.tc
          let cl := verHome r.job nm
          let tile := s.frameTile ((s.bitstream r).map (·.1)) r.frames y x
          (s.cluster cl).vwait = [] → (∀ v ∈ (s.cluster cl).vers, v.name ≠ nm) → (s.cluster cl).vers.length < 262144 →
          s.storage cl r.job nm tile = some at' →
          ∃ t v, exec .frameDecoded s = .next t ∧ t.mem = s.mem ∧ (t.cluster cl).version r.job nm (r.base + BitVec.ofNat 64 r.frames) = some v ∧
            v.st = (if y.err = 0 then .committed else .poisoned) ∧ v.tile = tile ∧ v.err = BitVec.ofNat 16 y.err ∧ v.r = r.rcount ∧
            v.unlimited = (r.rcount == 0) ∧ v.near = at'.isSome))) ∧
    (s.arg.n = n → (s.decoder n).run = some r → r.sigw = 0#64 → 2 ≤ (s.launch r.job r.lslot).count →
      ∃ t, exec .decodeComplete s = .next t ∧ (t.decoder n).run = none ∧ t.mem = s.mem ∧
        (t.launch r.job r.lslot).count = (s.launch r.job r.lslot).count - 1) ∧
    (∀ e off, s.arg.n = n → (s.decoder n).run = some r → r.sigw ≠ 0#64 → 2 ≤ (s.launch r.job r.lslot).count →
      windowOf 0 (r.sigw.extractLsb' 0 48) = some (e, off) →
      let x := s.launch r.job r.lslot
      let status := if r.cancelled then 3#4 else s.arg.w0.extractLsb' 0 4
      let word := (status ++ BitVec.ofNat 4 r.firsterr ++ BitVec.ofNat 8 r.confl ++ BitVec.ofNat 16 r.corrupt ++ BitVec.ofNat 32 r.frames).toNat
      (r.sigw.toNat % 8 = 0 → s.localCheck e r.job off 8 = none → s.memBad (localBase e + off) 8 = false → s.waitersOf (localBase e + off) = [] →
        ∃ t, exec .decodeComplete s = .next t ∧ (t.decoder n).run = none ∧ Stored s t (localBase e + off) (leBytes 8 word) ∧
          t.full (localBase e + off) = true ∧ (t.launch r.job r.lslot).count = x.count - 1 ∧ (t.launch r.job r.lslot).c = x.c) ∧
      (∀ cls, r.sigw.toNat % 8 = 0 → s.localCheck e r.job off 8 = some cls →
        ∃ t, exec .decodeComplete s = .next t ∧ (t.decoder n).run = none ∧ t.mem = s.mem ∧
          (t.launch r.job r.lslot).count = x.count - 1 ∧ (t.launch r.job r.lslot).c = x.c.fault cls 0))

/-! ## The board (spec/03_bringup.md R57 to R67; spec/20_faults.md R386, R387, R389, R390) -/

/-- The lines that the slices hold dirty under a key, with what memory holds of them (R199, R201). -/
def Sys2Proof.dirtyOf (s : State) : List (Nat × Line) := s.dirtyLines fun k => decide (k < 16)

/-- What a cold reset leaves (R58): everything at its reset value but for its cause, the save key, drawn afresh, the bytes that memory keeps and
the machine-check records; a power-on keeps neither of these but for the memory of the host. Of a line that a slice held dirty under a key,
memory keeps what was last written back to it (R201). That poison marks, frame tables and the plaintext of dirty lines stand over a reset that is
no power-on is the model's reading (log 1, DEDUCED); nothing stays due, of agents outside the module neither (log 1, DESIGN CHOICE). -/
structure Sys2Proof.ColdReset (s t : State) (cause : Nat) : Prop where
  clear : { t with mem := [], poisons := [], empties := [], frames := [], mcrec := [], mcWritten := 0, mcHeadIdx := 0, rstcause := 0,
                   resets := 0, saveKey := State.reset.saveKey, fresh := 0, nextId := 1 } = State.reset
  named : t.rstcause = cause
  key : t.resets = s.resets + 1 ∧ t.saveKey = Config.saveKey t.resets
  host : ∀ a, isHost a = true → (∀ e ∈ dirtyOf s, e.1 ≠ a / 128) → Memory.get t.mem a = Memory.get s.mem a
  power : cause = 0 → (∀ a, a < 2 ^ 64 → isHost a = false → Memory.get t.mem a = Memory.blank) ∧ t.poisons = [] ∧ t.empties = [] ∧
    t.frames = [] ∧ t.mcrec = [] ∧ t.mcWritten = 0 ∧ t.mcHeadIdx = 0
  warm : cause ≠ 0 → (∀ a, isLocal a = true → Memory.get t.mem a = Memory.blank) ∧
    (∀ a, isLocal a = false → (∀ e ∈ dirtyOf s, e.1 ≠ a / 128) → Memory.get t.mem a = Memory.get s.mem a) ∧
    (∀ a l, isTier a = true → (a / 128, l) ∈ dirtyOf s → ((dirtyOf s).map (·.1)).Nodup → Memory.get t.mem a = l.extractLsb' (8 * (a % 128)) 8) ∧
    t.frames = s.frames ∧
    (∀ w, w ∈ t.poisons ↔ w ∈ s.poisons ∧ isLocal (8 * w) = false) ∧ (∀ w, w ∈ t.empties ↔ w ∈ s.empties ∧ isLocal (8 * w) = false) ∧ t.mcrec = s.mcrec ∧ t.mcWritten = s.mcWritten ∧ t.mcHeadIdx = s.mcHeadIdx

/-- A machine-check record (R389): its fields at the head of the ring, the head advanced, RSVC set, the MSI-X vector sent where it is enabled,
and nothing else changed. -/
structure Sys2Proof.Recorded (s t : State) (kind sev job isl cl unit : Nat) (pa : Word) : Prop where
  entry : ∃ r, Tab.find t.mcrec s.mcHeadIdx.toNat = some r ∧ r.w0.extractLsb' 56 8 = BitVec.ofNat 8 kind ∧
    r.w0.extractLsb' 54 2 = BitVec.ofNat 2 sev ∧ r.w0.extractLsb' 49 5 = BitVec.ofNat 5 job ∧ r.w0.extractLsb' 44 5 = BitVec.ofNat 5 isl ∧
    r.w0.extractLsb' 38 6 = BitVec.ofNat 6 cl ∧ r.w0.extractLsb' 32 6 = BitVec.ofNat 6 unit ∧ r.w0.extractLsb' 0 32 = 0#32 ∧
    r.w1 = s.tstamp ∧ r.w2 = pa
  head : t.mcHeadIdx = s.mcHeadIdx + 1 ∧ t.mcWritten = s.mcWritten + 1
  rsvc : t.mcstat = s.mcstat ||| 1
  vector : t.msix = s.msix ++ (if s.mcctl.getLsbD 7 = true ∧ s.mcctl.toNat % 128 < 64 then [s.mcctl.extractLsb' 0 7] else [])
  rest : { t with mcrec := s.mcrec, mcHeadIdx := s.mcHeadIdx, mcWritten := s.mcWritten, mcstat := s.mcstat, msix := s.msix } = s

/-- An island halted: its state, its bit of MCSTAT (R389, R390), and, where it is a compute island, its cores: what their lane units, copy engines
and matrix units have under way ends where it stands (the model's choice, log 14). -/
def Sys2Proof.haltIsland (s : State) (k : Nat) : State :=
  { s.updIsland k fun v => { v with halted := true } with
    mcstat := s.mcstat ||| (1#64 <<< (8 + k)),
    cores := if k < 16 then s.cores.map fun e => (e.1, if islandOf (clusterOf (BitVec.ofNat 12 e.1)) = k then e.2.halt else e.2) else s.cores }

/-- A power-on, a host reset and a watchdog expiry are cold resets with RSTCAUSE 0, 1 and 3; a thermal halt of an island that is not a compute
island leaves a record of kind 2 and SEV 3 and is one with RSTCAUSE 2 (R58, R390). What is kept over a reset that is no power-on beside the memory
and the records that R58 names rests on log 1 (DEDUCED). -/
def Sys2Proof.ColdResets : Prop :=
  ∀ s : State,
    (∀ i cause, (i, cause) ∈ [(Instr.powerOn, 0), (.hostReset, 1), (.watchdogExpiry, 3)] → ∃ t, exec i s = .next t ∧ ColdReset s t cause) ∧
    (∀ k, s.arg.n = k → 16 ≤ k → k < 24 → (s.island k).halted = false →
      ∃ t u, exec .thermalHalt s = .next t ∧ Recorded (haltIsland s k) u 2 3 16 k 0 0 0 ∧ ColdReset u t 2)

/-- A thermal halt of a compute island, a UCIe or Jenay failure, the failure of a trained stack and a supervisor that takes no packet leave their
records (R389, R390), and the jobs concerned are cancelled as `State.cancelJobs` does it: those with a launch on the island, all, those whose
messages crossed the port, those with a frozen strand in the cluster. The port leaves the route table; the stack is no longer mappable, its die
is marked degraded, and no TLB translates to it. That TRAINED is cleared for a stack that fails, and that kinds 6 and 8 alone mark a die degraded,
is the model's reading (log 20, DEDUCED). -/
def Sys2Proof.MachineChecks : Prop :=
  ∀ (s : State) (k : Nat), s.arg.n = k →
    (k < 16 → (s.island k).halted = false → ∃ u, Recorded (haltIsland s k) u 1 2 16 k 0 0 0 ∧
      exec .thermalHalt s = .next (u.cancelJobs fun _ v => v.launches.any fun (e : Nat × Launch) => !e.2.complete && e.2.onIsland k)) ∧
    (∃ u, Recorded s u 4 3 16 24 0 k 0 ∧ exec .ucieLinkFailure s = .next (u.cancelJobs fun _ _ => true)) ∧
    (k < 16 → ∃ (u w : State), Recorded s u 5 2 16 24 0 k 0 ∧ exec .jenayPortFailure s = .next (w.cancelJobs fun _ v => v.ports.contains k) ∧
      { w with routes := u.routes, ports := u.ports } = u ∧ (w.port k).failed = true ∧ (∀ p, p ≠ k → w.port p = u.port p) ∧
      ∀ d, Tab.get 0#16 w.routes d = setBit (Tab.get 0#16 u.routes d) k false) ∧
    (k < 12 → s.trained.getLsbD k = true → ∃ t u, Recorded s u 8 1 16 24 0 k 0 ∧ exec .hbmStackFailure s = .next t ∧
      t.trained = setBit s.trained k false ∧ t.mcstat = u.mcstat ||| (1#64 <<< (4 + k / 3)) ∧
      { t with trained := u.trained, mcstat := u.mcstat, clusters := u.clusters, cores := u.cores } = u ∧
      ∀ c e, e ∈ (t.core c).dtlb ∨ e ∈ (t.core c).itlb ∨ e ∈ (t.cluster (clusterOf c)).l2 →
        ¬(devOf e.pa = s.devnum ∧ offOf e.pa / 0x1000000000 = k)) ∧
    (∃ u, Recorded s u 9 2 16 24 s.arg.cl.toNat 0 0 ∧ exec .supervisorTimeout s = .next (u.cancelJobs fun j _ =>
      u.cores.any fun (e : Nat × Core) =>
        e.1 / 64 == s.arg.cl.toNat && e.2.strands.any fun x => x.2.st == .frozen && x.2.job == j && x.2.res.isSome))

/-- Where an uncorrectable error is found decides what comes of it (R386, R198, R390): a word of memory is poisoned and reads full; a register
is marked until it is written; a tile-table entry becomes EMPTY with POISON; a weight-buffer entry goes; an element of an accumulator is marked and its
value free; a decoder's reference frame is marked; a frame whose entries are lost reads poison and ends its die's exchanges, with a record of
kind 6, its die degraded; a version whose state is lost goes and its job is cancelled, with a record of kind 7; a flit header cancels every job,
with a record of kind 3. A scrubbed line is poisoned in the words named (R387). That the ephemeris entry of a lost version is removed, and that
kind 6 marks the die degraded, is the model's reading (log 20, DEDUCED). -/
def Sys2Proof.UncorrectableErrors : Prop :=
  ∀ s : State,
    (∀ pa, s.arg.site = .memWord pa → ∃ t, exec .uncorrectableError s = .next t ∧ offOf pa / 8 ∈ t.poisons ∧ t.full (offOf pa) = true ∧
      (∀ w, w ≠ offOf pa / 8 → (w ∈ t.poisons ↔ w ∈ s.poisons)) ∧ { t with poisons := s.poisons } = s) ∧
    (∀ c k r, s.arg.site = .poolEntry c k r → r ≠ 0#6 → ∃ t, exec .uncorrectableError s = .next t ∧ r.toNat ∈ (t.strand c k).badX ∧
      { t.strand c k with badX := (s.strand c k).badX } = s.strand c k ∧ Elsewhere s t c [k]) ∧
    (∀ c n, s.arg.site = .tileEntry c n → ∃ t, exec .uncorrectableError s = .next t ∧
      t.slot c n.toNat = { s.slot c n.toNat with st := 0, own := false, poison := true } ∧ (∀ m, m ≠ n.toNat → t.slot c m = s.slot c m) ∧
      { t with cores := s.cores } = s) ∧
    (∀ c n, s.arg.site = .weightBlock c n → ∃ t, exec .uncorrectableError s = .next t ∧ (∀ e ∈ (t.core c).wb, e.slot ≠ n.toNat) ∧
      { t.core c with wb := (s.core c).wb } = s.core c ∧ { t with cores := s.cores } = s) ∧
    (∀ c a n, s.arg.site = .accElement c a n → ∃ t, exec .uncorrectableError s = .next t ∧ n.toNat ∈ ((t.core c).accAt a).bad ∧
      (∀ m, m ≠ n.toNat → (m ∈ ((t.core c).accAt a).bad ↔ m ∈ ((s.core c).accAt a).bad) ∧
        Tab.get 0#32 ((t.core c).accAt a).el m = Tab.get 0#32 ((s.core c).accAt a).el m) ∧
      { (t.core c).accAt a with el := ((s.core c).accAt a).el, bad := ((s.core c).accAt a).bad } = (s.core c).accAt a ∧
      (∀ b, b ≠ a → (t.core c).accAt b = (s.core c).accAt b) ∧ { t with cores := s.cores } = s) ∧
    (∀ d i, s.arg.site = .decoderRef d i → ∃ t, exec .uncorrectableError s = .next t ∧ { t with decoders := s.decoders } = s ∧
      (t.decoder d.toNat).badRefs = (s.decoder d.toNat).badRefs ||| (1#8 <<< i.toNat) ∧
      { t.decoder d.toNat with badRefs := (s.decoder d.toNat).badRefs } = s.decoder d.toNat) ∧
    (∀ f, s.arg.site = .frameBoth f → ∃ (t u : State), exec .uncorrectableError s = .next t ∧
      Recorded { s with frames := t.frames, evictOff := t.evictOff } u 6 1 16 24 0 0 (BitVec.ofNat 64 (f.toNat * 65536)) ∧
      (t.frame f.toNat).lost = true ∧ (∀ g, g ≠ f.toNat → t.frame g = s.frame g) ∧ s.frameDie f.toNat ∈ t.evictOff ∧
      t = { u with mcstat := u.mcstat ||| (1#64 <<< (4 + s.frameDie f.toNat)) }) ∧
    (∀ j nm ver, s.arg.site = .versionState j nm ver → ∃ u,
      Recorded (s.dropVersion (verHome j nm) j nm ver) u 7 2 j.toNat 24 (verHome j nm).toNat 0 0 ∧
      exec .uncorrectableError s = .next (u.cancelJobs fun i _ => i == j)) ∧
    (∀ cl, s.arg.site = .flitHeader cl → ∃ (u w : State), Recorded w u 3 2 16 24 cl.toNat 0 0 ∧ { w with flits := s.flits } = s ∧
      exec .uncorrectableError s = .next (u.cancelJobs fun _ _ => true)) ∧
    (∃ t, exec .scrubLine s = .next t ∧ { t with poisons := s.poisons } = s ∧
      ∀ w, w ∈ t.poisons ↔ w ∈ s.poisons ∨ (w / 16 = s.arg.n ∧ s.arg.w0.getLsbD (w % 16) = true))

/-- A measurement slot extended with an image (R62). -/
def Sys2Proof.extended (m : BitVec 512) (image : List Byte) : BitVec 512 := leBits 512 (shake256 (measBytes m ++ shake256 image))

/-- The dies that are in full service once their stacks have ended training (R59). -/
def Sys2Proof.served (s t : State) : Prop :=
  (∀ d, d < 4 → t.diesvc.getLsbD d = (s.diesvc.getLsbD d || t.dieTrained d)) ∧ (t.stage = 4 ↔ t.diesvc = 15#4)

/-- Bring-up (R57, R59, R62, R65): the ROM measures the management firmware; it measures the other images into slots 1 to 3, writes caps, device
number and routes and locks the caps; the clusters come up; from then on a stack that ends training is mappable, or failed after three attempts,
and a die whose stacks have all ended is in full service. Caps that sum to more than 2,600 W when they are locked take their defaults. -/
def Sys2Proof.BringUp : Prop :=
  ∀ s : State,
    (s.stage = 0 → s.meas.length = 8 → ∃ t, exec .romMeasureFirmware s = .next t ∧ t.stage = 1 ∧
      t.meas[0]? = (s.meas[0]?).map (fun m => extended m s.arg.bytes) ∧ { t with stage := s.stage, meas := s.meas } = s) ∧
    (s.stage = 1 → s.meas.length = 8 → s.islock = false → ∃ t, exec .stage2FirmwareLoad s = .next t ∧ t.stage = 2 ∧ t.islock = true ∧
      t.devnum = BitVec.ofNat 6 s.arg.n ∧ t.meas[0]? = s.meas[0]? ∧ t.meas[1]? = (s.meas[1]?).map (fun m => extended m s.arg.bytes) ∧
      t.meas[2]? = (s.meas[2]?).map (fun m => extended m s.arg.bytes2) ∧ t.meas[3]? = (s.meas[3]?).map (fun m => extended m s.arg.bytes3) ∧
      (s.arg.caps.length = 24 → (s.arg.caps.map (·.toNat)).sum ≤ 2600 → ∀ k, k < 24 → (t.island k).cap = s.arg.caps.getD k 0#12) ∧
      (s.arg.caps.length = 24 → 2600 < (s.arg.caps.map (·.toNat)).sum → t.isdflt = true ∧ ∀ k, k < 24 → (t.island k).cap = defaultCap k) ∧
      (∀ d, d < 64 → Tab.get 0#16 t.routes d = s.arg.routes.getD d 0#16) ∧
      { t with stage := 1, islock := false, devnum := s.devnum, meas := s.meas, routes := s.routes, isl := s.isl, isdflt := s.isdflt } = s) ∧
    (s.islock = false → ((List.range 24).map fun k => (s.island k).cap.toNat).sum ≤ 2600 →
      exec .islctlLock s = .next { s with islock := true }) ∧
    (s.islock = false → 2600 < ((List.range 24).map fun k => (s.island k).cap.toNat).sum →
      ∃ t, exec .islctlLock s = .next t ∧ t.islock = true ∧ t.isdflt = true ∧
        (∀ k, k < 24 → t.island k = { s.island k with cap := defaultCap k }) ∧ { t with islock := false, isdflt := s.isdflt, isl := s.isl } = s) ∧
    (s.islock = true → exec .islctlLock s = .next s) ∧
    (s.stage = 2 → s.diesvc = 0#4 → ∃ t, exec .stage3ReducedService s = .next t ∧ 3 ≤ t.stage ∧ served s t ∧ t.trained = s.trained ∧ t.failed = s.failed) ∧
    (s.stage < 3 → exec .stackTrainingEnd s = .next s) ∧
    (s.stage = 3 → s.diesvc ≠ 15#4 → s.arg.n < 12 → s.trainEnded.getLsbD s.arg.n = false →
      ∃ t, exec .stackTrainingEnd s = .next t ∧
        t.trained = (if s.arg.ok then setBit s.trained s.arg.n true else s.trained) ∧
        t.failed = (if !s.arg.ok && decide (2 ≤ Tab.get 0 s.trainFails s.arg.n) then setBit s.failed s.arg.n true else s.failed) ∧
        (s.arg.ok = false → Tab.get 0 t.trainFails s.arg.n = Tab.get 0 s.trainFails s.arg.n + 1) ∧
        t.trainEnded.getLsbD s.arg.n = (s.arg.ok || decide (2 ≤ Tab.get 0 s.trainFails s.arg.n)) ∧
        (s.arg.ok = true ∨ 2 ≤ Tab.get 0 s.trainFails s.arg.n → served s t))

/-- The clock of an island after a sample (R66): at the range minimum while it is hot, one step down while the average over eight samples exceeds
the cap, one step up, to the maximum of its service, after 64 samples below nine tenths of it; fixed clocks stay. R66 says only that the minimum ends when
the temperature falls below 95 °C: that the clock rises from it step by step is the model's choice (log 14, DESIGN CHOICE), and that the first
seven samples make no average is its reading (log 20, DEDUCED). -/
def Sys2Proof.nextClock (s : State) (k w t : Nat) : Nat :=
  let v := s.island k
  let l := (w :: v.samples).take 8
  let high := l.length = 8 ∧ 8 * v.cap.toNat < l.sum
  let low := l.length = 8 ∧ 10 * l.sum < 72 * v.cap.toNat
  let hot := 105 ≤ t ∨ (v.hot = true ∧ 95 ≤ t)
  let (d, lo, hi) := if k < 16 then (50, 700, 1400) else (100, 1400, 2800)
  if 20 ≤ k then v.mhz else if hot then lo else if high then max lo (v.mhz - d)
  else if low ∧ 63 ≤ v.below then min (if k < 16 ∧ s.diesvc.getLsbD (k / 4) = false then 700 else hi) (v.mhz + d) else v.mhz

/-- A power sample of an island that is not halted: power and temperature as measured, the clock by R66, a fixed clock throttled instead while
its average exceeds the cap; at 115 °C the thermal halt follows. The clock after a thermal limit rests on log 14 (DESIGN CHOICE), the rule that
eight samples are needed on log 20 (DEDUCED). -/
def Sys2Proof.IslandSamples : Prop :=
  ∀ (s : State) (k : Nat), s.arg.n = k → k < 24 → (s.island k).halted = false →
    let w := (s.arg.w0.extractLsb' 0 12).toNat
    let tc := (s.arg.w1.extractLsb' 0 8).toNat
    let l := (w :: (s.island k).samples).take 8
    ∃ t, exec .islandPowerSample s = .next t ∧ (t.island k).watts.toNat = w ∧ (t.island k).temp.toNat = tc ∧ (t.island k).mhz = nextClock s k w tc ∧
      ((t.island k).throttled = true ↔ 20 ≤ k ∧ l.length = 8 ∧ 8 * (s.island k).cap.toNat < l.sum) ∧ (t.island k).cap = (s.island k).cap ∧
      (∀ m, m ≠ k → t.island m = s.island m) ∧ { t with isl := s.isl, agenda := s.agenda } = s ∧
      (115 ≤ tc → (s.now, Instr.thermalHalt, ({ n := k } : StepArg)) ∈ t.agenda) ∧ (tc < 115 → t.agenda = s.agenda)

/-- A report (R63): magic, version, serial number, nonce, BSTAT, the slots, the signature length, 1,280 bytes of signature over what precedes
them, zeros to 2,048 bytes. -/
def Sys2Proof.reportOf (s : State) : List Byte :=
  let body := bytesOf 4 0x5045524E#32 ++ bytesOf 4 1#32 ++ bytesOf 8 Config.serial ++ bytesOf 32 s.nonce ++ bytesOf 8 s.bstat ++
    s.meas.flatMap measBytes ++ bytesOf 2 1280#16
  body ++ bytesOf 1280 (Config.falcon body) ++ List.replicate (2048 - body.length - 1280) 0

/-- A report begins with GO unless one is under way, and ends with the whole of it in the buffer and DONE set, or with ERR where the transfer
faults (R63). A write of a register outside the cores has the effect of R67, R69, R70, R361, R389 and R391 for the writer that may write it and
none for another: the nonce, the report address, the caps until they are locked, MCCTL, the GVT period, PRESAVE, routes, SEL and ASEL of WCTL, the
management core's SRAM, and host memory that a supervisor or the management core stores to by physical address, with no key (R1, R200), and is told
of it (R180). A supervisor that takes a packet from its mailbox makes room for what its cores have kept (R375). -/
def Sys2Proof.ReportAndRegisters : Prop :=
  ∀ s : State,
    (s.repGo = false → exec .repctlGo s = .next { s with repGo := true, report := some (s.repaddr, reportOf s) }) ∧
    (s.repGo = true → exec .repctlGo s = .next s) ∧
    (∀ a bs, s.report = some (a, bs) →
      ∃ t, exec .reportComplete s = .next t ∧ t.repGo = false ∧ t.report = none ∧
        (s.arg.ok = true → t.repDone = true ∧ t.repErr = s.repErr ∧ t.mem = Memory.write s.mem (hostAddr a) bs) ∧
        (s.arg.ok = false → t.repErr = true ∧ t.repDone = s.repDone ∧ t.mem = s.mem) ∧
        { t with repGo := s.repGo, report := s.report, repDone := s.repDone, repErr := s.repErr, mem := s.mem } = s) ∧
    (s.arg.space = .bar0 → ∀ i, i < 4 → s.arg.n = 0x1210 + 8 * i → ∃ t, exec .registerWrite s = .next t ∧ { t with nonce := s.nonce } = s ∧
      (s.arg.who ≠ .host → t.nonce = s.nonce) ∧
      (s.arg.who = .host → ∀ m, m < 4 → t.nonce.extractLsb' (64 * m) 64 = if m = i then s.arg.w0 else s.nonce.extractLsb' (64 * m) 64)) ∧
    (s.arg.space = .bar0 → s.arg.n = 0x1230 →
      exec .registerWrite s = .next (if s.arg.who = .host then { s with repaddr := s.arg.w0 } else s)) ∧
    (s.arg.space = .bar0 → ∀ k, k < 24 → s.arg.n = 0x1240 + 8 * k →
      exec .registerWrite s = .next (if s.arg.who = .mgmt ∧ s.islock = false then s.updIsland k fun v => { v with cap := s.arg.w0.extractLsb' 0 12 } else s)) ∧
    (s.arg.space = .bar0 → s.arg.n = 0x1410 → s.arg.who = .host → exec .registerWrite s = .next { s with mcctl := s.arg.w0.extractLsb' 0 8 }) ∧
    (s.arg.space = .gvtPeriod → ∃ t, exec .registerWrite s = .next t ∧ { t with treectl := s.treectl } = s ∧
      (s.arg.who ≠ .mgmt → t.treectl = s.treectl) ∧ (s.arg.who = .mgmt → t.treectl.extractLsb' 0 6 = s.arg.w0.extractLsb' 0 6 ∧
        t.treectl.extractLsb' 6 58 = s.treectl.extractLsb' 6 58)) ∧
    (s.arg.space = .presave →
      exec .registerWrite s = .next (if s.arg.who = .mgmt then { s with presave := s.arg.w0 &&& 0x0000FFFFFFFF0000#64 } else s)) ∧
    (∀ d, s.arg.space = .route d → exec .registerWrite s = .next (if s.arg.who = .mgmt then { s with routes := Tab.put s.routes d.toNat (s.arg.w0.extractLsb' 0 16) } else s)) ∧
    (∀ c, s.arg.space = .wctl c → s.arg.w0.getLsbD 8 = false → ∃ t, exec .registerWrite s = .next t ∧
      { t with cores := s.cores } = s ∧ (s.arg.who = .supervisor → t.core c = { s.core c with wctlS := s.arg.w0 &&& 0x3F#64 }) ∧
      (s.arg.who = .mgmt → t.core c = { s.core c with wctlM := s.arg.w0 &&& 0x3F#64 }) ∧ (s.arg.who = .host → t = s)) ∧
    (∀ o, s.arg.space = .sram o → exec .registerWrite s =
      .next (if s.arg.who = .mgmt then { s with sram := Memory.write s.sram (o.toNat / 8 * 8) (bytesOf 8 s.arg.w0) } else s)) ∧
    (∀ pa n, s.arg.space = .phys pa n → isHost pa.toNat = true → 0 < n → pa.toNat % 128 + min n 8 ≤ 128 →
      ∃ t, exec .registerWrite s = .next t ∧ t.mem = (if s.arg.who = .host then s.mem else Memory.write s.mem pa.toNat (bytesOf (min n 8) s.arg.w0)) ∧
        t.physDone = s.physDone ++ (if s.arg.who = .host then [] else [(s.arg.who, pa)])) ∧
    (∀ cl, s.arg.space = .mailbox cl → s.arg.who = .supervisor → ∃ t, exec .registerWrite s = .next t ∧
      { t with clusters := s.clusters, agenda := s.agenda } = s ∧ t.cluster cl = { s.cluster cl with mbox := (s.cluster cl).mbox.drop 1 } ∧
      ∀ e ∈ s.cores, e.1 / 64 = cl.toNat → e.2.pktq ≠ [] → (s.now, Instr.packetDelivery, ({ c := BitVec.ofNat 12 e.1 } : StepArg)) ∈ t.agenda)

/-! ## Task messages, dispense and donation (spec/05_placement.md R79 to R95, R421; spec/01_work.md R14; spec/08_isa_scalar.md R162 to R165) -/

/-- A message in transit (R306). -/
def Sys2Proof.sentMsg (s : State) (n : Nat) : Option Msg := Tab.find s.msgs n

/-- A task message leaves its send buffer once everything before it has been performed, in its core's colour, and counts there as sent (R421, R359);
its entry is freed when it has been accepted, and a commit that waited for it goes on (R363). -/
def Sys2Proof.Departures : Prop :=
  ∀ (s : State) (c : CoreId) (n : Nat) (e : SendEntry), s.arg.c = c → s.arg.n = n →
    let j := e.t.t.job
    let q := { e.t with t := { e.t.t with colour := ((s.job j).leaf (.core c)).colour }, pts := (s.core c).pts }
    ((s.core c).sendBuf.find? (fun x => x.m == n) = some e →
      (e.left = true ∨ e.after ≠ [] → exec .sendBufferDeparture s = .next s) ∧
      (e.left = false → e.after = [] → ∃ t m, exec .sendBufferDeparture s = .next t ∧ sentMsg t n = some m ∧ m.body = .task q (e.to'.getD 0) ∧
        m.src = s.epCore c ∧ m.dst = (match e.to' with | some d => s.epDispenser (clusterOf d) | none => s.epMgmt) ∧ m.kind = q.t.kind ∧
        (t.job j).leaf (.core c) = ((s.job j).leaf (.core c)).send q.t.vt ∧
        (t.core c).sendBuf = (s.core c).sendBuf.map (fun x => if x.m = n then { x with left := true, t := q } else x) ∧ t.mem = s.mem)) ∧
    (∀ m k, sentMsg s n = some m → m.body = .accepted k → m.dst.ep < 64 → ∃ t, exec .taskMessageAccepted s = .next t ∧ sentMsg t n = none ∧
      (t.core (coreIn m.dst.router m.dst.ep)).sendBuf = (s.core (coreIn m.dst.router m.dst.ep)).sendBuf.filter (fun x => x.m ≠ k) ∧
      (∀ b ∈ (s.core (coreIn m.dst.router m.dst.ep)).rings, b.wait = some k →
        (s.now, Instr.commitStep, ({ c := coreIn m.dst.router m.dst.ep, t := b.t.t.ident } : StepArg)) ∈ t.agenda) ∧ t.mem = s.mem)

/-- Memory but for the 128 bytes of the next entry of the spill area of a core for a job, wherever they are mapped (R80). -/
def Sys2Proof.SpillsTo (s t : State) (c : CoreId) (j : JobId) : Prop :=
  ∀ y, (∀ pa leaf u, s.translateNow c false j ((s.job j).jspill + BitVec.ofNat 48 (0x80000 * c.toNat + 128 * (Tab.get [] (s.core c).spill j.toNat).length)) .w =
    (.ok pa leaf, u) → y < offOf pa ∨ offOf pa + 128 ≤ y) → Memory.get t.mem y = Memory.get s.mem y

/-- A positive at the dispenser of its core, counted as received (R14, R81, R355, R359): for a launch that is not live, or that a CANCEL has taken
with it or its phase, it is dropped and retires; a pending anti-message of its identity annihilates it; else it enters the queue, or the spill
area where it orders after a spilled entry or the dispenser is stopped (R394), or is refused where that is full; in a stop a full area cancels
the job. A spill write that faults cancels the job. Where in the area an entry stands is the model's choice (log 19, DESIGN CHOICE). -/
def Sys2Proof.PositiveArrivals : Prop :=
  ∀ (s : State) (n : Nat) (m : Msg) (q : QEntry) (c : CoreId), s.arg.n = n → sentMsg s n = some m → m.body = .task q c → m.dst.ep ≠ 67 →
    let j := q.t.job; let l := q.t.lslot; let cl := clusterOf c; let v := s.core c
    let got := fun (u : State) => (u.updLeaf j (.dispenser cl) fun x => x.recv m.colour).acceptMsg n m
    ((s.job j).live l = false ∨ (s.job j).cancels l q.t.vt = true → exec .taskMessageArrival s = .next (got (s.dropTask q.t))) ∧
    ((s.job j).live l = true → (s.job j).cancels l q.t.vt = false →
      (∀ d e, s.entryIn cl q.t.ident true = some (d, e) →
        exec .taskMessageArrival s = .next (got ((s.takeEntry d q.t.ident true).retire j l q.t.vt))) ∧
      (s.entryIn cl q.t.ident true = none → v.refuse.contains j = true → exec .taskMessageArrival s = .next (s.refuse n)) ∧
      (s.entryIn cl q.t.ident true = none → v.refuse.contains j = false →
        (∀ w cls, v.place j q = .spill w → s.spillFault c j .w = some cls →
          exec .taskMessageArrival s = .next (got ((s.spillFailed c j cls).dropTask q.t))) ∧
        (s.cutAt c j = true → (v.spillRoom j false = true → s.spillFault c j .w = none → ∃ t, exec .taskMessageArrival s = .next t ∧
            (t.core c).queue = v.queue ∧ Tab.get [] (t.core c).spill j.toNat = insertQ (Tab.get [] v.spill j.toNat) q ∧ SpillsTo s t c j) ∧
          (v.spillRoom j false = false → exec .taskMessageArrival s = .next (got ((s.cancelStop j).dropTask q.t)))) ∧
        let after := ∃ k, v.spmin j = some k ∧ k < q.key
        s.cutAt c j = false →
        (¬after → v.queue.length < 56 → ∃ t, exec .taskMessageArrival s = .next t ∧ (t.core c).queue = insertQ v.queue q ∧
          (t.core c).spill = v.spill ∧ (∀ d, d ≠ c → t.core d = s.core d) ∧ t.mem = s.mem) ∧
        (after → v.spillRoom j false = true → s.spillFault c j .w = none → ∃ t, exec .taskMessageArrival s = .next t ∧
          (t.core c).queue = v.queue ∧ Tab.get [] (t.core c).spill j.toNat = insertQ (Tab.get [] v.spill j.toNat) q ∧
          (∀ d, d ≠ c → t.core d = s.core d) ∧ SpillsTo s t c j) ∧
        (¬after → 56 ≤ v.queue.length → v.spillRoom j false = true → s.spillFault c j .w = none → ∃ t w, exec .taskMessageArrival s = .next t ∧
          v.place j q = .spill w ∧ t.core c = w ∧ (∀ d, d ≠ c → t.core d = s.core d) ∧ SpillsTo s t c j) ∧
        (after ∨ 56 ≤ v.queue.length → v.spillRoom j false = false → exec .taskMessageArrival s = .next (s.refuse n))))

/-- An anti-message at a dispenser, counted as received (R91, R354, R355): a task that holds a block of a ring is rolled back without requeue; a queued
or spilled twin goes, and retires; a forwarded one is followed; else the anti-message waits in the queue, or in the spill area. -/
def Sys2Proof.AntiArrivals : Prop :=
  ∀ (s : State) (n : Nat) (m : Msg) (q : QEntry) (c : CoreId), s.arg.n = n → sentMsg s n = some m → m.body = .task q c → m.dst.ep ≠ 67 →
    let j := q.t.job; let l := q.t.lslot; let cl := clusterOf c; let i := q.t.ident
    let u := (s.dropMsg n).updLeaf j (.dispenser cl) fun x => x.recv m.colour
    ((u.job j).live l = false ∨ (u.job j).cancels l q.t.vt = true → exec .antiMessageArrival s = .next u) ∧
    ((u.job j).live l = true → (u.job j).cancels l q.t.vt = false →
      (∀ d, u.blockIn cl i = some d → exec .antiMessageArrival s = .next (u.askRollback d i false)) ∧
      (u.blockIn cl i = none →
        (∀ d e, u.entryIn cl i false = some (d, e) → exec .antiMessageArrival s = .next ((u.takeEntry d i false).retire j l e.t.vt)) ∧
        (u.entryIn cl i false = none →
          (∀ f, (u.cluster cl).fwd.find? (fun f => f.t == i && f.job == j) = some f → exec .antiMessageArrival s = .next
            ((u.updCluster cl fun v => { v with fwd := v.fwd.filter fun f => !(f.t == i && f.job == j) }).forwardAnti q (u.epDispenser cl)
              (.dispenser cl) (coreIn f.thief (c.toNat % 64)))) ∧
          ((u.cluster cl).fwd.find? (fun f => f.t == i && f.job == j) = none → (u.core c).queue.length < 64 →
            (∀ k, (u.core c).spmin j = some k → q.key < k) → ∃ t, exec .antiMessageArrival s = .next t ∧
              (t.core c).queue = insertQ (u.core c).queue q ∧ { t with cores := u.cores } = u))))

/-- A refill (R81): while the queue holds fewer than 48 entries, spilled entries return in event order until the queue holds 56, each read from its
place; without twins in the cluster they enter the queue one by one. Where no refill is due nothing happens; an entry that cannot be read, or not
be written for a task set aside, cancels the job, as `State.spillFailed` does, and so does an area that is full in a stop (R394). -/
def Sys2Proof.Refills : Prop :=
  ∀ (s : State) (c : CoreId) (j : JobId), s.arg.c = c → s.arg.j = j →
    let v := s.core c
    let es := Tab.get [] v.spill j.toNat
    (s.arg.v = 1 → exec .spillRefill s = .next (s.spillFailed c j s.arg.n)) ∧
    (s.arg.v = 2 → exec .spillRefill s = .next (s.cancelStop j)) ∧
    (s.arg.v = 0 → 48 ≤ v.queue.length ∨ es = [] → exec .spillRefill s = .next s) ∧
    (s.arg.v = 0 → v.queue.length < 48 → es ≠ [] → ∀ cls, s.spillEntryFault c j .r 0 = some cls →
      exec .spillRefill s = .next (s.spillFailed c j cls)) ∧
    (s.arg.v = 0 → v.queue.length < 48 → es ≠ [] → es.length ≤ 4096 → (∀ i, i < es.length → i < 56 - v.queue.length → s.spillEntryFault c j .r i = none) →
      (∀ e ∈ es, ∀ d f, (f ∈ (s.core d).queue ∨ ∃ x ∈ (s.core d).spill, f ∈ x.2) → f.t.ident = e.t.ident → f.t.anti = e.t.anti) →
      ∃ t, exec .spillRefill s = .next t ∧ (t.core c).queue = (es.take (56 - v.queue.length)).foldl insertQ v.queue ∧
        Tab.get [] (t.core c).spill j.toNat = es.drop (56 - v.queue.length) ∧ t.mem = s.mem)

/-- A dispense (R82 to R84, R14, R126): the entry chosen for an idle strand leaves its queue; one of a launch that is not live, or that a CANCEL has
taken, is discarded and retires; else the strand has its pc, VT, mode and arguments and stays idle until cycle 4, every declared register is
full, its forwarding slot is as it was, and an optimistic task without a block receives one. With no entry to take nothing happens; no strand is
chosen for that is not idle, nor a second one of its core, nor a fifth one of its cluster, in the cycle. -/
def Sys2Proof.Dispenses : Prop :=
  ∀ (s : State) (c : CoreId) (k : StrandId), s.arg.c = c → s.arg.k = k →
    (s.choice c k = none → exec .dispense s = .next s) ∧
    ((s.strand c k).st ≠ .idle ∨ 1 ≤ (s.core c).startedAt s.cycle ∨
        4 ≤ ((s.coresOf (clusterOf c)).map fun d => (s.core d).startedAt s.cycle).sum → exec .dispense s = .next s) ∧
    (∀ d q, s.choice c k = some (d, q) →
      let j := q.t.job; let l := q.t.lslot
      let u := (s.updCore d fun v => v.dropEntry q.t.ident).stealBreak (clusterOf c) j l
      ((s.job j).live l = false ∨ (s.job j).cancels l q.t.vt = true → exec .dispense s = .next ((u.dropTask q.t).discarded c k)) ∧
      ((s.job j).live l = true → (s.job j).cancels l q.t.vt = false → ∃ t, exec .dispense s = .next t ∧
        (t.strand c k).st = .idle ∧ (t.strand c k).pc = q.t.pc ∧ (t.strand c k).vt = q.t.vt ∧ (t.strand c k).opt = q.t.opt ∧
        (t.strand c k).task = some q ∧ (t.strand c k).held = .dispense (s.cycle + 4) ∧ (t.strand c k).rm = 4 ∧ (t.strand c k).flags = 0 ∧
        (∀ i, i < 6 → i < (s.launch j l).nreg → (t.strand c k).rx (BitVec.ofNat 6 (i + 1)) = q.t.args.getD i 0) ∧
        (∀ r, r ≠ 63#6 → (t.strand c k).full (.x r) = true) ∧ (t.strand c k).full (.x 63#6) = (s.strand c k).full (.x 63#6) ∧
        (∀ e ∈ (t.core d).queue, ¬(e.t.ident = q.t.ident ∧ e.t.anti = false)) ∧ (∀ m, m ≠ k → t.strand c m = s.strand c m) ∧
        (q.t.opt = true → q.block = false → ∃ b ∈ (t.core c).rings, b.job = j ∧ b.lslot = l ∧ b.t = q ∧ b.ts = .running) ∧ t.mem = s.mem))

/-- Donation (R88 to R91, R17): a cluster that has been starved for 256 cycles asks the next cluster of its launch, unless a request is outstanding, it
is throttled or it pauses; the victim ships the highest of its tasks without a block, half of all it counts and at most 16, each in a message of
its own with KIND 0x14, and remembers the optimistic ones; the thief enters them, and a scan that shipped nothing pauses it for 4,096 cycles. R89
speaks of one reply that carries n tasks: that each travels in a message of its own, and that a reply of none is a message too, is the model's
choice and reading (log 13, DESIGN CHOICE; log 19, DEDUCED). -/
def Sys2Proof.Donation : Prop :=
  ∀ s : State,
    (let cl := s.arg.cl; let j := s.arg.j; let l := s.arg.l
     let x := (s.cluster cl).steal j l cl
     ∀ i, i ∈ [Instr.stealRequest, .stealPauseExpiry] →
       (s.starved cl j l = false → exec i s = .next (s.setSteal cl { x with since := none })) ∧
       (s.starved cl j l = true → x.since = none →
         exec i s = .next ((s.setSteal cl { x with since := some s.cycle }).push 512 .stealRequest { cl := cl, j := j, l := l })) ∧
       (∀ t, s.starved cl j l = true → x.since = some t →
         (s.cycle < t + 256 → exec i s = .next s) ∧
         (t + 256 ≤ s.cycle → x.outstanding = true ∨ 1 ≤ (s.cluster cl).level ∨ s.cycle < x.pausedTill →
           exec i s = .next (s.push 64 .stealRequest { cl := cl, j := j, l := l })) ∧
         (t + 256 ≤ s.cycle → x.outstanding = false → (s.cluster cl).level = 0 → x.pausedTill ≤ s.cycle →
           ∀ v, nextVictim (s.launch j l).cmask cl x.last = some v → ∃ u m, exec i s = .next u ∧ sentMsg u s.nextId = some m ∧
             m.dst = s.epDispenser (BitVec.ofNat 6 v) ∧ m.body = .steal cl l ∧ m.job = j ∧ ((u.cluster cl).steal j l cl).outstanding = true ∧
             ((u.cluster cl).steal j l cl).last = v ∧ u.mem = s.mem))) ∧
    (∀ m thief l, sentMsg s s.arg.n = some m → m.body = .steal thief l →
      let cl := m.dst.router; let j := m.job
      let qs := s.shippable cl j l
      let free := qs.filter fun q => q.block = false
      let n := if 1 ≤ (s.cluster cl).level then 0 else
        min (min 16 (qs.length / 2)) (if (s.launch j l).opt then 64 - (s.cluster cl).fwd.length else 16)
      let out := free.drop (free.length - n)
      let col := ((s.job j).leaf (.dispenser cl)).colour
      ∃ t, exec .stealReply s = .next t ∧
        (n = 0 ∨ free = [] → ∃ r, sentMsg t s.nextId = some r ∧ r.dst = s.epDispenser thief ∧ r.kind = 0x14#6 ∧ r.body = .shipped none 0 l) ∧
        (1 ≤ n → ∀ i, ∀ q, out[i]? = some q → ∃ r, sentMsg t (s.nextId + i) = some r ∧ r.dst = s.epDispenser thief ∧ r.kind = 0x14#6 ∧ r.fcnt = 1 ∧
          r.body = .shipped (some { q with t := { q.t with colour := col, kind := 0x14#6 } }) out.length l) ∧
        (1 ≤ n → (t.cluster cl).fwd = (s.cluster cl).fwd ++ (out.filter fun q => q.t.opt).map (fun q =>
          { t := q.t.ident, thief := thief, job := j, lslot := l, vt := q.t.vt })) ∧
        (1 ≤ n → ∀ c, clusterOf c = cl → ∀ e ∈ (t.core c).queue, e.t.anti = false → ∀ q ∈ out, e.t.ident ≠ q.t.ident) ∧
        (n = 0 → (t.cluster cl).fwd = (s.cluster cl).fwd ∧ ∀ c, (t.core c).queue = (s.core c).queue) ∧ t.mem = s.mem) ∧
    (∀ m q total l, sentMsg s s.arg.n = some m → m.body = .shipped q total l →
      let cl := m.dst.router; let j := m.job
      let x := (s.cluster cl).steal j l cl
      let scan := (bitsOf (s.launch j l).cmask).length - 1
      (s.takeShipped cl l q = none → exec .shippedTasksArrival s = .next (s.refuse s.arg.n)) ∧
      (∀ u, q.isSome = true → s.takeShipped cl l q = some u →
        let u := (u.updLeaf j (.dispenser cl) fun v => v.recv m.colour).acceptMsg s.arg.n m
        let y := (u.cluster cl).steal j l cl
        let left := y.left.getD total - 1
        exec .shippedTasksArrival s = .next (if left = 0 then u.stealAnswered cl j l { y with left := some 0, shipped := true }
          else u.setSteal cl { y with left := some left, shipped := true })) ∧
      (q = none → total = 0 → x.left = none → scan ≤ x.asked → x.shipped = false → ∃ t, exec .shippedTasksArrival s = .next t ∧
        ((t.cluster cl).steal j l cl).pausedTill = s.cycle + 4096 ∧ ((t.cluster cl).steal j l cl).outstanding = false ∧
        sentMsg t s.arg.n = none ∧ (s.now + 8192, Instr.stealPauseExpiry, ({ cl := cl, j := j, l := l } : StepArg)) ∈ t.agenda))

/-- Holds (R162 to R165): a RESUMEC clears the hold of the suspended task that its handle names, and its reply is 1, else 0; a WAITW registration of a
full word wakes the task at once, of an empty one it is kept at the word; a wake clears the hold of a WAITW. -/
def Sys2Proof.HoldsEnd : Prop :=
  ∀ (s : State),
    (∀ r, s.msgReq s.arg.n = some r →
      (r.kind = .resumec →
        let c : CoreId := r.w0.extractLsb' 46 12
        let t : Ident := ⟨r.w0.extractLsb' 40 6, r.w0.extractLsb' 28 12, r.w0.extractLsb' 8 20⟩
        let found := ∃ q ∈ (s.core c).entries, q.t.ident = t ∧ q.t.anti = false ∧ q.t.job = r.job ∧ q.hold = .suspend
        let own := r.w0.extractLsb' 4 4 = r.job
        let u := s.dropMsg s.arg.n
        (own ∧ found → exec .resumecRequest s = .next ((u.clearHold c t .suspend).replyTo (s.servedAt r) r { w0 := 1 } true)) ∧
        (¬(own ∧ found) → exec .resumecRequest s = .next (u.replyTo (s.servedAt r) r { w0 := 0 } true))) ∧
      (r.kind = .waitw → devOf r.pa = s.devnum →
        let a := offOf r.pa
        let u := ((s.visitReq r).dropMsg s.arg.n).replyTo (s.servedAt r) r {} false
        (s.full a = true → ∃ t m, exec .waitwRegistration s = .next t ∧ sentMsg t u.nextId = some m ∧ m.body = .wake r.core r.ident ∧
          m.dst = s.epDispenser (clusterOf r.core)) ∧
        (s.full a = false → ∃ t, exec .waitwRegistration s = .next t ∧ (t.cluster (waitCluster a)).waitw = (s.cluster (waitCluster a)).waitw ++ [r] ∧
          t.mem = s.mem))) ∧
    (∀ m c i, sentMsg s s.arg.n = some m → m.body = .wake c i → ∃ t, exec .waitwWake s = .next t ∧ sentMsg t s.arg.n = none ∧
      (t.core c).queue = (s.core c).queue.map (fun q => if q.t.ident = i ∧ q.t.anti = false ∧ q.hold = .waitw then { q with hold := .none } else q) ∧
      (∀ d, d ≠ c → t.core d = s.core d) ∧ t.mem = s.mem)

/-! ## Steps of a core (spec/06_encoding.md R96, R97; spec/07_issue.md R126 to R135; spec/09_memory.md R174, R177, R180, R186; spec/10_isa_memory.md
R205, R206, R215, R232, R233; spec/14_network.md R314) -/

/-- A cycle of the barrel (R82, R126, R127, R135): a strand whose dispense has reached cycle 4 is ready; every strand with annulled instructions, in a
cycle after it issued, drops one that its buffer holds whole; then the slot is offered to the first strand after p that qualifies, and p becomes
that strand; with none, p stays and the slot is empty. -/
def Sys2Proof.BarrelCycles : Prop :=
  ∀ (s : State) (c : CoreId), s.arg.c = c → s.offer = none →
    ∃ t u, exec .barrelCycle s = .next t ∧
      (∀ k p0, (s.strand c k).st = .ready → (s.strand c k).ann ≠ 0 → (s.strand c k).issued = false ∨ (s.strand c k).last < s.cycle →
        (s.strand c k).rawParcel (s.strand c k).pc = .word p0 → (s.strand c k).lacks = false →
          (u.strand c k).ann = (s.strand c k).ann - 1 ∧ (u.strand c k).pc = (s.strand c k).pc + (if p0.getLsbD 0 then 4#48 else 2#48)) ∧
      (∀ k, (s.strand c k).ann = 0 → (u.strand c k).ann = 0 ∧ (u.strand c k).pc = (s.strand c k).pc ∧
        ((∀ till, (s.strand c k).held = .dispense till → s.cycle < till) → (u.strand c k).st = (s.strand c k).st ∧ (u.strand c k).held = (s.strand c k).held) ∧
        ∀ till, (s.strand c k).held = .dispense till → till ≤ s.cycle →
          (u.strand c k).held = .none ∧ ((s.strand c k).task.isSome = true → (u.strand c k).st = .ready)) ∧
      (u.core c).p = (s.core c).p ∧
      ((∀ k, u.qualifies c k = false) → t = u ∧ t.offer = none) ∧
      (∀ n, n < 16 → u.qualifies c ((s.core c).p + 1 + BitVec.ofNat 4 n) = true →
        (∀ m, m < n → u.qualifies c ((s.core c).p + 1 + BitVec.ofNat 4 m) = false) →
          t.offer = some (c, (s.core c).p + 1 + BitVec.ofNat 4 n) ∧ (t.core c).p = (s.core c).p + 1 + BitVec.ofNat 4 n ∧
          ∀ k, t.strand c k = u.strand c k)

/-- A fill of a fetch buffer (R96, R97, R98): from the window of a core's local memory, in slots of the strand's job that no engine owns, the buffer
holds the bytes of memory at the 16-byte group of the pc; from slots of another job it holds the instruction-fetch fault; a strand that has no
task keeps its buffer, and one that asked for nothing is as it was. -/
def Sys2Proof.FetchFills : Prop :=
  ∀ (s : State) (c : CoreId) (k : StrandId) (e : CoreId) (off : Nat), s.arg.c = c → s.arg.k = k →
    let a := s.strand c k
    (a.filling = false → exec .fetchFill s = .next s) ∧
    (a.filling = true → a.task = none → ∃ t, exec .fetchFill s = .next t ∧ t.strand c k = { a with filling := false } ∧ Elsewhere s t c [k]) ∧
    (a.filling = true → a.task.isSome = true → windowOf c (groupVa a.pc) = some (e, off) →
      (s.localCheck e a.job off 16 = none → (∀ n ∈ slotsOf off 16, (s.slot e n).busy = false) → ∃ t g, exec .fetchFill s = .next t ∧
        (t.strand c k).buf.head? = some g ∧ g.va = groupVa a.pc ∧ g.fault = none ∧ (t.strand c k).filling = false ∧ t.mem = s.mem ∧
        ∀ i, i < 16 → g.bytes.extractLsb' (8 * i) 8 = Memory.get s.mem (localBase e + off + i)) ∧
      (s.localCheck e a.job off 16 ≠ none → ∃ t g, exec .fetchFill s = .next t ∧ (t.strand c k).buf.head? = some g ∧
        g.fault = some { cls := 5, addr := (groupVa a.pc).setWidth 64 }))

/-- A parked strand whose cause has cleared is ready at its instruction, and keeps its registers; a BAR.ARW has its new generation and goes on past it;
one whose cause stands is as it was (R126, R131, R231). -/
def Sys2Proof.Wakes : Prop :=
  ∀ (s : State) (c : CoreId) (k : StrandId), s.arg.c = c → s.arg.k = k →
    let a := s.strand c k
    (a.st ≠ .parked ∨ s.parkOver c k a.park = false → exec .strandWake s = .next s) ∧
    (a.st = .parked → s.parkOver c k a.park = true → ∃ t, exec .strandWake s = .next t ∧ (t.strand c k).st = .ready ∧
      (t.strand c k).park = .none ∧ (∀ y, Memory.get t.mem y = Memory.get s.mem y) ∧
      ((∀ h g d, a.park ≠ .barArw h g d) → (t.strand c k).pc = a.pc ∧ { t.strand c k with st := a.st, park := a.park, wants := a.wants } = a) ∧
      ∀ h g d, a.park = .barArw h g d → (t.strand c k).pc = a.pc + 4#48 ∧
        (d ≠ 0#6 → (∀ f ∈ (s.strand c (destStrand k d)).fills, f.1 ≠ d) →
          (t.strand c (destStrand k d)).rx d = ((Tab.get {} (s.core c).bars h).gen).setWidth 64))

/-- The reply that message n brings to core c is for the outstanding request r of a strand; no replay and no commit waits for it, and no fill waits
behind its destination (R132, R314). -/
structure Sys2Proof.Answers (s : State) (n : Nat) (c : CoreId) (r : Req) (v : Rep) : Prop where
  arg : s.arg.n = n
  arrived : ∃ m r', sentMsg s n = some m ∧ m.body = .reply r' v ∧ r'.core = c ∧ r'.id = r.id ∧ m.dst.ep ≠ 70
  held : (s.core c).reqs.find? (fun x => x.id == r.id) = some r
  core : r.core = c
  strand : (∀ e ∈ (s.core c).slog, ¬(e.2.st = 2 ∧ e.2.ord = r.id)) ∧ ∀ b ∈ (s.core c).rings, b.wait ≠ some r.id
  fills : ∀ d, r.dest = .x d → ∀ f ∈ (s.strand c (destStrand r.strand d)).fills, f.1 ≠ d

/-- A request is over: it no longer holds its slot (R204, R314), and every byte of memory is as it was. -/
def Sys2Proof.Over (s t : State) (c : CoreId) (r : Req) : Prop :=
  (∀ x ∈ (t.core c).reqs, x.id ≠ r.id) ∧ ∀ y, Memory.get t.mem y = Memory.get s.mem y

/-- Replies without a fault (R130, R204, R205, R206, R217, R219, R314): a load takes its bytes from the line that came, or from the core's own
non-coherent copy of it (R189); a load, an atomic, a RESUMEC, a CANCEL, a RESIZE and a VERQ write their
register, which is full; a store, a reduction and the cache operations end; a full-empty operation, a barrier object's and a LAUNCH write it and
their parked strand goes on past them. The core's logical time takes in the reply's. -/
def Sys2Proof.Replies : Prop :=
  ∀ (s : State) (n : Nat) (c : CoreId) (r : Req) (v : Rep), Answers s n c r v → v.fault = none → v.withdrawn = false →
    (let l := s.replyLine r v
     ((∀ e ∈ (s.core c).dcache, e.line = offOf r.pa / 128 → e.nc = false) → l = (v.line, v.pois)) ∧
     (r.kind = .load → ∀ d, r.dest = .x d → d ≠ 0#6 → (∀ w ∈ wordsOf (offOf r.pa % 128) r.size, l.2.getLsbD w = false) →
      ∃ t, exec .replyArrival s = .next t ∧ Over s t c r ∧ (t.strand c (destStrand r.strand d)).full (.x d) = true ∧
        (t.strand c (destStrand r.strand d)).rx d = leBits 64 (lineSlice l.1 (offOf r.pa % 128) r.size))) ∧
    ((∃ op, r.kind = .amo op) ∨ r.kind = .resumec ∨ r.kind = .cancel ∨ r.kind = .resize ∨ r.kind = .verq → ∀ d, r.dest = .x d → d ≠ 0#6 →
      ∃ t, exec .replyArrival s = .next t ∧ Over s t c r ∧ (t.strand c (destStrand r.strand d)).full (.x d) = true ∧
        (t.strand c (destStrand r.strand d)).rx d = v.w0 ∧ (t.strand c r.strand).pc = (s.strand c r.strand).pc) ∧
    (r.kind = .store ∨ r.kind = .storeM ∨ r.kind = .stb ∨ (∃ op, r.kind = .red op) ∨ r.kind = .writeback ∨ r.kind = .stff ∨ r.kind = .fepurge →
      ∃ t, exec .replyArrival s = .next t ∧ Over s t c r ∧ ∀ k, t.strand c k = s.strand c k) ∧
    (r.kind ∈ [ReqKind.ldfe, .ldff, .mbarWait, .launch] → ∀ d, r.dest = .x d → d ≠ 0#6 → (s.strand c r.strand).st = .parked →
      (s.strand c r.strand).waitNf = false →
      ∃ t, exec .replyArrival s = .next t ∧ Over s t c r ∧ (t.strand c (destStrand r.strand d)).rx d = v.w0 ∧
        (t.strand c r.strand).st = .ready ∧ (t.strand c r.strand).pc = (s.strand c r.strand).pc + 4#48) ∧
    (r.kind ∈ [ReqKind.stef, .mbarInit, .mbarArr, .verrel] → r.opt = false → r.dest = .none → (s.strand c r.strand).st = .parked →
      ∃ t, exec .replyArrival s = .next t ∧ Over s t c r ∧ (t.strand c r.strand).st = .ready ∧
        (t.strand c r.strand).pc = (s.strand c r.strand).pc + 4#48) ∧
    (r.kind = .flush → ∃ t, exec .replyArrival s = .next t ∧ (t.core c).pts = (if (s.core c).pts < v.wts then v.wts else (s.core c).pts))

/-- Replies with a fault (R206, R372, R374): a parking instruction's strand freezes at it; an instruction that has issued freezes its strand with LATE,
naming its own address and word, while its request keeps its slot. -/
def Sys2Proof.FaultReplies : Prop :=
  ∀ (s : State) (n : Nat) (c : CoreId) (r : Req) (v : Rep) (f : Fault'), Answers s n c r v → v.fault = some f → v.withdrawn = false →
    (r.kind ∈ [ReqKind.ldfe, .ldff, .stef, .mbarInit, .mbarArr, .mbarWait, .launch] → ∃ t p, exec .replyArrival s = .next t ∧
      (t.strand c r.strand).st = .frozen ∧ (t.strand c r.strand).pc = (s.strand c r.strand).pc ∧ (t.strand c r.strand).froze = some p ∧
      p.cls = f.cls ∧ p.addr = f.addr ∧ p.late = false ∧ p.frozen = true ∧ Over s t c r) ∧
    ((∃ op, r.kind = .amo op) ∨ (r.kind = .load ∧ ∃ d, r.dest = .x d) ∨ r.kind = .store ∨ r.kind = .stb ∨ r.kind = .ldb → ∃ t p,
      exec .replyArrival s = .next t ∧ (t.strand c r.strand).st = .frozen ∧ (t.strand c r.strand).froze = some p ∧ p.cls = f.cls ∧ p.addr = f.addr ∧
      p.late = true ∧ p.pc = r.pc ∧ p.insn = r.insn ∧ (∃ x ∈ (t.core c).reqs, x.id = r.id ∧ x.late = true) ∧
      ∀ y, Memory.get t.mem y = Memory.get s.mem y)

/-- A PUTREG's fill writes the register of a strand that is resident for the launch and has the register, and sets it full, unless an own producer of
that strand is outstanding for it: then it waits; it is discarded otherwise (R132, R215). It comes after the instruction that the core issues in
the cycle, and of two fills of one cycle the one of the greater source stands. -/
def Sys2Proof.PutregFills : Prop :=
  ∀ (s : State) (r : Req), s.msgReq s.arg.n = some r →
    let c : CoreId := r.w1.extractLsb' 4 12
    let k : StrandId := r.w1.extractLsb' 0 4
    let x : XReg := r.w1.extractLsb' 24 6
    let mine := (s.strand c k).res = some (r.job, r.lslot) ∧ x.toNat ≤ (s.launch r.job r.lslot).nreg
    let first := s.agenda.any fun e => decide (e.1 ≤ s.now) && e.2.1 == .barrelCycle && e.2.2.c == c
    let place := s.cycle * 2 ^ 16 + (r.core.toNat * 16 + r.strand.toNat)
    (first = true → exec .putregFill s = .next (s.soon .putregFill { n := s.arg.n })) ∧
    (first = false → ∃ t, exec .putregFill s = .next t ∧ t.mem = s.mem ∧
      (mine → x ≠ 0#6 → (s.strand c k).full (.x x) = true ∨ s.producing c k x = false →
        (t.strand c k).full (.x x) = true ∧ (∀ y, y ≠ x → (t.strand c k).rx y = (s.strand c k).rx y) ∧
        (Tab.get 0 (s.strand c k).filled x.toNat ≤ place → (t.strand c k).rx x = r.w0) ∧
        (place < Tab.get 0 (s.strand c k).filled x.toNat → Tab.get 0 (s.strand c k).filled x.toNat / 2 ^ 16 = s.cycle →
          (t.strand c k).rx x = (s.strand c k).rx x)) ∧
      (mine → (s.strand c k).full (.x x) = false → s.producing c k x = true →
        t.strand c k = { s.strand c k with fills := fillInsert (s.strand c k).fills (x, r.w0, place) }) ∧
      (¬mine → t.strand c k = s.strand c k))

/-- A page walk for the access that holds a strand (R174, R177): the strand is released; a leaf that grants the access is in front of the core's TLB
and in the cluster's; a walk that faults is remembered for the access, and no TLB holds it. An entry of the cluster's TLB that grants the access
serves without a walk. -/
def Sys2Proof.PageWalks : Prop :=
  ∀ (s : State) (c : CoreId) (k : StrandId) (va : BitVec 48), s.arg.c = c → s.arg.k = k → s.arg.w0 = va.setWidth 64 →
    (s.strand c k).held = .walk va → s.arg.n = 1 ∨ s.arg.n = 2 →
    let need : Need := if s.arg.n = 2 then .w else .r
    ∃ t, exec .pageWalk s = .next t ∧ (t.strand c k).held = .none ∧ (t.strand c k).pc = (s.strand c k).pc ∧ t.mem = s.mem ∧
      (∀ e, (s.cluster (clusterOf c)).l2.find? (fun e => e.hits (s.strand c k).job va && need.ok e.leaf) = some e → (t.core c).dtlb.head? = some e) ∧
      ((s.cluster (clusterOf c)).l2.find? (fun e => e.hits (s.strand c k).job va && need.ok e.leaf) = none →
        (∀ e, s.walk (s.strand c k).job va = .leaf e → need.ok e.leaf = true → (t.core c).dtlb.head? = some e) ∧
        (∀ e, s.walk (s.strand c k).job va = .leaf e → need.ok e.leaf = false → (t.core c).dtlb = (s.core c).dtlb ∧
          (t.strand c k).walked = some (va, s.arg.n, { cls := 9, addr := va.setWidth 64 })) ∧
        (∀ cls lines, s.walk (s.strand c k).job va = .fault cls lines → (t.core c).dtlb = (s.core c).dtlb ∧
          (t.strand c k).walked = some (va, s.arg.n, { cls := cls, addr := va.setWidth 64 })))

/-- Stale translations (R180): an invalidation removes every entry built from the line from the cluster's TLB and from those of its cores, and its
acknowledgement follows; that leaves for the line's home once no noted access is outstanding. Every 32 cycles each core's logical time advances
by 1 (R186). -/
def Sys2Proof.Invalidations : Prop :=
  ∀ (s : State),
    (∃ t, exec .translationInvalidation s = .next t ∧ (∀ e ∈ (t.cluster s.arg.cl).l2, s.arg.n ∉ e.lines) ∧
      (∀ c, clusterOf c = s.arg.cl → ∀ e, e ∈ (t.core c).dtlb ∨ e ∈ (t.core c).itlb → s.arg.n ∉ e.lines) ∧
      (∀ c, clusterOf c ≠ s.arg.cl → t.core c = s.core c) ∧ t.mem = s.mem ∧
      (s.now, Instr.invalidationAcknowledgement, ({ cl := s.arg.cl, n := s.arg.n } : StepArg)) ∈ t.agenda) ∧
    (let left := (s.cluster s.arg.cl).invWait.filter fun e => e.1 = s.arg.n && (s.core e.2.1).pendingIds.contains e.2.2
     (left ≠ [] → ∃ t, exec .invalidationAcknowledgement s = .next t ∧ t.msgs = s.msgs ∧
       (s.now + 16, Instr.invalidationAcknowledgement, ({ cl := s.arg.cl, n := s.arg.n } : StepArg)) ∈ t.agenda) ∧
     (left = [] → ∃ t m, exec .invalidationAcknowledgement s = .next t ∧ sentMsg t s.nextId = some m ∧ m.body = .invAck s.arg.n ∧
       m.src = s.epSlice s.arg.cl ∧ m.dst = s.epSlice (homeSlice (128 * s.arg.n)) ∧ t.mem = s.mem)) ∧
    (∃ t, exec .ptsTick s = .next t ∧ (∀ c, (t.core c).pts = (s.core c).pts + 1 ∧ { t.core c with pts := (s.core c).pts } = s.core c) ∧
      { t with cores := s.cores, ptsIdle := s.ptsIdle } = s)

/-- A barrier object's operation on 16 sound bytes of its bank (R232, R233): INIT arms it with EXPECTED; ARR overruns, sets OVR and faults, or adds its
count, or, where that makes EXPECTED, clears ARRIVED and MASK and advances PHASE; WAIT has its answer where PHASE differs and otherwise sets its
core's MASK bit and waits, or is withdrawn where its job is being stopped (R393). A notice has the core's waits look again, and the limit of a wait
gives it bit 63 with the phase, once whatever else happens in its core cycle has happened. -/
def Sys2Proof.BarrierObjectSteps : Prop :=
  ∀ (s : State),
    (∀ (r : Req) (w0 mask : Word), s.msgReq s.arg.n = some r →
      let a := offOf r.pa
      let word := fun (t : State) (o : Nat) => (leBits 64 (Memory.read t.mem (a + o) 8) : Word)
      isLocal a = true → s.bankFault r = none → s.memBad a 16 = false → (∀ n ∈ slotsOf (localOff a) 16, (s.slot (localCore a) n).busy = false) →
      s.poisons = [] → word s 0 = w0 → word s 8 = mask →
      let ex := w0.toNat % 2 ^ 16
      let ar := w0.toNat / 2 ^ 16 % 2 ^ 16
      let ph := w0.toNat / 2 ^ 32 % 16
      (r.kind = .mbarInit → ∃ t, exec .barrierObjectOperation s = .next t ∧ word t 8 = 0#64 ∧ (word t 0).toNat = 2 ^ 37 + r.w0.toNat % 2 ^ 16) ∧
      (r.kind = .mbarArr → w0.getLsbD 37 = true → 1 ≤ r.w0.toNat → r.w0.toNat < 2 ^ 16 →
        (ex < ar + r.w0.toNat → ∃ t m, exec .barrierObjectOperation s = .next t ∧ word t 0 = w0 ||| 0x1000000000#64 ∧ word t 8 = mask ∧
          sentMsg t s.nextId = some m ∧ ∃ v, m.body = .reply r v ∧ v.fault = some { cls := 16, addr := r.va.setWidth 64 }) ∧
        (ar + r.w0.toNat < ex → ∃ t, exec .barrierObjectOperation s = .next t ∧ word t 8 = mask ∧
          (word t 0).toNat = w0.toNat + r.w0.toNat * 2 ^ 16) ∧
        (ar + r.w0.toNat = ex → ∃ t, exec .barrierObjectOperation s = .next t ∧ word t 8 = 0#64 ∧
          (word t 0).toNat % 2 ^ 16 = ex ∧ (word t 0).toNat / 2 ^ 16 % 2 ^ 16 = 0 ∧ (word t 0).toNat / 2 ^ 32 % 16 = (ph + 1) % 16 ∧
          (word t 0).toNat / 2 ^ 36 = w0.toNat / 2 ^ 36)) ∧
      (r.kind = .mbarWait →
        (ph ≠ r.w0.toNat % 16 → ∃ t m, exec .barrierObjectOperation s = .next t ∧ t.mem = s.mem ∧ sentMsg t s.nextId = some m ∧
          ∃ v, m.body = .reply r v ∧ v.fault = none ∧ v.w0.toNat = ph) ∧
        (ph = r.w0.toNat % 16 → s.stopHolds r = true → ∃ t m v, exec .barrierObjectOperation s = .next t ∧ t.mem = s.mem ∧
          sentMsg t s.nextId = some m ∧ m.body = .reply r v ∧ v.withdrawn = true) ∧
        (ph = r.w0.toNat % 16 → s.stopHolds r = false → ∃ t, exec .barrierObjectOperation s = .next t ∧ word t 0 = w0 ∧
          word t 8 = mask ||| (1#64 <<< (r.core.toNat % 64)) ∧ ∀ x ∈ (t.core r.core).reqs, x.id = r.id → x.waiting = true))) ∧
    (∀ m c pa, sentMsg s s.arg.n = some m → m.body = .barNotice c pa → ∃ t, exec .barrierObjectNotice s = .next t ∧ t.mem = s.mem ∧
      (∀ x ∈ (t.core c).reqs, ∀ y ∈ (s.core c).reqs, x.id = y.id → y.kind = .mbarWait → y.pa = pa → y.waiting = true → x.waiting = false) ∧
      ∀ k, t.strand c k = s.strand c k) ∧
    (∀ r, (s.core s.arg.c).reqs.find? (fun r => r.id == s.arg.n && r.kind == .mbarWait) = some r →
      let others := s.agenda.any fun e => decide (e.1 ≤ 2 * s.cycle + 1) && e.2.1 != .mbarWaitTimeout
      (others = true → exec .mbarWaitTimeout s = .next (s.push (2 * s.cycle + 1 - s.now) .mbarWaitTimeout { c := s.arg.c, n := s.arg.n })) ∧
      (others = false → r.waiting = true → ∃ t m v, exec .mbarWaitTimeout s = .next t ∧ sentMsg t s.nextId = some m ∧ m.body = .reply r v ∧
        v.w0.getLsbD 63 = true ∧ v.w0.extractLsb' 0 4 = r.w0.extractLsb' 0 4 ∧ t.mem = s.mem) ∧
      (others = false → r.waiting = false → exec .mbarWaitTimeout s =
        .next (s.push 2 .mbarWaitTimeout { c := s.arg.c, k := r.strand, n := s.arg.n })))

/-! ## Homes (spec/09_memory.md R180 to R198; spec/10_isa_memory.md R207, R216 to R220; spec/05_placement.md R92, R93; spec/04_launch.md R68) -/

/-- A request of message n that its home serves: for bytes of one line of this device's tiers, which the host does not hold; no second part of a
row of a copy goes with it (R287). -/
structure Sys2Proof.AtHome (s : State) (n : Nat) (r : Req) (size : Nat) : Prop where
  arg : s.arg.n = n
  req : s.msgReq n = some r
  own : devOf r.pa = s.devnum
  tier : isTier (offOf r.pa) = true
  line : offOf r.pa % 128 + size ≤ 128
  free : s.hostHolds (offOf r.pa) = false
  single : r.twin = none
  sound : s.poisons = [] ∧ s.lostAt (offOf r.pa) = false

/-- The n bytes at the address of a request as its job reads them (R199, R200). -/
def Sys2Proof.homeBytes (s : State) (r : Req) (n : Nat) : List Byte := s.memRead (s.reqKey r) (offOf r.pa) n

/-- The home's record of the line that a request names, once the request has reached it: a line that the slice did not hold has been filled
(R184, R186). -/
def Sys2Proof.homeOf (s : State) (r : Req) : HomeLine := (s.visitReq r).homeLine (offOf r.pa / 128)

/-- A reply of a request, sent as message i. -/
def Sys2Proof.Replied (t : State) (i : Nat) (r : Req) (v : Rep) : Prop :=
  ∃ m, sentMsg t i = some m ∧ m.body = .reply r v ∧ m.dst = r.ret.getD (t.epCore r.core)

/-- A coherent write at its home has taken its logical time (R185). -/
def Sys2Proof.Stamped (s t : State) (r : Req) : Prop :=
  r.nc = false →
  let h := if r.pts < (homeOf s r).rts + 1 then (homeOf s r).rts + 1 else r.pts
  (homeOf t r).wts = h ∧ (homeOf t r).rts = h

/-- No walker has read the line of a request (R180): its reply leaves at once. -/
def Sys2Proof.Unwalked (s : State) (r : Req) : Prop := (homeOf s r).map = [] ∧ (homeOf s r).acks = []

/-- Reads and stores at the home of a coherent line (R184, R185, R190): a read extends the lease and returns the line with its times; a store leaves its
bytes, takes the next logical time, and its reply carries it; a write-back leaves the bytes that its mask covers. A write of a line that the host
holds waits for the host (R68). That a read of a non-coherent line hands on the time of its last write, and a write-back takes one, is the model's
reading of R330 (log 17, DEDUCED). -/
def Obligations.LoadsAndStoresAtHome : Prop :=
  ∀ (s : State) (n : Nat) (r : Req),
    (AtHome s n r r.size → r.kind ∈ [ReqKind.load, .loadM, .pref, .filln] →
      let rts := if (homeOf s r).rts < r.pts + r.lease then r.pts + r.lease else (homeOf s r).rts
      ∃ t v, exec .coherentLoadRenewal s = .next t ∧ Replied t s.nextId r v ∧ v.line = s.lineAt (s.reqKey r) (offOf r.pa) ∧ v.fault = none ∧
        (r.nc = false → v.wts = (homeOf s r).wts ∧ v.rts = rts ∧ (homeOf t r).rts = rts ∧ (homeOf t r).wts = (homeOf s r).wts) ∧
        (r.nc = true → v.wts = (homeOf s r).wts) ∧ t.mem = s.mem) ∧
    (AtHome s n r r.size → r.kind = .store ∨ r.kind = .storeM → r.size ≤ 16 →
      ∃ t, exec .coherentStoreAtHome s = .next t ∧ homeBytes t r r.size = r.bytes ∧ Stamped s t r ∧
        (∀ y, y / 128 ≠ offOf r.pa / 128 → Memory.get t.mem y = Memory.get s.mem y) ∧
        (Unwalked s r → ∃ v, Replied t s.nextId r v ∧ (r.nc = false → v.wts = (homeOf t r).wts) ∧ v.fault = none)) ∧
    (AtHome s n r 128 → r.kind = .writeback → r.pois = 0 → ∃ t, exec .noncoherentWriteback s = .next t ∧
      (∀ i, i < 128 → (t.memRead (s.reqKey r) (offOf r.pa) 128)[i]? =
        if r.mask.getLsbD i then some (r.line.extractLsb' (8 * i) 8) else (homeBytes s r 128)[i]?) ∧
      (homeOf t r).wts = (if r.pts < (homeOf s r).rts + 1 then (homeOf s r).rts + 1 else r.pts) ∧
      (∀ y, y / 128 ≠ offOf r.pa / 128 → Memory.get t.mem y = Memory.get s.mem y)) ∧
    (s.arg.n = n → s.msgReq n = some r → devOf r.pa = s.devnum → s.hostHolds (offOf r.pa) = true →
      ∀ i, i ∈ [Instr.coherentStoreAtHome, .noncoherentWriteback, .amoAtHome, .reductionAtHome, .fullEmptyAtHome, .iterationClaim] →
        exec i s = .next (if (offOf r.pa / 128, n) ∈ s.backInv then s else { s with backInv := s.backInv ++ [(offOf r.pa / 128, n)] }))

/-- The new value of an AMO (R219): none for a CAS that does not match; FADD adds FP32 in two lanes. -/
def Sys2Proof.amoResult (op : Nat) (a b x : Word) : Option Word :=
  if op = 0 then some (a + b) else if op = 1 then some (a &&& b) else if op = 2 then some (a ||| b) else if op = 3 then some (a ^^^ b)
  else if op = 4 then some (if b.toInt < a.toInt then b else a) else if op = 5 then some (if a.toInt < b.toInt then b else a)
  else if op = 6 then some (if b.toNat < a.toNat then b else a) else if op = 7 then some (if a.toNat < b.toNat then b else a)
  else if op = 8 then some b else if op = 9 then (if a = x then some b else none) else some (fadd2 a b)

/-- Atomics, reductions and claims at the home of a coherent line (R185, R192, R219, R220, R92, R93): an AMO leaves the new value of its operation and
returns the old one; a reduction adds integers or FP32 lanes; a claim takes its chunk of a nest from NEXT. Each takes a logical time. -/
def Sys2Proof.AtomicsAtHome : Prop :=
  ∀ (s : State) (n : Nat) (r : Req),
    let old : Word := leBits 64 (homeBytes s r 8)
    (AtHome s n r 8 → ∀ op, r.kind = .amo op → ∃ t, exec .amoAtHome s = .next t ∧ Stamped s t r ∧
      (leBits 64 (homeBytes t r 8) : Word) = (amoResult op old r.w0 r.w1).getD old ∧
      (∀ y, y / 128 ≠ offOf r.pa / 128 → Memory.get t.mem y = Memory.get s.mem y) ∧
      (Unwalked s r → ∃ v, Replied t s.nextId r v ∧ v.w0 = old ∧ v.fault = none)) ∧
    (AtHome s n r 8 → ∀ op, r.kind = .red op → ∃ t, exec .reductionAtHome s = .next t ∧ Stamped s t r ∧
      (leBits 64 (homeBytes t r 8) : Word) = (if op = 16 then old + r.w0 else fadd2 old r.w0) ∧
      (∀ y, y / 128 ≠ offOf r.pa / 128 → Memory.get t.mem y = Memory.get s.mem y)) ∧
    (AtHome s n r 32 → ∀ iter, r.kind = .claim iter →
      let w := fun i => (leBits 64 ((homeBytes s r 32).drop (8 * i)) : Word).toNat
      let rem := w 1 - w 0
      let x := s.launch r.job r.lslot
      let part := if w 2 / 2 ^ 16 % 2 ^ 16 = 0 then (bitsOf x.cores).length * (bitsOf x.cmask).length * x.strandsPerCore else w 2 / 2 ^ 16 % 2 ^ 16
      let least := if w 2 % 2 ^ 16 = 0 then 1 else w 2 % 2 ^ 16
      let chunk := if rem = 0 then 0 else min rem (max least ((rem + 2 * part - 1) / (2 * part)))
      ∃ t, exec .iterationClaim s = .next t ∧ Stamped s t r ∧ (leBits 64 (homeBytes t r 8) : Word) = BitVec.ofNat 64 (w 0 + chunk) ∧
        (∀ y, y / 128 ≠ offOf r.pa / 128 → Memory.get t.mem y = Memory.get s.mem y) ∧
        (Unwalked s r → ∃ v, Replied t s.nextId r v ∧ v.w0 = BitVec.ofNat 64 (w 0) ∧ v.w1 = BitVec.ofNat 64 chunk))

/-- A full-empty operation at its home (R216 to R218): LDFE and LDFF proceed on a full word, STEF on an empty one, STFF and FEPURGE always; LDFE and
FEPURGE leave it empty, the others full, and the stores leave their value; with nothing else waiting for the word its reply leaves with the value
read. One that cannot proceed waits in a waiter record, or is refused where none of the 512 is free; where its job is being stopped it is withdrawn
at once (R393). What waits for a strand's full-empty words is withdrawn with the strand. -/
def Sys2Proof.FullEmptyAtHome : Prop :=
  ∀ (s : State) (n : Nat) (r : Req),
    (AtHome s n r 8 → n ≠ s.nextId → r.kind ∈ [ReqKind.ldfe, .ldff, .stef, .stff, .fepurge] →
      let a := offOf r.pa
      let go := (r.kind = .ldfe ∨ r.kind = .ldff → s.full a = true) ∧ (r.kind = .stef → s.full a = false)
      (go → (∀ x ∈ s.waitersOf a, offOf x.pa / 8 ≠ a / 8) → (∀ x ∈ (s.cluster (waitCluster a)).waitw, offOf x.pa / 8 ≠ a / 8) →
        ∃ t, exec .fullEmptyAtHome s = .next t ∧ (t.full a = false ↔ r.kind = .ldfe ∨ r.kind = .fepurge) ∧ Stamped s t r ∧
          (leBits 64 (homeBytes t r 8) : Word) = (if r.kind = .stef ∨ r.kind = .stff then r.w0 else leBits 64 (homeBytes s r 8)) ∧
          (r.kind = .ldfe ∨ r.kind = .ldff → ∃ v, Replied t s.nextId r v ∧ v.w0 = leBits 64 (homeBytes s r 8) ∧ v.fault = none)) ∧
      (¬go → s.stopHolds r = true → ∃ t v, exec .fullEmptyAtHome s = .next t ∧ Replied t s.nextId r v ∧ v.withdrawn = true ∧
        t.waitersOf a = s.waitersOf a ∧ t.full a = s.full a ∧ t.mem = s.mem) ∧
      (¬go → s.stopHolds r = false → (s.waitersOf a).length < 512 → ∃ t, exec .fullEmptyAtHome s = .next t ∧ t.waitersOf a = s.waitersOf a ++ [{ r with waiting := true }] ∧
        t.full a = s.full a ∧ t.mem = s.mem) ∧
      (¬go → s.stopHolds r = false → 512 ≤ (s.waitersOf a).length → ∃ t m, exec .fullEmptyAtHome s = .next t ∧ sentMsg t s.nextId = some m ∧ m.body = .retry n ∧
        m.kind = 0x22#6 ∧ t.waitersOf a = s.waitersOf a ∧ t.mem = s.mem)) ∧
    (∃ t, exec .waiterWithdrawal s = .next t ∧ t.mem = s.mem ∧ (∀ c k, t.strand c k = s.strand c k) ∧
      ∀ q ∈ s.strandReqs s.arg.c s.arg.k, q.kind ∈ [ReqKind.ldfe, .ldff, .stef] →
        ∀ x ∈ t.waitersOf (offOf q.pa), ¬(x.id = q.id ∧ x.core = q.core))

/-- An access that reaches the bank of a local memory (R171, R182): one of a slot of another job, or past the slots, has the fault of that check for its
reply; a store leaves its bytes, a load's reply carries the line. -/
def Sys2Proof.RemoteAccesses : Prop :=
  ∀ (s : State) (r : Req), s.msgReq s.arg.n = some r →
    let a := offOf r.pa
    isLocal a = true → s.poisons = [] → r.kind.fullEmpty = false → r.twin = none →
    (∀ f, s.bankFault r = some f → ∃ t v, exec .remoteLocalAccess s = .next t ∧ Replied t s.nextId r v ∧ v.fault = some f ∧ t.mem = s.mem) ∧
    (s.bankFault r = none → (∀ m ∈ slotsOf (localOff a) r.size, (s.slot (localCore a) m).busy = false) →
      (r.kind = .store → r.size ≤ 8 → ∃ t, exec .remoteLocalAccess s = .next t ∧ Memory.read t.mem a r.size = bytesOf r.size (r.w1 ++ r.w0) ∧
        (∀ y, y < a ∨ a + r.size ≤ y → Memory.get t.mem y = Memory.get s.mem y)) ∧
      (r.kind = .load → ∃ t v, exec .remoteLocalAccess s = .next t ∧ Replied t s.nextId r v ∧ v.line = s.lineAt none a ∧ v.fault = none ∧
        t.mem = s.mem))

/-- RESIZE at its slice (R157, R186, R194): where the version-store ways grow, the lines of the ways that change leave, and the slice-wide time takes in
their times; where they shrink, each way gives its near versions to the HBM storage first, and fewer ways change where that has no room; the
reply is the number in effect. A host access holds its line; a host write leaves its bytes under the HOSTJOB key, and a read answers with the bytes
as that key reads them (R420); a response releases the line and the writes that waited (R68, R199). -/
def Sys2Proof.SlicesAndHost : Prop :=
  ∀ s : State,
    (∀ r, s.msgReq s.arg.n = some r → r.kind = .resize → r.w0.toNat ≤ 15 →
      let cl := clusterOf r.core
      let a := s.cluster cl
      (∀ q ∈ a.vwait, q.kind ≠ .verst ∧ ¬(q.job = r.job ∧ q.w0 = 0#64)) →
      ∃ t v, exec .resizeAtSlice s = .next t ∧ Replied t s.nextId r v ∧ v.w0 = BitVec.ofNat 64 (t.cluster cl).vways ∧ v.fault = none ∧
        t.mem = s.mem ∧ (t.cluster cl).vers.map (·.tile) = a.vers.map (·.tile) ∧
        (a.vways < r.w0.toNat → (t.cluster cl).vways = r.w0.toNat ∧ (t.cluster cl).vers = a.vers ∧
          (∀ ln w, (Tab.get {} (t.cluster cl).lines ln).way = some w → ¬(16 - r.w0.toNat ≤ w ∧ w ≤ 15 - a.vways)) ∧
          (∀ ln w, (Tab.get {} a.lines ln).way = some w → 16 - r.w0.toNat ≤ w → w ≤ 15 - a.vways →
            (Tab.get {} a.lines ln).rts ≤ (t.cluster cl).mts ∧ (Tab.get {} a.lines ln).wts ≤ (t.cluster cl).mts)) ∧
        (r.w0.toNat ≤ a.vways → r.w0.toNat ≤ (t.cluster cl).vways ∧ (t.cluster cl).vways ≤ a.vways ∧ (t.cluster cl).lines = a.lines ∧
          (∀ x ∈ (t.cluster cl).vers, x.near = true → ¬(16 - a.vways ≤ x.vway ∧ x.vway < 16 - (t.cluster cl).vways)) ∧
          ((∀ x ∈ a.vers, x.near = false) → (t.cluster cl).vways = r.w0.toNat))) ∧
    (let a := s.arg.w0.toNat
     (isTier a = false ∨ s.stackOk a = false → exec .hostCxlMemoryAccess s = .next s) ∧
     (isTier a = true → s.stackOk a = true → ∃ t, exec .hostCxlMemoryAccess s = .next t ∧
       a / 128 ∈ t.hostLines ∧ (s.arg.ok = false → t.mem = s.mem ∧ t.hostData = s.memRead s.hostKey a (min s.arg.n (128 - a % 128))) ∧
       (s.arg.ok = true → a % 128 + s.arg.n ≤ 128 → t.memRead s.hostKey a s.arg.n = (bytesOf 128 s.arg.line).take s.arg.n ∧
         ∀ y, y / 128 ≠ a / 128 → Memory.get t.mem y = Memory.get s.mem y))) ∧
    (∃ t, exec .backInvalidateResponse s = .next t ∧ s.arg.n ∉ t.hostLines ∧ (∀ e ∈ t.backInv, e.1 ≠ s.arg.n) ∧
      (∀ i, (s.arg.n, i) ∈ s.backInv → i ≠ 0 → (s.now, Instr.packetReassembled, ({ n := i } : StepArg)) ∈ t.agenda) ∧
      { t with hostLines := s.hostLines, backInv := s.backInv, agenda := s.agenda } = s)

/-- An exchange of frames moves the frame to the place of its victim and the victim to its place, and changes nothing else but the record of its
accesses (R196, R197); a die whose eviction engine is off, or a frame that is not in the capacity tier, not hot or lost, exchanges nothing. -/
def Sys2Proof.FrameExchanges : Prop :=
  ∀ s : State,
    let n := s.arg.n
    let hits := Tab.get [] s.frameHits n
    let fit := s.arg.v ∉ s.evictOff ∧ isCap ((s.frame n).at' * 65536) = true ∧ hits.length = 16 ∧ (∀ x ∈ hits, s.now ≤ x + 179200) ∧ (s.frame n).lost = false
    (¬fit → exec .frameExchange s = .next s) ∧
    (∀ m, fit → m ≠ n → s.victim s.arg.v = some m → (s.victimKey m).1 = 0 ∨ (s.hintOf (s.frame m)).1 ≤ (s.hintOf (s.frame n)).1 →
      ∃ t, exec .frameExchange s = .next t ∧ (t.frame n).at' = (s.frame m).at' ∧ (t.frame m).at' = (s.frame n).at' ∧
        (∀ x, x ≠ n → x ≠ m → t.frame x = s.frame x) ∧ { t with frames := s.frames, frameHits := s.frameHits } = s)

/-! ## The ephemeris (spec/10_isa_memory.md R222 to R230; spec/18_optimistic.md R349, R363; spec/24_retire.md R416) -/

/-- A version request of message n, at the home of its tile. -/
structure Sys2Proof.AtVersions (s : State) (n : Nat) (r : Req) : Prop where
  arg : s.arg.n = n
  req : s.msgReq n = some r

/-- The entry of a request's version at its home. -/
def Sys2Proof.entryOf (s : State) (r : Req) : Option Version := (s.cluster (verHome r.job r.w0)).version r.job r.w0 r.w1

/-- Nothing waits at the home for the tile of a request or for storage, and no task has read the tile by time. -/
def Sys2Proof.Alone (s : State) (r : Req) : Prop :=
  (∀ q ∈ (s.cluster (verHome r.job r.w0)).vwait, q.kind ≠ .verst ∧ ¬(q.job = r.job ∧ q.w0 = r.w0)) ∧
    ∀ m ∈ (s.cluster (verHome r.job r.w0)).asof, ¬(m.job = r.job ∧ m.name = r.w0)

/-- A request has been answered, and nothing of the machine but its home has changed. -/
def Sys2Proof.Settled (s t : State) (r : Req) (v : Rep) : Prop :=
  Replied t s.nextId r v ∧ t.mem = s.mem ∧ t.cores = s.cores ∧ t.jobs = s.jobs

/-- A VERST at its home (R222, R223, R224): a version that is not there is created with the tile's data, TENTATIVE for an optimistic task, POISONED for
a poisoned tile, else COMMITTED, with its read count; while no storage can be obtained it waits, its strand parked on a reservation slot, or is
withdrawn where its job is being stopped (R393); its creator's retry succeeds without a change; another's takes the version-conflict fault. R222
speaks of storage: that a store waits for a free entry of the ephemeris in the same way is the model's reading (log 17, DEDUCED). -/
def Sys2Proof.VersionStoresAtHome : Prop :=
  ∀ (s : State) (n : Nat) (r : Req), AtVersions s n r →
    let cl := verHome r.job r.w0
    let missing := entryOf s r = none ∨ ∃ y, entryOf s r = some y ∧ y.st = .absent
    (missing → (s.cluster cl).entryFree r.job r.w0 r.w1 = false ∨ s.storage cl r.job r.w0 r.tile = none → s.stopHolds r = true →
      ∃ t v, exec .versionStoreAtHome s = .next t ∧ Settled s t r v ∧ v.withdrawn = true ∧ t.clusters = s.clusters) ∧
    (missing → (s.cluster cl).entryFree r.job r.w0 r.w1 = false ∨ s.storage cl r.job r.w0 r.tile = none → s.stopHolds r = false →
      ∃ t, exec .versionStoreAtHome s = .next t ∧ (t.cluster cl).vwait = (s.cluster cl).vwait ++ [{ r with waiting := true }] ∧
        (t.cluster cl).vers = (s.cluster cl).vers ∧ t.mem = s.mem ∧
        ((s.strand r.core r.strand).park = .reply r.id 2 → (t.strand r.core r.strand).park = .reply r.id 6)) ∧
    (Alone s r → missing → (s.cluster cl).entryFree r.job r.w0 r.w1 = true → (s.storage cl r.job r.w0 r.tile).isSome = true →
      (∀ y ∈ (s.cluster (verHome r.job r.w0)).vers, y.job = r.job → y.name = r.w0 → y.ver = r.w1) →
      ∃ t v x, exec .versionStoreAtHome s = .next t ∧ Settled s t r v ∧ v.fault = none ∧ entryOf t r = some x ∧
        x.st = (if r.tile.poison = true then .poisoned else if r.opt = true then .tentative else .committed) ∧ x.creator = r.ident ∧
        x.unlimited = decide (r.w2 = 0#64) ∧ x.r = r.w2.toNat ∧ x.p = 0 ∧ x.tile = { r.tile with poison := false } ∧ x.marks = []) ∧
    (∀ y, entryOf s r = some y → y.st ≠ .absent →
      (y.dec = false → y.creator = r.ident → ∃ t v, exec .versionStoreAtHome s = .next t ∧ Settled s t r v ∧ v.fault = none ∧ entryOf t r = some y) ∧
      (y.dec = true ∨ y.creator ≠ r.ident → ∃ t v, exec .versionStoreAtHome s = .next t ∧ Settled s t r v ∧ entryOf t r = some y ∧
        v.fault = some { cls := 14, addr := r.w0, aux := r.w1 }))

/-- Exact loads and VERREL at the home (R225, R227): a DEAD version takes the version-dead fault; one that is not there, is tentative for a
conservative reader, or has no read left makes the request wait; else the tile is granted, poisoned where the version is; a conservative reader
uses up one read of a counted version, whose last read kills it, and an optimistic one holds it with a mark. Where the job is being stopped, what
would wait is withdrawn (R393). That the hold P counts for an unlimited version as well is the model's reading (log 17, DEDUCED). -/
def Sys2Proof.ExactLoads : Prop :=
  ∀ (s : State) (n : Nat) (r : Req), AtVersions s n r → r.kind = .verldEq ∨ r.kind = .verrel → Alone s r →
    let cl := verHome r.job r.w0
    let waits := (s.stopHolds r = true → ∃ t v, exec .versionLoadAtHome s = .next t ∧ Settled s t r v ∧ v.withdrawn = true) ∧
      (s.stopHolds r = false → ∃ t, exec .versionLoadAtHome s = .next t ∧ (t.cluster cl).vwait = (s.cluster cl).vwait ++ [{ r with waiting := true }] ∧
        t.mem = s.mem ∧ t.cores = s.cores)
    (entryOf s r = none → waits) ∧
    (∀ y, entryOf s r = some y →
      (y.st = .absent ∨ y.st = .retracted ∨ (y.st = .tentative ∧ r.opt = false) → waits) ∧
      (y.st = .dead → ∃ t v, exec .versionLoadAtHome s = .next t ∧ Settled s t r v ∧ v.fault = some { cls := 15, addr := r.w0, aux := r.w1 } ∧
        entryOf t r = some y) ∧
      (y.st = .committed ∨ y.st = .poisoned ∨ (y.st = .tentative ∧ r.opt = true) →
        (y.unlimited = false → y.r ≤ y.p → waits) ∧
        (y.unlimited = true ∨ y.p < y.r → ∃ t v, exec .versionLoadAtHome s = .next t ∧ Settled s t r v ∧ v.fault = none ∧
          v.tile.bytes = y.tile.bytes ∧ v.tile.layout = y.tile.layout ∧ v.tile.scales = y.tile.scales ∧
          (v.tile.poison = true ↔ y.st = .poisoned ∨ y.tile.poison = true) ∧
          (r.opt = true → entryOf t r = some { y with p := y.p + 1, marks := y.marks ++ [(r.core, r.ident)] }) ∧
          (r.opt = false → y.unlimited = true → entryOf t r = some y) ∧
          (r.opt = false → y.unlimited = false → ¬(y.r = 1 ∧ y.p = 0) → entryOf t r = some { y with r := y.r - 1 }) ∧
          (r.opt = false → y.unlimited = false → y.r = 1 → y.p = 0 → ∃ z, entryOf t r = some z ∧ z.st = .dead ∧ z.tile = {}))))

/-- Loads by time (R226): an optimistic reader takes the latest version at or below its bound at once, and leaves a mark; a conservative one once GVT
has passed its bound and nothing tentative lies below. With no version to read, an optimistic one takes the version-dead fault where one has died,
a conservative one once GVT has passed its bound; else it waits, or is withdrawn where its job is being stopped (R393). That a version that has died
is remembered once its entry has returned to none is the model's reading (log 17, DEDUCED). -/
def Sys2Proof.LoadsByTime : Prop :=
  ∀ (s : State) (n : Nat) (r : Req), AtVersions s n r → r.kind = .verldAsof → Alone s r →
    let cl := verHome r.job r.w0
    let v0 := s.cluster cl
    let below := fun (x : Version) => x.job = r.job ∧ x.name = r.w0 ∧ x.ver ≤ r.w1
    let waits := (s.stopHolds r = true → ∃ t v, exec .versionLoadAtHome s = .next t ∧ Settled s t r v ∧ v.withdrawn = true) ∧
      (s.stopHolds r = false → ∃ t, exec .versionLoadAtHome s = .next t ∧ (t.cluster cl).vwait = v0.vwait ++ [{ r with waiting := true }] ∧
        t.mem = s.mem ∧ (t.cluster cl).vers = v0.vers)
    let dead := ∃ t v, exec .versionLoadAtHome s = .next t ∧ Settled s t r v ∧ v.fault = some { cls := 15, addr := r.w0, aux := r.w1 }
    (∀ x, v0.latest r.job r.w0 r.w1 = some x → (below x ∧ x.live = true ∧ x ∈ v0.vers ∧ ∀ y ∈ v0.vers, below y → y.live = true → y.ver ≤ x.ver) ∧
      (r.opt = true → ∃ t v m, exec .versionLoadAtHome s = .next t ∧ Settled s t r v ∧ v.w0 = x.ver ∧ v.tile.bytes = x.tile.bytes ∧ v.fault = none ∧
        (t.cluster cl).asof = v0.asof ++ [m] ∧ m.name = r.w0 ∧ m.ver = x.ver ∧ m.t = r.ident ∧ m.core = r.core) ∧
      (r.opt = false → r.w1 < s.homeGvt cl r.job → (∀ y ∈ v0.vers, below y → y.st ≠ .tentative) →
        ∃ t v, exec .versionLoadAtHome s = .next t ∧ Settled s t r v ∧ v.w0 = x.ver ∧ v.tile.bytes = x.tile.bytes ∧ v.fault = none) ∧
      (r.opt = false → s.homeGvt cl r.job ≤ r.w1 ∨ (∃ y ∈ v0.vers, below y ∧ y.st = .tentative) → waits)) ∧
    (v0.latest r.job r.w0 r.w1 = none → (∀ y ∈ v0.vers, below y → y.live = false) ∧
      let died := (∃ y ∈ v0.vers, below y ∧ y.st = .dead) ∨ ∃ d ∈ v0.died, d.1 = r.job ∧ d.2.1 = r.w0 ∧ d.2.2 ≤ r.w1
      (r.opt = true → died → dead) ∧ (r.opt = true → ¬died → waits) ∧
      (r.opt = false → r.w1 < s.homeGvt cl r.job → dead) ∧ (r.opt = false → s.homeGvt cl r.job ≤ r.w1 → waits))

/-- A query (R229): state, residence, remaining reads, holds and the decoder's error of the entry, 0 where there is none. -/
def Sys2Proof.VersionQueries : Prop :=
  ∀ (s : State) (n : Nat) (r : Req), AtVersions s n r →
    ∃ t v, exec .versionQueryAtHome s = .next t ∧ Settled s t r v ∧ (t.cluster (verHome r.job r.w0)).vers = (s.cluster (verHome r.job r.w0)).vers ∧
      (entryOf s r = none → v.w0 = 0#64) ∧
      ∀ y, entryOf s r = some y →
        v.w0.toNat % 8 = (match y.st with | .absent => 1 | .tentative => 2 | .committed => 3 | .poisoned => 4 | .retracted => 5 | .dead => 6) ∧
        v.w0.getLsbD 3 = y.near ∧ (v.w0.toNat / 2 ^ 16 % 2 ^ 16 = if y.unlimited = true ∨ y.st = .dead then 0 else y.r % 2 ^ 16) ∧
        v.w0.toNat / 2 ^ 32 % 2 ^ 16 = min y.p 0xFFFF ∧ v.w0.toNat / 2 ^ 48 = (if y.st = .poisoned then y.err.toNat else 0)

/-- Retractions, releases, mark removals and commits (R223, R227, R228, R350, R358, R363): a retracted TENTATIVE version tells every reader that holds
a mark of it and returns to none, or to ABSENT while an exact read waits; another version stays. A release and the commit of a read end the hold
and its mark, the commit uses up the read; the commit of a creation makes it COMMITTED. A removal takes one mark by time away. That a release and a
commit lower P, and take the mark, of an unlimited version too is the model's reading (log 17, DEDUCED). -/
def Sys2Proof.VersionEnds : Prop :=
  ∀ (s : State) (n : Nat) (r : Req), AtVersions s n r →
    let cl := verHome r.job r.w0
    (∀ m, sentMsg s n = some m → entryOf s r = none ∨ (∃ y, entryOf s r = some y ∧ y.st ≠ .tentative) →
      ∃ t v, exec .versionRetraction s = .next t ∧ Replied t s.nextId r v ∧ v.fault = none ∧ entryOf t r = entryOf s r ∧ t.mem = s.mem) ∧
    (∀ m y, sentMsg s n = some m → entryOf s r = some y → y.st = .tentative → (∀ q ∈ (s.cluster cl).vwait, q.kind ≠ .verst) → ∃ t, exec .versionRetraction s = .next t ∧ t.mem = s.mem ∧
      ((s.cluster cl).waitedFor r.job r.w0 r.w1 = false → entryOf t r = none) ∧
      ((s.cluster cl).waitedFor r.job r.w0 r.w1 = true → ∃ z, entryOf t r = some z ∧ z.st = .absent) ∧
      (∀ e ∈ y.marks, ∃ i q, sentMsg t i = some q ∧ q.dst = s.epCore e.1 ∧
        q.body = .notice e.1 { straggler := false, name := r.w0, ver := r.w1, t := e.2 })) ∧
    (Alone s r → ∀ y, entryOf s r = some y →
      (∃ t v, exec .exactReadRelease s = .next t ∧ Settled s t r v ∧ entryOf t r =
        some (if y.live = true then { y with p := y.p - 1, marks := y.marks.erase (r.core, r.ident) } else y)) ∧
      (r.w2 = 4#64 → y.st = .tentative → ¬(y.unlimited = true ∧ ∃ z ∈ (s.cluster cl).vers, z.job = r.job ∧ z.name = r.w0 ∧ r.w1 < z.ver) →
        ∃ t v, exec .versionCommit s = .next t ∧ Settled s t r v ∧ entryOf t r = some { y with st := .committed }) ∧
      (r.w2 = 5#64 → y.live = true → y.unlimited = false →
        (1 < y.r ∨ 1 < y.p → ∃ t v, exec .versionCommit s = .next t ∧ Settled s t r v ∧
          entryOf t r = some { y with r := y.r - 1, p := y.p - 1, marks := y.marks.erase (r.core, r.ident) }))) ∧
    (∃ t v, exec .readMarkRemoval s = .next t ∧ Settled s t r v ∧ (t.cluster cl).vers = (s.cluster cl).vers ∧
      (t.cluster cl).asof = (s.cluster cl).asof.eraseP fun m =>
        m.job == r.job && m.name == r.w0 && m.ver == r.w1 && m.core == r.core && m.t == r.ident)

/-! ## The network (spec/14_network.md R305 to R322) -/

/-- The flits that a router has at its inputs on a plane in this cycle. -/
def Sys2Proof.arriving (s : State) (cl : ClusterId) (p : Nat) : List Flit :=
  s.flits.filter fun f => f.router == cl && f.plane == p && decide (f.at' ≤ s.now) && f.eject == .no

/-- A cycle of a router on a plane (R310): every flit that arrives leaves or is ejected, none is lost; a flit alone moves one hop nearer to its
destination, its age up to 4,095 one greater, a hop taking one cycle or five; at its destination it is ejected where it is accepted, else it is
deflected; a packet is injected on a free port with AGE 0, its first flit with a free tag. A request for a device without a route is dropped, and
its requester has the translation fault (R320). -/
def Sys2Proof.RouterCycles : Prop :=
  ∀ (s : State) (cl : ClusterId) (p : Nat), s.arg.cl = cl → s.arg.n = p →
    (∃ t, exec .routerCycle s = .next t ∧ t.mem = s.mem ∧ t.cores = s.cores ∧ t.jobs = s.jobs ∧
      (t.flits.length = s.flits.length ∨ t.flits.length = s.flits.length + 1) ∧
      ∀ i, i < s.flits.length → t.flits[i]?.map (fun (f : Flit) => (f.m, f.key, f.dst, f.plane, f.fidx)) =
        s.flits[i]?.map (fun (f : Flit) => (f.m, f.key, f.dst, f.plane, f.fidx))) ∧
    (∀ f, arriving s cl p = [f] → s.injectable cl p = none →
      let moved := fun (t : State) (q : Nat) (n : ClusterId) => neighbour cl q = some n ∧ t.flits = s.flits.map fun x =>
        if x = f then { f with router := n, port := (q + 2) % 4, at' := s.now + hopTime cl n, age := min (f.age + 1) 4095 } else x
      (f.dst.router ≠ cl → ∃ t q n, exec .routerCycle s = .next t ∧ moved t q n ∧ hops n f.dst.router + 1 = hops cl f.dst.router) ∧
      (f.dst.router = cl → s.accepts cl f = none → ∃ t q n, exec .routerCycle s = .next t ∧ moved t q n) ∧
      (f.dst.router = cl → ∀ u e, s.accepts cl f = some (u, e) → ∃ t, exec .routerCycle s = .next t ∧
        t.flits = s.flits.map (fun x => if x = f then { f with eject := e } else x) ∧
        (s.now, Instr.flitEjection, ({ cl := cl, n := f.m, v := f.fidx } : StepArg)) ∈ t.agenda)) ∧
    (arriving s cl p = [] → ∀ id m i rest, s.injectable cl p = some (id, m) → m.due = i :: rest → m.dst.dev = s.devnum → m.proxy = none →
      ∃ t f q, exec .routerCycle s = .next t ∧ t.flits = s.flits ++ [f] ∧ f.m = id ∧ f.fidx = i ∧ f.fcnt = m.fcnt ∧ f.age = 0 ∧ f.dst = m.dst ∧
        f.plane = p ∧ f.key.src = m.src ∧ sentMsg t id = some q ∧ q.due = rest ∧ q.body = m.body ∧
        (m.due.length ≠ m.fcnt → f.key.tag = m.tag) ∧
        (m.due.length = m.fcnt → f.key.tag.toNat ∉ (s.cluster cl).tags ∧ (t.cluster cl).tags = (s.cluster cl).tags ++ [f.key.tag.toNat])) ∧
    (arriving s cl p = [] → ∀ id m r, s.injectable cl p = some (id, m) → m.due.length = m.fcnt → m.dst.dev ≠ s.devnum →
      Tab.get 0#16 s.routes m.dst.dev.toNat = 0#16 → m.proxy = none → m.body = .req r → ∃ t q, exec .routerCycle s = .next t ∧ t.flits = s.flits ∧
        sentMsg t s.nextId = some q ∧ q.dst = m.src ∧ q.body = .reply r { fault := some { cls := 6, addr := r.va.setWidth 64 } } ∧
        (id ≠ s.nextId → sentMsg t id = none) ∧ t.mem = s.mem) ∧
    (arriving s cl p = [] → s.injectable cl p = none → exec .routerCycle s = .next s)

/-- What a destination does with a flit that reaches it (R315): replies, notices and anti-messages are always taken; so is a flit of a packet that
has its pool entry; one of a packet that the filter knows is dropped; a new packet takes a pool entry while one of the 63 is free, the reserved one
if it is the comet, else a filter entry and a RETRY; where both are full the flit is not accepted. A port takes replies, anti-messages and the
comet (R311, R314); that it takes all that is for this device is the model's reading (log 13, DEDUCED). -/
def Sys2Proof.FlitAcceptance : Prop :=
  ∀ (s : State) (cl : ClusterId) (f : Flit), arriving s cl s.arg.n = [f] → s.arg.cl = cl → f.dst.router = cl →
    s.injectable cl s.arg.n = none →
    let e := f.dst.ep
    let pool := Tab.get [] (s.cluster cl).pools e
    let flt := Tab.get [] (s.cluster cl).filters e
    let gone := fun (t : State) (x : Eject) => exec .routerCycle s = .next t ∧ t.flits = s.flits.map fun y => if y = f then { f with eject := x } else y
    let mine := ∃ x ∈ pool, x.key = f.key ∧ x.held = none
    (e = 68 → f.to'.dev = s.devnum ∨ isReplyKind f.kind = true ∨ f.anti = true ∨ s.isComet f = true → ∃ t, gone t .take) ∧
    (e ≠ 68 → f.never = true ∨ mine → ∃ t, gone t .take) ∧
    (e ≠ 68 → f.never = false → ¬mine →
      (∀ due, flt.find? (fun x => x.1 == f.key) = some (f.key, due) → ∃ t, gone t (.drop false (decide (due ≤ 1)))) ∧
      ((∀ due, (f.key, due) ∉ flt) →
        let plain := (pool.filter fun x => x.comet = false).length
        (plain < 63 → ∃ t, gone t .take ∧ Tab.get [] (t.cluster cl).pools e = pool ++ [{ key := f.key }]) ∧
        (63 ≤ plain → s.isComet f = true → (∀ x ∈ pool, x.comet = false) →
          ∃ t, gone t .take ∧ Tab.get [] (t.cluster cl).pools e = pool ++ [{ key := f.key, comet := true }]) ∧
        (63 ≤ plain → s.isComet f = false ∨ (∃ x ∈ pool, x.comet = true) →
          (flt.length < 64 → ∃ t, gone t (.drop true (decide (f.fcnt = 1))) ∧
            (f.fcnt ≠ 1 → Tab.get [] (t.cluster cl).filters e = flt ++ [(f.key, f.fcnt - 1)])) ∧
          (64 ≤ flt.length → ∃ t n q, exec .routerCycle s = .next t ∧ neighbour cl q = some n ∧
            ({ f with router := n, port := (q + 2) % 4, at' := s.now + hopTime cl n, age := min (f.age + 1) 4095 } : Flit) ∈ t.flits))))

/-- Ejection (R309, R313, R315): flits are held until their packet is whole, which then takes effect, its tag free again; a refused packet's first flit
sends the RETRY to its source; a dropped last flit frees the tag, unless a proxy entry keeps it (R322). -/
def Sys2Proof.FlitEjections : Prop :=
  ∀ (s : State) (n i : Nat) (f : Flit), s.arg.n = n → s.arg.v = i →
    s.flits.find? (fun x => x.router == s.arg.cl && x.m == n && x.fidx == i && x.eject != .no) = some f →
    (∀ m, f.eject = .take → sentMsg s n = some m →
      (m.got.length + 1 < m.fcnt → exec .flitEjection s =
        .next { s with flits := s.flits.erase f, msgs := Tab.put s.msgs n { m with got := m.got ++ [i] } }) ∧
      (m.fcnt ≤ m.got.length + 1 → ∃ t, exec .flitEjection s = .next t ∧ t.flits = s.flits.erase f ∧
        (s.now, Instr.packetReassembled, ({ n := n } : StepArg)) ∈ t.agenda ∧ t.mem = s.mem ∧
        (f.proxied = false → f.key.tag.toNat ∉ (t.cluster f.key.src.router).tags))) ∧
    (∀ last, f.eject = .drop true last → ∃ t q, exec .flitEjection s = .next t ∧ t.flits = s.flits.erase f ∧ sentMsg t s.nextId = some q ∧
      q.body = .retry n ∧ q.dst = f.key.src ∧ q.kind = 0x22#6) ∧
    (∀ last, f.eject = .drop false last → ∃ t, exec .flitEjection s = .next t ∧ t.flits = s.flits.erase f ∧ t.msgs = s.msgs ∧
      (last = true → f.proxied = false → f.key.tag.toNat ∉ (t.cluster f.key.src.router).tags))

/-- A whole packet takes effect (R313, R315): the step that its body asks for follows, and its pool entry is the packet's own until that has taken it
in; a message of several packets waits for the others (R305). A packet for another device leaves by the port that it was routed to, which counts a
receipt and a send of a counted message in its own colour (R359), or waits there for a credit of its class (R320, R321). That a leaving packet takes
a credit of the model's number or waits in the port is the model's choice, and that its sender keeps it where it may be refused the model's reading
(log 13, DESIGN CHOICE and DEDUCED). -/
def Sys2Proof.WholePackets : Prop :=
  ∀ (s : State) (n : Nat) (m : Msg), s.arg.n = n → sentMsg s n = some m → n ≠ s.nextId → (∀ k, m.body ≠ .part k) →
    (m.dst.dev = s.devnum → 1 < m.parts → ∃ t, exec .packetReassembled s = .next t ∧ t.mem = s.mem ∧ t.cores = s.cores ∧
      sentMsg t n = some { m with parts := m.parts - 1 }) ∧
    (m.dst.dev = s.devnum → m.dst.ep ≠ 68 → m.parts ≤ 1 → (∀ ln, m.body ≠ .invAck ln) → ∃ t, exec .packetReassembled s = .next t ∧ t.mem = s.mem ∧
      (∀ c, { t.core c with reqs := (s.core c).reqs } = s.core c) ∧
      (let due := fun (i : Instr) => (s.now, i, ({ n := n } : StepArg)) ∈ t.agenda
       (∀ r v, m.body = .reply r v → due .replyArrival) ∧ (∀ k, m.body = .retry k → due .retryReceive) ∧
       (∀ q c, m.body = .task q c → due (if q.t.anti = true then .antiMessageArrival else .taskMessageArrival)) ∧
       (∀ k, m.body = .accepted k → due .taskMessageAccepted) ∧ (∀ c v, m.body = .notice c v → due .versionArrivalNotice) ∧
       (∀ c i, m.body = .wake c i → due .waitwWake) ∧
       (∀ r, m.body = .req r →
         (r.kind = .verst → due .versionStoreAtHome) ∧ (r.kind = .retract → due .versionRetraction) ∧ (r.kind = .putreg → due .putregFill) ∧
         (r.kind = .launch → due .launchRequestAtManagementCore) ∧
         (∀ op, r.kind = .amo op → due (if m.dst.ep < 64 then .remoteLocalAccess else .amoAtHome)) ∧
         (r.kind = .load → due (if m.dst.ep < 64 then .remoteLocalAccess else .coherentLoadRenewal)) ∧
         (r.kind = .store → due (if m.dst.ep < 64 then .remoteLocalAccess else .coherentStoreAtHome)))) ∧
      (m.src ≠ m.dst →
        ∀ x ∈ Tab.get [] (t.cluster m.dst.router).pools m.dst.ep, x.key = { src := m.src, tag := m.tag } → x.held ≠ none)) ∧
    (m.dst.dev = s.devnum → m.dst.ep = 68 → m.parts ≤ 1 → ∃ t, exec .packetReassembled s = .next t ∧ t.mem = s.mem ∧
      (s.now, Instr.jenayAnswerReturn, ({ v := portAt m.dst.router, n := n } : StepArg)) ∈ t.agenda) ∧
    (m.dst.dev ≠ s.devnum →
      let c := linkClass m.kind m.isAnti
      let p := s.port m.via
      let x := (s.job m.job).leaf (.port (BitVec.ofNat 4 m.via))
      ((∀ q d, m.body ≠ .task q d) → (∀ r, m.body = .req r → r.kind ≠ .retract) ∨ (s.job m.job).resident = false →
        ∃ t, exec .packetReassembled s = .next t ∧ t.mem = s.mem ∧ t.cores = s.cores ∧
          sentMsg t n = (if s.keeps m = true then some m else none) ∧
          (Tab.get 0 p.used c < Config.linkCredits c →
            t.port m.via = { p with out := p.out ++ [m], used := Tab.put p.used c (Tab.get 0 p.used c + 1) }) ∧
          (Config.linkCredits c ≤ Tab.get 0 p.used c → t.port m.via = { p with hold := p.hold ++ [m] })) ∧
      (∀ q d, m.body = .task q d → (s.job m.job).resident = true → ∃ t, exec .packetReassembled s = .next t ∧ t.mem = s.mem ∧ t.cores = s.cores ∧
        let y := (t.job m.job).leaf (.port (BitVec.ofNat 4 m.via))
        (m.colour = x.colour → y.colour = x.colour ∧ y.isOpen = x.isOpen ∧ y.cnt0 = x.cnt0 ∧ y.cnt1 = x.cnt1 ∧
          y.smin = if q.t.vt < x.smin then q.t.vt else x.smin) ∧
        (m.colour ≠ x.colour → x.isOpen = true → y.colour = x.colour ∧ y.isOpen = true ∧
          (if x.colour = true then y.cnt0 = x.cnt0 - 1 ∧ y.cnt1 = x.cnt1 + 1 else y.cnt0 = x.cnt0 + 1 ∧ y.cnt1 = x.cnt1 - 1)) ∧
        (m.colour ≠ x.colour → x.isOpen = false → y.colour = m.colour ∧ y.isOpen = true ∧ y.smin = q.t.vt)))

/-- RETRY and backoff (R316): the k-th RETRY of a packet makes it wait 32 × 2^(k−1) cycles, at most 1,024, and then it is sent again whole, once
nothing of it is left in the mesh (R309). -/
def Sys2Proof.RetriesAndBackoff : Prop :=
  ∀ (s : State) (n : Nat) (m : Msg), s.arg.n = n → sentMsg s n = some m →
    (∀ k r, m.body = .retry k → k ≠ n → sentMsg s k = some r → ∃ t, exec .retryReceive s = .next t ∧ sentMsg t n = none ∧
      sentMsg t k = some { r with refused := true, retries := r.retries + 1 } ∧
      (s.now + 32 * 2 ^ min r.retries 5, Instr.backoffExpiry, ({ n := k } : StepArg)) ∈ t.agenda ∧ t.mem = s.mem ∧ t.cores = s.cores) ∧
    (m.refused = true → s.inMesh n = true → exec .backoffExpiry s = .next (s.push 8 .backoffExpiry { n := n })) ∧
    (m.refused = true → s.inMesh n = false → ∃ t q, exec .backoffExpiry s = .next t ∧ sentMsg t n = some q ∧ q.refused = false ∧ q.body = m.body ∧ q.dst = m.dst ∧
      q.due = List.range m.fcnt ∧ q.retries = m.retries ∧ t.mem = s.mem ∧ t.cores = s.cores) ∧
    (m.refused = false → exec .backoffExpiry s = .next s)

/-- The end of a throttle window (R317, R318): the level goes at once to a higher target, one down toward a lower one; the counts of the window show
in CONG, saturating, and begin anew. The comet's identity advances (R311). -/
def Sys2Proof.ThrottleAndComet : Prop :=
  ∀ (s : State),
    let v := s.cluster s.arg.cl
    let target := if 8 * v.deflNow ≤ v.routedNow then 0 else if 4 * v.deflNow ≤ v.routedNow then 1 else if 2 * v.deflNow ≤ v.routedNow then 2 else 3
    (∃ t, exec .throttleWindowEnd s = .next t ∧ { t with clusters := s.clusters } = s ∧ (∀ d, d ≠ s.arg.cl → t.cluster d = s.cluster d) ∧
      t.cluster s.arg.cl = { v with level := if v.level < target then target else if target < v.level then v.level - 1 else v.level,
                                    routedNow := 0, deflNow := 0, routed := BitVec.ofNat 16 (min v.routedNow 0xFFFF),
                                    defl := BitVec.ofNat 16 (min v.deflNow 0xFFFF) }) ∧
    exec .cometAdvance s = .next { s with comet := (s.comet + 1) % 65536 }

/-- Jenay ports (R319 to R322): a packet from a link enters the mesh as one of the port, a request with a proxy entry that keeps its source and tag,
or waits while the port has no free entry; a failed port takes nothing; an answer goes back to the entry's source with its tag, and frees the
entry; an acknowledgement that only served the proxy ends there, and a RETRY waits until the refused packet has left the mesh. A credit that returns
lets the oldest packet of its class that waits leave, else it is free; a replay on a link changes nothing. The credits and the waiting are the model's
choice (log 13, DESIGN CHOICE). -/
def Sys2Proof.JenayPorts : Prop :=
  ∀ (s : State) (p n : Nat) (m : Msg), s.arg.v = p → s.arg.n = n →
    (sentMsg s n = some m →
      ((s.port p).failed = true → exec .jenayLinkArrival s = .next (s.dropMsg n)) ∧
      ((s.port p).failed = false → m.kind ≠ 0x30#6 → isReplyKind m.kind = false → 1024 ≤ (s.port p).proxies.length →
        exec .jenayLinkArrival s = .next (s.push 64 .jenayLinkArrival { v := p, n := n })) ∧
      ((s.port p).failed = false → m.kind ≠ 0x30#6 → isReplyKind m.kind = false → (s.port p).proxies.length < 1024 →
        ∃ t q e, exec .jenayLinkArrival s = .next t ∧ sentMsg t n = some q ∧ q.src = { dev := s.devnum, router := portRouter p, ep := 68 } ∧
          q.dst = m.dst ∧ q.proxy = some (BitVec.ofNat 4 p) ∧ (t.port p).proxies = (s.port p).proxies ++ [e] ∧ e.m = n ∧ e.src = m.src ∧
          e.tag = m.tag ∧ e.new = none ∧ t.mem = s.mem ∧ t.cores = s.cores) ∧
      ((s.port p).failed = false → isReplyKind m.kind = true → ∃ t q, exec .jenayLinkArrival s = .next t ∧ sentMsg t n = some q ∧ q.proxy = none ∧
        q.src = { dev := s.devnum, router := portRouter p, ep := 68 } ∧ q.dst = m.dst ∧ t.ports = s.ports ∧ t.mem = s.mem ∧ t.cores = s.cores)) ∧
    (∀ e, sentMsg s n = some m → n < s.nextId → (s.port p).proxies.find? (fun x => x.new == some m.answers) = some e → (∀ k, m.body ≠ .retry k) →
      ∃ t, exec .jenayAnswerReturn s = .next t ∧ (t.port p).proxies = (s.port p).proxies.filter (fun x => x.m ≠ e.m) ∧
        m.answers.toNat ∉ (t.cluster (portRouter p)).tags ∧ t.mem = s.mem ∧ t.cores = s.cores ∧
        (e.back = true → ∃ q, sentMsg t n = some q ∧ q.dst = e.src ∧ q.answers = e.tag ∧ q.body = m.body) ∧ (e.back = false → sentMsg t n = none)) ∧
    (∀ e k, sentMsg s n = some m → (s.port p).proxies.find? (fun x => x.new == some m.answers) = some e → m.body = .retry k → s.inMesh e.m = true →
      exec .jenayAnswerReturn s = .next (s.push 8 .jenayAnswerReturn { v := p, n := n })) ∧
    (∀ e k, sentMsg s n = some m → (s.port p).proxies.find? (fun x => x.new == some m.answers) = some e → m.body = .retry k → e.m ≠ n →
      s.inMesh e.m = false → ∃ t q, exec .jenayAnswerReturn s = .next t ∧ sentMsg t e.m = none ∧ sentMsg t n = some q ∧ q.dst = e.src ∧ q.answers = e.tag ∧ q.body = m.body) ∧
    (∃ t, exec .linkCreditReturn s = .next t ∧ { t with ports := s.ports } = s ∧
      let waits := (s.port p).hold.find? fun m => linkClass m.kind m.isAnti == n
      (∀ q, waits = some q → t.port p = { s.port p with hold := (s.port p).hold.erase q, out := (s.port p).out ++ [q] }) ∧
      (waits = none → t.port p = { s.port p with used := Tab.put (s.port p).used n (Tab.get 0 (s.port p).used n - 1) })) ∧
    exec .linkLevelReplay s = .next s

/-! ## Global virtual time, commit and rollback (spec/18_optimistic.md R345 to R363) -/

/-- The start of a round (R357 to R360): none for a job that is on no device of the domain, is stopped or has a round under way, nor at a device that is
not the root, the lowest of its domain; else the colour turns, every leaf is told to flip, or to flip and stop where a stop waits (R394), and a first
wave follows. A wave asks every leaf for a report, and at the root every other device. Which devices are the domain is the model's choice (log 19). -/
def Sys2Proof.RoundStarts : Prop :=
  ∀ (s : State) (j : JobId), s.arg.j = j →
    let v := s.job j
    ((v.resident = false ∧ v.round.users = []) ∨ v.stopped = true ∨ v.round.active = true ∨ s.root ≠ s.devnum.toNat ∨ v.round.held ≠ [] →
      exec .gvtRoundStart s = .next s) ∧
    (v.resident = true → v.stopped = false → v.round.active = false → s.root = s.devnum.toNat → v.round.held = [] → ∃ t, exec .gvtRoundStart s = .next t ∧
      (t.job j).round.active = true ∧ (t.job j).round.k = !v.rootColour ∧ (t.job j).round.stop = decide (v.round.asked ≠ []) ∧ (t.job j).round.reps = [] ∧
      (t.job j).gvt = v.gvt ∧ t.mem = s.mem ∧ t.cores = s.cores ∧
      (∀ n ∈ s.liveLeaves j, (s.now + 16, (if v.round.asked = [] then Instr.colourFlip else .stopFlip),
        ({ j := j, leaf := leafOf n, ok := !v.rootColour } : StepArg)) ∈ t.agenda) ∧
      (s.now + 32, Instr.gvtWaveStart, ({ j := j } : StepArg)) ∈ t.agenda) ∧
    (v.round.active = false → exec .gvtWaveStart s = .next s ∧ exec .colourFlip s = .next s ∧ exec .leafReport s = .next s ∧
      exec .gvtRoundClose s = .next s) ∧
    (v.round.active = true → v.round.stop = false → ∃ t, exec .gvtWaveStart s = .next t ∧ (t.job j).round.reps = [] ∧
      (t.job j).round.due = s.liveLeaves j ++ (if s.root = s.devnum.toNat then s.peers.map (4209 + ·) else []) ∧ (t.job j).gvt = v.gvt ∧ t.mem = s.mem ∧ t.cores = s.cores ∧
      (∀ n ∈ s.liveLeaves j, (s.now + 32, Instr.leafReport, ({ j := j, leaf := leafOf n } : StepArg)) ∈ t.agenda) ∧
      (s.now + 96, Instr.gvtRoundClose, ({ j := j } : StepArg)) ∈ t.agenda)

/-- A flip (R359): a leaf that is not open takes the round's colour, its count of the new colour and its least sent time begin anew, and it is open;
one that is open stays as it is. -/
def Sys2Proof.Flipped (k : Bool) (v w : LeafSt) : Prop :=
  (v.isOpen = true → w = v) ∧
  (v.isOpen = false → w.colour = k ∧ w.isOpen = true ∧ w.smin = BitVec.allOnes 64 ∧ w.gvt = v.gvt ∧
    w.cnt0 = (if k = true then v.cnt0 else 0) ∧ w.cnt1 = (if k = true then 0 else v.cnt1))

/-- Flips and reports of a leaf (R358 to R360): a flip is as said above; a report, after a flip where none has come yet, gives the least time that the
leaf holds and the least that it has sent, neither below the GVT it knows, with its count of the old colour. -/
def Sys2Proof.FlipsAndReports : Prop :=
  ∀ (s : State) (j : JobId) (x : Leaf), s.arg.j = j → s.arg.leaf = x → (s.job j).round.active = true →
    let k := (s.job j).round.k
    (∃ t, exec .colourFlip s = .next t ∧ Flipped k ((s.job j).leaf x) ((t.job j).leaf x) ∧ (t.job j).gvt = (s.job j).gvt ∧ t.mem = s.mem ∧
      t.cores = s.cores) ∧
    (∃ t r, exec .leafReport s = .next t ∧ Flipped k ((s.job j).leaf x) ((t.job j).leaf x) ∧ (t.job j).round.reps = (s.job j).round.reps ++ [r] ∧
      (t.job j).round.due = (s.job j).round.due.erase (leafNum x) ∧ r.leaf = leafNum x ∧ (t.job j).gvt = (s.job j).gvt ∧ t.mem = s.mem ∧
      t.cores = s.cores ∧
      (let v := (t.job j).leaf x
       r.cnt = (if v.colour = true then v.cnt0 else v.cnt1) ∧ r.smin = (if v.smin < v.gvt then v.gvt else v.smin) ∧ v.gvt ≤ r.lmin ∧
       (∀ c, x = .core c → ∀ q k, (k, q) ∈ (s.core c).strands → ∀ e, q.task = some e → e.t.job = j → r.lmin ≤ if e.t.vt < v.gvt then v.gvt else e.t.vt) ∧
       (∀ cl, x = .dispenser cl → ∀ c ∈ s.coresOf cl, ∀ q ∈ (s.core c).entries, q.t.job = j → r.lmin ≤ if q.t.vt < v.gvt then v.gvt else q.t.vt)))

/-- The close of a round (R360 to R362): while a leaf or device has not reported it waits, and while the counts do not balance another wave is asked for;
else GVT becomes the least time reported, never less than it was, the colour is taken over, every leaf is told, and ROUNDS counts, up to its limit. A
device that is not the root sends its leaves' reports on as one. -/
def Sys2Proof.RoundCloses : Prop :=
  ∀ (s : State) (j : JobId), s.arg.j = j → (s.job j).round.active = true → (s.job j).round.stop = false →
    let r := (s.job j).round
    let sum := (r.reps.map (·.cnt)).foldl (· + ·) 0
    (r.due ≠ [] → exec .gvtRoundClose s = .next (s.push 64 .gvtRoundClose { j := j })) ∧
    (r.due = [] → s.root ≠ s.devnum.toNat → ∃ t, exec .gvtRoundClose s = .next t ∧ (t.job j).round.reps = [] ∧ (t.job j).round.active = true ∧
      (t.job j).gvt = (s.job j).gvt ∧ t.mem = s.mem ∧ t.cores = s.cores ∧
      (∀ p, r.reps ≠ [] → s.portTo (BitVec.ofNat 6 s.root) 0 0 = some p → ∃ m : Msg, (m ∈ (t.port p).out ∨ m ∈ (t.port p).hold) ∧ m.kind = 0x30#6 ∧
        m.job = j ∧ m.dst.dev = BitVec.ofNat 6 s.root ∧ ∃ lo sm out, m.body = .tree (.report lo sm sum out) ∧ ∀ x ∈ r.reps, lo ≤ x.lmin ∧ sm ≤ x.smin ∧ x.out ≤ out)) ∧
    (r.due = [] → s.root = s.devnum.toNat → sum ≠ 0 → exec .gvtRoundClose s = .next (s.push 64 .gvtWaveStart { j := j })) ∧
    (r.due = [] → s.root = s.devnum.toNat → sum = 0 → ∃ t, exec .gvtRoundClose s = .next t ∧ (t.job j).round.active = false ∧ (t.job j).rootColour = r.k ∧
      (s.job j).gvt ≤ (t.job j).gvt ∧ t.mem = s.mem ∧ t.cores = s.cores ∧
      (∀ x ∈ r.reps, (t.job j).gvt = (s.job j).gvt ∨ ((t.job j).gvt ≤ x.lmin ∧ (t.job j).gvt ≤ x.smin)) ∧
      ((∃ x ∈ r.reps, x.lmin ≤ (s.job j).gvt ∨ x.smin ≤ (s.job j).gvt) → (t.job j).gvt = (s.job j).gvt) ∧
      (∀ g, (s.job j).gvt ≤ g → (∀ x ∈ r.reps, g ≤ x.lmin ∧ g ≤ x.smin) → g ≤ (t.job j).gvt) ∧
      (∀ n ∈ s.liveLeaves j, (s.now + 32, Instr.gvtBroadcastReceive, ({ j := j, leaf := leafOf n, w0 := (t.job j).gvt } : StepArg)) ∈ t.agenda) ∧
      t.treectl.extractLsb' 0 32 = s.treectl.extractLsb' 0 32 ∧
      (t.treectl.extractLsb' 32 32).toNat = min ((s.treectl.extractLsb' 32 32).toNat + 1) (2 ^ 32 - 1))

/-- GVT at a leaf (R357, R363, R417): it never falls; the leaf is no longer open; at a core the DONE tasks of the job below it begin to commit, and
no others; a dispenser drops its forwarding entries below it; at the management core every phase that is over completes: its tasks have retired and
committed, and the value that the management core has received has reached its end. -/
def Sys2Proof.Broadcasts : Prop :=
  ∀ (s : State) (j : JobId) (x : Leaf) (g : Word), s.arg.j = j → s.arg.leaf = x → s.arg.w0 = g →
    (∀ c, x = .core c → ∃ t, exec .gvtBroadcastReceive s = .next t ∧ t.mem = s.mem ∧
      ((t.job j).leaf x).gvt = (if ((s.job j).leaf x).gvt < g then g else ((s.job j).leaf x).gvt) ∧ ((t.job j).leaf x).isOpen = false ∧
      (∀ b ∈ (s.core c).rings, b.job = j → b.ts = .done → b.t.t.vt < g → (s.now, Instr.commitStep, ({ c := c, t := b.t.t.ident } : StepArg)) ∈ t.agenda) ∧
      (t.core c).rings.map (fun b => ({ b with ts := .done } : Block)) = (s.core c).rings.map (fun b => ({ b with ts := .done } : Block)) ∧
      (∀ y ∈ (t.core c).rings, y ∈ (s.core c).rings ∨
        ∃ b ∈ (s.core c).rings, b.job = j ∧ b.ts = .done ∧ b.t.t.vt < g ∧ b.t.t.ident = y.t.t.ident ∧ y.ts = .committing) ∧
      (∀ d, d ≠ c → t.core d = s.core d)) ∧
    (∀ cl, x = .dispenser cl → (∀ y ∈ (s.cluster cl).vers, y.job ≠ j) → (∀ r ∈ (s.cluster cl).vwait, r.job ≠ j) →
      ∃ t, exec .gvtBroadcastReceive s = .next t ∧ t.mem = s.mem ∧ t.cores = s.cores ∧
        ((t.job j).leaf x).gvt = (if ((s.job j).leaf x).gvt < g then g else ((s.job j).leaf x).gvt) ∧
        (t.cluster cl).fwd = (s.cluster cl).fwd.filter fun f => !(f.job == j && decide (f.vt < g))) ∧
    (x = .mgmt → ∃ t, exec .gvtBroadcastReceive s = .next t ∧ t.mem = s.mem ∧ t.cores = s.cores ∧
      ((t.job j).leaf x).gvt = (if ((s.job j).leaf x).gvt < g then g else ((s.job j).leaf x).gvt) ∧
      ∀ p ∈ (s.job j).phases, p.complete = false → p.count = 0 → p.stop ≤ ((t.job j).leaf x).gvt →
        (∀ d v, (d, v) ∈ s.cores → ∀ b ∈ v.rings, b.migrated = true → b.job = j → b.t.t.vt < p.start ∨ p.stop ≤ b.t.t.vt) →
        (s.now, Instr.phaseCompletion, ({ j := j, w0 := p.start } : StepArg)) ∈ t.agenda)

/-- The steps of a commit (R221, R363): a task that is not DONE below GVT, or whose step has not been acknowledged, waits; a created version, an exact
read and a mark by time each send their home a message, in the order of the log; then the deferred actions and spawns follow, once no task of the job
that precedes it on the core has one left. A deferred action stores in the core's own bank at once, sends a request to any other place, and where it
faults enters the side log with its packet; a deferred spawn gets the core's next sequence value and enters the send buffer. When no step is left the
block is freed and the task retires. -/
def Sys2Proof.CommitSteps : Prop :=
  ∀ (s : State) (c : CoreId) (i : Ident) (b : Block), s.arg.c = c → s.arg.t = i → (s.core c).blockOf i = some b →
    let act := fun (e : LogEntry) => match e with | .deferred .. => true | .spawn _ => true | _ => false
    let steps := fun (b : Block) => (b.log.filter fun e => match e with | .created .. => true | .exact .. => true | .asof .. => true | _ => false) ++
      b.log.filter act
    let order := steps b
    let before := fun (x : Block) => x ∈ (s.core c).rings ∧ x.job = b.job ∧ x.t.key < b.t.key ∧ x.ts = .committing ∧ ∃ e ∈ (steps x).drop x.next, act e = true
    let first := (∀ x, ¬before x) ∧ ∀ x ∈ (s.core c).rings, x.t.key < b.t.key → x.t.t.ident ≠ i
    let sends := fun (k : ReqKind) (nm ver w : Word) => ∃ t r, exec .commitStep s = .next t ∧ (t.core c).reqs = (s.core c).reqs ++ [r] ∧
      r.kind = k ∧ r.w0 = nm ∧ r.w1 = ver ∧ r.w2 = w ∧ r.id = s.nextId ∧ r.job = b.job ∧ r.ident = i ∧ sentMsg t s.nextId ≠ none ∧
      (t.core c).blockOf i = some { b with ts := .committing, next := b.next + 1, wait := some s.nextId } ∧ t.mem = s.mem
    let ready := b.wait = none ∧ (b.ts = .committing ∨ (b.ts = .done ∧ b.t.t.vt < ((s.job b.job).leaf (.core c)).gvt))
    (b.ts ≠ .done → b.ts ≠ .committing → exec .commitStep s = .next s) ∧
    (b.ts = .done → ((s.job b.job).leaf (.core c)).gvt ≤ b.t.t.vt → exec .commitStep s = .next s) ∧
    (∀ id, b.wait = some id → (∃ r ∈ (s.core c).reqs, r.id = id) ∨ (∃ e ∈ (s.core c).sendBuf, e.m = id) → exec .commitStep s = .next s) ∧
    (ready →
      (∀ nm ver, order[b.next]? = some (.created nm ver) → sends .verCommit nm ver 4#64) ∧
      (∀ nm ver, order[b.next]? = some (.exact nm ver) → sends .verCommit nm ver 5#64) ∧
      (∀ u nm ver, order[b.next]? = some (.asof u nm ver) → sends .markRemoval nm ver 0#64) ∧
      (∀ e x, order[b.next]? = some e → act e = true → before x → x.t.t.ident ≠ i → ∃ t, exec .commitStep s = .next t ∧ t.mem = s.mem ∧
        (t.core c).blockOf i = some { b with ts := .committing, wait := none } ∧
        (s.now + 8, Instr.commitStep, ({ c := c, t := i } : StepArg)) ∈ t.agenda) ∧
      (∀ u, order[b.next]? = some (.spawn u) → first → s.seqFree c = true → (s.core c).sendRoom = true → ∃ t e, exec .commitStep s = .next t ∧
        (t.core c).sendBuf = (s.core c).sendBuf ++ [e] ∧ e.m = s.nextId ∧ e.t.t = { u with odev := s.devnum, origin := c, seq := (s.core c).seq } ∧
        e.t.pinned = decide (u.kind = 0x11#6) ∧ (t.core c).seq = (s.core c).seq + 1 ∧ t.mem = s.mem ∧
        (t.core c).blockOf i = some { b with ts := .committing, next := b.next + 1, wait := some s.nextId } ∧
        (s.now, Instr.sendBufferDeparture, ({ c := c, n := s.nextId } : StepArg)) ∈ t.agenda) ∧
      (∀ sig v va pc insn d off i', order[b.next]? = some (.deferred sig v va pc insn) → first → (s.core c).slFree = some i' →
        windowOf c va = some (d, off) →
        (s.localCheck d b.job off 8 = none →
          (d = c → sig = false → order[b.next + 1]? = none → (∀ n ∈ slotsOf off 8, (s.slot c n).busy = false) → ∃ t, exec .commitStep s = .next t ∧
            Stored s t (localBase c + off) (leBytes 8 v.toNat) ∧ (t.core c).blockOf i = none) ∧
          (d ≠ c ∨ sig = true → ∃ t r, exec .commitStep s = .next t ∧ (t.core c).reqs = (s.core c).reqs ++ [r] ∧ r.id = s.nextId ∧
            r.kind = (if sig = true then .stff else .store) ∧ r.w0 = v ∧ r.pa = s.devnum ++ BitVec.ofNat 46 (localBase d + off) ∧ r.job = b.job ∧
            (t.core c).blockOf i = some { b with ts := .committing, next := b.next + 1, wait := some s.nextId } ∧ t.mem = s.mem)) ∧
        (∀ cls, s.localCheck d b.job off 8 = some cls → order[b.next + 1]? = none → s.autokill b.job cls = false →
          ∃ t e p, exec .commitStep s = .next t ∧ Tab.find (t.core c).slog i' = some e ∧ e.kind = (if sig = true then 9 else 8) ∧ e.strand = 0 ∧
            e.st = 1 ∧ e.va = va ∧ e.cls = cls ∧ e.job = b.job ∧ e.pc = pc ∧ e.data = v.setWidth 128 ∧ e.ident = b.t.t.ident ∧
            (t.core c).pktq = (s.core c).pktq ++ [p] ∧ p.cls = cls ∧ p.defer = true ∧ p.slog = true ∧ p.pc = pc ∧ p.addr = va.setWidth 64 ∧
            (t.core c).blockOf i = none ∧ t.mem = s.mem)) ∧
      (∀ u, order[b.next]? = some (.spawn u) → first → s.seqFree c = false ∨ (s.core c).sendRoom = false → ∃ t, exec .commitStep s = .next t ∧
        (t.core c).blockOf i = some { b with ts := .committing, wait := none } ∧
        (s.now + 64, Instr.commitStep, ({ c := c, t := i } : StepArg)) ∈ t.agenda) ∧
      (∀ sig v va pc insn, order[b.next]? = some (.deferred sig v va pc insn) → first → (s.core c).slFree = none → ∃ t, exec .commitStep s = .next t ∧
        (t.core c).blockOf i = some { b with ts := .committing, wait := none } ∧
        (s.now + 64, Instr.commitStep, ({ c := c, t := i } : StepArg)) ∈ t.agenda) ∧
      (order[b.next]? = none → exec .commitStep s = .next
        ((s.updBlock c i fun b => { b with ts := .committing, wait := none }).endCommit c { b with ts := .committing, wait := none })))

/-- How a rollback begins (R349, R352, R353): the task's block is ROLLING, requeued unless the cause forbids it, and the undo is due; where one is
under way the causes merge; a COMMITTING task is never rolled back. -/
def Sys2Proof.RollbackBegins : Prop :=
  ∀ (s : State) (c : CoreId) (i : Ident) (b : Block), s.arg.c = c → s.arg.t = i → (s.core c).blockOf i = some b →
    (b.ts = .committing → exec .rollback s = .next s) ∧
    (b.ts ≠ .committing → b.ts ≠ .rolling → ∃ t, exec .rollback s = .next t ∧
      (t.core c).blockOf i = some { b with ts := .rolling, requeue := s.arg.ok } ∧ t.mem = s.mem ∧ (∀ d, d ≠ c → t.core d = s.core d) ∧
      (s.now, Instr.rollback, ({ c := c, t := i } : StepArg)) ∈ t.agenda ∧
      (∀ k, (s.core c).strandOf i = some k → (t.strand c k).rollAt = some s.arg.ok ∧ (t.strand c k).pc = (s.strand c k).pc ∧
        (s.now, Instr.waiterWithdrawal, ({ c := c, k := k } : StepArg)) ∈ t.agenda)) ∧
    (∀ k, b.ts = .rolling → (s.core c).strandOf i = some k → (s.strand c k).held ≠ .none → ∃ t, exec .rollback s = .next t ∧
      t.cores = s.cores ∧ t.mem = s.mem ∧ (s.now + 8, Instr.rollback, ({ c := c, t := i } : StepArg)) ∈ t.agenda)

/-- What the end of a rollback undoes (R18, R350, R351, R354): for a message sent, the anti-message of its identity and launch in its core's colour;
for a version created, its retraction; for an exact read, its release; for a read by time, the removal of its mark; the block is gone and the task
waits again in its core's queue or spill area, whose entry is the one place of memory that may change. While that has no room the rollback waits (the
model's choice, log 19). -/
def Sys2Proof.RollbackEnds : Prop :=
  ∀ (s : State) (c : CoreId) (i : Ident) (b : Block) (e : LogEntry) (rest : List LogEntry), s.arg.c = c → s.arg.t = i →
    (s.core c).blockOf i = some b → b.ts = .rolling → (s.core c).strandOf i = none → b.wait = none → b.log = e :: rest →
    b.requeue = true → b.migrated = false →
    (s.mayRequeue c b = false → exec .rollback s = .next (s.push 8 .rollback { c := c, t := i })) ∧
    (s.mayRequeue c b = true → ∃ t, exec .rollback s = .next t ∧ (t.core c).blockOf i = none ∧ (∀ d, d ≠ c → t.core d = s.core d) ∧
      ((∀ q ∈ Tab.get [] (s.core c).spill b.t.t.job.toNat, q.t.ident ≠ i) → SpillsTo s t c b.t.t.job) ∧
      (∃ q ∈ (t.core c).entries, q.t = b.t.t ∧ q.block = false) ∧
      (∀ vt d dv kind seq mg l, e = .sent vt d dv kind seq mg l → ∃ m q, sentMsg t s.nextId = some m ∧ m.body = .task q d ∧ q.t.anti = true ∧
        q.t.origin = c ∧ q.t.odev = s.devnum ∧ q.t.seq = seq ∧ q.t.kind = kind ∧ q.t.vt = vt ∧ q.t.lslot = l ∧
        m.colour = ((s.job b.job).leaf (.core c)).colour ∧ m.dst = if mg = true then s.epMgmt else s.epDispenser (clusterOf d)) ∧
      (let asks := fun (k : ReqKind) (nm ver : Word) =>
        ∃ r ∈ (t.core c).reqs, r.kind = k ∧ r.w0 = nm ∧ r.w1 = ver ∧ r.ident = b.t.t.ident ∧ r.id = s.nextId
       (∀ nm ver, e = .created nm ver → asks .retract nm ver) ∧ (∀ nm ver, e = .exact nm ver → asks .readRelease nm ver) ∧
       (∀ u nm ver, e = .asof u nm ver → asks .markRemoval nm ver)))

/-- Version-arrival notices (R349, R352): a notice that the log of the task's current run matches rolls it back with requeue, once: where a rollback is
under way it merges; a COMMITTING task is never rolled back; another notice is ignored. -/
def Sys2Proof.Notices : Prop :=
  ∀ (s : State) (n : Nat) (m : Msg) (c : CoreId) (v : Notice), s.arg.n = n → sentMsg s n = some m → m.body = .notice c v →
    ((s.core c).blockOf v.t = none → exec .versionArrivalNotice s = .next (s.dropMsg n)) ∧
    (∀ b, (s.core c).blockOf v.t = some b →
      let hit := (∃ u ver, LogEntry.asof u v.name ver ∈ b.log ∧ if v.straggler = true then ver < v.ver else ver = v.ver) ∨
        (v.straggler = false ∧ LogEntry.exact v.name v.ver ∈ b.log)
      (¬hit → exec .versionArrivalNotice s = .next (s.dropMsg n)) ∧
      (hit → b.ts = .committing → exec .versionArrivalNotice s = .next (s.dropMsg n)) ∧
      (hit → b.ts ≠ .committing → ∃ t, exec .versionArrivalNotice s = .next t ∧ sentMsg t n = none ∧ t.mem = s.mem ∧ (∀ d, d ≠ c → t.core d = s.core d) ∧
        (t.core c).blockOf v.t = some { b with ts := .rolling, requeue := if b.ts = .rolling then b.requeue else true } ∧
        (b.ts = .rolling → t.agenda = s.agenda) ∧
        (b.ts ≠ .rolling → (s.now, Instr.rollback, ({ c := c, t := v.t } : StepArg)) ∈ t.agenda)))

/-- Ring pressure (R347): while a task waits for entries of a ring, the highest later block of that ring that is not COMMITTING is rolled back with
requeue; nothing happens while one of them is ROLLING already, or when no task waits. -/
def Sys2Proof.RingPressure : Prop :=
  ∀ (s : State) (c : CoreId) (j : JobId) (l : Lslot), s.arg.c = c → s.arg.j = j → s.arg.l = l →
    (s.ringWaiter c j l = none → exec .ringPressureRollback s = .next s) ∧
    (∀ w, s.ringWaiter c j l = some w →
      let later := fun (b : Block) => b ∈ (s.core c).rings ∧ b.job = j ∧ b.lslot = l ∧ w.key < b.t.key ∧ b.ts ≠ .committing
      ((∃ b, later b ∧ b.ts = .rolling) ∨ (∀ b, ¬later b) → exec .ringPressureRollback s = .next s) ∧
      (∀ b, later b → (∀ x, later x → x = b ∨ x.t.key < b.t.key) → (s.core c).blockOf b.t.t.ident = some b → b.ts ≠ .rolling →
        (∀ x, later x → x.ts ≠ .rolling) → ∃ t, exec .ringPressureRollback s = .next t ∧ t.mem = s.mem ∧
          (t.core c).blockOf b.t.t.ident = some { b with ts := .rolling, requeue := true } ∧
          (s.now, Instr.rollback, ({ c := c, t := b.t.t.ident } : StepArg)) ∈ t.agenda))

/-! ## Faults, the side log, the debug window, stops and restores (spec/20_faults.md R371 to R385; spec/21_preempt.md R391 to R402) -/

/-- Fault packets (R375): those of a core enter its supervisor's mailbox in the order of their cycles and, within a cycle, of their strands, as far as
it has room; the rest stay with the core. -/
def Sys2Proof.PacketDeliveries : Prop :=
  ∀ (s : State) (c : CoreId), s.arg.c = c →
    let room := 128 - (s.cluster (clusterOf c)).mbox.length
    ∃ (t : State) (ps : List Packet), exec .packetDelivery s = .next t ∧ (t.cluster (clusterOf c)).mbox = (s.cluster (clusterOf c)).mbox ++ ps.take room ∧
      (t.core c).pktq = ps.drop room ∧ ps.Perm (s.core c).pktq ∧
      ps.Pairwise (fun a b => a.cyc < b.cyc ∨ (a.cyc = b.cyc ∧ a.strand.toNat ≤ b.strand.toNat)) ∧ (∀ d, d ≠ c → t.core d = s.core d) ∧
      { t with cores := s.cores, clusters := s.clusters } = s

/-- A strand is ready again where it stood (R381): frozen no more, its pc, PIX and registers as they were; what its fault had marked empty is full, and
a fill that waited behind it stands in it (R132). The successor's slot for nf stays empty (R133). -/
structure Sys2Proof.Resumed (s t : State) (c : CoreId) (k : StrandId) : Prop where
  st : (t.strand c k).st = if (s.strand c k).park.issued = true then .parked else .ready
  froze : (t.strand c k).froze = none
  pc : (t.strand c k).pc = (s.strand c k).pc
  pix : (t.strand c k).pix = (s.strand c k).pix
  x : ∀ r : XReg, (.x r ∉ (s.strand c k).marked ∨ r = 63#6 ∨ ∀ f ∈ (s.strand c k).fills, f.1 ≠ r) → (t.strand c k).rx r = (s.strand c k).rx r
  fills : ∀ (r : XReg) f, .x r ∈ (s.strand c k).marked → r ≠ 0 → r ≠ 63#6 → ((s.strand c k).fills.filter fun f => f.1 == r).getLast? = some f →
    (t.strand c k).rx r = f.2.1
  regs : (t.strand c k).a = (s.strand c k).a ∧ (t.strand c k).m = (s.strand c k).m ∧
    (t.strand c k).i = (s.strand c k).i
  flags : (t.strand c k).flags = (s.strand c k).flags ∧ (t.strand c k).ann = (s.strand c k).ann
  marked : ∀ r ∈ (s.strand c k).marked, r ≠ .x 63#6 → (t.strand c k).full r = true
  others : ∀ d i, ¬(d = c ∧ i = k) → t.strand d i = s.strand d i
  memory : t.mem = s.mem

/-- Resume (R380, R381): ignored where the strand is not frozen; else the strand is ready at its pc, and the request of a late fault is sent
again. -/
def Sys2Proof.Resumes : Prop :=
  ∀ (s : State) (c : CoreId) (k : StrandId), s.arg.c = c → s.arg.k = k →
    ((s.strand c k).st ≠ .frozen → exec .resume s = .next s ∧ exec .resumeWithSkip s = .next s) ∧
    ((s.strand c k).st = .frozen → (s.strand c k).rollAt.isSome = true ∨ (s.strand c k).killAt.isSome = true →
      exec .resume s = .next s ∧ exec .resumeWithSkip s = .next s) ∧
    ((s.strand c k).st = .frozen → (s.strand c k).rollAt = none → (s.strand c k).killAt = none →
      (∃ t, exec .resume s = .next t ∧ Resumed s t c k ∧ (∀ r ∈ s.strandReqs c k, r.late = true → ∃ m q, sentMsg t r.id = some m ∧ m.body = .req q ∧ q.id = r.id ∧
        q.late = false)) ∧
      ((∃ r ∈ s.strandReqs c k, r.late = true) → exec .resumeWithSkip s = .next ((s.dropLate c k).resumeStrand c k)) ∧
      ((∀ r ∈ s.strandReqs c k, r.late = false) →
        let u := (s.updStrand c k fun t => { t with buf := [] }).fillBuffer c k
        ((u.strand c k).firstLen = none → exec .resumeWithSkip s = .next (u.resumeStrand c k)) ∧
        (∀ n, (u.strand c k).firstLen = some n → ∃ t, exec .resumeWithSkip s = .next t ∧ (t.strand c k).pc = (u.strand c k).pc + BitVec.ofNat 48 n ∧
          (t.strand c k).pix = 0#64 ∧ (t.strand c k).st = (if (u.strand c k).park.issued = true then .parked else .ready))))

/-- Kill (R373, R381, R382): the supervisor's is ignored where the strand is not frozen or is being stopped already, and an AUTOKILL names its task; the job's and the launch's KILLED is set; a conservative task of which
nothing is outstanding ends and retires, its strand idle; an optimistic one is rolled back without requeue; otherwise the kill waits. -/
def Sys2Proof.Kills : Prop :=
  ∀ (s : State) (c : CoreId) (k : StrandId) (q : QEntry), s.arg.c = c → s.arg.k = k → s.arg.v = 0 → (s.strand c k).rollAt = none →
    ((s.strand c k).st ≠ .frozen ∨ (s.strand c k).killAt ≠ none → s.arg.ok = false → exec .kill s = .next s) ∧
    ((s.strand c k).st = .frozen ∨ s.arg.ok = true → (s.arg.ok = true → s.arg.t = q.t.ident) → (s.strand c k).killAt = none → (s.strand c k).task = some q →
      ((s.strand c k).opt = true → exec .kill s = .next ((s.markKilled q.t.job q.t.lslot q.t.vt).askRollback c q.t.ident false)) ∧
      ((s.strand c k).opt = false → (s.strand c k).held = .none → s.strandReqs c k = [] → (s.strand c k).pend = [] → s.slogOf c k = [] →
        (s.core c).leftFilling k = [] →
        ∃ t, exec .kill s = .next t ∧ (t.strand c k).st = .idle ∧ (t.strand c k).task = none ∧ (t.job q.t.job).c.killed = true ∧
          (t.launch q.t.job q.t.lslot).c.killed = true ∧
          (t.launch q.t.job q.t.lslot).count = (s.launch q.t.job q.t.lslot).count - 1 ∧ t.mem = s.mem ∧ (∀ d, d ≠ c → t.core d = s.core d)) ∧
      ((s.strand c k).opt = false → (s.strand c k).held ≠ .none → ∃ t, exec .kill s = .next t ∧ (t.job q.t.job).c.killed = true ∧
        (t.strand c k).killAt = some false ∧ (t.strand c k).pc = (s.strand c k).pc ∧ t.mem = s.mem ∧
        (s.now + 8, Instr.kill, ({ c := c, k := k, t := q.t.ident, v := 2 } : StepArg)) ∈ t.agenda))

/-- What a write at an offset of the context area does to the selected frozen strand (R378, R379). -/
def Sys2Proof.contextWritten (o : Nat) (v : Word) (t : Strand) : Strand :=
  if o = 0 then t
  else if o < 0x200 then { t with x := Tab.put t.x (o / 8) v, badX := t.badX.filter fun n => n != o / 8 }
  else if o = 0x200 then { t with xF := v }
  else if o = 0x208 then { t with aF := v.extractLsb' 0 16, mF := v.extractLsb' 16 8, iF := v.extractLsb' 24 4 }
  else if o = 0x210 then { t with pc := v.extractLsb' 0 48 &&& 0xFFFFFFFFFFFE#48 }
  else if o = 0x218 then { t with prog := v }
  else if o = 0x220 then { t with desc := v }
  else if o = 0x228 then { t with cur := v }
  else if o = 0x230 then { t with endv := v }
  else if o = 0x238 then { t with ext := v }
  else if o < 0x2C0 then { t with a := Tab.put t.a ((o - 0x240) / 8) ((v.extractLsb' 0 52).setWidth 64) }
  else if o < 0x2D0 then t
  else if o < 0x340 then
    let n := (o - 0x2C0) / 16
    let m := Tab.get (BitVec.allOnes 128) t.m n
    { t with m := Tab.put t.m n (if o / 8 % 2 = 1 then v ++ m.extractLsb' 0 64 else m.extractLsb' 64 64 ++ v) }
  else if o < 0x360 then { t with i := Tab.put t.i ((o - 0x340) / 8) v }
  else if o = 0x388 then { t with flags := v.extractLsb' 0 5, ann := (v.extractLsb' 6 2).toNat }
  else if BitVec.ofNat 9 ((o - 0x360) / 8) ∈ writableCtl then storeCtl (BitVec.ofNat 9 ((o - 0x360) / 8)) v t
  else t

/-- Writes of the debug window (R377 to R379): the context of the selected strand while it is frozen, where a write to a register whose own result is
outstanding waits behind that, as a fill does (R132); STATE, OWN, POISON and LAYOUT of a slot whose strand is frozen; an element of a full
accumulator that no command names. Otherwise the write is ignored. -/
def Sys2Proof.WindowWrites : Prop :=
  ∀ (s : State) (c : CoreId) (n : Nat) (v : Word), s.arg.c = c → s.arg.n = n → s.arg.w0 = v →
    let w := match s.arg.who with | .supervisor => (s.core c).wctlS | _ => (s.core c).wctlM
    let k : StrandId := w.extractLsb' 0 4
    let a : BitVec 2 := w.extractLsb' 4 2
    (((s.strand c k).st ≠ .frozen ∨ 0x400 ≤ n ∨ n % 8 ≠ 0) → exec .contextWrite s = .next s) ∧
    (let r : XReg := BitVec.ofNat 6 (n / 8)
     let waits := n < 0x200 ∧ (s.strand c k).full (.x r) = false ∧ s.producing c k r = true
     ((s.strand c k).st = .frozen → n < 0x400 → n % 8 = 0 → ¬waits → exec .contextWrite s = .next (s.updStrand c k (contextWritten n v))) ∧
     ((s.strand c k).st = .frozen → n % 8 = 0 → waits → exec .contextWrite s =
       .next (s.updStrand c k fun t => { t with fills := fillInsert t.fills (r, v, s.cycle * 2 ^ 16) }))) ∧
    (384 ≤ n ∨ (s.strand c (s.slot c n).strand).st ≠ .frozen → exec .tileTableWrite s = .next s) ∧
    (n < 384 → (s.strand c (s.slot c n).strand).st = .frozen → ∃ t, exec .tileTableWrite s = .next t ∧
      t.slot c n = { s.slot c n with st := v.toNat % 4, own := v.getLsbD 2, poison := v.getLsbD 3, layout := v.extractLsb' 54 10 ++ 0#6 } ∧
      (∀ i, i ≠ n → t.slot c i = s.slot c i) ∧ (∀ d i, t.strand d i = s.strand d i) ∧ t.mem = s.mem ∧
      (v.toNat % 4 ≠ 2 ∨ (s.slot c n).layout ≠ v.extractLsb' 54 10 ++ 0#6 → ∀ e ∈ (t.core c).wb, e.slot ≠ n)) ∧
    (((s.core c).accAt a).full = false ∨ (s.core c).accNamed a = true ∨ 1024 ≤ n → exec .accumulatorWrite s = .next s) ∧
    (((s.core c).accAt a).full = true → (s.core c).accNamed a = false → n < 1024 → ∃ t, exec .accumulatorWrite s = .next t ∧
      (∀ i, Tab.get 0#32 ((t.core c).accAt a).el i = if i = n then v.extractLsb' 0 32 else Tab.get 0#32 ((s.core c).accAt a).el i) ∧
      ((t.core c).accAt a).full = true ∧ (∀ b, b ≠ a → (t.core c).accAt b = (s.core c).accAt b) ∧ (∀ d i, t.strand d i = s.strand d i) ∧ t.mem = s.mem)

/-- The side log (R383, R385): a pending entry discarded is free and counts once in NFAULT. REPLAY tries the pending entries in the order in which they
were made: one whose store lies in the core's own bank is performed and free, one that faults again stays pending with the new class and a new
packet, one for another place is replaying until its reply, the entries behind it waiting. A replay under way is not disturbed; an entry whose replay
succeeds is free, and one that fails is pending again with the new class and a new packet. -/
def Sys2Proof.SideLogSteps : Prop :=
  ∀ (s : State) (c : CoreId) (i : Nat) (e : SlEntry), s.arg.c = c → s.arg.n = i → Tab.find (s.core c).slog i = some e →
    (e.st ≠ 1 → exec .sideLogDiscard s = .next s) ∧
    (e.st = 1 → ∃ t, exec .sideLogDiscard s = .next t ∧ Tab.find (t.core c).slog i = none ∧
      (t.job e.job).c.nfault = min ((s.job e.job).c.nfault + 1) 0xFFFFFFFF ∧ (t.job e.job).c.errsum = (s.job e.job).c.errsum ∧ t.mem = s.mem ∧
      (∀ n, n ≠ i → Tab.find (t.core c).slog n = Tab.find (s.core c).slog n)) ∧
    ((s.core c).replay ≠ [] ∨ (∃ n x, (n, x) ∈ (s.core c).slog ∧ x.st = 2) → exec .replay s = .next s) ∧
    ((s.core c).replay = [] → (∀ n x, (n, x) ∈ (s.core c).slog → x.st ≠ 1 ∧ x.st ≠ 2) → ∃ t, exec .replay s = .next t ∧ t.mem = s.mem ∧
      (t.core c).slog = (s.core c).slog) ∧
    ((s.core c).replay = [] → e.st = 1 → e.kind = 0 → e.sz ≤ 3 → (∀ x, (i, x) ∈ (s.core c).slog → x = e) →
      (∀ n x, (n, x) ∈ (s.core c).slog → x.st ≠ 2 ∧ (x.st = 1 → n ≠ i → e.ord < x.ord)) → ∀ d off, windowOf c e.va = some (d, off) →
      let alone := ∀ n x, (n, x) ∈ (s.core c).slog → x.st = 1 → n = i
      (s.localCheck d e.job off (2 ^ e.sz) = none →
        (d = c → alone → (∀ n ∈ slotsOf off (2 ^ e.sz), (s.slot c n).busy = false) → ∃ t, exec .replay s = .next t ∧
          Stored s t (localBase c + off) (leBytes (2 ^ e.sz) e.data.toNat) ∧ Tab.find (t.core c).slog i = none) ∧
        (d ≠ c → ∃ t r, exec .replay s = .next t ∧ Tab.find (t.core c).slog i = some { e with st := 2 } ∧ r ∈ (t.core c).reqs ∧ r.id = e.ord ∧
          r.kind = .store ∧ r.size = 2 ^ e.sz ∧ r.w0 = e.data.extractLsb' 0 64 ∧ r.pa = s.devnum ++ BitVec.ofNat 46 (localBase d + off) ∧ t.mem = s.mem ∧
          ∀ n x, (n, x) ∈ (s.core c).slog → x.st = 1 → n ≠ i → n ∈ (t.core c).replay ∧ Tab.find (t.core c).slog n = Tab.find (s.core c).slog n)) ∧
      (∀ cls, s.localCheck d e.job off (2 ^ e.sz) = some cls → alone → s.autokill e.job cls = false → ∃ t p, exec .replay s = .next t ∧
        Tab.find (t.core c).slog i = some { e with cls := cls } ∧ (t.core c).pktq = (s.core c).pktq ++ [p] ∧ p.cls = cls ∧ p.slog = true ∧
        p.sle.toNat = i % 64 ∧ p.addr = e.va.setWidth 64 ∧ t.mem = s.mem)) ∧
    (e.st ≠ 2 → (s.core c).replay = [] ∨ (∃ n x, (n, x) ∈ (s.core c).slog ∧ x.st = 2) → exec .replayEntryResult s = .next s) ∧
    (e.st = 2 → s.arg.v = 0 → (s.core c).replay = [] → ∃ t, exec .replayEntryResult s = .next t ∧ Tab.find (t.core c).slog i = none ∧ t.mem = s.mem) ∧
    (e.st = 2 → s.arg.v ≠ 0 → s.autokill e.job s.arg.v = false → (s.core c).replay = [] → ∃ t p, exec .replayEntryResult s = .next t ∧
      Tab.find (t.core c).slog i = some { e with st := 1, cls := s.arg.v } ∧ (t.core c).pktq = (s.core c).pktq ++ [p] ∧ p.cls = s.arg.v ∧
      p.slog = true ∧ p.frozen = false ∧ p.job = e.job ∧ p.pc = e.pc ∧ p.addr = e.va.setWidth 64 ∧ p.sle.toNat = i % 64 ∧
      p.strand = (if e.kind = 8 ∨ e.kind = 9 then 0 else e.strand) ∧ t.mem = s.mem)

/-- A stop asked for (R393, R394): refused for a job that is not resident or is stopped already; while a round runs it waits; else every leaf is
told to flip and stop. A stop flip flips its leaf and stops it. A device that is not the root of its domain asks the root (the model's choice, log
19). -/
def Sys2Proof.StopRequests : Prop :=
  ∀ (s : State) (j : JobId),
    (s.prectl.extractLsb' 0 4 = j → s.cut = none →
      let v := s.job j
      (v.resident = false ∨ v.stopped = true → ∃ t, exec .prectlStop s = .next t ∧ { t with prectl := s.prectl, prestat := s.prestat } = s ∧
        t.prectl.getLsbD 7 = true ∧ t.prectl.getLsbD 8 = false ∧ t.prectl.getLsbD 9 = true ∧ t.prestat = 0) ∧
      (v.resident = true → v.stopped = false → s.root ≠ s.devnum.toNat → ∃ t, exec .prectlStop s = .next t ∧
        t.cut = some { scope := s.prectl.getLsbD 4, job := j } ∧ t.mem = s.mem ∧ t.cores = s.cores ∧
        ∀ p, s.portTo (BitVec.ofNat 6 s.root) 0 0 = some p → ∃ m : Msg, (m ∈ (t.port p).out ∨ m ∈ (t.port p).hold) ∧ m.body = .tree .ask ∧ m.job = j) ∧
      (v.resident = true → v.stopped = false → s.root = s.devnum.toNat → v.round.active = true → exec .prectlStop s =
        .next { s with prestat := 0, cut := some { scope := s.prectl.getLsbD 4, job := j } }) ∧
      (v.resident = true → v.stopped = false → s.root = s.devnum.toNat → v.round.active = false → ∃ t, exec .prectlStop s = .next t ∧
        t.cut = some { scope := s.prectl.getLsbD 4, job := j, phase := 1 } ∧ (t.job j).round.active = true ∧ (t.job j).round.stop = true ∧
        (∀ n ∈ s.liveLeaves j, (s.now + 16, Instr.stopFlip, ({ j := j, leaf := leafOf n, ok := !v.rootColour } : StepArg)) ∈ t.agenda) ∧
        t.mem = s.mem ∧ t.cores = s.cores)) ∧
    (s.arg.j = j → (s.job j).round.active = false ∨ (s.job j).round.stop = false → exec .stopFlip s = .next s ∧ exec .eclipseCutClose s = .next s) ∧
    (s.arg.j = j → (s.job j).round.active = true → (s.job j).round.stop = true → s.arg.leaf = .mgmt ∨ (∃ p, s.arg.leaf = .port p) ∨
        (∃ d : BitVec 5, s.arg.leaf = .decoder d ∧ d.toNat % 8 ≠ 0) →
      ∃ t, exec .stopFlip s = .next t ∧ ((t.job j).leaf s.arg.leaf).stopped = true ∧ ((t.job j).leaf s.arg.leaf).isOpen = true ∧
        t.mem = s.mem ∧ t.cores = s.cores)

/-- The close of the cut (R394): while a report is missing it waits, and while a count or an OUT is not 0 another wave is asked for; else GVT is final, the job is stopped, its
WAITW registrations are withdrawn and kept for the restore (the model's reading, log 20), and the saves of its cores and strands begin. -/
def Sys2Proof.CutCloses : Prop :=
  ∀ (s : State) (j : JobId) (x : Cut), s.arg.j = j → s.arg.v ≠ 1 → s.root = s.devnum.toNat → (s.job j).round.active = true → (s.job j).round.stop = true →
    s.cut = some x → x.job = j → x.restore = false →
    let r := (s.job j).round
    let sum := (r.reps.map (·.cnt)).foldl (· + ·) 0
    let out := (r.reps.map (·.out)).sum
    (r.due ≠ [] → exec .eclipseCutClose s = .next (s.push 64 .eclipseCutClose { j := j })) ∧
    (r.due = [] → sum ≠ 0 ∨ out ≠ 0 →
      exec .eclipseCutClose s = .next (s.push 64 .gvtWaveStart { j := j })) ∧
    (r.due = [] → sum = 0 → out = 0 → ∃ t, exec .eclipseCutClose s = .next t ∧ (t.job j).stopped = true ∧ (t.job j).round.active = false ∧
      (s.job j).gvt ≤ (t.job j).gvt ∧ (s.boundCores j ≠ [] → t.mem = s.mem ∧ t.cores = s.cores) ∧
      (∀ cl, (∀ r ∈ (t.cluster cl).waitw, r.job ≠ j) ∧ ∀ r ∈ (s.cluster cl).waitw, r.job = j → r ∈ (t.job j).saved.waits) ∧
      (∀ c, c ∈ s.boundCores j → ∀ k ∈ s.strandsOf c j, ∃ y, t.cut = some y ∧ y.phase = 2 ∧ (c, k) ∈ y.strands ∧ c ∈ y.cores))

/-- The save of a strand (R396, R399, R400): tried again while it cannot be saved, or a line that it writes is not clear (R68, R180;
log 17, DEDUCED); where its area is stored it is recorded with its new generation and SAVED counts; where the store faults the strand
freezes with class 32, unless its own fault has frozen it, its packet goes to the supervisor and ABANDON counts. -/
def Sys2Proof.StrandSaves : Prop :=
  ∀ (s : State) (c : CoreId) (k : StrandId) (x : Cut), s.arg.c = c → s.arg.k = k → s.cut = some x →
    let j := x.job
    let va := s.strandVa c k
    (x.phase ≠ 2 ∨ (c, k) ∉ x.strands → exec .strandSave s = .next s) ∧
    (x.phase = 2 → (c, k) ∈ x.strands → s.canSave c k j = false → exec .strandSave s = .next (s.push 64 .strandSave { c := c, k := k })) ∧
    (x.phase = 2 → (c, k) ∈ x.strands → s.canSave c k j = true → s.jobClear j (linesOf va 0x1000) = false →
      exec .strandSave s = .next ((s.clearJob j (linesOf va 0x1000)).push 64 .strandSave { c := c, k := k })) ∧
    (x.phase = 2 → (c, k) ∈ x.strands → s.canSave c k j = true → s.jobClear j (linesOf va 0x1000) = true →
      (∀ u w g, s.saveParts j [(va, s.strandArea c k)] = .inl u → u.sealArea j va (va + 0xFC0) (va + 0xFF8) 24 (s.strandArea c k) = .inl (w, g) →
        ∃ t, exec .strandSave s = .next t ∧ t.mem = w.mem ∧ (t.job j).saved.strands = (w.job j).saved.strands ++ [(c, k, g)] ∧
          t.prestat.extractLsb' 32 32 = w.prestat.extractLsb' 32 32 + 1 ∧ t.prestat.extractLsb' 0 32 = w.prestat.extractLsb' 0 32) ∧
      (∀ u f, s.saveParts j [(va, s.strandArea c k)] = .inr (u, f) → ∃ t p, exec .strandSave s = .next t ∧ t.mem = u.mem ∧
        (t.core c).pktq = (u.core c).pktq ++ [p] ∧ p.cls = 32 ∧ p.strand = k ∧ p.addr = f.addr ∧ p.autok = false ∧ p.frozen = true ∧
        (t.strand c k).st = .frozen ∧ (t.strand c k).froze = (if (u.strand c k).st = .frozen then (u.strand c k).froze else some p) ∧
        t.prestat.extractLsb' 16 16 = u.prestat.extractLsb' 16 16 + 1))

/-- The save of a core (R395, R398 to R400): not before every strand has been saved, tried again while a task of the job commits or rolls back or an
engine of the core holds something of the job, or a line that it writes is not clear (R68, R180; log 17, DEDUCED); what completed launches have left
on the core is zeroed first (R415). Where its area is stored it is recorded with its new generation; where the store faults a packet of class 32 goes
to the supervisor, ABANDON counts and the core keeps its bind. -/
def Sys2Proof.CoreSaves : Prop :=
  ∀ (s : State) (c : CoreId) (x : Cut), s.arg.c = c → s.cut = some x →
    let j := x.job
    let busy := s.committing j = true ∨ (∃ m ∈ (s.core c).mq ++ (s.core c).mrun.toList, m.job = j) ∨ (∃ e ∈ (s.core c).copies, e.job = j) ∨
      ∃ r ∈ (s.core c).reqs, r.job = j ∧ r.kind.isRow = true
    let y := s.scrub c
    let lines := (y.coreParts c j x.scope).flatMap (fun p => linesOf p.1 p.2.length) ++ linesOf (y.coreVa c + 0xC7FC0#48) 64
    (x.phase ≠ 2 ∨ x.strands ≠ [] ∨ c ∉ x.cores → exec .coreSave s = .next s) ∧
    (x.phase = 2 → x.strands = [] → c ∈ x.cores → busy → exec .coreSave s = .next (s.push 64 .coreSave { c := c })) ∧
    (x.phase = 2 → x.strands = [] → c ∈ x.cores → ¬busy → y.jobClear j lines = false →
      exec .coreSave s = .next ((y.clearJob j lines).push 64 .coreSave { c := c })) ∧
    (x.phase = 2 → x.strands = [] → c ∈ x.cores → ¬busy → y.jobClear j lines = true → x.scope = false → ∀ u w bs bad g, y.saveParts j (y.coreParts c j false) = .inl u →
      u.jobRead 0 j (s.coreVa c) 0xC7FC0 = .inl (bs, bad) →
      u.sealArea j (s.coreVa c) (s.coreVa c + 0xC7FC0) (s.coreVa c + 0xC7FF8) 0 bs = .inl (w, g) →
      ∃ t, exec .coreSave s = .next t ∧ t.mem = w.mem ∧ t.cores = w.cores ∧ (t.job j).saved.cores = (w.job j).saved.cores ++ [(c, g)] ∧
        t.prestat = w.prestat) ∧
    (x.phase = 2 → x.strands = [] → c ∈ x.cores → ¬busy → y.jobClear j lines = true → ∀ u f, y.saveParts j (y.coreParts c j x.scope) = .inr (u, f) →
      ∃ t p, exec .coreSave s = .next t ∧ t.mem = u.mem ∧ (t.core c).pktq = (u.core c).pktq ++ [p] ∧ p.cls = 32 ∧ p.addr = f.addr ∧
        (t.core c).installed = (u.core c).installed ∧ t.prestat.extractLsb' 16 16 = u.prestat.extractLsb' 16 16 + 1)

/-- A restore (R401, R402): ignored while an operation runs; refused for a job that is not resident or not stopped, or whose bind records no longer
agree with what was saved; where an area does not verify it is marked as damaged, the job is cancelled and nothing of it runs; else the job is no
longer stopped. That the bind records are compared first, and that the mark waits for its line to be clear (R68, R180), is the model's reading
(logs 17 and 20, DEDUCED). -/
def Sys2Proof.Restores : Prop :=
  ∀ (s : State) (j : JobId), s.prectl.extractLsb' 0 4 = j →
    let v := s.job j
    let s0 : State := { s with prestat := 0 }
    let s1 := fun (c : CoreId) (k : StrandId) => s0.visitRead 0 j (s.strandVa c k) 0x1000
    (s.cut ≠ none → exec .prectlRestore s = .next s) ∧
    (s.cut = none → v.resident = false ∨ v.stopped = false ∨ (∃ e ∈ v.saved.cores, s0.recordsAgree e.1 j = false) →
      ∃ t, exec .prectlRestore s = .next t ∧ { t with prectl := s.prectl, prestat := s.prestat } = s ∧
        t.prectl.getLsbD 7 = true ∧ t.prectl.getLsbD 8 = false ∧ t.prectl.getLsbD 9 = true ∧ t.prestat = 0) ∧
    (s.cut = none → v.resident = true → v.stopped = true → v.saved.cores = [] → v.saved.whole = false → v.saved.inst = [] →
      ∀ c k g, v.saved.strands = [(c, k, g)] →
      ((s1 c k).verified j (s.strandVa c k) 0xFC0 0xFF8 0x1000 g = none → (s1 c k).jobClear j [s.strandVa c k + 0xFF8] = false →
        exec .prectlRestore s = .next (((s1 c k).clearJob j [s.strandVa c k + 0xFF8]).push 64 .prectlRestore {})) ∧
      ((s1 c k).verified j (s.strandVa c k) 0xFC0 0xFF8 0x1000 g = none → (s1 c k).jobClear j [s.strandVa c k + 0xFF8] = true → ∀ u, (s1 c k).saveBytes j (s.strandVa c k + 0xFF8) (bytesOf 4 0x44474D44#32) 2 = .inl u →
        exec .prectlRestore s = .next
          ((({ u with prestat := u.prestat.extractLsb' 16 48 ++ 1#16 } : State).cancelJob j).1.endCut true)) ∧
      (∀ bs, (s1 c k).verified j (s.strandVa c k) 0xFC0 0xFF8 0x1000 g = some bs → v.live ((wordAt bs 0x3F8).extractLsb' 48 16) = true →
        ∃ t, exec .prectlRestore s = .next t ∧ (t.job j).stopped = false ∧
        (t.strand c k).pc = (wordAt bs 0x210).extractLsb' 0 48 &&& 0xFFFFFFFFFFFE#48 ∧ (t.strand c k).prog = wordAt bs 0x218 ∧
        (t.strand c k).vt = wordAt bs 0x360 ∧ ((t.strand c k).st = .frozen ↔ (wordAt bs 0x3F0).toNat % 4 = 3) ∧ t.mem = s.mem ∧
        t.prectl.getLsbD 8 = false ∧ t.prectl.getLsbD 9 = true ∧ t.prestat.extractLsb' 32 32 = 1#32 ∧
        (∀ d i, ¬(d = c ∧ i = k) → t.strand d i = s.strand d i) ∧
        (s.root = s.devnum.toNat → v.round.held.erase s.devnum.toNat = [] → (s.now + 64, Instr.gvtRoundStart, ({ j := j } : StepArg)) ∈ t.agenda)))

/-! ## Commands, teardown and launches (spec/04_launch.md R70 to R78; spec/24_retire.md R414 to R420; spec/01_work.md R28 to R31) -/

/-- A command is due: the slot at CMDHEAD holds it, and the device takes commands. -/
def Sys2Proof.Due (s : State) (op : Instr) : Prop := s.cmdhead ≠ s.cmdtail ∧ 3 ≤ s.stage ∧ s.cmdStep = op

/-- The words of the command at CMDHEAD, and the job that it names (R72). -/
def Sys2Proof.commandWord (s : State) (n : Nat) : Word := s.cmdWord s.cmdhead.toNat n
def Sys2Proof.commandJob (s : State) : JobId := (commandWord s 0).extractLsb' 8 4

/-- How commands end: `State.endCommand` writes the 16 bytes of the acknowledgement into the ring at the slot's index, OP and TAG as in the command,
with the status and the parity of the ring's wraps, stores nothing else, and CMDHEAD advances (R71). A write of CMDTAIL that would pass CMDHEAD
or meet it while slots remain sets CMDERR and does nothing else; another one moves CMDTAIL and has the next slot taken (R70). -/
def Sys2Proof.CommandRing : Prop :=
  ∀ s : State,
    (∀ st, st < 256 →
      let t := s.endCommand st
      let a := hostAddr s.ackRing + 16 * s.cmdhead.toNat
      t.cmdhead = s.cmdhead + 1 ∧ (∀ y, y < a ∨ a + 16 ≤ y → Memory.get t.mem y = Memory.get s.mem y) ∧
        Memory.get t.mem a = (commandWord s 0).extractLsb' 0 8 ∧ Memory.get t.mem (a + 1) = 0#8 ∧
        Memory.get t.mem (a + 2) = (commandWord s 0).extractLsb' 16 8 ∧ Memory.get t.mem (a + 3) = (commandWord s 0).extractLsb' 24 8 ∧
        (∀ n, 4 ≤ n → n < 8 → Memory.get t.mem (a + n) = 0#8) ∧ Memory.get t.mem (a + 8) = BitVec.ofNat 8 st ∧
        (∀ n, 9 ≤ n → n < 15 → Memory.get t.mem (a + n) = 0#8) ∧ Memory.get t.mem (a + 15) = BitVec.ofNat 8 (s.wraps % 2 * 128)) ∧
    (let u := (s.cmdtail - s.cmdhead).toNat
     let v := s.arg.w0.extractLsb' 0 8
     let d := (v - s.cmdtail).toNat
     (256 ≤ u + d → exec .cmdtailWrite s = .next { s with cmderr := true }) ∧
      (u + d < 256 → ∃ t, exec .cmdtailWrite s = .next t ∧ t.cmdtail = v ∧
        { t with cmdtail := s.cmdtail, ackRing := s.ackRing, agenda := s.agenda } = s ∧
        (s.cmdhead ≠ v → 3 ≤ s.stage → s.taking = false → s.ackPending s.cmdhead.toNat = false →
          (s.now + 8, s.cmdStep, ({} : StepArg)) ∈ t.agenda)))

/-- What the commands do (R71, R72, R31, R418, R420). A reserved code ends with BADOP. JOBSTART ends with BADJOB for a resident job, BUSY while a
record of SEV 3 stands and BADADDR where a read of the key block returns a poisoned word. PHASEOPEN, CANCEL and KEYDESTROY end with BADJOB for a job that is not resident, and where its teardown runs with BADJOB,
NOTLIVE and BADJOB. PHASEOPEN ends with BUSY for an END not above the latest end, else it opens the phase from there, which counts the live
tasks whose times it contains. CANCEL ends with ACCEPTED or NOTLIVE as `State.cancel` takes effect or not. KEYDESTROY ends with BUSY while a
launch is incomplete; else it is set aside, with the words of its acknowledgement, and its teardown begins. -/
def Sys2Proof.CommandEffects : Prop :=
  ∀ s : State,
    let j := commandJob s
    let v := s.job j
    (Due s .reservedCommand → exec .reservedCommand s = .next (s.endCommand 1)) ∧
    (Due s .jobstart → v.starting = none → (v.resident = true → exec .jobstart s = .next (s.endCommand 2)) ∧
      (v.resident = false → s.severe = true → exec .jobstart s = .next (s.endCommand 4)) ∧
      (v.resident = false → s.severe = false → s.poisoned (hostAddr (commandWord s 2)) 64 = true → exec .jobstart s = .next (s.endCommand 5))) ∧
    (Due s .phaseopen →
      (v.resident = false ∨ v.teardown.isSome = true → exec .phaseopen s = .next (s.endCommand 2)) ∧
      (v.resident = true → v.teardown = none → commandWord s 1 ≤ v.lastEnd → exec .phaseopen s = .next (s.endCommand 4)) ∧
      (v.resident = true → v.teardown = none → v.lastEnd < commandWord s 1 → ∃ (u : State) (p : Phase), exec .phaseopen s = .next (u.endCommand 0) ∧
        (u.job j).phases = v.phases ++ [p] ∧ p.start = v.lastEnd ∧ p.stop = commandWord s 1 ∧ p.complete = false ∧
        p.count = (v.early.filter fun t => decide (p.start ≤ t ∧ t < p.stop)).length ∧
        (u.job j).early = v.early.filter (fun t => !decide (p.start ≤ t ∧ t < p.stop)) ∧ { u with jobs := s.jobs, agenda := s.agenda } = s)) ∧
    (Due s .cancelCommand →
      (v.resident = false → exec .cancelCommand s = .next (s.endCommand 2)) ∧
      (v.resident = true → v.teardown.isSome = true → exec .cancelCommand s = .next (s.endCommand 3)) ∧
      (v.resident = true → v.teardown = none →
        let r := s.cancel j ((commandWord s 1).extractLsb' 0 2) (commandWord s 2)
        exec .cancelCommand s = .next (r.1.endCommand (if r.2 then 0 else 3)))) ∧
    (Due s .keydestroy →
      (v.resident = false ∨ v.teardown.isSome = true → exec .keydestroy s = .next (s.endCommand 2)) ∧
      (v.resident = true → v.teardown = none → (v.launches.any fun (e : Nat × Launch) => !e.2.complete) = true →
        exec .keydestroy s = .next (s.endCommand 4)) ∧
      (v.resident = true → v.teardown = none → (v.launches.any fun (e : Nat × Launch) => !e.2.complete) = false →
        ∃ t, exec .keydestroy s = .next t ∧ (t.job j).teardown = some (1, s.cmdSlot, s.ackWord s.cmdSlot) ∧
          (v.round.active = true ∨ (s.root = s.devnum.toNat ∧ v.round.held = []) → (t.job j).round.active = true) ∧
          t.cmdhead = s.cmdhead + 1 ∧ t.mem = s.mem ∧ (s.now + 64, Instr.teardown, ({ j := j } : StepArg)) ∈ t.agenda))

/-- The end of a JOBSTART that has read everything: the launch is created and the command ends with ACCEPTED; with BADDESC where a predecessor breaks
R75, and nothing of the job is left; while no sequence value is free what was read is kept and the command goes on later (R72, R75). The rounds of the
job begin at the root of the domain (R360). A job that a machine check has cancelled meanwhile does not start, and another device tells the root
(the model's reading and choice: log 19). -/
def Sys2Proof.StartEnds (s t : State) (j : JobId) (d : LaunchDesc) : Prop :=
  let abandoned := fun (n : Nat) => ({ s with jobs := Tab.del s.jobs j.toNat } : State).endCommand n
  ((s.job j).cancelled = true → t = abandoned 4) ∧
  ((s.job j).cancelled = false →
    (∀ f, s.createLaunch 0 j d none = .fault f → t = abandoned 5) ∧ (s.createLaunch 0 j d none = .desc → t = abandoned 6) ∧
    (s.createLaunch 0 j d none = .wait → t = (s.updJob j fun v => { v with starting := some d }).push 64 .jobstart {}) ∧
    ∀ u l, s.createLaunch 0 j d none = .made u l →
      let w := u.updJob j fun v => { v with starting := none }
      (u.root = u.devnum.toNat → t = (w.push u.gvtPeriod .gvtRoundStart { j := j }).endCommand 0) ∧
      (u.root ≠ u.devnum.toNat → t = (w.sendTree u.root j .go).endCommand 0))

/-- JOBSTART of a job number that is free: with its key, its tables and the blocks of its entry launch read, each once, the job is resident with the
words of the command and its entry launch is created; a read that faults ends the command with BADADDR, and nothing of the job is left (R72, R75). The
lines read are then in their slices, with the job's accesses in the records of their frames (R196, R199). -/
def Sys2Proof.JobStart : Prop :=
  ∀ (s : State) (ws nm : List Byte),
    let j := commandJob s
    let w := commandWord s
    let u := s.updJob j fun o => { jobOf s w with round := o.round, rootColour := o.rootColour }
    let x := u.updJob j fun v => { v with windows := windowsOf ws, near := leBits 256 nm }
    Due s .jobstart →
    (∀ d, (s.job j).starting = some d → ∃ t, exec .jobstart s = .next t ∧ StartEnds s t j d) ∧
    ((s.job j).starting = none → (s.job j).resident = false → s.severe = false → s.poisoned (hostAddr (w 2)) 64 = false →
      ((jobOf s w).resident = true ∧ (jobOf s w).ptroot = (w 1).extractLsb' 12 40 ++ 0#12 ∧ (jobOf s w).policy = w 7 ∧
        (jobOf s w).key = some (leBits 512 (Memory.read s.mem (hostAddr (w 2)) 64)) ∧ (jobOf s w).phases = []) ∧
      (u.jobBlock 0 j ((w 3).extractLsb' 0 48 + 4096) 256 1 = .inl ws → u.jobBlock 0 j ((w 3).extractLsb' 0 48 + 4352) 32 1 = .inl nm →
        (∀ f, x.readLaunch 0 j ((w 5).extractLsb' 0 48) = .inr f → exec .jobstart s = .next (s.endCommand 5)) ∧
        ∀ d, x.readLaunch 0 j ((w 5).extractLsb' 0 48) = .inl d → ∃ t, exec .jobstart s = .next t ∧
          StartEnds (((x.visitRead 0 j ((w 3).extractLsb' 0 48 + 4096) 256).visitRead 0 j ((w 3).extractLsb' 0 48 + 4352) 32).visitLaunch 0 j
            ((w 5).extractLsb' 0 48) d) t j d) ∧
      (∀ f, u.jobBlock 0 j ((w 3).extractLsb' 0 48 + 4096) 256 1 = .inr f → exec .jobstart s = .next (s.endCommand 5)) ∧
      (∀ f, u.jobBlock 0 j ((w 3).extractLsb' 0 48 + 4352) 32 1 = .inr f → exec .jobstart s = .next (s.endCommand 5)))

/-- A teardown runs its steps one after another (R418): the first waits for the final round, for GVT never and for the phases; then, once no access of
the job is under way (R201), the job's dirty lines go without write-back, so that memory holds of them what it held before, and its key; its
versions, its translations and tables, its areas, launches and side-log entries, HOSTJOB; the record, signal and vector follow; last the
acknowledgement with the words the command had, and the job is no longer resident. That step 2 waits for the job's accesses (R201) and step 7 for the
lines that it writes to be clear (R68, R180) is the model's reading (logs 7 and 17, DEDUCED); the root of a domain goes on with the rounds of a job
that other devices run (log 19). -/
def Sys2Proof.Teardown : Prop :=
  ∀ (s : State) (j : JobId) (n slot : Nat) (ack : Word), s.arg.j = j → (s.job j).teardown = some (n, slot, ack) →
    let passed := fun (t : State) => (t.job j).teardown = some (n + 1, slot, ack) ∧ (s.now + 8, Instr.teardown, ({ j := j } : StepArg)) ∈ t.agenda
    let lost := s.dirtyLines fun k => k == j.toNat
    (n = 1 → (s.job j).round.final = false → (s.job j).round.active = false → (s.job j).gvt = BitVec.allOnes 64 →
      (∀ p ∈ (s.job j).phases, p.complete = true) → ∃ t, exec .teardown s = .next t ∧ passed t) ∧
    (n = 1 → (s.job j).round.final = true ∨ (s.job j).round.active = true ∨ (s.job j).gvt ≠ BitVec.allOnes 64 ∨
        (∃ p ∈ (s.job j).phases, p.complete = false) → exec .teardown s = .next (s.push 64 .teardown { j := j })) ∧
    (n = 2 → s.busyJob j = true → exec .teardown s = .next (s.push 64 .teardown { j := j })) ∧
    (n = 2 → s.busyJob j = false → ∃ t, exec .teardown s = .next t ∧ passed t ∧ (t.job j).key = none ∧
      (∀ y, y / 128 ∉ lost.map (·.1) → Memory.get t.mem y = Memory.get s.mem y) ∧
      ((lost.map (·.1)).Nodup → ∀ e ∈ lost, ∀ i, i < 128 → Memory.get t.mem (128 * e.1 + i) = e.2.extractLsb' (8 * i) 8) ∧
      (∀ cl h, h ∈ (t.cluster cl).lines → h.2.key ≠ j.toNat) ∧ (∀ cl v, v ∈ (t.cluster cl).vers → v.job = j → v.near = false) ∧
      ∀ c d, d ∈ (t.core c).dcache → d.nc = true → d.job = j → d.dirty = 0) ∧
    (n = 3 → ∃ t, exec .teardown s = .next t ∧ passed t ∧ t.mem = s.mem ∧ ∀ cl, (∀ v ∈ (t.cluster cl).vers, v.job ≠ j) ∧
      (∀ m ∈ (t.cluster cl).asof, m.job ≠ j) ∧ (∀ d ∈ (t.cluster cl).died, d.1 ≠ j) ∧ ∀ r ∈ (t.cluster cl).vwait, r.job ≠ j) ∧
    (n = 4 → ∃ t, exec .teardown s = .next t ∧ passed t ∧ t.mem = s.mem ∧ (∀ c e, e ∈ (t.core c).dtlb ∨ e ∈ (t.core c).itlb → e.job ≠ j) ∧
      (∀ cl e, e ∈ (t.cluster cl).l2 → e.job ≠ j) ∧ (t.job j).windows = [] ∧ (t.job j).near = 0 ∧ (t.job j).policy = 0 ∧
      (t.job j).hintbase = 0 ∧ (t.job j).ptroot = (s.job j).ptroot) ∧
    (n = 5 → ∃ t, exec .teardown s = .next t ∧ passed t ∧ (t.job j).launches = [] ∧ (t.job j).saved = {}) ∧
    (n = 6 → ∃ t, exec .teardown s = .next t ∧ passed t ∧ t.hostjob = (if s.hostjob.toNat = j.toNat then 16#5 else s.hostjob) ∧ t.mem = s.mem) ∧
    (n = 7 → s.jobClear j (s.job j).outlet.addrs = false →
      exec .teardown s = .next ((s.clearJob j (s.job j).outlet.addrs).push 64 .teardown { j := j })) ∧
    (n = 7 → s.jobClear j (s.job j).outlet.addrs = true →
      exec .teardown s = .next (((s.recordJob j).updJob j fun v => { v with teardown := some (8, slot, ack) }).push 8 .teardown { j := j })) ∧
    (n = 8 → ∃ t, exec .teardown s = .next t ∧ (t.job j).resident = false ∧ t.mem = (s.acknowledge ack slot 0).mem ∧
      ((s.job j).round.users = [] → Tab.has t.jobs j.toNat = false ∧ ∀ e ∈ t.agenda, ¬(e.2.1 = .gvtRoundStart ∧ e.2.2.j = j)))

/-- The words of a completion record (R77). -/
def Sys2Proof.Record (c : Counts) (id : Nat) (j : JobId) (level status : Nat) (now gvt start : Word) : List Word :=
  [BitVec.ofNat 32 c.nfault ++ BitVec.ofNat 16 id ++ j ++ BitVec.ofNat 4 level ++ BitVec.ofNat 8 status, c.tstart, now, gvt, c.errsum, c.first,
   BitVec.ofNat 64 c.retired, start]

/-- Where a level's record and signal word go: a launch has none at address 0 (R75); a graph's stand in its area, a phase's where its PHASEOPEN says, a
job's in its completion area (R72, R75). -/
def Sys2Proof.Outlets : Prop :=
  (∀ x : Launch, x.outlet.crec = (if x.crec = 0 then none else some x.crec) ∧ x.outlet.sigw = (if x.sigw = 0 then none else some x.sigw) ∧
    x.outlet.ven = x.ven ∧ x.outlet.vec = x.vec ∧ x.outlet.bare = false) ∧
  (∀ g : Graph, g.outlet.crec = some g.area ∧ g.outlet.sigw = some (g.area + 64) ∧ g.outlet.ven = false ∧ g.outlet.bare = false) ∧
  (∀ p : Phase, p.outlet.crec = some p.crec ∧ p.outlet.sigw = some p.sigw ∧ p.outlet.ven = p.ven ∧ p.outlet.vec = p.vec ∧ p.outlet.bare = false) ∧
  ∀ v : Job, v.outlet.crec = some v.carea ∧ v.outlet.sigw = some (v.carea + 64) ∧ v.outlet.ven = v.ven ∧ v.outlet.vec = v.vec ∧ v.outlet.bare = true

/-- The steps of completion (R76, R77, R28, R31, R357, R364, R376, R414, R415): a live launch whose counter is 0, a closed graph all of whose launches are
complete, and a phase that GVT, as the management core has received it, has passed and whose counter is 0 fix their status and write their record,
their signal word and their vector, no task of the launch or of the phase that left by MIGRATE being uncommitted; the launch's shares and bind
record go, and its LSLOT where it has no graph, else its graph keeps it with its status and its dependants are released; the graph's LSLOTs go with
the graph; a phase completes behind the launches and graphs that do. Where the condition does not hold nothing happens; while a line that the record
or the signal word lies in is held by the host or waits for acknowledgements, these are asked for and the step comes again (R68, R180; the model's
reading, log 17, DEDUCED). -/
def Sys2Proof.Completions : Prop :=
  Outlets ∧ ∀ (s : State) (j : JobId), s.arg.j = j →
    let v := s.job j
    let later := fun (x : Outlet) (i : Instr) (a : StepArg) => (s.clearJob j x.addrs).push 64 i a
    (let l := s.arg.l
     let x := s.launch j l
     let st := if x.c.cancelled || x.lost then 1 else if x.c.killed then 3 else x.bad.getD 0
     let u := (((s.updLaunch j l fun x => { x with complete := true, status := st }).signalLevel j x.outlet
       (Record x.c l.toNat j 0 st s.tstamp v.gvt 0)).releaseShares j l).unbind j l
     let ended := x.count = 0 ∧ ∀ d y, (d, y) ∈ s.cores → ∀ b ∈ y.rings, b.migrated = true → b.job = j → b.lslot ≠ l
     (v.live l = false ∨ ¬ended → exec .launchCompletion s = .next s) ∧
     (v.live l = true → ended → s.jobClear j x.outlet.addrs = false →
       exec .launchCompletion s = .next (later x.outlet .launchCompletion { j := j, l := l })) ∧
     (v.live l = true → ended → s.jobClear j x.outlet.addrs = true → x.graph = none →
       ∃ t, exec .launchCompletion s = .next t ∧ t = u.updJob j (fun v => { v with launches := Tab.del v.launches l.toNat }) ∧
         ∀ m, m ≠ l → t.launch j m = u.launch j m) ∧
     (∀ g, v.live l = true → ended → s.jobClear j x.outlet.addrs = true → x.graph = some g → exec .launchCompletion s = .next
       (((u.updJob j fun v => { v with graphs := Tab.upd {} v.graphs g.toNat fun y => { y with done := y.done ++ [(l, st)] } }).releaseDependants
         j g l st).checkGraph j g))) ∧
    (∀ g, Tab.find v.graphs s.arg.n = some g → g.complete = false →
      let st := if g.c.cancelled then 1 else if g.c.killed then 3 else ((g.done.find? fun d => d.2 ≠ 0).map (·.2)).getD 0
      let u := s.signalLevel j g.outlet (Record g.c s.arg.n j 1 st s.tstamp v.gvt 0)
      (g.closed = true → (∀ l ∈ g.members, ∃ n, (l, n) ∈ g.done) → s.jobClear j g.outlet.addrs = false →
        exec .graphCompletion s = .next (later g.outlet .graphCompletion { j := j, n := s.arg.n })) ∧
      (g.closed = true → (∀ l ∈ g.members, ∃ n, (l, n) ∈ g.done) → s.jobClear j g.outlet.addrs = true → ∃ t, exec .graphCompletion s = .next t ∧
        Tab.has (t.job j).graphs s.arg.n = false ∧ (∀ m, m ≠ s.arg.n → Tab.find (t.job j).graphs m = Tab.find (u.job j).graphs m) ∧ (∀ e ∈ (t.job j).launches, BitVec.ofNat 16 e.1 ∉ g.members) ∧
        { t with jobs := u.jobs } = u) ∧
      (g.closed = false → exec .graphCompletion s = .next s)) ∧
    (∀ p, v.phases.find? (fun p => p.start == s.arg.w0) = some p →
      let st := if p.c.cancelled then 1 else if p.c.killed then 3 else 0
      let ended := p.count = 0 ∧ p.stop ≤ (v.leaf .mgmt).gvt ∧
        ∀ d y, (d, y) ∈ s.cores → ∀ b ∈ y.rings, b.migrated = true → b.job = j → b.t.t.vt < p.start ∨ p.stop ≤ b.t.t.vt
      (p.complete = false → ended → s.completing j = true → exec .phaseCompletion s = .next (s.push 8 .phaseCompletion { j := j, w0 := s.arg.w0 })) ∧
      (p.complete = false → ended → s.completing j = false → s.jobClear j p.outlet.addrs = false →
        exec .phaseCompletion s = .next (later p.outlet .phaseCompletion { j := j, w0 := s.arg.w0 })) ∧
      (p.complete = false → ended → s.completing j = false → s.jobClear j p.outlet.addrs = true → exec .phaseCompletion s = .next
        ((s.updJob j fun v => { v with phases := v.phases.map fun q => if q.start == s.arg.w0 then { q with complete := true } else q }).signalLevel j
          p.outlet (Record p.c 0 j 2 st s.tstamp v.gvt p.start))) ∧
      (p.complete = true ∨ ¬ended → exec .phaseCompletion s = .next s))

/-- Binding and residency (R73, R74, R25): a record written with V set ended one that is clear binds a live unbound launch, whose code is read once, to
the cores of the record; a code that cannot be read ends the launch with BADCODE, and the record stands as written but for V; a record with V clear is
written; a record that is valid, or names a launch that is bound or not live, is not written (a launch that is not live: the model's choice, log
19). A strand becomes resident with the share of its launch: idle, its slots tagged, its forwarding slot empty. A LAUNCH is answered with the LSLOT of
what it created, or its fault, and while no LSLOT or sequence value is free its request waits (R75, R166). That its blocks are read once and kept
while it waits, and that it waits where its job is cancelled, is the model's reading (log 19, DEDUCED). -/
def Sys2Proof.Binding : Prop :=
  ∀ s : State,
    (let n := s.arg.n
     let j : JobId := s.arg.w0.extractLsb' 56 4
     let l : Lslot := s.arg.w0.extractLsb' 40 16
     (256 ≤ n ∨ (Tab.get {} s.slotTable n).v = true → exec .bind s = .next s) ∧
     (n < 256 → (Tab.get {} s.slotTable n).v = false → s.arg.w0.getLsbD 63 = false →
       exec .bind s = .next { s with slotTable := Tab.put s.slotTable n (bindRec s.arg.w0 s.arg.w1 s.arg.w2) }) ∧
     (n < 256 → (Tab.get {} s.slotTable n).v = false → s.arg.w0.getLsbD 63 = true →
       ((s.launch j l).bound.isSome = true ∨ (s.job j).live l = false → exec .bind s = .next s) ∧
       ((s.launch j l).bound = none → (s.job j).live l = true →
         (∀ f, s.jobRead 0 j ((s.launch j l).hdr + 64) (s.launch j l).codeb = .inr f → exec .bind s = .next
           (({ s with slotTable := Tab.put s.slotTable n { bindRec s.arg.w0 s.arg.w1 s.arg.w2 with v := false } } : State).badCode j l f.cls)) ∧
         (∀ code bad, s.jobRead 0 j ((s.launch j l).hdr + 64) (s.launch j l).codeb = .inl (code, bad) → ∃ t, exec .bind s = .next t ∧
           (Tab.get {} t.slotTable n).v = true ∧ (t.launch j l).bound = some n ∧ (t.launch j l).cmask = s.arg.w1 ∧
           (t.launch j l).cores = s.arg.w2 ∧ (t.launch j l).code = code ∧ (t.launch j l).codePois = bad ∧
           ((t.launch j l).isBound = true → ∀ q ∈ (t.launch j l).waiting, q.t.anti = true))))) ∧
    (let c := s.arg.c; let j := s.arg.j; let l := s.arg.l
     let x := s.launch j l
     (s.canReside c j l = false → exec .strandBecomesResident s = .next s) ∧
     (∀ k i, s.canReside c j l = true → (s.core c).freed = [] → (s.core c).installed.contains (j, l) = true → s.nextResident c j l = some (k, i) →
       ∃ t, exec .strandBecomesResident s = .next t ∧
         t.strand c k = { res := some (j, l), base := i, ntile := x.ntile, nscr := (x.scrb + 2047) / 2048, pool := 8 * ((x.nreg + 7) / 8) } ∧
         (∀ m, i ≤ m → m < i + x.ntile + (x.scrb + 2047) / 2048 →
           (t.slot c m).jobtag = j.toNat ∧ (t.slot c m).strand = k ∧ (t.slot c m).use = (if m < i + x.ntile then 1 else 2) ∧ (t.slot c m).st = 0) ∧
         (∀ m, m < i ∨ i + x.ntile + (x.scrb + 2047) / 2048 ≤ m → t.slot c m = s.slot c m) ∧
         (∀ m, m ≠ k → t.strand c m = s.strand c m) ∧ { t with cores := s.cores } = s)) ∧
    (∀ r, s.msgReq s.arg.n = some r →
      (let answered := fun (t : State) (v : Rep) (data : Bool) => exec .launchRequestAtManagementCore s =
         .next ((({ t with descs := Tab.del t.descs s.arg.n } : State).dropMsg s.arg.n).replyTo t.epMgmt r v data)
       (Tab.find s.descs s.arg.n = none → ∀ f, s.readLaunch r.core r.job r.va = .inr f → answered s { fault := some f } false) ∧
       ∀ d u, (Tab.find s.descs s.arg.n = some d ∧ u = s) ∨
           (Tab.find s.descs s.arg.n = none ∧ s.readLaunch r.core r.job r.va = .inl d ∧ u = { s.visitLaunch r.core r.job r.va d with descs := Tab.put s.descs s.arg.n d }) →
         ((s.job r.job).cancelled = true ∨ u.createLaunch r.core r.job d (some r.strand) = .wait → ∃ t, exec .launchRequestAtManagementCore s = .next t ∧
           (s.now + 64, Instr.launchRequestAtManagementCore, ({ n := s.arg.n } : StepArg)) ∈ t.agenda ∧ t.msgs = s.msgs ∧ t.jobs = s.jobs ∧
           Tab.find t.descs s.arg.n = some d) ∧
         ((s.job r.job).cancelled = false →
           (∀ f, u.createLaunch r.core r.job d (some r.strand) = .fault f → answered u { fault := some f } false) ∧
           (u.createLaunch r.core r.job d (some r.strand) = .desc → answered u { fault := some { cls := 11 } } false) ∧
           ∀ t l, u.createLaunch r.core r.job d (some r.strand) = .made t l → answered t { w0 := l.setWidth 64 } true)) ∧
      (let x := (s.dropMsg s.arg.n).cancel r.job (r.w1.extractLsb' 0 2) r.w0
       exec .cancelRequestAtManagementCore s = .next (x.1.replyTo x.1.epMgmt r { w0 := if x.2 then 0 else 3 } true)))

/-! ## Steps, decoding and reset -/

/-- The device steps of the opcode table, which have no encoding: everything else of `Instr` has one. -/
def Sys2Proof.hasWord (i : Instr) : Bool := (encode32 i).isSome || (encode16 i).isSome

/-- A step runs the decoded instruction (R97, R100, R127): where a strand holds the issue slot and the fetch buffer holds, without fault or
poison, the parcels p0 and p1 at its pc, and they decode to an instruction, the step is that instruction's `exec`, with fresh free values. A
16-bit instruction needs its own parcel alone. -/
def Obligations.StepRunsDecodedInstruction : Prop :=
  ∀ (s : State) (c : CoreId) (k : StrandId) (p0 p1 : BitVec 16) (i : Instr), s.offer = some (c, k) →
    (s.strand c k).parcel (s.strand c k).pc = .word p0 → decodeParcels p0 p1 = some i →
    (bitAt p0 0 = true → (s.strand c k).parcel ((s.strand c k).pc + 2#48) = .word p1) →
    step s = exec i s.newFresh ∧ i.wf = true

/-- Checks 1 and 2 of R119: a fetch that faulted raises its fault at issue, and parcels that are no instruction take the illegal-instruction
fault; each step then is the taking of that fault (R98, R104). -/
def Sys2Proof.StepFaultsUndecoded : Prop :=
  ∀ (s : State) (c : CoreId) (k : StrandId) (p0 p1 : BitVec 16) (f : Fault'), s.offer = some (c, k) →
    ((s.strand c k).parcel (s.strand c k).pc = .fault f → ∃ t, step s = .next t ∧ TakesFault s t c k f (s.strand c k).pc) ∧
    ((s.strand c k).parcel (s.strand c k).pc = .word p0 → decodeParcels p0 p1 = none →
      (bitAt p0 0 = true → (s.strand c k).parcel ((s.strand c k).pc + 2#48) = .word p1) →
      ∃ t, step s = .next t ∧ TakesFault s t c k { cls := 1 } (s.strand c k).pc)

/-- The words that the manual writes out decode to the instructions it writes beside them (R120 and the examples after it), and the words it
names as no instruction are refused. -/
def Obligations.DecodesWrittenWords : Prop :=
  (∀ e ∈ [((0x0000439D#32 : BitVec 32), Instr.jl 2#19 7#6), (0x0140E385#32, .addi 20#12 false 7#6 7#6),
      (0x0060E129#32, .ld 0#9 3#2 false 7#6 2#6), (0x00104103#32, .add false false 2#6 2#6 2#6),
      (0x0060212B#32, .st 0#9 3#2 false false 1#6 2#6), (0x18000025#32, .exit), (0x04288183#32, .add true false 5#6 4#6 3#6),
      (0x0050E517#32, .chki 10#13 7#6 false 2#3 2#2), (0xFFFFFD1B#32, .br (-6#25)),
      (0x13990845#32, .vfma false false 2#3 7#4 3#4 2#4 1#4 0#4)], decode32 e.1 = some e.2) ∧
  decode32 0xFFFFFFFF#32 = none ∧ decode32 0x00000001#32 = none ∧ decode16 0#16 = none

/-- Decoding reads back every instruction that encoding writes, with every operand at every value the encoding admits, and leaves the bytes
behind it; the encoding has the length that the first parcel frames (R100). -/
def Sys2Proof.DecodeEncode : Prop :=
  ∀ (i : Instr) (bs rest : List Byte), i.wf = true → encodeBytes i = some bs →
    decodeBytes (bs ++ rest) = some (i, rest) ∧ (bs.length = 2 ∨ bs.length = 4)

/-- What decodes is well formed and has exactly the bytes it was read from, so that no two instructions share a word and no reserved or unused
field is ignored (R104). -/
def Sys2Proof.EncodeDecode : Prop :=
  ∀ (i : Instr) (bs rest : List Byte), decodeBytes bs = some (i, rest) →
    i.wf = true ∧ hasWord i = true ∧ ∃ e, encodeBytes i = some e ∧ bs = e ++ rest

/-- Right after a power-on the module is at stage 0 with RSTCAUSE 0, no job is resident, the command registers read 0, every MEAS slot is zero,
the island caps are at their defaults and unlocked, no stack is trained, every slot's job tag reads 16, no machine-check record stands, and
the queues, caches and tables hold nothing; IDENT reads the stepping, DEVNUM 0, and TREECTL a round period of 4 µs (R57, R58, R62, R64, R171, R361,
R422). -/
def Obligations.ResetFacts : Prop :=
  let s := State.reset
  s.stage = 0 ∧ s.rstcause = 0 ∧ s.trained = 0#12 ∧ s.failed = 0#12 ∧ s.diesvc = 0#4 ∧ s.cmdhead = 0#8 ∧ s.cmdtail = 0#8 ∧
  s.islock = false ∧ s.mcrec = [] ∧ s.slotTable = [] ∧ s.msgs = [] ∧ s.flits = [] ∧ s.agenda = [] ∧
  s.meas = List.replicate 8 0#512 ∧ (s.isl.map fun e => e.2.cap.toNat).sum = 2500 ∧
  (∀ j : JobId, (s.job j).resident = false) ∧ s.treectl = 3#64 ∧ s.readBar 0 = 0x5552740001000000#64 ∧ s.readBar 8 = 0#64 ∧
  (∀ o, o ∈ [0x1000, 0x1008, 0x1238, 0x1300, 0x1400, 0x1408, 0x1410, 0x2000, 0x2008, 0x2010, 0x2018, 0x2020] → s.readBar o = 0#64) ∧
  ∀ c : CoreId, (∀ n, (s.slot c n).jobtag = 16 ∧ (s.slot c n).st = 0) ∧ (s.core c).queue = [] ∧ (s.core c).dcache = [] ∧
    (s.core c).icache = [] ∧ (s.core c).dtlb = [] ∧ (s.core c).reqs = [] ∧ ∀ k, (s.strand c k).st = .idle ∧ (s.strand c k).task = none

/-- Memory is in its canonical form right after reset. -/
def Obligations.MemoryCanonicalAtReset : Prop := Memory.wf State.reset.mem = true

/-- Every step keeps the canonical form of memory: addresses strictly rising, and no entry equal to what an unlisted address reads as. -/
def Obligations.MemoryCanonicalKept : Prop :=
  ∀ (s t : State), Memory.wf s.mem = true → step s = .next t → Memory.wf t.mem = true

/-- A step answers a next state: an instruction wherever a strand holds the issue slot, every device step, and the passing of time. What is
asked of the state is that its agenda holds device steps only. -/
def Sys2Proof.StepsAnswer : Prop :=
  ∀ s : State, (s.offer = none → ∀ e ∈ s.agenda, hasWord e.2.1 = false) → Safe s

/-- The device steps of the opcode table, in its order. -/
def Sys2Proof.deviceSteps : List Instr :=
  [.powerOn, .hostReset, .watchdogExpiry, .romMeasureFirmware, .stage2FirmwareLoad, .stage3ReducedService, .stackTrainingEnd, .islctlLock,
   .islandPowerSample, .thermalHalt, .ucieLinkFailure, .jenayPortFailure, .hbmStackFailure, .uncorrectableError, .supervisorTimeout, .repctlGo,
   .reportComplete, .registerWrite, .cmdtailWrite, .jobstart, .phaseopen, .cancelCommand, .keydestroy, .reservedCommand, .teardown,
   .hostCxlMemoryAccess, .backInvalidateResponse, .bind, .strandBecomesResident, .launchCompletion, .graphCompletion, .phaseCompletion,
   .taskMessageArrival, .antiMessageArrival, .spillRefill, .dispense, .sendBufferDeparture, .taskMessageAccepted, .stealRequest, .stealReply,
   .shippedTasksArrival, .stealPauseExpiry, .iterationClaim, .fetchFill, .barrelCycle, .strandWake, .producerResultWrite, .replyArrival, .putregFill,
   .pageWalk, .translationInvalidation, .invalidationAcknowledgement, .coherentLoadRenewal, .coherentStoreAtHome, .ptsTick, .noncoherentWriteback,
   .amoAtHome, .reductionAtHome, .fullEmptyAtHome, .waiterWithdrawal, .waitwRegistration, .waitwWake, .resumecRequest, .remoteLocalAccess,
   .resizeAtSlice, .frameExchange, .scrubLine, .versionStoreAtHome, .versionLoadAtHome, .versionQueryAtHome, .versionRetraction, .exactReadRelease,
   .readMarkRemoval, .versionCommit, .barrierObjectOperation, .barrierObjectNotice, .mbarWaitTimeout, .laneStep, .laneInstructionComplete,
   .copyRowTransfer, .transposeRowRead, .fillLanding, .drainComplete, .matrixCommandStart, .matrixCommandComplete, .tmulkStep, .decodeRequestStart,
   .frameDecoded, .decodeComplete, .routerCycle, .cometAdvance, .flitEjection, .packetReassembled, .retryReceive, .backoffExpiry, .throttleWindowEnd,
   .jenayLinkArrival, .jenayAnswerReturn, .gvtRoundStart, .colourFlip, .leafReport, .gvtWaveStart, .gvtRoundClose, .gvtBroadcastReceive, .commitStep,
   .versionArrivalNotice, .rollback, .ringPressureRollback, .packetDelivery, .resume, .resumeWithSkip, .kill, .contextWrite, .tileTableWrite,
   .accumulatorWrite, .sideLogDiscard, .replay, .replayEntryResult, .prectlStop, .stopFlip, .eclipseCutClose, .strandSave, .coreSave, .prectlRestore,
   .launchRequestAtManagementCore, .cancelRequestAtManagementCore, .linkLevelReplay, .linkCreditReturn]

/-- No device step has an encoding, and each of them answers a next state at every state. -/
def Sys2Proof.DeviceStepsAnswer : Prop :=
  ∀ i ∈ deviceSteps, hasWord i = false ∧ ∀ s, ∃ t, exec i s = .next t

/-- What the host's accesses, a RESIZE and an exchange of frames do where their conditions hold: the host holds the line that it accessed; its response
releases the line; a RESIZE is answered with the ways in effect; the frame stands where its victim stood (R68, R157, R196, R197). -/
def Sys2Proof.HostStepsAct : Prop :=
  ∀ s : State,
    (isTier s.arg.w0.toNat = true → s.stackOk s.arg.w0.toNat = true →
      ∃ t, exec .hostCxlMemoryAccess s = .next t ∧ s.arg.w0.toNat / 128 ∈ t.hostLines) ∧
    (∃ t, exec .backInvalidateResponse s = .next t ∧ s.arg.n ∉ t.hostLines) ∧
    (∀ r, s.msgReq s.arg.n = some r → r.kind = .resize → r.w0.toNat ≤ 15 → (s.cluster (clusterOf r.core)).vwait = [] →
      ∃ t v, exec .resizeAtSlice s = .next t ∧ Replied t s.nextId r v ∧ v.w0 = BitVec.ofNat 64 (t.cluster (clusterOf r.core)).vways) ∧
    (∀ m, s.arg.v ∉ s.evictOff → isCap ((s.frame s.arg.n).at' * 65536) = true → (Tab.get [] s.frameHits s.arg.n).length = 16 →
      (∀ x ∈ Tab.get [] s.frameHits s.arg.n, s.now ≤ x + 179200) → (s.frame s.arg.n).lost = false → m ≠ s.arg.n → s.victim s.arg.v = some m →
      (s.victimKey m).1 = 0 → ∃ t, exec .frameExchange s = .next t ∧ (t.frame s.arg.n).at' = (s.frame m).at')

/-- What the steps of a barrel do where their conditions hold: a cycle offers the slot to the strand that p then names, or to none, p as it was; a
parked strand whose cause has cleared is ready; a reply to a store or a reduction ends its request; a PUTREG's fill sets its register full
(R126, R127, R130, R132). -/
def Sys2Proof.BarrelStepsAct : Prop :=
  ∀ (s : State) (c : CoreId) (k : StrandId),
    (s.arg.c = c → s.offer = none → ∃ t, exec .barrelCycle s = .next t ∧
      ((t.offer = none ∧ (t.core c).p = (s.core c).p) ∨ t.offer = some (c, (t.core c).p))) ∧
    (s.arg.c = c → s.arg.k = k → (s.strand c k).st = .parked → s.parkOver c k (s.strand c k).park = true →
      ∃ t, exec .strandWake s = .next t ∧ (t.strand c k).st = .ready ∧ (t.strand c k).park = .none) ∧
    (∀ n r v, Answers s n c r v → v.fault = none → v.withdrawn = false → r.kind = .store ∨ (∃ op, r.kind = .red op) →
      ∃ t, exec .replyArrival s = .next t ∧ Over s t c r) ∧
    (∀ r, s.msgReq s.arg.n = some r → r.w1.extractLsb' 4 12 = c → r.w1.extractLsb' 0 4 = k →
      (s.agenda.any fun e => decide (e.1 ≤ s.now) && e.2.1 == .barrelCycle && e.2.2.c == c) = false → (s.strand c k).res = some (r.job, r.lslot) →
      let x : XReg := r.w1.extractLsb' 24 6
      x ≠ 0#6 → x.toNat ≤ (s.launch r.job r.lslot).nreg → (s.strand c k).full (.x x) = true ∨ s.producing c k x = false →
      ∃ t, exec .putregFill s = .next t ∧ (t.strand c k).full (.x x) = true)

/-- What the steps of the network do where their conditions hold: the comet advances; a throttle window's counts begin anew; a RETRY makes its packet
wait and the end of the wait sends it whole again; an answer from a link enters the mesh as one of the port, and one to a proxied request frees
its entry; a credit lets the oldest packet that waits leave; a replay changes nothing (R311, R316, R317, R321, R322). -/
def Sys2Proof.NetworkStepsAct : Prop :=
  ∀ (s : State) (n : Nat) (m : Msg), s.arg.n = n → sentMsg s n = some m →
    exec .cometAdvance s = .next { s with comet := (s.comet + 1) % 65536 } ∧
    (∃ t, exec .throttleWindowEnd s = .next t ∧ (t.cluster s.arg.cl).routedNow = 0 ∧ (t.cluster s.arg.cl).deflNow = 0) ∧
    (∀ k r, m.body = .retry k → k ≠ n → sentMsg s k = some r → ∃ t q, exec .retryReceive s = .next t ∧ sentMsg t k = some q ∧ q.refused = true ∧
      q.retries = r.retries + 1) ∧
    (m.refused = true → s.inMesh n = false → ∃ t q, exec .backoffExpiry s = .next t ∧ sentMsg t n = some q ∧ q.refused = false ∧ q.due = List.range m.fcnt) ∧
    ((s.port s.arg.v).failed = false → isReplyKind m.kind = true → ∃ t q, exec .jenayLinkArrival s = .next t ∧ sentMsg t n = some q ∧
      q.src = { dev := s.devnum, router := portRouter s.arg.v, ep := 68 }) ∧
    (∀ e, (s.port s.arg.v).proxies.find? (fun x => x.new == some m.answers) = some e → (∀ k, m.body ≠ .retry k) →
      ∃ t, exec .jenayAnswerReturn s = .next t ∧ (t.port s.arg.v).proxies = (s.port s.arg.v).proxies.filter (fun x => x.m ≠ e.m)) ∧
    (∀ q, (s.port s.arg.v).hold.find? (fun m => linkClass m.kind m.isAnti == n) = some q →
      ∃ t, exec .linkCreditReturn s = .next t ∧ (t.port s.arg.v).out = (s.port s.arg.v).out ++ [q]) ∧
    exec .linkLevelReplay s = .next s

/-- What the steps of a stop and a restore do where their conditions hold: a stop that nothing stands against opens its round; a stop flip stops its
leaf; the cut closes and the job is stopped; a strand and a core whose areas are stored are recorded; a restore whose area verifies lets the job
run (R393, R394, R396 to R402). -/
def Sys2Proof.StopStepsAct : Prop :=
  ∀ (s : State) (j : JobId) (c : CoreId) (k : StrandId) (x : Cut),
    (s.prectl.extractLsb' 0 4 = j → s.cut = none → (s.job j).resident = true → (s.job j).stopped = false → (s.job j).round.active = false →
      s.root = s.devnum.toNat → ∃ t, exec .prectlStop s = .next t ∧ (t.job j).round.active = true ∧ (t.job j).round.stop = true) ∧
    (s.arg.j = j → (s.job j).round.active = true → (s.job j).round.stop = true → s.arg.leaf = .mgmt →
      ∃ t, exec .stopFlip s = .next t ∧ ((t.job j).leaf .mgmt).stopped = true) ∧
    (s.arg.j = j → s.arg.v ≠ 1 → s.root = s.devnum.toNat → (s.job j).round.active = true → (s.job j).round.stop = true → (s.job j).round.due = [] →
      ((s.job j).round.reps.map (·.cnt)).foldl (· + ·) 0 = 0 → ((s.job j).round.reps.map (·.out)).sum = 0 →
      ∃ t, exec .eclipseCutClose s = .next t ∧ (t.job j).stopped = true ∧ (t.job j).round.active = false) ∧
    (s.arg.c = c → s.arg.k = k → s.cut = some x → x.phase = 2 → (c, k) ∈ x.strands → s.canSave c k x.job = true →
      s.jobClear x.job (linesOf (s.strandVa c k) 0x1000) = true → ∀ u w g, s.saveParts x.job [(s.strandVa c k, s.strandArea c k)] = .inl u →
      u.sealArea x.job (s.strandVa c k) (s.strandVa c k + 0xFC0) (s.strandVa c k + 0xFF8) 24 (s.strandArea c k) = .inl (w, g) →
      ∃ t, exec .strandSave s = .next t ∧ (c, k, g) ∈ (t.job x.job).saved.strands) ∧
    (s.arg.c = c → s.cut = some x → x.phase = 2 → x.strands = [] → c ∈ x.cores → x.scope = false → (s.core c).mq = [] → (s.core c).mrun = none →
      (s.core c).copies = [] → (s.core c).reqs = [] → (s.core c).freed = [] → s.committing x.job = false →
      s.jobClear x.job ((s.coreParts c x.job false).flatMap (fun p => linesOf p.1 p.2.length) ++ linesOf (s.coreVa c + 0xC7FC0#48) 64) = true →
      ∀ u w bs bad g, s.saveParts x.job (s.coreParts c x.job false) = .inl u → u.jobRead 0 x.job (s.coreVa c) 0xC7FC0 = .inl (bs, bad) →
      u.sealArea x.job (s.coreVa c) (s.coreVa c + 0xC7FC0) (s.coreVa c + 0xC7FF8) 0 bs = .inl (w, g) →
      ∃ t, exec .coreSave s = .next t ∧ (c, g) ∈ (t.job x.job).saved.cores) ∧
    (s.prectl.extractLsb' 0 4 = j → s.cut = none → (s.job j).resident = true → (s.job j).stopped = true → (s.job j).saved.cores = [] →
      (s.job j).saved.whole = false → (s.job j).saved.inst = [] → ∀ g bs, (s.job j).saved.strands = [(c, k, g)] →
      (({ s with prestat := 0 } : State).visitRead 0 j (s.strandVa c k) 0x1000).verified j (s.strandVa c k) 0xFC0 0xFF8 0x1000 g = some bs →
      ∃ t, exec .prectlRestore s = .next t ∧ (t.job j).stopped = false)

/-! ## The statements that join several of the above -/

/-- INT, counts, immediates, shifts and LIM compute their functions and change nothing else (R133, R139, R142, R143, R144, R145). -/
def Obligations.IntegerArithmetic : Prop := Sys2Proof.IntegerResults ∧ Sys2Proof.CountResults ∧ Sys2Proof.ImmediateResults ∧ Sys2Proof.ChunkResults

/-- CHK, CHKI and FCHK open a shadow exactly where their condition is false (R146, R147). -/
def Obligations.ComparesOpenShadows : Prop := Sys2Proof.CompareSkips ∧ Sys2Proof.FloatCompareSkips

/-- BR, JL, JLR and ISYNC continue where the spec says, the fetch buffer empty (R99, R148, R149, R150). -/
def Obligations.BranchesAndIsync : Prop := Sys2Proof.Branches ∧ Sys2Proof.Isync

/-- Scalar FP32 instructions round once and OR their flags into STS (R42, R44, R46, R139, R151). -/
def Obligations.FloatArithmetic : Prop := Sys2Proof.FloatResults ∧ Sys2Proof.FloatMinMax

/-- CTL instructions read and write the control registers in their stored forms (R117, R154). -/
def Obligations.ControlRegisters : Prop := Sys2Proof.ControlReads ∧ Sys2Proof.ControlWrites

/-- BRK and TRAP freeze the strand with their packet (R155, R156). -/
def Obligations.BreakpointAndTrap : Prop := Sys2Proof.Breakpoint ∧ Sys2Proof.Trap

/-- Illegal and empty source registers fault or park before anything changes (R23, R119, R131). -/
def Obligations.RegisterChecks : Prop := Sys2Proof.IllegalRegister ∧ Sys2Proof.EmptySources

/-- RESIZE, RESUMEC, CANCEL and LAUNCH ask their agents (R140, R157, R165, R166, R167). -/
def Obligations.RequestsToAgents : Prop := Sys2Proof.AgentRequests ∧ Sys2Proof.LaunchRequests

/-- SPAWN, SPAWNA and MIGRATE send a task (R18, R27, R29, R158, R159, R160, R388, R421). -/
def Obligations.TasksSent : Prop := Sys2Proof.Spawns ∧ Sys2Proof.Migrates ∧ Sys2Proof.UnreadableArguments

/-- EXIT, YIELD, SUSPEND and WAITW end runs; ITER and ITERN hand out iterations (R27, R92, R93, R161, R164, R168, R169, R348, R414). -/
def Obligations.RunsEndAndIterate : Prop := Sys2Proof.Exits ∧ Sys2Proof.SetsAside ∧ Sys2Proof.Iterates

/-- Loads and stores of local memory, and the faults of addresses (R5, R205, R208, R209, R210, R211). -/
def Obligations.LocalAccesses : Prop := Sys2Proof.LocalLoads ∧ Sys2Proof.LocalStores ∧ Sys2Proof.AccessFaults

/-- LDB, STB and the line instructions make their requests (R189, R193, R212, R213). -/
def Obligations.MemoryRequests : Prop := Sys2Proof.BlockRequests ∧ Sys2Proof.LineRequests

/-- Fences, PUTREG and DEFER (R214, R215, R221, R345). -/
def Obligations.FencesAndDeferred : Prop := Sys2Proof.Fences ∧ Sys2Proof.PutReg ∧ Sys2Proof.Deferred

/-- Full-empty operations, AMOs and reductions make their requests (R205, R216, R217, R219, R220). -/
def Obligations.AtomicRequests : Prop := Sys2Proof.FullEmptyRequests ∧ Sys2Proof.Atomics ∧ Sys2Proof.Reductions

/-- Barriers and barrier objects (R231, R233). -/
def Obligations.BarrierInstructions : Prop := Sys2Proof.Barriers ∧ Sys2Proof.BarrierFaults ∧ Sys2Proof.BarrierObjects ∧ Sys2Proof.BarrierObjectFaults

/-- Version instructions make their requests (R222, R224, R225, R226, R229, R330, R346). -/
def Obligations.VersionInstructions : Prop := Sys2Proof.VersionLoads ∧ Sys2Proof.VersionStores

/-- Two-source and one-source vector instructions (R115, R251, R252). -/
def Obligations.LaneArithmetic : Prop := Sys2Proof.LaneTwoSources ∧ Sys2Proof.LaneOneSource

/-- VFMA, VFMS, VSEL, VIOTA, VBCAST, VCVT and VADAM (R250, R251, R253, R254, R256, R260). -/
def Obligations.LaneOthersAndAdam : Prop := Sys2Proof.LaneOthers ∧ Sys2Proof.LaneAdam

/-- Vector reductions and selections, and how a vector instruction stops and resumes (R241, R244, R255, R256, R257, R258, R259, R394). -/
def Obligations.LaneReductionsAndStops : Prop := Sys2Proof.LaneReductions ∧ Sys2Proof.LaneSelections ∧ Sys2Proof.LaneStops

/-- Tile slots and the tile copies at issue (R262, R288, R289, R290, R291, R292, R293, R294). -/
def Obligations.TileSlotsAndCopies : Prop := Sys2Proof.TileSlots ∧ Sys2Proof.TileCopies

/-- The rows and the ends of copies (R263, R268, R270, R287, R290, R291, R293). -/
def Obligations.CopySteps : Prop := Sys2Proof.CopyRows ∧ Sys2Proof.CopyEnds

/-- Matrix instructions and the matrix queue (R271, R276, R296, R297, R298, R299, R300, R301, R302). -/
def Obligations.MatrixCommands : Prop := Sys2Proof.MatrixIssue ∧ Sys2Proof.MatrixQueue

/-- Cold resets and bring-up (R57, R58, R59, R62, R65, R390). -/
def Obligations.ResetsAndBringUp : Prop := Sys2Proof.ColdResets ∧ Sys2Proof.BringUp

/-- Machine checks and uncorrectable errors (R198, R386, R387, R389, R390). -/
def Obligations.HardwareErrors : Prop := Sys2Proof.MachineChecks ∧ Sys2Proof.UncorrectableErrors

/-- Power samples, the attestation report and register writes (R63, R66, R67, R69, R70, R361, R389, R391). -/
def Obligations.BoardSteps : Prop := Sys2Proof.IslandSamples ∧ Sys2Proof.ReportAndRegisters

/-- The command ring and its commands (R31, R70, R71, R72, R418, R420). -/
def Obligations.HostCommands : Prop := Sys2Proof.CommandRing ∧ Sys2Proof.CommandEffects

/-- JOBSTART, the binding of launches and the requests of LAUNCH (R25, R72, R73, R74, R75, R166). -/
def Obligations.JobsStartAndBind : Prop := Sys2Proof.JobStart ∧ Sys2Proof.Binding

/-- Completions and the teardown of a job (R28, R31, R68, R72, R75, R76, R77, R201, R357, R414, R415, R418). -/
def Obligations.JobsEnd : Prop := Sys2Proof.Teardown ∧ Sys2Proof.Completions

/-- Task messages depart and arrive (R14, R81, R91, R354, R355, R359, R363, R421). -/
def Obligations.TaskMessages : Prop := Sys2Proof.Departures ∧ Sys2Proof.PositiveArrivals ∧ Sys2Proof.AntiArrivals

/-- Refills, dispense, donation and holds (R14, R17, R81, R82, R84, R88, R91, R126, R162, R165). -/
def Obligations.QueuesAndDispense : Prop := Sys2Proof.Refills ∧ Sys2Proof.Dispenses ∧ Sys2Proof.Donation ∧ Sys2Proof.HoldsEnd

/-- Every device step answers a next state at every state, and those of the host, the barrel, the network and the stops have their effect where their
conditions hold (R68, R126, R127, R130, R132, R157, R196, R316, R322, R394, R396, R402). -/
def Obligations.DeviceStepsComplete : Prop :=
  Sys2Proof.DeviceStepsAnswer ∧ Sys2Proof.HostStepsAct ∧ Sys2Proof.BarrelStepsAct ∧ Sys2Proof.NetworkStepsAct ∧ Sys2Proof.StopStepsAct

/-- Fetch, page walks and translation invalidation (R96, R97, R98, R174, R177, R180, R186). -/
def Obligations.FetchAndWalks : Prop := Sys2Proof.FetchFills ∧ Sys2Proof.PageWalks ∧ Sys2Proof.Invalidations

/-- The barrel's cycle, the wake of parked strands, and the replies and fills that reach their registers (R126, R127, R130, R131, R132, R135, R189, R205,
R206, R215, R314, R372). -/
def Obligations.BarrelWakesAndReplies : Prop :=
  Sys2Proof.BarrelCycles ∧ Sys2Proof.Wakes ∧ Sys2Proof.Replies ∧ Sys2Proof.FaultReplies ∧ Sys2Proof.PutregFills

/-- Barrier objects and remote local accesses at their owner (R171, R182, R232, R233). -/
def Obligations.BarrierObjectsAndRemoteBanks : Prop := Sys2Proof.BarrierObjectSteps ∧ Sys2Proof.RemoteAccesses

/-- AMOs, reductions, claims and full-empty words at the home (R92, R93, R185, R192, R216, R218, R219, R220). -/
def Obligations.AtomicWordsAtHome : Prop := Sys2Proof.AtomicsAtHome ∧ Sys2Proof.FullEmptyAtHome

/-- Slices, frames and the host's accesses (R68, R157, R186, R194, R196, R197, R199). -/
def Obligations.SlicesFramesAndHost : Prop := Sys2Proof.SlicesAndHost ∧ Sys2Proof.FrameExchanges

/-- Version stores, queries, retractions, releases and commits at the home (R222, R223, R224, R227, R228, R229, R350, R358, R363). -/
def Obligations.VersionsAtHome : Prop := Sys2Proof.VersionStoresAtHome ∧ Sys2Proof.VersionQueries ∧ Sys2Proof.VersionEnds

/-- Version loads at the home (R225, R226, R227). -/
def Obligations.VersionReadsAtHome : Prop := Sys2Proof.ExactLoads ∧ Sys2Proof.LoadsByTime

/-- A router's cycle loses no flit; acceptance and ejection (R309, R310, R313, R315, R320). -/
def Obligations.RoutersAndEjection : Prop := Sys2Proof.RouterCycles ∧ Sys2Proof.FlitAcceptance ∧ Sys2Proof.FlitEjections

/-- Whole packets, retries, throttling and the Jenay ports (R305, R311, R313, R315, R316, R317, R318, R319, R320, R321, R322, R359). -/
def Obligations.PacketsAndPorts : Prop := Sys2Proof.WholePackets ∧ Sys2Proof.RetriesAndBackoff ∧ Sys2Proof.ThrottleAndComet ∧ Sys2Proof.JenayPorts

/-- GVT rounds: flips, reports, closes and broadcasts; GVT never falls (R357, R358, R359, R360, R361, R362, R363, R394, R417). -/
def Obligations.GvtRounds : Prop := Sys2Proof.RoundStarts ∧ Sys2Proof.FlipsAndReports ∧ Sys2Proof.RoundCloses ∧ Sys2Proof.Broadcasts

/-- The steps of a commit (R18, R221, R363, R421). -/
def Obligations.Commits : Prop := Sys2Proof.CommitSteps

/-- How rollbacks begin and what they undo (R18, R347, R349, R350, R351, R352, R353, R354). -/
def Obligations.Rollbacks : Prop := Sys2Proof.RollbackBegins ∧ Sys2Proof.RollbackEnds ∧ Sys2Proof.Notices ∧ Sys2Proof.RingPressure

/-- Fault packets, resume, skip and kill (R132, R133, R373, R375, R380, R381, R382). -/
def Obligations.FrozenStrands : Prop := Sys2Proof.PacketDeliveries ∧ Sys2Proof.Resumes ∧ Sys2Proof.Kills

/-- Writes of the debug window and the side log (R132, R377, R379, R383, R385). -/
def Obligations.DebugWindow : Prop := Sys2Proof.WindowWrites ∧ Sys2Proof.SideLogSteps

/-- Stops, saves and restores of a job (R68, R393, R394, R395, R396, R398, R399, R400, R401, R402). -/
def Obligations.StopsSavesRestores : Prop := Sys2Proof.StopRequests ∧ Sys2Proof.CutCloses ∧ Sys2Proof.StrandSaves ∧ Sys2Proof.CoreSaves ∧ Sys2Proof.Restores

/-- Undecodable words fault as the spec says; a step answers (R98, R104, R119). -/
def Obligations.StepsWithoutDecode : Prop := Sys2Proof.StepFaultsUndecoded ∧ Sys2Proof.StepsAnswer

/-- Decode and encode agree on every instruction and every word (R100, R104). -/
def Obligations.DecodeAndEncodeAgree : Prop := Sys2Proof.DecodeEncode ∧ Sys2Proof.EncodeDecode
end

