-- ==== Sys2Proof/Laws/Crypt.lean ====
section
/-! SUPPORT. Decryption takes encryption back: a line that is written under a key reads under that key as it was written. -/

namespace Sys2Proof.Machine

theorem aesUnsub_aesSub (b : Byte) : aesUnsub (aesSub b) = b := by revert b; decide

theorem byte_xor_left_comm (a b c : Byte) : a ^^^ (b ^^^ c) = b ^^^ (a ^^^ c) := by
  rw [← BitVec.xor_assoc, BitVec.xor_comm a b, BitVec.xor_assoc]

theorem aesX_add (a b : Byte) : aesX (a ^^^ b) = aesX a ^^^ aesX b := by
  unfold aesX
  rw [BitVec.shiftLeft_xor_distrib, BitVec.msb_xor]
  cases a.msb <;> cases b.msb <;> simp [BitVec.xor_comm, byte_xor_left_comm, BitVec.xor_assoc]

theorem ACol.add_add (x y : ACol) : (x.add y).add y = x := by cases x; simp [ACol.add]
theorem ABlk.add_add (x y : ABlk) : (x.add y).add y = x := by cases x; simp [ABlk.add, ACol.add_add]

theorem xor_cancel_left (a b : Byte) : a ^^^ (a ^^^ b) = b := by rw [← BitVec.xor_assoc, BitVec.xor_self, BitVec.zero_xor]

theorem byte_xor_xor_xor (a b c d : Byte) : (a ^^^ b) ^^^ (c ^^^ d) = (a ^^^ c) ^^^ (b ^^^ d) := by
  rw [BitVec.xor_assoc, BitVec.xor_assoc, byte_xor_left_comm b c d]

/-- The inverse column step is additive. -/
theorem aesUnmix1_add (a b c d a' b' c' d' : Byte) :
    aesUnmix1 (a ^^^ a') (b ^^^ b') (c ^^^ c') (d ^^^ d') = aesUnmix1 a b c d ^^^ aesUnmix1 a' b' c' d' := by
  simp only [aesUnmix1, aesX_add, byte_xor_xor_xor]

theorem aesUnmix1_of_a (a : Byte) : aesUnmix1 (aesX a) a a (aesX a ^^^ a) = a := by
  simp only [aesUnmix1, aesX_add]
  generalize aesX (aesX (aesX (aesX a))) = a4, aesX (aesX (aesX a)) = a3, aesX (aesX a) = a2, aesX a = a1
  simp only [BitVec.xor_assoc, BitVec.xor_comm, byte_xor_left_comm, xor_cancel_left, BitVec.xor_self, BitVec.xor_zero, BitVec.zero_xor]

theorem aesUnmix1_of_b (b : Byte) : aesUnmix1 (aesX b ^^^ b) (aesX b) b b = 0 := by
  simp only [aesUnmix1, aesX_add]
  generalize aesX (aesX (aesX (aesX b))) = a4, aesX (aesX (aesX b)) = a3, aesX (aesX b) = a2, aesX b = a1
  simp [BitVec.xor_assoc, BitVec.xor_comm, byte_xor_left_comm]

theorem aesUnmix1_of_c (c : Byte) : aesUnmix1 c (aesX c ^^^ c) (aesX c) c = 0 := by
  simp only [aesUnmix1, aesX_add]
  generalize aesX (aesX (aesX (aesX c))) = a4, aesX (aesX (aesX c)) = a3, aesX (aesX c) = a2, aesX c = a1
  simp [BitVec.xor_assoc, BitVec.xor_comm, byte_xor_left_comm]

theorem aesUnmix1_of_d (d : Byte) : aesUnmix1 d d (aesX d ^^^ d) (aesX d) = 0 := by
  simp only [aesUnmix1, aesX_add]
  generalize aesX (aesX (aesX (aesX d))) = a4, aesX (aesX (aesX d)) = a3, aesX (aesX d) = a2, aesX d = a1
  simp [BitVec.xor_assoc, BitVec.xor_comm, byte_xor_left_comm]

theorem aesUnmix1_aesMix1 (a b c d : Byte) :
    aesUnmix1 (aesMix1 a b c d) (aesMix1 b c d a) (aesMix1 c d a b) (aesMix1 d a b c) = a := by
  have e1 : aesMix1 b c d a = a ^^^ aesX b ^^^ (aesX c ^^^ c) ^^^ d := by
    simp only [aesMix1, BitVec.xor_assoc, BitVec.xor_comm, byte_xor_left_comm]
  have e2 : aesMix1 c d a b = a ^^^ b ^^^ aesX c ^^^ (aesX d ^^^ d) := by
    simp only [aesMix1, BitVec.xor_assoc, BitVec.xor_comm, byte_xor_left_comm]
  have e3 : aesMix1 d a b c = (aesX a ^^^ a) ^^^ b ^^^ c ^^^ aesX d := by
    simp only [aesMix1, BitVec.xor_assoc, BitVec.xor_comm, byte_xor_left_comm]
  rw [e1, e2, e3, aesMix1, aesUnmix1_add, aesUnmix1_add, aesUnmix1_add, aesUnmix1_of_a, aesUnmix1_of_b, aesUnmix1_of_c, aesUnmix1_of_d]
  simp

theorem ACol.unmix_mix (x : ACol) : x.mix.unmix = x := by
  cases x
  simp only [ACol.mix, ACol.unmix, aesUnmix1_aesMix1]

theorem ABlk.unmix_mix (x : ABlk) : (x.map ACol.mix).map ACol.unmix = x := by cases x; simp [ABlk.map, ACol.unmix_mix]
theorem ABlk.unshift_shift (x : ABlk) : x.shift.unshift = x := rfl
theorem ABlk.unsub_sub (x : ABlk) : (x.map (ACol.map aesSub)).map (ACol.map aesUnsub) = x := by
  obtain ⟨⟨_, _, _, _⟩, ⟨_, _, _, _⟩, ⟨_, _, _, _⟩, ⟨_, _, _, _⟩⟩ := x
  simp [ABlk.map, ACol.map, aesUnsub_aesSub]

theorem aesUnrounds_aesRounds (ks : List ABlk) (b : ABlk) : aesUnrounds ks (aesRounds ks b) = b := by
  induction ks generalizing b with
  | nil => rfl
  | cons k r ih =>
    cases r with
    | nil => simp [aesRounds, aesUnrounds, ABlk.add_add, ABlk.unshift_shift, ABlk.unsub_sub]
    | cons k' r' =>
      rw [aesRounds, aesUnrounds, ih, ABlk.add_add, ABlk.unmix_mix, ABlk.unshift_shift, ABlk.unsub_sub]
      all_goals simp

theorem aesDec_aesEnc (ks : List ABlk) (b : ABlk) : aesDec ks (aesEnc ks b) = b := by
  cases ks with
  | nil => rfl
  | cons k r => simp [aesDec, aesEnc, aesUnrounds_aesRounds, ABlk.add_add]

theorem ABlk.ablk_bits (x : ABlk) : ablk x.bits = x := by
  obtain ⟨⟨a0, a1, a2, a3⟩, ⟨b0, b1, b2, b3⟩, ⟨c0, c1, c2, c3⟩, ⟨d0, d1, d2, d3⟩⟩ := x
  simp only [ablk, acol, ABlk.bits, ACol.bits, ABlk.mk.injEq, ACol.mk.injEq]
  refine ⟨⟨?_, ?_, ?_, ?_⟩, ⟨?_, ?_, ?_, ?_⟩, ⟨?_, ?_, ?_, ?_⟩, ⟨?_, ?_, ?_, ?_⟩⟩ <;>
    (ext i hi; simp only [BitVec.getElem_extractLsb', BitVec.getLsbD_extractLsb', BitVec.getLsbD_append]; interval_cases i <;> simp [BitVec.getLsbD_eq_getElem])

theorem bits_ablk (v : BitVec 128) : (ablk v).bits = v := by
  simp only [ablk, acol, ABlk.bits, ACol.bits]
  ext i hi
  simp only [← BitVec.getLsbD_eq_getElem, BitVec.getLsbD_append, BitVec.getLsbD_extractLsb']
  interval_cases i <;> simp

theorem lineOf_cons_bit (b : BitVec 128) (r : List (BitVec 128)) (n : Nat) :
    (lineOf (b :: r)).getLsbD n = if n < 128 then b.getLsbD n else (decide (n < 1024) && (lineOf r).getLsbD (n - 128)) := by
  show ((lineOf r <<< 128) ||| b.setWidth 1024).getLsbD n = _
  rw [BitVec.getLsbD_or, BitVec.getLsbD_shiftLeft, BitVec.getLsbD_setWidth]
  by_cases h : n < 128
  · simp [h]; omega
  · simp [h, BitVec.getLsbD_of_ge b n (by omega)]

/-- The blocks of a line are those it is made of. -/
theorem lineOf_bit (bs : List (BitVec 128)) (i n : Nat) (hn : n < 128) (hi : i < 8) (hl : i < bs.length) :
    (lineOf bs).getLsbD (128 * i + n) = (bs[i]).getLsbD n := by
  induction i generalizing bs with
  | zero =>
    cases bs with
    | nil => simp at hl
    | cons b r => rw [lineOf_cons_bit, if_pos (by omega)]; simp
  | succ i ih =>
    cases bs with
    | nil => simp at hl
    | cons b r =>
      rw [lineOf_cons_bit, if_neg (by omega), show 128 * (i + 1) + n - 128 = 128 * i + n by omega,
        ih r (by omega) (by simpa using hl)]
      simp only [List.getElem_cons_succ, show 128 * (i + 1) + n < 1024 by omega, decide_true, Bool.true_and]

theorem lineOf_block (bs : List (BitVec 128)) (i : Nat) (hi : i < 8) (hl : i < bs.length) :
    (lineOf bs).extractLsb' (128 * i) 128 = bs[i] := by
  ext n hn
  rw [BitVec.getElem_extractLsb', lineOf_bit bs i n hn hi hl, BitVec.getLsbD_eq_getElem hn]

/-- A line is made of its blocks. -/
theorem lineOf_blocks (bs : List (BitVec 128)) (l : Line) (hl : bs.length = 8)
    (h : ∀ i, (hi : i < 8) → bs[i] = l.extractLsb' (128 * i) 128) : lineOf bs = l := by
  ext n hn
  have hq : n / 128 < 8 := by omega
  have e : n = 128 * (n / 128) + n % 128 := by omega
  rw [← BitVec.getLsbD_eq_getElem, ← BitVec.getLsbD_eq_getElem, e, lineOf_bit bs _ _ (by omega) hq (by omega), h _ hq,
    BitVec.getLsbD_extractLsb']
  simp [Nat.mod_lt]

theorem xtsTweaks_length (t : BitVec 128) (n : Nat) : (xtsTweaks t n).length = n := by
  induction n generalizing t with
  | zero => rfl
  | succ n ih => simp [xtsTweaks, ih]

theorem xtsBlocks_length (f : ABlk → ABlk) (ts : List (BitVec 128)) (l : Line) : (xtsBlocks f ts l).length = ts.length := by
  simp [xtsBlocks]

theorem xtsBlocks_get (f : ABlk → ABlk) (ts : List (BitVec 128)) (l : Line) (i : Nat) (h : i < (xtsBlocks f ts l).length) :
    (xtsBlocks f ts l)[i] =
      (f (ablk (l.extractLsb' (128 * i) 128 ^^^ ts[i]'(by rwa [xtsBlocks_length] at h)))).bits ^^^ ts[i]'(by rwa [xtsBlocks_length] at h) := by
  simp [xtsBlocks]

theorem block_xor_xor (a b : BitVec 128) : a ^^^ b ^^^ b = a := by rw [BitVec.xor_assoc, BitVec.xor_self, BitVec.xor_zero]

/-- Decryption takes encryption back, block by block. -/
theorem xtsBlocks_inverse (f g : ABlk → ABlk) (h : ∀ b, g (f b) = b) (ts : List (BitVec 128)) (ht : ts.length = 8) (l : Line) :
    lineOf (xtsBlocks g ts (lineOf (xtsBlocks f ts l))) = l := by
  refine lineOf_blocks _ l (by rw [xtsBlocks_length, ht]) fun i hi => ?_
  rw [xtsBlocks_get, lineOf_block _ i hi (by rw [xtsBlocks_length, ht]; exact hi), xtsBlocks_get, block_xor_xor, ABlk.ablk_bits, h, bits_ablk,
    block_xor_xor]

/-- A line encrypted under a key and decrypted under it is the line (R199). -/
theorem xtsDec_xtsEnc (k : Key) (u : Nat) (l : Line) : xtsDec k u (xtsEnc k u l) = l :=
  xtsBlocks_inverse _ _ (aesDec_aesEnc _) _ (xtsTweaks_length _ _) l

end Sys2Proof.Machine
end

