-- ==== Sys2Proof/Laws/Tables.lean ====
section
/-! SUPPORT. Tables and memory: a read after a write, at the same place and elsewhere. -/

namespace Sys2Proof.Machine

/-! ## Tables -/

@[simp] theorem Tab.get_put_same {α : Type} (d : α) (t : Tab α) (k : Nat) (v : α) : Tab.get d (Tab.put t k v) k = v := by
  induction t with
  | nil => simp [Tab.put, Tab.get]
  | cons e r ih =>
    obtain ⟨k', v'⟩ := e
    by_cases h : k' = k
    · simp [Tab.put, Tab.get, h]
    · by_cases h2 : k < k' <;> simp [Tab.put, Tab.get, h, h2, ih]

theorem Tab.get_put_ne {α : Type} (d : α) (t : Tab α) {k n : Nat} (v : α) (h : n ≠ k) : Tab.get d (Tab.put t k v) n = Tab.get d t n := by
  induction t with
  | nil => simp [Tab.put, Tab.get, Ne.symm h]
  | cons e r ih =>
    obtain ⟨k', v'⟩ := e
    by_cases h1 : k' = k
    · subst h1; simp [Tab.put, Tab.get, Ne.symm h]
    · by_cases h2 : k < k'
      · simp [Tab.put, Tab.get, h1, h2, Ne.symm h]
      · by_cases h3 : k' = n
        · subst h3; simp [Tab.put, Tab.get, h1, h2]
        · simp [Tab.put, Tab.get, h1, h2, h3, ih]

theorem Tab.get_put {α : Type} (d : α) (t : Tab α) (k n : Nat) (v : α) :
    Tab.get d (Tab.put t k v) n = if n = k then v else Tab.get d t n := by
  split
  · subst n; simp
  · exact Tab.get_put_ne d t v ‹_›

/-- A second write at an index replaces the first. -/
@[simp] theorem Tab.put_put {α : Type} (t : Tab α) (k : Nat) (v w : α) : Tab.put (Tab.put t k v) k w = Tab.put t k w := by
  induction t with
  | nil => simp [Tab.put]
  | cons e r ih =>
    obtain ⟨k', v'⟩ := e
    by_cases h : k' = k
    · simp [Tab.put, h]
    · by_cases h2 : k < k' <;> simp [Tab.put, h, h2, ih]

theorem Tab.get_del {α : Type} (d : α) (t : Tab α) (k n : Nat) :
    Tab.get d (Tab.del t k) n = if n = k then d else Tab.get d t n := by
  induction t with
  | nil => simp [Tab.del, Tab.get]
  | cons e r ih =>
    obtain ⟨k', v'⟩ := e
    simp only [Tab.del, Tab.get] at ih ⊢
    by_cases h : k' = k
    · subst h
      by_cases hn : n = k'
      · subst hn; simpa using ih
      · simp only [List.filter, bne_self_eq_false, ih, if_neg hn, if_neg (Ne.symm hn)]
    · simp only [List.filter, bne_iff_ne.2 h, Tab.get, ih]
      by_cases hn : k' = n
      · subst hn; simp [h]
      · simp [hn]

theorem Tab.find_put_same {α : Type} (t : Tab α) (k : Nat) (v : α) : Tab.find (Tab.put t k v) k = some v := by
  induction t with
  | nil => simp [Tab.put, Tab.find]
  | cons e r ih =>
    obtain ⟨k', v'⟩ := e
    by_cases h : k' = k
    · simp [Tab.put, Tab.find, h]
    · by_cases h2 : k < k' <;> simp [Tab.put, Tab.find, h, h2, ih]

/-! ## Memory -/

/-- The canonical form holds from every lower bound too. -/
theorem Memory.wfFrom_mono {m : List Host.Cell} {lo lo' : Nat} (h : lo' ≤ lo) (hm : Memory.wfFrom lo m = true) : Memory.wfFrom lo' m = true := by
  cases m with
  | nil => rfl
  | cons e r =>
    obtain ⟨a, b⟩ := e
    simp only [Memory.wfFrom, Bool.and_eq_true, decide_eq_true_eq] at *
    exact ⟨⟨by omega, hm.1.2⟩, hm.2⟩

theorem Memory.filter_wfFrom {m : List Host.Cell} {lo : Nat} (p : Host.Cell → Bool) (hm : Memory.wfFrom lo m = true) :
    Memory.wfFrom lo (m.filter p) = true := by
  induction m generalizing lo with
  | nil => rfl
  | cons e r ih =>
    obtain ⟨a, b⟩ := e
    simp only [Memory.wfFrom, Bool.and_eq_true, decide_eq_true_eq] at hm
    simp only [List.filter]
    split
    · simp only [Memory.wfFrom, Bool.and_eq_true, decide_eq_true_eq]
      exact ⟨hm.1, ih hm.2⟩
    · exact Memory.wfFrom_mono (by omega) (ih hm.2)

theorem Memory.set_wfFrom {m : List Host.Cell} {lo a : Nat} {b : Byte} (hm : Memory.wfFrom lo m = true) (h : lo ≤ a) :
    Memory.wfFrom lo (Memory.set m a b) = true := by
  by_cases hb : b = Memory.blank
  · simpa only [Memory.set, if_pos hb, Tab.del] using Memory.filter_wfFrom _ hm
  · simp only [Memory.set, if_neg hb]
    induction m generalizing lo with
    | nil => simp [Tab.put, Memory.wfFrom, hb, h]
    | cons e r ih =>
      obtain ⟨a', b'⟩ := e
      simp only [Memory.wfFrom, Bool.and_eq_true, decide_eq_true_eq] at hm
      obtain ⟨⟨h1, h2⟩, h3⟩ := hm
      simp only [Tab.put]
      split
      · subst a'; simp_all [Memory.wfFrom]
      · split
        · simp_all [Memory.wfFrom]
        · simp only [Memory.wfFrom, Bool.and_eq_true, decide_eq_true_eq]
          exact ⟨⟨h1, h2⟩, ih h3 (by omega)⟩

/-- A byte stored keeps the canonical form. -/
theorem Memory.set_wf {m : List Host.Cell} (a : Nat) (b : Byte) (hm : Memory.wf m = true) : Memory.wf (Memory.set m a b) = true :=
  Memory.set_wfFrom hm (Nat.zero_le a)

/-- Bytes stored keep the canonical form. -/
theorem Memory.write_wf {m : List Host.Cell} (a : Nat) (bs : List Byte) (hm : Memory.wf m = true) : Memory.wf (Memory.write m a bs) = true := by
  induction bs generalizing m a with
  | nil => exact hm
  | cons b r ih => exact ih (a + 1) (Memory.set_wf a b hm)

/-- Bytes stored under a mask keep the canonical form. -/
theorem Memory.writeMasked_wf {m : List Host.Cell} (a : Nat) (bs : List (Byte × Bool)) (hm : Memory.wf m = true) :
    Memory.wf (Memory.writeMasked m a bs) = true := by
  induction bs generalizing m a with
  | nil => exact hm
  | cons b r ih =>
    refine ih (a + 1) ?_
    split
    · exact Memory.set_wf a b.1 hm
    · exact hm

/-- Bytes dropped keep the canonical form. -/
theorem Memory.filter_wf {m : List Host.Cell} (p : Host.Cell → Bool) (hm : Memory.wf m = true) : Memory.wf (m.filter p) = true :=
  Memory.filter_wfFrom p hm

/-- A byte read after a byte is stored. -/
theorem Memory.get_set (m : List Host.Cell) (a n : Nat) (b : Byte) :
    Memory.get (Memory.set m a b) n = if n = a then b else Memory.get m n := by
  unfold Memory.set Memory.get
  split
  · next hb => rw [Tab.get_del, hb]
  · rw [Tab.get_put]

/-- Outside the bytes stored, memory reads as before. -/
theorem Memory.get_write_outside {m : List Host.Cell} {a n : Nat} (bs : List Byte) (h : n < a ∨ a + bs.length ≤ n) :
    Memory.get (Memory.write m a bs) n = Memory.get m n := by
  induction bs generalizing m a with
  | nil => rfl
  | cons b r ih =>
    simp only [List.length_cons] at h
    rw [Memory.write, ih (by omega), Memory.get_set, if_neg (by omega)]

/-- Inside, it reads the bytes stored. -/
theorem Memory.get_write_inside {m : List Host.Cell} {a : Nat} (bs : List Byte) (k : Nat) (h : k < bs.length) :
    Memory.get (Memory.write m a bs) (a + k) = bs[k] := by
  induction bs generalizing m a k with
  | nil => simp at h
  | cons b r ih =>
    cases k with
    | zero =>
      rw [Memory.write, Memory.get_write_outside r (by omega), Nat.add_zero, Memory.get_set]
      simp
    | succ k =>
      have := ih (m := Memory.set m a b) (a := a + 1) k (by simpa using h)
      rw [Memory.write, show a + (k + 1) = a + 1 + k by omega, this]
      simp

end Sys2Proof.Machine
end

