-- ==== Sys2Proof/Laws/State.lean ====
section
/-! SUPPORT. What each update of the state leaves as it was, field by field, and what the views of a core, a strand, a slot, a cluster and a job
read after an update. -/

namespace Sys2Proof.Machine

/-! ## State.setCore -/

@[simp] theorem State.setCore_agenda (s : State) (c : CoreId) (v : Core) : (s.setCore c v).agenda = s.agenda := rfl
@[simp] theorem State.setCore_arg (s : State) (c : CoreId) (v : Core) : (s.setCore c v).arg = s.arg := rfl
@[simp] theorem State.setCore_offer (s : State) (c : CoreId) (v : Core) : (s.setCore c v).offer = s.offer := rfl
@[simp] theorem State.setCore_fresh (s : State) (c : CoreId) (v : Core) : (s.setCore c v).fresh = s.fresh := rfl
@[simp] theorem State.setCore_nextId (s : State) (c : CoreId) (v : Core) : (s.setCore c v).nextId = s.nextId := rfl
@[simp] theorem State.setCore_now (s : State) (c : CoreId) (v : Core) : (s.setCore c v).now = s.now := rfl
@[simp] theorem State.setCore_stage (s : State) (c : CoreId) (v : Core) : (s.setCore c v).stage = s.stage := rfl
@[simp] theorem State.setCore_trained (s : State) (c : CoreId) (v : Core) : (s.setCore c v).trained = s.trained := rfl
@[simp] theorem State.setCore_failed (s : State) (c : CoreId) (v : Core) : (s.setCore c v).failed = s.failed := rfl
@[simp] theorem State.setCore_diesvc (s : State) (c : CoreId) (v : Core) : (s.setCore c v).diesvc = s.diesvc := rfl
@[simp] theorem State.setCore_trainFails (s : State) (c : CoreId) (v : Core) : (s.setCore c v).trainFails = s.trainFails := rfl
@[simp] theorem State.setCore_rstcause (s : State) (c : CoreId) (v : Core) : (s.setCore c v).rstcause = s.rstcause := rfl
@[simp] theorem State.setCore_resets (s : State) (c : CoreId) (v : Core) : (s.setCore c v).resets = s.resets := rfl
@[simp] theorem State.setCore_meas (s : State) (c : CoreId) (v : Core) : (s.setCore c v).meas = s.meas := rfl
@[simp] theorem State.setCore_nonce (s : State) (c : CoreId) (v : Core) : (s.setCore c v).nonce = s.nonce := rfl
@[simp] theorem State.setCore_repaddr (s : State) (c : CoreId) (v : Core) : (s.setCore c v).repaddr = s.repaddr := rfl
@[simp] theorem State.setCore_repGo (s : State) (c : CoreId) (v : Core) : (s.setCore c v).repGo = s.repGo := rfl
@[simp] theorem State.setCore_repDone (s : State) (c : CoreId) (v : Core) : (s.setCore c v).repDone = s.repDone := rfl
@[simp] theorem State.setCore_repErr (s : State) (c : CoreId) (v : Core) : (s.setCore c v).repErr = s.repErr := rfl
@[simp] theorem State.setCore_report (s : State) (c : CoreId) (v : Core) : (s.setCore c v).report = s.report := rfl
@[simp] theorem State.setCore_isl (s : State) (c : CoreId) (v : Core) : (s.setCore c v).isl = s.isl := rfl
@[simp] theorem State.setCore_islock (s : State) (c : CoreId) (v : Core) : (s.setCore c v).islock = s.islock := rfl
@[simp] theorem State.setCore_isdflt (s : State) (c : CoreId) (v : Core) : (s.setCore c v).isdflt = s.isdflt := rfl
@[simp] theorem State.setCore_devnum (s : State) (c : CoreId) (v : Core) : (s.setCore c v).devnum = s.devnum := rfl
@[simp] theorem State.setCore_routes (s : State) (c : CoreId) (v : Core) : (s.setCore c v).routes = s.routes := rfl
@[simp] theorem State.setCore_cmdtail (s : State) (c : CoreId) (v : Core) : (s.setCore c v).cmdtail = s.cmdtail := rfl
@[simp] theorem State.setCore_cmdhead (s : State) (c : CoreId) (v : Core) : (s.setCore c v).cmdhead = s.cmdhead := rfl
@[simp] theorem State.setCore_ackbase (s : State) (c : CoreId) (v : Core) : (s.setCore c v).ackbase = s.ackbase := rfl
@[simp] theorem State.setCore_ackRing (s : State) (c : CoreId) (v : Core) : (s.setCore c v).ackRing = s.ackRing := rfl
@[simp] theorem State.setCore_cmderr (s : State) (c : CoreId) (v : Core) : (s.setCore c v).cmderr = s.cmderr := rfl
@[simp] theorem State.setCore_hostjob (s : State) (c : CoreId) (v : Core) : (s.setCore c v).hostjob = s.hostjob := rfl
@[simp] theorem State.setCore_cmdslots (s : State) (c : CoreId) (v : Core) : (s.setCore c v).cmdslots = s.cmdslots := rfl
@[simp] theorem State.setCore_wraps (s : State) (c : CoreId) (v : Core) : (s.setCore c v).wraps = s.wraps := rfl
@[simp] theorem State.setCore_backInv (s : State) (c : CoreId) (v : Core) : (s.setCore c v).backInv = s.backInv := rfl
@[simp] theorem State.setCore_hostLines (s : State) (c : CoreId) (v : Core) : (s.setCore c v).hostLines = s.hostLines := rfl
@[simp] theorem State.setCore_msix (s : State) (c : CoreId) (v : Core) : (s.setCore c v).msix = s.msix := rfl
@[simp] theorem State.setCore_msixTable (s : State) (c : CoreId) (v : Core) : (s.setCore c v).msixTable = s.msixTable := rfl
@[simp] theorem State.setCore_mcstat (s : State) (c : CoreId) (v : Core) : (s.setCore c v).mcstat = s.mcstat := rfl
@[simp] theorem State.setCore_mcWritten (s : State) (c : CoreId) (v : Core) : (s.setCore c v).mcWritten = s.mcWritten := rfl
@[simp] theorem State.setCore_mcHeadIdx (s : State) (c : CoreId) (v : Core) : (s.setCore c v).mcHeadIdx = s.mcHeadIdx := rfl
@[simp] theorem State.setCore_mcctl (s : State) (c : CoreId) (v : Core) : (s.setCore c v).mcctl = s.mcctl := rfl
@[simp] theorem State.setCore_mcrec (s : State) (c : CoreId) (v : Core) : (s.setCore c v).mcrec = s.mcrec := rfl
@[simp] theorem State.setCore_slotTable (s : State) (c : CoreId) (v : Core) : (s.setCore c v).slotTable = s.slotTable := rfl
@[simp] theorem State.setCore_prectl (s : State) (c : CoreId) (v : Core) : (s.setCore c v).prectl = s.prectl := rfl
@[simp] theorem State.setCore_presave (s : State) (c : CoreId) (v : Core) : (s.setCore c v).presave = s.presave := rfl
@[simp] theorem State.setCore_prestat (s : State) (c : CoreId) (v : Core) : (s.setCore c v).prestat = s.prestat := rfl
@[simp] theorem State.setCore_treectl (s : State) (c : CoreId) (v : Core) : (s.setCore c v).treectl = s.treectl := rfl
@[simp] theorem State.setCore_cut (s : State) (c : CoreId) (v : Core) : (s.setCore c v).cut = s.cut := rfl
@[simp] theorem State.setCore_saveKey (s : State) (c : CoreId) (v : Core) : (s.setCore c v).saveKey = s.saveKey := rfl
@[simp] theorem State.setCore_comet (s : State) (c : CoreId) (v : Core) : (s.setCore c v).comet = s.comet := rfl
@[simp] theorem State.setCore_frames (s : State) (c : CoreId) (v : Core) : (s.setCore c v).frames = s.frames := rfl
@[simp] theorem State.setCore_frameHits (s : State) (c : CoreId) (v : Core) : (s.setCore c v).frameHits = s.frameHits := rfl
@[simp] theorem State.setCore_evictOff (s : State) (c : CoreId) (v : Core) : (s.setCore c v).evictOff = s.evictOff := rfl
@[simp] theorem State.setCore_mem (s : State) (c : CoreId) (v : Core) : (s.setCore c v).mem = s.mem := rfl
@[simp] theorem State.setCore_empties (s : State) (c : CoreId) (v : Core) : (s.setCore c v).empties = s.empties := rfl
@[simp] theorem State.setCore_poisons (s : State) (c : CoreId) (v : Core) : (s.setCore c v).poisons = s.poisons := rfl
@[simp] theorem State.setCore_jobs (s : State) (c : CoreId) (v : Core) : (s.setCore c v).jobs = s.jobs := rfl
@[simp] theorem State.setCore_clusters (s : State) (c : CoreId) (v : Core) : (s.setCore c v).clusters = s.clusters := rfl
@[simp] theorem State.setCore_ptsIdle (s : State) (c : CoreId) (v : Core) : (s.setCore c v).ptsIdle = s.ptsIdle := rfl
@[simp] theorem State.setCore_hostTs (s : State) (c : CoreId) (v : Core) : (s.setCore c v).hostTs = s.hostTs := rfl
@[simp] theorem State.setCore_decQueues (s : State) (c : CoreId) (v : Core) : (s.setCore c v).decQueues = s.decQueues := rfl
@[simp] theorem State.setCore_decoders (s : State) (c : CoreId) (v : Core) : (s.setCore c v).decoders = s.decoders := rfl
@[simp] theorem State.setCore_ports (s : State) (c : CoreId) (v : Core) : (s.setCore c v).ports = s.ports := rfl
@[simp] theorem State.setCore_msgs (s : State) (c : CoreId) (v : Core) : (s.setCore c v).msgs = s.msgs := rfl
@[simp] theorem State.setCore_flits (s : State) (c : CoreId) (v : Core) : (s.setCore c v).flits = s.flits := rfl
@[simp] theorem State.setCore_trainEnded (s : State) (c : CoreId) (v : Core) : (s.setCore c v).trainEnded = s.trainEnded := rfl
@[simp] theorem State.setCore_descs (s : State) (c : CoreId) (v : Core) : (s.setCore c v).descs = s.descs := rfl
@[simp] theorem State.setCore_sram (s : State) (c : CoreId) (v : Core) : (s.setCore c v).sram = s.sram := rfl
@[simp] theorem State.setCore_hostData (s : State) (c : CoreId) (v : Core) : (s.setCore c v).hostData = s.hostData := rfl
@[simp] theorem State.setCore_physDone (s : State) (c : CoreId) (v : Core) : (s.setCore c v).physDone = s.physDone := rfl

/-! ## State.updCore -/

@[simp] theorem State.updCore_agenda (s : State) (c : CoreId) (f : Core → Core) : (s.updCore c f).agenda = s.agenda := rfl
@[simp] theorem State.updCore_arg (s : State) (c : CoreId) (f : Core → Core) : (s.updCore c f).arg = s.arg := rfl
@[simp] theorem State.updCore_offer (s : State) (c : CoreId) (f : Core → Core) : (s.updCore c f).offer = s.offer := rfl
@[simp] theorem State.updCore_fresh (s : State) (c : CoreId) (f : Core → Core) : (s.updCore c f).fresh = s.fresh := rfl
@[simp] theorem State.updCore_nextId (s : State) (c : CoreId) (f : Core → Core) : (s.updCore c f).nextId = s.nextId := rfl
@[simp] theorem State.updCore_now (s : State) (c : CoreId) (f : Core → Core) : (s.updCore c f).now = s.now := rfl
@[simp] theorem State.updCore_stage (s : State) (c : CoreId) (f : Core → Core) : (s.updCore c f).stage = s.stage := rfl
@[simp] theorem State.updCore_trained (s : State) (c : CoreId) (f : Core → Core) : (s.updCore c f).trained = s.trained := rfl
@[simp] theorem State.updCore_failed (s : State) (c : CoreId) (f : Core → Core) : (s.updCore c f).failed = s.failed := rfl
@[simp] theorem State.updCore_diesvc (s : State) (c : CoreId) (f : Core → Core) : (s.updCore c f).diesvc = s.diesvc := rfl
@[simp] theorem State.updCore_trainFails (s : State) (c : CoreId) (f : Core → Core) : (s.updCore c f).trainFails = s.trainFails := rfl
@[simp] theorem State.updCore_rstcause (s : State) (c : CoreId) (f : Core → Core) : (s.updCore c f).rstcause = s.rstcause := rfl
@[simp] theorem State.updCore_resets (s : State) (c : CoreId) (f : Core → Core) : (s.updCore c f).resets = s.resets := rfl
@[simp] theorem State.updCore_meas (s : State) (c : CoreId) (f : Core → Core) : (s.updCore c f).meas = s.meas := rfl
@[simp] theorem State.updCore_nonce (s : State) (c : CoreId) (f : Core → Core) : (s.updCore c f).nonce = s.nonce := rfl
@[simp] theorem State.updCore_repaddr (s : State) (c : CoreId) (f : Core → Core) : (s.updCore c f).repaddr = s.repaddr := rfl
@[simp] theorem State.updCore_repGo (s : State) (c : CoreId) (f : Core → Core) : (s.updCore c f).repGo = s.repGo := rfl
@[simp] theorem State.updCore_repDone (s : State) (c : CoreId) (f : Core → Core) : (s.updCore c f).repDone = s.repDone := rfl
@[simp] theorem State.updCore_repErr (s : State) (c : CoreId) (f : Core → Core) : (s.updCore c f).repErr = s.repErr := rfl
@[simp] theorem State.updCore_report (s : State) (c : CoreId) (f : Core → Core) : (s.updCore c f).report = s.report := rfl
@[simp] theorem State.updCore_isl (s : State) (c : CoreId) (f : Core → Core) : (s.updCore c f).isl = s.isl := rfl
@[simp] theorem State.updCore_islock (s : State) (c : CoreId) (f : Core → Core) : (s.updCore c f).islock = s.islock := rfl
@[simp] theorem State.updCore_isdflt (s : State) (c : CoreId) (f : Core → Core) : (s.updCore c f).isdflt = s.isdflt := rfl
@[simp] theorem State.updCore_devnum (s : State) (c : CoreId) (f : Core → Core) : (s.updCore c f).devnum = s.devnum := rfl
@[simp] theorem State.updCore_routes (s : State) (c : CoreId) (f : Core → Core) : (s.updCore c f).routes = s.routes := rfl
@[simp] theorem State.updCore_cmdtail (s : State) (c : CoreId) (f : Core → Core) : (s.updCore c f).cmdtail = s.cmdtail := rfl
@[simp] theorem State.updCore_cmdhead (s : State) (c : CoreId) (f : Core → Core) : (s.updCore c f).cmdhead = s.cmdhead := rfl
@[simp] theorem State.updCore_ackbase (s : State) (c : CoreId) (f : Core → Core) : (s.updCore c f).ackbase = s.ackbase := rfl
@[simp] theorem State.updCore_ackRing (s : State) (c : CoreId) (f : Core → Core) : (s.updCore c f).ackRing = s.ackRing := rfl
@[simp] theorem State.updCore_cmderr (s : State) (c : CoreId) (f : Core → Core) : (s.updCore c f).cmderr = s.cmderr := rfl
@[simp] theorem State.updCore_hostjob (s : State) (c : CoreId) (f : Core → Core) : (s.updCore c f).hostjob = s.hostjob := rfl
@[simp] theorem State.updCore_cmdslots (s : State) (c : CoreId) (f : Core → Core) : (s.updCore c f).cmdslots = s.cmdslots := rfl
@[simp] theorem State.updCore_wraps (s : State) (c : CoreId) (f : Core → Core) : (s.updCore c f).wraps = s.wraps := rfl
@[simp] theorem State.updCore_backInv (s : State) (c : CoreId) (f : Core → Core) : (s.updCore c f).backInv = s.backInv := rfl
@[simp] theorem State.updCore_hostLines (s : State) (c : CoreId) (f : Core → Core) : (s.updCore c f).hostLines = s.hostLines := rfl
@[simp] theorem State.updCore_msix (s : State) (c : CoreId) (f : Core → Core) : (s.updCore c f).msix = s.msix := rfl
@[simp] theorem State.updCore_msixTable (s : State) (c : CoreId) (f : Core → Core) : (s.updCore c f).msixTable = s.msixTable := rfl
@[simp] theorem State.updCore_mcstat (s : State) (c : CoreId) (f : Core → Core) : (s.updCore c f).mcstat = s.mcstat := rfl
@[simp] theorem State.updCore_mcWritten (s : State) (c : CoreId) (f : Core → Core) : (s.updCore c f).mcWritten = s.mcWritten := rfl
@[simp] theorem State.updCore_mcHeadIdx (s : State) (c : CoreId) (f : Core → Core) : (s.updCore c f).mcHeadIdx = s.mcHeadIdx := rfl
@[simp] theorem State.updCore_mcctl (s : State) (c : CoreId) (f : Core → Core) : (s.updCore c f).mcctl = s.mcctl := rfl
@[simp] theorem State.updCore_mcrec (s : State) (c : CoreId) (f : Core → Core) : (s.updCore c f).mcrec = s.mcrec := rfl
@[simp] theorem State.updCore_slotTable (s : State) (c : CoreId) (f : Core → Core) : (s.updCore c f).slotTable = s.slotTable := rfl
@[simp] theorem State.updCore_prectl (s : State) (c : CoreId) (f : Core → Core) : (s.updCore c f).prectl = s.prectl := rfl
@[simp] theorem State.updCore_presave (s : State) (c : CoreId) (f : Core → Core) : (s.updCore c f).presave = s.presave := rfl
@[simp] theorem State.updCore_prestat (s : State) (c : CoreId) (f : Core → Core) : (s.updCore c f).prestat = s.prestat := rfl
@[simp] theorem State.updCore_treectl (s : State) (c : CoreId) (f : Core → Core) : (s.updCore c f).treectl = s.treectl := rfl
@[simp] theorem State.updCore_cut (s : State) (c : CoreId) (f : Core → Core) : (s.updCore c f).cut = s.cut := rfl
@[simp] theorem State.updCore_saveKey (s : State) (c : CoreId) (f : Core → Core) : (s.updCore c f).saveKey = s.saveKey := rfl
@[simp] theorem State.updCore_comet (s : State) (c : CoreId) (f : Core → Core) : (s.updCore c f).comet = s.comet := rfl
@[simp] theorem State.updCore_frames (s : State) (c : CoreId) (f : Core → Core) : (s.updCore c f).frames = s.frames := rfl
@[simp] theorem State.updCore_frameHits (s : State) (c : CoreId) (f : Core → Core) : (s.updCore c f).frameHits = s.frameHits := rfl
@[simp] theorem State.updCore_evictOff (s : State) (c : CoreId) (f : Core → Core) : (s.updCore c f).evictOff = s.evictOff := rfl
@[simp] theorem State.updCore_mem (s : State) (c : CoreId) (f : Core → Core) : (s.updCore c f).mem = s.mem := rfl
@[simp] theorem State.updCore_empties (s : State) (c : CoreId) (f : Core → Core) : (s.updCore c f).empties = s.empties := rfl
@[simp] theorem State.updCore_poisons (s : State) (c : CoreId) (f : Core → Core) : (s.updCore c f).poisons = s.poisons := rfl
@[simp] theorem State.updCore_jobs (s : State) (c : CoreId) (f : Core → Core) : (s.updCore c f).jobs = s.jobs := rfl
@[simp] theorem State.updCore_clusters (s : State) (c : CoreId) (f : Core → Core) : (s.updCore c f).clusters = s.clusters := rfl
@[simp] theorem State.updCore_ptsIdle (s : State) (c : CoreId) (f : Core → Core) : (s.updCore c f).ptsIdle = s.ptsIdle := rfl
@[simp] theorem State.updCore_hostTs (s : State) (c : CoreId) (f : Core → Core) : (s.updCore c f).hostTs = s.hostTs := rfl
@[simp] theorem State.updCore_decQueues (s : State) (c : CoreId) (f : Core → Core) : (s.updCore c f).decQueues = s.decQueues := rfl
@[simp] theorem State.updCore_decoders (s : State) (c : CoreId) (f : Core → Core) : (s.updCore c f).decoders = s.decoders := rfl
@[simp] theorem State.updCore_ports (s : State) (c : CoreId) (f : Core → Core) : (s.updCore c f).ports = s.ports := rfl
@[simp] theorem State.updCore_msgs (s : State) (c : CoreId) (f : Core → Core) : (s.updCore c f).msgs = s.msgs := rfl
@[simp] theorem State.updCore_flits (s : State) (c : CoreId) (f : Core → Core) : (s.updCore c f).flits = s.flits := rfl
@[simp] theorem State.updCore_trainEnded (s : State) (c : CoreId) (f : Core → Core) : (s.updCore c f).trainEnded = s.trainEnded := rfl
@[simp] theorem State.updCore_descs (s : State) (c : CoreId) (f : Core → Core) : (s.updCore c f).descs = s.descs := rfl
@[simp] theorem State.updCore_sram (s : State) (c : CoreId) (f : Core → Core) : (s.updCore c f).sram = s.sram := rfl
@[simp] theorem State.updCore_hostData (s : State) (c : CoreId) (f : Core → Core) : (s.updCore c f).hostData = s.hostData := rfl
@[simp] theorem State.updCore_physDone (s : State) (c : CoreId) (f : Core → Core) : (s.updCore c f).physDone = s.physDone := rfl

/-! ## State.updStrand -/

@[simp] theorem State.updStrand_agenda (s : State) (c : CoreId) (k : StrandId) (f : Strand → Strand) : (s.updStrand c k f).agenda = s.agenda := rfl
@[simp] theorem State.updStrand_arg (s : State) (c : CoreId) (k : StrandId) (f : Strand → Strand) : (s.updStrand c k f).arg = s.arg := rfl
@[simp] theorem State.updStrand_offer (s : State) (c : CoreId) (k : StrandId) (f : Strand → Strand) : (s.updStrand c k f).offer = s.offer := rfl
@[simp] theorem State.updStrand_fresh (s : State) (c : CoreId) (k : StrandId) (f : Strand → Strand) : (s.updStrand c k f).fresh = s.fresh := rfl
@[simp] theorem State.updStrand_nextId (s : State) (c : CoreId) (k : StrandId) (f : Strand → Strand) : (s.updStrand c k f).nextId = s.nextId := rfl
@[simp] theorem State.updStrand_now (s : State) (c : CoreId) (k : StrandId) (f : Strand → Strand) : (s.updStrand c k f).now = s.now := rfl
@[simp] theorem State.updStrand_stage (s : State) (c : CoreId) (k : StrandId) (f : Strand → Strand) : (s.updStrand c k f).stage = s.stage := rfl
@[simp] theorem State.updStrand_trained (s : State) (c : CoreId) (k : StrandId) (f : Strand → Strand) : (s.updStrand c k f).trained = s.trained := rfl
@[simp] theorem State.updStrand_failed (s : State) (c : CoreId) (k : StrandId) (f : Strand → Strand) : (s.updStrand c k f).failed = s.failed := rfl
@[simp] theorem State.updStrand_diesvc (s : State) (c : CoreId) (k : StrandId) (f : Strand → Strand) : (s.updStrand c k f).diesvc = s.diesvc := rfl
@[simp] theorem State.updStrand_trainFails (s : State) (c : CoreId) (k : StrandId) (f : Strand → Strand) : (s.updStrand c k f).trainFails = s.trainFails := rfl
@[simp] theorem State.updStrand_rstcause (s : State) (c : CoreId) (k : StrandId) (f : Strand → Strand) : (s.updStrand c k f).rstcause = s.rstcause := rfl
@[simp] theorem State.updStrand_resets (s : State) (c : CoreId) (k : StrandId) (f : Strand → Strand) : (s.updStrand c k f).resets = s.resets := rfl
@[simp] theorem State.updStrand_meas (s : State) (c : CoreId) (k : StrandId) (f : Strand → Strand) : (s.updStrand c k f).meas = s.meas := rfl
@[simp] theorem State.updStrand_nonce (s : State) (c : CoreId) (k : StrandId) (f : Strand → Strand) : (s.updStrand c k f).nonce = s.nonce := rfl
@[simp] theorem State.updStrand_repaddr (s : State) (c : CoreId) (k : StrandId) (f : Strand → Strand) : (s.updStrand c k f).repaddr = s.repaddr := rfl
@[simp] theorem State.updStrand_repGo (s : State) (c : CoreId) (k : StrandId) (f : Strand → Strand) : (s.updStrand c k f).repGo = s.repGo := rfl
@[simp] theorem State.updStrand_repDone (s : State) (c : CoreId) (k : StrandId) (f : Strand → Strand) : (s.updStrand c k f).repDone = s.repDone := rfl
@[simp] theorem State.updStrand_repErr (s : State) (c : CoreId) (k : StrandId) (f : Strand → Strand) : (s.updStrand c k f).repErr = s.repErr := rfl
@[simp] theorem State.updStrand_report (s : State) (c : CoreId) (k : StrandId) (f : Strand → Strand) : (s.updStrand c k f).report = s.report := rfl
@[simp] theorem State.updStrand_isl (s : State) (c : CoreId) (k : StrandId) (f : Strand → Strand) : (s.updStrand c k f).isl = s.isl := rfl
@[simp] theorem State.updStrand_islock (s : State) (c : CoreId) (k : StrandId) (f : Strand → Strand) : (s.updStrand c k f).islock = s.islock := rfl
@[simp] theorem State.updStrand_isdflt (s : State) (c : CoreId) (k : StrandId) (f : Strand → Strand) : (s.updStrand c k f).isdflt = s.isdflt := rfl
@[simp] theorem State.updStrand_devnum (s : State) (c : CoreId) (k : StrandId) (f : Strand → Strand) : (s.updStrand c k f).devnum = s.devnum := rfl
@[simp] theorem State.updStrand_routes (s : State) (c : CoreId) (k : StrandId) (f : Strand → Strand) : (s.updStrand c k f).routes = s.routes := rfl
@[simp] theorem State.updStrand_cmdtail (s : State) (c : CoreId) (k : StrandId) (f : Strand → Strand) : (s.updStrand c k f).cmdtail = s.cmdtail := rfl
@[simp] theorem State.updStrand_cmdhead (s : State) (c : CoreId) (k : StrandId) (f : Strand → Strand) : (s.updStrand c k f).cmdhead = s.cmdhead := rfl
@[simp] theorem State.updStrand_ackbase (s : State) (c : CoreId) (k : StrandId) (f : Strand → Strand) : (s.updStrand c k f).ackbase = s.ackbase := rfl
@[simp] theorem State.updStrand_ackRing (s : State) (c : CoreId) (k : StrandId) (f : Strand → Strand) : (s.updStrand c k f).ackRing = s.ackRing := rfl
@[simp] theorem State.updStrand_cmderr (s : State) (c : CoreId) (k : StrandId) (f : Strand → Strand) : (s.updStrand c k f).cmderr = s.cmderr := rfl
@[simp] theorem State.updStrand_hostjob (s : State) (c : CoreId) (k : StrandId) (f : Strand → Strand) : (s.updStrand c k f).hostjob = s.hostjob := rfl
@[simp] theorem State.updStrand_cmdslots (s : State) (c : CoreId) (k : StrandId) (f : Strand → Strand) : (s.updStrand c k f).cmdslots = s.cmdslots := rfl
@[simp] theorem State.updStrand_wraps (s : State) (c : CoreId) (k : StrandId) (f : Strand → Strand) : (s.updStrand c k f).wraps = s.wraps := rfl
@[simp] theorem State.updStrand_backInv (s : State) (c : CoreId) (k : StrandId) (f : Strand → Strand) : (s.updStrand c k f).backInv = s.backInv := rfl
@[simp] theorem State.updStrand_hostLines (s : State) (c : CoreId) (k : StrandId) (f : Strand → Strand) : (s.updStrand c k f).hostLines = s.hostLines := rfl
@[simp] theorem State.updStrand_msix (s : State) (c : CoreId) (k : StrandId) (f : Strand → Strand) : (s.updStrand c k f).msix = s.msix := rfl
@[simp] theorem State.updStrand_msixTable (s : State) (c : CoreId) (k : StrandId) (f : Strand → Strand) : (s.updStrand c k f).msixTable = s.msixTable := rfl
@[simp] theorem State.updStrand_mcstat (s : State) (c : CoreId) (k : StrandId) (f : Strand → Strand) : (s.updStrand c k f).mcstat = s.mcstat := rfl
@[simp] theorem State.updStrand_mcWritten (s : State) (c : CoreId) (k : StrandId) (f : Strand → Strand) : (s.updStrand c k f).mcWritten = s.mcWritten := rfl
@[simp] theorem State.updStrand_mcHeadIdx (s : State) (c : CoreId) (k : StrandId) (f : Strand → Strand) : (s.updStrand c k f).mcHeadIdx = s.mcHeadIdx := rfl
@[simp] theorem State.updStrand_mcctl (s : State) (c : CoreId) (k : StrandId) (f : Strand → Strand) : (s.updStrand c k f).mcctl = s.mcctl := rfl
@[simp] theorem State.updStrand_mcrec (s : State) (c : CoreId) (k : StrandId) (f : Strand → Strand) : (s.updStrand c k f).mcrec = s.mcrec := rfl
@[simp] theorem State.updStrand_slotTable (s : State) (c : CoreId) (k : StrandId) (f : Strand → Strand) : (s.updStrand c k f).slotTable = s.slotTable := rfl
@[simp] theorem State.updStrand_prectl (s : State) (c : CoreId) (k : StrandId) (f : Strand → Strand) : (s.updStrand c k f).prectl = s.prectl := rfl
@[simp] theorem State.updStrand_presave (s : State) (c : CoreId) (k : StrandId) (f : Strand → Strand) : (s.updStrand c k f).presave = s.presave := rfl
@[simp] theorem State.updStrand_prestat (s : State) (c : CoreId) (k : StrandId) (f : Strand → Strand) : (s.updStrand c k f).prestat = s.prestat := rfl
@[simp] theorem State.updStrand_treectl (s : State) (c : CoreId) (k : StrandId) (f : Strand → Strand) : (s.updStrand c k f).treectl = s.treectl := rfl
@[simp] theorem State.updStrand_cut (s : State) (c : CoreId) (k : StrandId) (f : Strand → Strand) : (s.updStrand c k f).cut = s.cut := rfl
@[simp] theorem State.updStrand_saveKey (s : State) (c : CoreId) (k : StrandId) (f : Strand → Strand) : (s.updStrand c k f).saveKey = s.saveKey := rfl
@[simp] theorem State.updStrand_comet (s : State) (c : CoreId) (k : StrandId) (f : Strand → Strand) : (s.updStrand c k f).comet = s.comet := rfl
@[simp] theorem State.updStrand_frames (s : State) (c : CoreId) (k : StrandId) (f : Strand → Strand) : (s.updStrand c k f).frames = s.frames := rfl
@[simp] theorem State.updStrand_frameHits (s : State) (c : CoreId) (k : StrandId) (f : Strand → Strand) : (s.updStrand c k f).frameHits = s.frameHits := rfl
@[simp] theorem State.updStrand_evictOff (s : State) (c : CoreId) (k : StrandId) (f : Strand → Strand) : (s.updStrand c k f).evictOff = s.evictOff := rfl
@[simp] theorem State.updStrand_mem (s : State) (c : CoreId) (k : StrandId) (f : Strand → Strand) : (s.updStrand c k f).mem = s.mem := rfl
@[simp] theorem State.updStrand_empties (s : State) (c : CoreId) (k : StrandId) (f : Strand → Strand) : (s.updStrand c k f).empties = s.empties := rfl
@[simp] theorem State.updStrand_poisons (s : State) (c : CoreId) (k : StrandId) (f : Strand → Strand) : (s.updStrand c k f).poisons = s.poisons := rfl
@[simp] theorem State.updStrand_jobs (s : State) (c : CoreId) (k : StrandId) (f : Strand → Strand) : (s.updStrand c k f).jobs = s.jobs := rfl
@[simp] theorem State.updStrand_clusters (s : State) (c : CoreId) (k : StrandId) (f : Strand → Strand) : (s.updStrand c k f).clusters = s.clusters := rfl
@[simp] theorem State.updStrand_ptsIdle (s : State) (c : CoreId) (k : StrandId) (f : Strand → Strand) : (s.updStrand c k f).ptsIdle = s.ptsIdle := rfl
@[simp] theorem State.updStrand_hostTs (s : State) (c : CoreId) (k : StrandId) (f : Strand → Strand) : (s.updStrand c k f).hostTs = s.hostTs := rfl
@[simp] theorem State.updStrand_decQueues (s : State) (c : CoreId) (k : StrandId) (f : Strand → Strand) : (s.updStrand c k f).decQueues = s.decQueues := rfl
@[simp] theorem State.updStrand_decoders (s : State) (c : CoreId) (k : StrandId) (f : Strand → Strand) : (s.updStrand c k f).decoders = s.decoders := rfl
@[simp] theorem State.updStrand_ports (s : State) (c : CoreId) (k : StrandId) (f : Strand → Strand) : (s.updStrand c k f).ports = s.ports := rfl
@[simp] theorem State.updStrand_msgs (s : State) (c : CoreId) (k : StrandId) (f : Strand → Strand) : (s.updStrand c k f).msgs = s.msgs := rfl
@[simp] theorem State.updStrand_flits (s : State) (c : CoreId) (k : StrandId) (f : Strand → Strand) : (s.updStrand c k f).flits = s.flits := rfl
@[simp] theorem State.updStrand_trainEnded (s : State) (c : CoreId) (k : StrandId) (f : Strand → Strand) : (s.updStrand c k f).trainEnded = s.trainEnded := rfl
@[simp] theorem State.updStrand_descs (s : State) (c : CoreId) (k : StrandId) (f : Strand → Strand) : (s.updStrand c k f).descs = s.descs := rfl
@[simp] theorem State.updStrand_sram (s : State) (c : CoreId) (k : StrandId) (f : Strand → Strand) : (s.updStrand c k f).sram = s.sram := rfl
@[simp] theorem State.updStrand_hostData (s : State) (c : CoreId) (k : StrandId) (f : Strand → Strand) : (s.updStrand c k f).hostData = s.hostData := rfl
@[simp] theorem State.updStrand_physDone (s : State) (c : CoreId) (k : StrandId) (f : Strand → Strand) : (s.updStrand c k f).physDone = s.physDone := rfl

/-! ## State.updSlot -/

@[simp] theorem State.updSlot_agenda (s : State) (c : CoreId) (n : Nat) (f : Slot → Slot) : (s.updSlot c n f).agenda = s.agenda := rfl
@[simp] theorem State.updSlot_arg (s : State) (c : CoreId) (n : Nat) (f : Slot → Slot) : (s.updSlot c n f).arg = s.arg := rfl
@[simp] theorem State.updSlot_offer (s : State) (c : CoreId) (n : Nat) (f : Slot → Slot) : (s.updSlot c n f).offer = s.offer := rfl
@[simp] theorem State.updSlot_fresh (s : State) (c : CoreId) (n : Nat) (f : Slot → Slot) : (s.updSlot c n f).fresh = s.fresh := rfl
@[simp] theorem State.updSlot_nextId (s : State) (c : CoreId) (n : Nat) (f : Slot → Slot) : (s.updSlot c n f).nextId = s.nextId := rfl
@[simp] theorem State.updSlot_now (s : State) (c : CoreId) (n : Nat) (f : Slot → Slot) : (s.updSlot c n f).now = s.now := rfl
@[simp] theorem State.updSlot_stage (s : State) (c : CoreId) (n : Nat) (f : Slot → Slot) : (s.updSlot c n f).stage = s.stage := rfl
@[simp] theorem State.updSlot_trained (s : State) (c : CoreId) (n : Nat) (f : Slot → Slot) : (s.updSlot c n f).trained = s.trained := rfl
@[simp] theorem State.updSlot_failed (s : State) (c : CoreId) (n : Nat) (f : Slot → Slot) : (s.updSlot c n f).failed = s.failed := rfl
@[simp] theorem State.updSlot_diesvc (s : State) (c : CoreId) (n : Nat) (f : Slot → Slot) : (s.updSlot c n f).diesvc = s.diesvc := rfl
@[simp] theorem State.updSlot_trainFails (s : State) (c : CoreId) (n : Nat) (f : Slot → Slot) : (s.updSlot c n f).trainFails = s.trainFails := rfl
@[simp] theorem State.updSlot_rstcause (s : State) (c : CoreId) (n : Nat) (f : Slot → Slot) : (s.updSlot c n f).rstcause = s.rstcause := rfl
@[simp] theorem State.updSlot_resets (s : State) (c : CoreId) (n : Nat) (f : Slot → Slot) : (s.updSlot c n f).resets = s.resets := rfl
@[simp] theorem State.updSlot_meas (s : State) (c : CoreId) (n : Nat) (f : Slot → Slot) : (s.updSlot c n f).meas = s.meas := rfl
@[simp] theorem State.updSlot_nonce (s : State) (c : CoreId) (n : Nat) (f : Slot → Slot) : (s.updSlot c n f).nonce = s.nonce := rfl
@[simp] theorem State.updSlot_repaddr (s : State) (c : CoreId) (n : Nat) (f : Slot → Slot) : (s.updSlot c n f).repaddr = s.repaddr := rfl
@[simp] theorem State.updSlot_repGo (s : State) (c : CoreId) (n : Nat) (f : Slot → Slot) : (s.updSlot c n f).repGo = s.repGo := rfl
@[simp] theorem State.updSlot_repDone (s : State) (c : CoreId) (n : Nat) (f : Slot → Slot) : (s.updSlot c n f).repDone = s.repDone := rfl
@[simp] theorem State.updSlot_repErr (s : State) (c : CoreId) (n : Nat) (f : Slot → Slot) : (s.updSlot c n f).repErr = s.repErr := rfl
@[simp] theorem State.updSlot_report (s : State) (c : CoreId) (n : Nat) (f : Slot → Slot) : (s.updSlot c n f).report = s.report := rfl
@[simp] theorem State.updSlot_isl (s : State) (c : CoreId) (n : Nat) (f : Slot → Slot) : (s.updSlot c n f).isl = s.isl := rfl
@[simp] theorem State.updSlot_islock (s : State) (c : CoreId) (n : Nat) (f : Slot → Slot) : (s.updSlot c n f).islock = s.islock := rfl
@[simp] theorem State.updSlot_isdflt (s : State) (c : CoreId) (n : Nat) (f : Slot → Slot) : (s.updSlot c n f).isdflt = s.isdflt := rfl
@[simp] theorem State.updSlot_devnum (s : State) (c : CoreId) (n : Nat) (f : Slot → Slot) : (s.updSlot c n f).devnum = s.devnum := rfl
@[simp] theorem State.updSlot_routes (s : State) (c : CoreId) (n : Nat) (f : Slot → Slot) : (s.updSlot c n f).routes = s.routes := rfl
@[simp] theorem State.updSlot_cmdtail (s : State) (c : CoreId) (n : Nat) (f : Slot → Slot) : (s.updSlot c n f).cmdtail = s.cmdtail := rfl
@[simp] theorem State.updSlot_cmdhead (s : State) (c : CoreId) (n : Nat) (f : Slot → Slot) : (s.updSlot c n f).cmdhead = s.cmdhead := rfl
@[simp] theorem State.updSlot_ackbase (s : State) (c : CoreId) (n : Nat) (f : Slot → Slot) : (s.updSlot c n f).ackbase = s.ackbase := rfl
@[simp] theorem State.updSlot_ackRing (s : State) (c : CoreId) (n : Nat) (f : Slot → Slot) : (s.updSlot c n f).ackRing = s.ackRing := rfl
@[simp] theorem State.updSlot_cmderr (s : State) (c : CoreId) (n : Nat) (f : Slot → Slot) : (s.updSlot c n f).cmderr = s.cmderr := rfl
@[simp] theorem State.updSlot_hostjob (s : State) (c : CoreId) (n : Nat) (f : Slot → Slot) : (s.updSlot c n f).hostjob = s.hostjob := rfl
@[simp] theorem State.updSlot_cmdslots (s : State) (c : CoreId) (n : Nat) (f : Slot → Slot) : (s.updSlot c n f).cmdslots = s.cmdslots := rfl
@[simp] theorem State.updSlot_wraps (s : State) (c : CoreId) (n : Nat) (f : Slot → Slot) : (s.updSlot c n f).wraps = s.wraps := rfl
@[simp] theorem State.updSlot_backInv (s : State) (c : CoreId) (n : Nat) (f : Slot → Slot) : (s.updSlot c n f).backInv = s.backInv := rfl
@[simp] theorem State.updSlot_hostLines (s : State) (c : CoreId) (n : Nat) (f : Slot → Slot) : (s.updSlot c n f).hostLines = s.hostLines := rfl
@[simp] theorem State.updSlot_msix (s : State) (c : CoreId) (n : Nat) (f : Slot → Slot) : (s.updSlot c n f).msix = s.msix := rfl
@[simp] theorem State.updSlot_msixTable (s : State) (c : CoreId) (n : Nat) (f : Slot → Slot) : (s.updSlot c n f).msixTable = s.msixTable := rfl
@[simp] theorem State.updSlot_mcstat (s : State) (c : CoreId) (n : Nat) (f : Slot → Slot) : (s.updSlot c n f).mcstat = s.mcstat := rfl
@[simp] theorem State.updSlot_mcWritten (s : State) (c : CoreId) (n : Nat) (f : Slot → Slot) : (s.updSlot c n f).mcWritten = s.mcWritten := rfl
@[simp] theorem State.updSlot_mcHeadIdx (s : State) (c : CoreId) (n : Nat) (f : Slot → Slot) : (s.updSlot c n f).mcHeadIdx = s.mcHeadIdx := rfl
@[simp] theorem State.updSlot_mcctl (s : State) (c : CoreId) (n : Nat) (f : Slot → Slot) : (s.updSlot c n f).mcctl = s.mcctl := rfl
@[simp] theorem State.updSlot_mcrec (s : State) (c : CoreId) (n : Nat) (f : Slot → Slot) : (s.updSlot c n f).mcrec = s.mcrec := rfl
@[simp] theorem State.updSlot_slotTable (s : State) (c : CoreId) (n : Nat) (f : Slot → Slot) : (s.updSlot c n f).slotTable = s.slotTable := rfl
@[simp] theorem State.updSlot_prectl (s : State) (c : CoreId) (n : Nat) (f : Slot → Slot) : (s.updSlot c n f).prectl = s.prectl := rfl
@[simp] theorem State.updSlot_presave (s : State) (c : CoreId) (n : Nat) (f : Slot → Slot) : (s.updSlot c n f).presave = s.presave := rfl
@[simp] theorem State.updSlot_prestat (s : State) (c : CoreId) (n : Nat) (f : Slot → Slot) : (s.updSlot c n f).prestat = s.prestat := rfl
@[simp] theorem State.updSlot_treectl (s : State) (c : CoreId) (n : Nat) (f : Slot → Slot) : (s.updSlot c n f).treectl = s.treectl := rfl
@[simp] theorem State.updSlot_cut (s : State) (c : CoreId) (n : Nat) (f : Slot → Slot) : (s.updSlot c n f).cut = s.cut := rfl
@[simp] theorem State.updSlot_saveKey (s : State) (c : CoreId) (n : Nat) (f : Slot → Slot) : (s.updSlot c n f).saveKey = s.saveKey := rfl
@[simp] theorem State.updSlot_comet (s : State) (c : CoreId) (n : Nat) (f : Slot → Slot) : (s.updSlot c n f).comet = s.comet := rfl
@[simp] theorem State.updSlot_frames (s : State) (c : CoreId) (n : Nat) (f : Slot → Slot) : (s.updSlot c n f).frames = s.frames := rfl
@[simp] theorem State.updSlot_frameHits (s : State) (c : CoreId) (n : Nat) (f : Slot → Slot) : (s.updSlot c n f).frameHits = s.frameHits := rfl
@[simp] theorem State.updSlot_evictOff (s : State) (c : CoreId) (n : Nat) (f : Slot → Slot) : (s.updSlot c n f).evictOff = s.evictOff := rfl
@[simp] theorem State.updSlot_mem (s : State) (c : CoreId) (n : Nat) (f : Slot → Slot) : (s.updSlot c n f).mem = s.mem := rfl
@[simp] theorem State.updSlot_empties (s : State) (c : CoreId) (n : Nat) (f : Slot → Slot) : (s.updSlot c n f).empties = s.empties := rfl
@[simp] theorem State.updSlot_poisons (s : State) (c : CoreId) (n : Nat) (f : Slot → Slot) : (s.updSlot c n f).poisons = s.poisons := rfl
@[simp] theorem State.updSlot_jobs (s : State) (c : CoreId) (n : Nat) (f : Slot → Slot) : (s.updSlot c n f).jobs = s.jobs := rfl
@[simp] theorem State.updSlot_clusters (s : State) (c : CoreId) (n : Nat) (f : Slot → Slot) : (s.updSlot c n f).clusters = s.clusters := rfl
@[simp] theorem State.updSlot_ptsIdle (s : State) (c : CoreId) (n : Nat) (f : Slot → Slot) : (s.updSlot c n f).ptsIdle = s.ptsIdle := rfl
@[simp] theorem State.updSlot_hostTs (s : State) (c : CoreId) (n : Nat) (f : Slot → Slot) : (s.updSlot c n f).hostTs = s.hostTs := rfl
@[simp] theorem State.updSlot_decQueues (s : State) (c : CoreId) (n : Nat) (f : Slot → Slot) : (s.updSlot c n f).decQueues = s.decQueues := rfl
@[simp] theorem State.updSlot_decoders (s : State) (c : CoreId) (n : Nat) (f : Slot → Slot) : (s.updSlot c n f).decoders = s.decoders := rfl
@[simp] theorem State.updSlot_ports (s : State) (c : CoreId) (n : Nat) (f : Slot → Slot) : (s.updSlot c n f).ports = s.ports := rfl
@[simp] theorem State.updSlot_msgs (s : State) (c : CoreId) (n : Nat) (f : Slot → Slot) : (s.updSlot c n f).msgs = s.msgs := rfl
@[simp] theorem State.updSlot_flits (s : State) (c : CoreId) (n : Nat) (f : Slot → Slot) : (s.updSlot c n f).flits = s.flits := rfl
@[simp] theorem State.updSlot_trainEnded (s : State) (c : CoreId) (n : Nat) (f : Slot → Slot) : (s.updSlot c n f).trainEnded = s.trainEnded := rfl
@[simp] theorem State.updSlot_descs (s : State) (c : CoreId) (n : Nat) (f : Slot → Slot) : (s.updSlot c n f).descs = s.descs := rfl
@[simp] theorem State.updSlot_sram (s : State) (c : CoreId) (n : Nat) (f : Slot → Slot) : (s.updSlot c n f).sram = s.sram := rfl
@[simp] theorem State.updSlot_hostData (s : State) (c : CoreId) (n : Nat) (f : Slot → Slot) : (s.updSlot c n f).hostData = s.hostData := rfl
@[simp] theorem State.updSlot_physDone (s : State) (c : CoreId) (n : Nat) (f : Slot → Slot) : (s.updSlot c n f).physDone = s.physDone := rfl

/-! ## State.updCluster -/

@[simp] theorem State.updCluster_agenda (s : State) (cl : ClusterId) (f : Cluster → Cluster) : (s.updCluster cl f).agenda = s.agenda := rfl
@[simp] theorem State.updCluster_arg (s : State) (cl : ClusterId) (f : Cluster → Cluster) : (s.updCluster cl f).arg = s.arg := rfl
@[simp] theorem State.updCluster_offer (s : State) (cl : ClusterId) (f : Cluster → Cluster) : (s.updCluster cl f).offer = s.offer := rfl
@[simp] theorem State.updCluster_fresh (s : State) (cl : ClusterId) (f : Cluster → Cluster) : (s.updCluster cl f).fresh = s.fresh := rfl
@[simp] theorem State.updCluster_nextId (s : State) (cl : ClusterId) (f : Cluster → Cluster) : (s.updCluster cl f).nextId = s.nextId := rfl
@[simp] theorem State.updCluster_now (s : State) (cl : ClusterId) (f : Cluster → Cluster) : (s.updCluster cl f).now = s.now := rfl
@[simp] theorem State.updCluster_stage (s : State) (cl : ClusterId) (f : Cluster → Cluster) : (s.updCluster cl f).stage = s.stage := rfl
@[simp] theorem State.updCluster_trained (s : State) (cl : ClusterId) (f : Cluster → Cluster) : (s.updCluster cl f).trained = s.trained := rfl
@[simp] theorem State.updCluster_failed (s : State) (cl : ClusterId) (f : Cluster → Cluster) : (s.updCluster cl f).failed = s.failed := rfl
@[simp] theorem State.updCluster_diesvc (s : State) (cl : ClusterId) (f : Cluster → Cluster) : (s.updCluster cl f).diesvc = s.diesvc := rfl
@[simp] theorem State.updCluster_trainFails (s : State) (cl : ClusterId) (f : Cluster → Cluster) : (s.updCluster cl f).trainFails = s.trainFails := rfl
@[simp] theorem State.updCluster_rstcause (s : State) (cl : ClusterId) (f : Cluster → Cluster) : (s.updCluster cl f).rstcause = s.rstcause := rfl
@[simp] theorem State.updCluster_resets (s : State) (cl : ClusterId) (f : Cluster → Cluster) : (s.updCluster cl f).resets = s.resets := rfl
@[simp] theorem State.updCluster_meas (s : State) (cl : ClusterId) (f : Cluster → Cluster) : (s.updCluster cl f).meas = s.meas := rfl
@[simp] theorem State.updCluster_nonce (s : State) (cl : ClusterId) (f : Cluster → Cluster) : (s.updCluster cl f).nonce = s.nonce := rfl
@[simp] theorem State.updCluster_repaddr (s : State) (cl : ClusterId) (f : Cluster → Cluster) : (s.updCluster cl f).repaddr = s.repaddr := rfl
@[simp] theorem State.updCluster_repGo (s : State) (cl : ClusterId) (f : Cluster → Cluster) : (s.updCluster cl f).repGo = s.repGo := rfl
@[simp] theorem State.updCluster_repDone (s : State) (cl : ClusterId) (f : Cluster → Cluster) : (s.updCluster cl f).repDone = s.repDone := rfl
@[simp] theorem State.updCluster_repErr (s : State) (cl : ClusterId) (f : Cluster → Cluster) : (s.updCluster cl f).repErr = s.repErr := rfl
@[simp] theorem State.updCluster_report (s : State) (cl : ClusterId) (f : Cluster → Cluster) : (s.updCluster cl f).report = s.report := rfl
@[simp] theorem State.updCluster_isl (s : State) (cl : ClusterId) (f : Cluster → Cluster) : (s.updCluster cl f).isl = s.isl := rfl
@[simp] theorem State.updCluster_islock (s : State) (cl : ClusterId) (f : Cluster → Cluster) : (s.updCluster cl f).islock = s.islock := rfl
@[simp] theorem State.updCluster_isdflt (s : State) (cl : ClusterId) (f : Cluster → Cluster) : (s.updCluster cl f).isdflt = s.isdflt := rfl
@[simp] theorem State.updCluster_devnum (s : State) (cl : ClusterId) (f : Cluster → Cluster) : (s.updCluster cl f).devnum = s.devnum := rfl
@[simp] theorem State.updCluster_routes (s : State) (cl : ClusterId) (f : Cluster → Cluster) : (s.updCluster cl f).routes = s.routes := rfl
@[simp] theorem State.updCluster_cmdtail (s : State) (cl : ClusterId) (f : Cluster → Cluster) : (s.updCluster cl f).cmdtail = s.cmdtail := rfl
@[simp] theorem State.updCluster_cmdhead (s : State) (cl : ClusterId) (f : Cluster → Cluster) : (s.updCluster cl f).cmdhead = s.cmdhead := rfl
@[simp] theorem State.updCluster_ackbase (s : State) (cl : ClusterId) (f : Cluster → Cluster) : (s.updCluster cl f).ackbase = s.ackbase := rfl
@[simp] theorem State.updCluster_ackRing (s : State) (cl : ClusterId) (f : Cluster → Cluster) : (s.updCluster cl f).ackRing = s.ackRing := rfl
@[simp] theorem State.updCluster_cmderr (s : State) (cl : ClusterId) (f : Cluster → Cluster) : (s.updCluster cl f).cmderr = s.cmderr := rfl
@[simp] theorem State.updCluster_hostjob (s : State) (cl : ClusterId) (f : Cluster → Cluster) : (s.updCluster cl f).hostjob = s.hostjob := rfl
@[simp] theorem State.updCluster_cmdslots (s : State) (cl : ClusterId) (f : Cluster → Cluster) : (s.updCluster cl f).cmdslots = s.cmdslots := rfl
@[simp] theorem State.updCluster_wraps (s : State) (cl : ClusterId) (f : Cluster → Cluster) : (s.updCluster cl f).wraps = s.wraps := rfl
@[simp] theorem State.updCluster_backInv (s : State) (cl : ClusterId) (f : Cluster → Cluster) : (s.updCluster cl f).backInv = s.backInv := rfl
@[simp] theorem State.updCluster_hostLines (s : State) (cl : ClusterId) (f : Cluster → Cluster) : (s.updCluster cl f).hostLines = s.hostLines := rfl
@[simp] theorem State.updCluster_msix (s : State) (cl : ClusterId) (f : Cluster → Cluster) : (s.updCluster cl f).msix = s.msix := rfl
@[simp] theorem State.updCluster_msixTable (s : State) (cl : ClusterId) (f : Cluster → Cluster) : (s.updCluster cl f).msixTable = s.msixTable := rfl
@[simp] theorem State.updCluster_mcstat (s : State) (cl : ClusterId) (f : Cluster → Cluster) : (s.updCluster cl f).mcstat = s.mcstat := rfl
@[simp] theorem State.updCluster_mcWritten (s : State) (cl : ClusterId) (f : Cluster → Cluster) : (s.updCluster cl f).mcWritten = s.mcWritten := rfl
@[simp] theorem State.updCluster_mcHeadIdx (s : State) (cl : ClusterId) (f : Cluster → Cluster) : (s.updCluster cl f).mcHeadIdx = s.mcHeadIdx := rfl
@[simp] theorem State.updCluster_mcctl (s : State) (cl : ClusterId) (f : Cluster → Cluster) : (s.updCluster cl f).mcctl = s.mcctl := rfl
@[simp] theorem State.updCluster_mcrec (s : State) (cl : ClusterId) (f : Cluster → Cluster) : (s.updCluster cl f).mcrec = s.mcrec := rfl
@[simp] theorem State.updCluster_slotTable (s : State) (cl : ClusterId) (f : Cluster → Cluster) : (s.updCluster cl f).slotTable = s.slotTable := rfl
@[simp] theorem State.updCluster_prectl (s : State) (cl : ClusterId) (f : Cluster → Cluster) : (s.updCluster cl f).prectl = s.prectl := rfl
@[simp] theorem State.updCluster_presave (s : State) (cl : ClusterId) (f : Cluster → Cluster) : (s.updCluster cl f).presave = s.presave := rfl
@[simp] theorem State.updCluster_prestat (s : State) (cl : ClusterId) (f : Cluster → Cluster) : (s.updCluster cl f).prestat = s.prestat := rfl
@[simp] theorem State.updCluster_treectl (s : State) (cl : ClusterId) (f : Cluster → Cluster) : (s.updCluster cl f).treectl = s.treectl := rfl
@[simp] theorem State.updCluster_cut (s : State) (cl : ClusterId) (f : Cluster → Cluster) : (s.updCluster cl f).cut = s.cut := rfl
@[simp] theorem State.updCluster_saveKey (s : State) (cl : ClusterId) (f : Cluster → Cluster) : (s.updCluster cl f).saveKey = s.saveKey := rfl
@[simp] theorem State.updCluster_comet (s : State) (cl : ClusterId) (f : Cluster → Cluster) : (s.updCluster cl f).comet = s.comet := rfl
@[simp] theorem State.updCluster_frames (s : State) (cl : ClusterId) (f : Cluster → Cluster) : (s.updCluster cl f).frames = s.frames := rfl
@[simp] theorem State.updCluster_frameHits (s : State) (cl : ClusterId) (f : Cluster → Cluster) : (s.updCluster cl f).frameHits = s.frameHits := rfl
@[simp] theorem State.updCluster_evictOff (s : State) (cl : ClusterId) (f : Cluster → Cluster) : (s.updCluster cl f).evictOff = s.evictOff := rfl
@[simp] theorem State.updCluster_mem (s : State) (cl : ClusterId) (f : Cluster → Cluster) : (s.updCluster cl f).mem = s.mem := rfl
@[simp] theorem State.updCluster_empties (s : State) (cl : ClusterId) (f : Cluster → Cluster) : (s.updCluster cl f).empties = s.empties := rfl
@[simp] theorem State.updCluster_poisons (s : State) (cl : ClusterId) (f : Cluster → Cluster) : (s.updCluster cl f).poisons = s.poisons := rfl
@[simp] theorem State.updCluster_jobs (s : State) (cl : ClusterId) (f : Cluster → Cluster) : (s.updCluster cl f).jobs = s.jobs := rfl
@[simp] theorem State.updCluster_cores (s : State) (cl : ClusterId) (f : Cluster → Cluster) : (s.updCluster cl f).cores = s.cores := rfl
@[simp] theorem State.updCluster_ptsIdle (s : State) (cl : ClusterId) (f : Cluster → Cluster) : (s.updCluster cl f).ptsIdle = s.ptsIdle := rfl
@[simp] theorem State.updCluster_hostTs (s : State) (cl : ClusterId) (f : Cluster → Cluster) : (s.updCluster cl f).hostTs = s.hostTs := rfl
@[simp] theorem State.updCluster_decQueues (s : State) (cl : ClusterId) (f : Cluster → Cluster) : (s.updCluster cl f).decQueues = s.decQueues := rfl
@[simp] theorem State.updCluster_decoders (s : State) (cl : ClusterId) (f : Cluster → Cluster) : (s.updCluster cl f).decoders = s.decoders := rfl
@[simp] theorem State.updCluster_ports (s : State) (cl : ClusterId) (f : Cluster → Cluster) : (s.updCluster cl f).ports = s.ports := rfl
@[simp] theorem State.updCluster_msgs (s : State) (cl : ClusterId) (f : Cluster → Cluster) : (s.updCluster cl f).msgs = s.msgs := rfl
@[simp] theorem State.updCluster_flits (s : State) (cl : ClusterId) (f : Cluster → Cluster) : (s.updCluster cl f).flits = s.flits := rfl
@[simp] theorem State.updCluster_trainEnded (s : State) (cl : ClusterId) (f : Cluster → Cluster) : (s.updCluster cl f).trainEnded = s.trainEnded := rfl
@[simp] theorem State.updCluster_descs (s : State) (cl : ClusterId) (f : Cluster → Cluster) : (s.updCluster cl f).descs = s.descs := rfl
@[simp] theorem State.updCluster_sram (s : State) (cl : ClusterId) (f : Cluster → Cluster) : (s.updCluster cl f).sram = s.sram := rfl
@[simp] theorem State.updCluster_hostData (s : State) (cl : ClusterId) (f : Cluster → Cluster) : (s.updCluster cl f).hostData = s.hostData := rfl
@[simp] theorem State.updCluster_physDone (s : State) (cl : ClusterId) (f : Cluster → Cluster) : (s.updCluster cl f).physDone = s.physDone := rfl

/-! ## State.updJob -/

@[simp] theorem State.updJob_agenda (s : State) (j : JobId) (f : Job → Job) : (s.updJob j f).agenda = s.agenda := rfl
@[simp] theorem State.updJob_arg (s : State) (j : JobId) (f : Job → Job) : (s.updJob j f).arg = s.arg := rfl
@[simp] theorem State.updJob_offer (s : State) (j : JobId) (f : Job → Job) : (s.updJob j f).offer = s.offer := rfl
@[simp] theorem State.updJob_fresh (s : State) (j : JobId) (f : Job → Job) : (s.updJob j f).fresh = s.fresh := rfl
@[simp] theorem State.updJob_nextId (s : State) (j : JobId) (f : Job → Job) : (s.updJob j f).nextId = s.nextId := rfl
@[simp] theorem State.updJob_now (s : State) (j : JobId) (f : Job → Job) : (s.updJob j f).now = s.now := rfl
@[simp] theorem State.updJob_stage (s : State) (j : JobId) (f : Job → Job) : (s.updJob j f).stage = s.stage := rfl
@[simp] theorem State.updJob_trained (s : State) (j : JobId) (f : Job → Job) : (s.updJob j f).trained = s.trained := rfl
@[simp] theorem State.updJob_failed (s : State) (j : JobId) (f : Job → Job) : (s.updJob j f).failed = s.failed := rfl
@[simp] theorem State.updJob_diesvc (s : State) (j : JobId) (f : Job → Job) : (s.updJob j f).diesvc = s.diesvc := rfl
@[simp] theorem State.updJob_trainFails (s : State) (j : JobId) (f : Job → Job) : (s.updJob j f).trainFails = s.trainFails := rfl
@[simp] theorem State.updJob_rstcause (s : State) (j : JobId) (f : Job → Job) : (s.updJob j f).rstcause = s.rstcause := rfl
@[simp] theorem State.updJob_resets (s : State) (j : JobId) (f : Job → Job) : (s.updJob j f).resets = s.resets := rfl
@[simp] theorem State.updJob_meas (s : State) (j : JobId) (f : Job → Job) : (s.updJob j f).meas = s.meas := rfl
@[simp] theorem State.updJob_nonce (s : State) (j : JobId) (f : Job → Job) : (s.updJob j f).nonce = s.nonce := rfl
@[simp] theorem State.updJob_repaddr (s : State) (j : JobId) (f : Job → Job) : (s.updJob j f).repaddr = s.repaddr := rfl
@[simp] theorem State.updJob_repGo (s : State) (j : JobId) (f : Job → Job) : (s.updJob j f).repGo = s.repGo := rfl
@[simp] theorem State.updJob_repDone (s : State) (j : JobId) (f : Job → Job) : (s.updJob j f).repDone = s.repDone := rfl
@[simp] theorem State.updJob_repErr (s : State) (j : JobId) (f : Job → Job) : (s.updJob j f).repErr = s.repErr := rfl
@[simp] theorem State.updJob_report (s : State) (j : JobId) (f : Job → Job) : (s.updJob j f).report = s.report := rfl
@[simp] theorem State.updJob_isl (s : State) (j : JobId) (f : Job → Job) : (s.updJob j f).isl = s.isl := rfl
@[simp] theorem State.updJob_islock (s : State) (j : JobId) (f : Job → Job) : (s.updJob j f).islock = s.islock := rfl
@[simp] theorem State.updJob_isdflt (s : State) (j : JobId) (f : Job → Job) : (s.updJob j f).isdflt = s.isdflt := rfl
@[simp] theorem State.updJob_devnum (s : State) (j : JobId) (f : Job → Job) : (s.updJob j f).devnum = s.devnum := rfl
@[simp] theorem State.updJob_routes (s : State) (j : JobId) (f : Job → Job) : (s.updJob j f).routes = s.routes := rfl
@[simp] theorem State.updJob_cmdtail (s : State) (j : JobId) (f : Job → Job) : (s.updJob j f).cmdtail = s.cmdtail := rfl
@[simp] theorem State.updJob_cmdhead (s : State) (j : JobId) (f : Job → Job) : (s.updJob j f).cmdhead = s.cmdhead := rfl
@[simp] theorem State.updJob_ackbase (s : State) (j : JobId) (f : Job → Job) : (s.updJob j f).ackbase = s.ackbase := rfl
@[simp] theorem State.updJob_ackRing (s : State) (j : JobId) (f : Job → Job) : (s.updJob j f).ackRing = s.ackRing := rfl
@[simp] theorem State.updJob_cmderr (s : State) (j : JobId) (f : Job → Job) : (s.updJob j f).cmderr = s.cmderr := rfl
@[simp] theorem State.updJob_hostjob (s : State) (j : JobId) (f : Job → Job) : (s.updJob j f).hostjob = s.hostjob := rfl
@[simp] theorem State.updJob_cmdslots (s : State) (j : JobId) (f : Job → Job) : (s.updJob j f).cmdslots = s.cmdslots := rfl
@[simp] theorem State.updJob_wraps (s : State) (j : JobId) (f : Job → Job) : (s.updJob j f).wraps = s.wraps := rfl
@[simp] theorem State.updJob_backInv (s : State) (j : JobId) (f : Job → Job) : (s.updJob j f).backInv = s.backInv := rfl
@[simp] theorem State.updJob_hostLines (s : State) (j : JobId) (f : Job → Job) : (s.updJob j f).hostLines = s.hostLines := rfl
@[simp] theorem State.updJob_msix (s : State) (j : JobId) (f : Job → Job) : (s.updJob j f).msix = s.msix := rfl
@[simp] theorem State.updJob_msixTable (s : State) (j : JobId) (f : Job → Job) : (s.updJob j f).msixTable = s.msixTable := rfl
@[simp] theorem State.updJob_mcstat (s : State) (j : JobId) (f : Job → Job) : (s.updJob j f).mcstat = s.mcstat := rfl
@[simp] theorem State.updJob_mcWritten (s : State) (j : JobId) (f : Job → Job) : (s.updJob j f).mcWritten = s.mcWritten := rfl
@[simp] theorem State.updJob_mcHeadIdx (s : State) (j : JobId) (f : Job → Job) : (s.updJob j f).mcHeadIdx = s.mcHeadIdx := rfl
@[simp] theorem State.updJob_mcctl (s : State) (j : JobId) (f : Job → Job) : (s.updJob j f).mcctl = s.mcctl := rfl
@[simp] theorem State.updJob_mcrec (s : State) (j : JobId) (f : Job → Job) : (s.updJob j f).mcrec = s.mcrec := rfl
@[simp] theorem State.updJob_slotTable (s : State) (j : JobId) (f : Job → Job) : (s.updJob j f).slotTable = s.slotTable := rfl
@[simp] theorem State.updJob_prectl (s : State) (j : JobId) (f : Job → Job) : (s.updJob j f).prectl = s.prectl := rfl
@[simp] theorem State.updJob_presave (s : State) (j : JobId) (f : Job → Job) : (s.updJob j f).presave = s.presave := rfl
@[simp] theorem State.updJob_prestat (s : State) (j : JobId) (f : Job → Job) : (s.updJob j f).prestat = s.prestat := rfl
@[simp] theorem State.updJob_treectl (s : State) (j : JobId) (f : Job → Job) : (s.updJob j f).treectl = s.treectl := rfl
@[simp] theorem State.updJob_cut (s : State) (j : JobId) (f : Job → Job) : (s.updJob j f).cut = s.cut := rfl
@[simp] theorem State.updJob_saveKey (s : State) (j : JobId) (f : Job → Job) : (s.updJob j f).saveKey = s.saveKey := rfl
@[simp] theorem State.updJob_comet (s : State) (j : JobId) (f : Job → Job) : (s.updJob j f).comet = s.comet := rfl
@[simp] theorem State.updJob_frames (s : State) (j : JobId) (f : Job → Job) : (s.updJob j f).frames = s.frames := rfl
@[simp] theorem State.updJob_frameHits (s : State) (j : JobId) (f : Job → Job) : (s.updJob j f).frameHits = s.frameHits := rfl
@[simp] theorem State.updJob_evictOff (s : State) (j : JobId) (f : Job → Job) : (s.updJob j f).evictOff = s.evictOff := rfl
@[simp] theorem State.updJob_mem (s : State) (j : JobId) (f : Job → Job) : (s.updJob j f).mem = s.mem := rfl
@[simp] theorem State.updJob_empties (s : State) (j : JobId) (f : Job → Job) : (s.updJob j f).empties = s.empties := rfl
@[simp] theorem State.updJob_poisons (s : State) (j : JobId) (f : Job → Job) : (s.updJob j f).poisons = s.poisons := rfl
@[simp] theorem State.updJob_clusters (s : State) (j : JobId) (f : Job → Job) : (s.updJob j f).clusters = s.clusters := rfl
@[simp] theorem State.updJob_cores (s : State) (j : JobId) (f : Job → Job) : (s.updJob j f).cores = s.cores := rfl
@[simp] theorem State.updJob_ptsIdle (s : State) (j : JobId) (f : Job → Job) : (s.updJob j f).ptsIdle = s.ptsIdle := rfl
@[simp] theorem State.updJob_hostTs (s : State) (j : JobId) (f : Job → Job) : (s.updJob j f).hostTs = s.hostTs := rfl
@[simp] theorem State.updJob_decQueues (s : State) (j : JobId) (f : Job → Job) : (s.updJob j f).decQueues = s.decQueues := rfl
@[simp] theorem State.updJob_decoders (s : State) (j : JobId) (f : Job → Job) : (s.updJob j f).decoders = s.decoders := rfl
@[simp] theorem State.updJob_ports (s : State) (j : JobId) (f : Job → Job) : (s.updJob j f).ports = s.ports := rfl
@[simp] theorem State.updJob_msgs (s : State) (j : JobId) (f : Job → Job) : (s.updJob j f).msgs = s.msgs := rfl
@[simp] theorem State.updJob_flits (s : State) (j : JobId) (f : Job → Job) : (s.updJob j f).flits = s.flits := rfl
@[simp] theorem State.updJob_trainEnded (s : State) (j : JobId) (f : Job → Job) : (s.updJob j f).trainEnded = s.trainEnded := rfl
@[simp] theorem State.updJob_descs (s : State) (j : JobId) (f : Job → Job) : (s.updJob j f).descs = s.descs := rfl
@[simp] theorem State.updJob_sram (s : State) (j : JobId) (f : Job → Job) : (s.updJob j f).sram = s.sram := rfl
@[simp] theorem State.updJob_hostData (s : State) (j : JobId) (f : Job → Job) : (s.updJob j f).hostData = s.hostData := rfl
@[simp] theorem State.updJob_physDone (s : State) (j : JobId) (f : Job → Job) : (s.updJob j f).physDone = s.physDone := rfl

/-! ## State.updLaunch -/

@[simp] theorem State.updLaunch_agenda (s : State) (j : JobId) (l : Lslot) (f : Launch → Launch) : (s.updLaunch j l f).agenda = s.agenda := rfl
@[simp] theorem State.updLaunch_arg (s : State) (j : JobId) (l : Lslot) (f : Launch → Launch) : (s.updLaunch j l f).arg = s.arg := rfl
@[simp] theorem State.updLaunch_offer (s : State) (j : JobId) (l : Lslot) (f : Launch → Launch) : (s.updLaunch j l f).offer = s.offer := rfl
@[simp] theorem State.updLaunch_fresh (s : State) (j : JobId) (l : Lslot) (f : Launch → Launch) : (s.updLaunch j l f).fresh = s.fresh := rfl
@[simp] theorem State.updLaunch_nextId (s : State) (j : JobId) (l : Lslot) (f : Launch → Launch) : (s.updLaunch j l f).nextId = s.nextId := rfl
@[simp] theorem State.updLaunch_now (s : State) (j : JobId) (l : Lslot) (f : Launch → Launch) : (s.updLaunch j l f).now = s.now := rfl
@[simp] theorem State.updLaunch_stage (s : State) (j : JobId) (l : Lslot) (f : Launch → Launch) : (s.updLaunch j l f).stage = s.stage := rfl
@[simp] theorem State.updLaunch_trained (s : State) (j : JobId) (l : Lslot) (f : Launch → Launch) : (s.updLaunch j l f).trained = s.trained := rfl
@[simp] theorem State.updLaunch_failed (s : State) (j : JobId) (l : Lslot) (f : Launch → Launch) : (s.updLaunch j l f).failed = s.failed := rfl
@[simp] theorem State.updLaunch_diesvc (s : State) (j : JobId) (l : Lslot) (f : Launch → Launch) : (s.updLaunch j l f).diesvc = s.diesvc := rfl
@[simp] theorem State.updLaunch_trainFails (s : State) (j : JobId) (l : Lslot) (f : Launch → Launch) : (s.updLaunch j l f).trainFails = s.trainFails := rfl
@[simp] theorem State.updLaunch_rstcause (s : State) (j : JobId) (l : Lslot) (f : Launch → Launch) : (s.updLaunch j l f).rstcause = s.rstcause := rfl
@[simp] theorem State.updLaunch_resets (s : State) (j : JobId) (l : Lslot) (f : Launch → Launch) : (s.updLaunch j l f).resets = s.resets := rfl
@[simp] theorem State.updLaunch_meas (s : State) (j : JobId) (l : Lslot) (f : Launch → Launch) : (s.updLaunch j l f).meas = s.meas := rfl
@[simp] theorem State.updLaunch_nonce (s : State) (j : JobId) (l : Lslot) (f : Launch → Launch) : (s.updLaunch j l f).nonce = s.nonce := rfl
@[simp] theorem State.updLaunch_repaddr (s : State) (j : JobId) (l : Lslot) (f : Launch → Launch) : (s.updLaunch j l f).repaddr = s.repaddr := rfl
@[simp] theorem State.updLaunch_repGo (s : State) (j : JobId) (l : Lslot) (f : Launch → Launch) : (s.updLaunch j l f).repGo = s.repGo := rfl
@[simp] theorem State.updLaunch_repDone (s : State) (j : JobId) (l : Lslot) (f : Launch → Launch) : (s.updLaunch j l f).repDone = s.repDone := rfl
@[simp] theorem State.updLaunch_repErr (s : State) (j : JobId) (l : Lslot) (f : Launch → Launch) : (s.updLaunch j l f).repErr = s.repErr := rfl
@[simp] theorem State.updLaunch_report (s : State) (j : JobId) (l : Lslot) (f : Launch → Launch) : (s.updLaunch j l f).report = s.report := rfl
@[simp] theorem State.updLaunch_isl (s : State) (j : JobId) (l : Lslot) (f : Launch → Launch) : (s.updLaunch j l f).isl = s.isl := rfl
@[simp] theorem State.updLaunch_islock (s : State) (j : JobId) (l : Lslot) (f : Launch → Launch) : (s.updLaunch j l f).islock = s.islock := rfl
@[simp] theorem State.updLaunch_isdflt (s : State) (j : JobId) (l : Lslot) (f : Launch → Launch) : (s.updLaunch j l f).isdflt = s.isdflt := rfl
@[simp] theorem State.updLaunch_devnum (s : State) (j : JobId) (l : Lslot) (f : Launch → Launch) : (s.updLaunch j l f).devnum = s.devnum := rfl
@[simp] theorem State.updLaunch_routes (s : State) (j : JobId) (l : Lslot) (f : Launch → Launch) : (s.updLaunch j l f).routes = s.routes := rfl
@[simp] theorem State.updLaunch_cmdtail (s : State) (j : JobId) (l : Lslot) (f : Launch → Launch) : (s.updLaunch j l f).cmdtail = s.cmdtail := rfl
@[simp] theorem State.updLaunch_cmdhead (s : State) (j : JobId) (l : Lslot) (f : Launch → Launch) : (s.updLaunch j l f).cmdhead = s.cmdhead := rfl
@[simp] theorem State.updLaunch_ackbase (s : State) (j : JobId) (l : Lslot) (f : Launch → Launch) : (s.updLaunch j l f).ackbase = s.ackbase := rfl
@[simp] theorem State.updLaunch_ackRing (s : State) (j : JobId) (l : Lslot) (f : Launch → Launch) : (s.updLaunch j l f).ackRing = s.ackRing := rfl
@[simp] theorem State.updLaunch_cmderr (s : State) (j : JobId) (l : Lslot) (f : Launch → Launch) : (s.updLaunch j l f).cmderr = s.cmderr := rfl
@[simp] theorem State.updLaunch_hostjob (s : State) (j : JobId) (l : Lslot) (f : Launch → Launch) : (s.updLaunch j l f).hostjob = s.hostjob := rfl
@[simp] theorem State.updLaunch_cmdslots (s : State) (j : JobId) (l : Lslot) (f : Launch → Launch) : (s.updLaunch j l f).cmdslots = s.cmdslots := rfl
@[simp] theorem State.updLaunch_wraps (s : State) (j : JobId) (l : Lslot) (f : Launch → Launch) : (s.updLaunch j l f).wraps = s.wraps := rfl
@[simp] theorem State.updLaunch_backInv (s : State) (j : JobId) (l : Lslot) (f : Launch → Launch) : (s.updLaunch j l f).backInv = s.backInv := rfl
@[simp] theorem State.updLaunch_hostLines (s : State) (j : JobId) (l : Lslot) (f : Launch → Launch) : (s.updLaunch j l f).hostLines = s.hostLines := rfl
@[simp] theorem State.updLaunch_msix (s : State) (j : JobId) (l : Lslot) (f : Launch → Launch) : (s.updLaunch j l f).msix = s.msix := rfl
@[simp] theorem State.updLaunch_msixTable (s : State) (j : JobId) (l : Lslot) (f : Launch → Launch) : (s.updLaunch j l f).msixTable = s.msixTable := rfl
@[simp] theorem State.updLaunch_mcstat (s : State) (j : JobId) (l : Lslot) (f : Launch → Launch) : (s.updLaunch j l f).mcstat = s.mcstat := rfl
@[simp] theorem State.updLaunch_mcWritten (s : State) (j : JobId) (l : Lslot) (f : Launch → Launch) : (s.updLaunch j l f).mcWritten = s.mcWritten := rfl
@[simp] theorem State.updLaunch_mcHeadIdx (s : State) (j : JobId) (l : Lslot) (f : Launch → Launch) : (s.updLaunch j l f).mcHeadIdx = s.mcHeadIdx := rfl
@[simp] theorem State.updLaunch_mcctl (s : State) (j : JobId) (l : Lslot) (f : Launch → Launch) : (s.updLaunch j l f).mcctl = s.mcctl := rfl
@[simp] theorem State.updLaunch_mcrec (s : State) (j : JobId) (l : Lslot) (f : Launch → Launch) : (s.updLaunch j l f).mcrec = s.mcrec := rfl
@[simp] theorem State.updLaunch_slotTable (s : State) (j : JobId) (l : Lslot) (f : Launch → Launch) : (s.updLaunch j l f).slotTable = s.slotTable := rfl
@[simp] theorem State.updLaunch_prectl (s : State) (j : JobId) (l : Lslot) (f : Launch → Launch) : (s.updLaunch j l f).prectl = s.prectl := rfl
@[simp] theorem State.updLaunch_presave (s : State) (j : JobId) (l : Lslot) (f : Launch → Launch) : (s.updLaunch j l f).presave = s.presave := rfl
@[simp] theorem State.updLaunch_prestat (s : State) (j : JobId) (l : Lslot) (f : Launch → Launch) : (s.updLaunch j l f).prestat = s.prestat := rfl
@[simp] theorem State.updLaunch_treectl (s : State) (j : JobId) (l : Lslot) (f : Launch → Launch) : (s.updLaunch j l f).treectl = s.treectl := rfl
@[simp] theorem State.updLaunch_cut (s : State) (j : JobId) (l : Lslot) (f : Launch → Launch) : (s.updLaunch j l f).cut = s.cut := rfl
@[simp] theorem State.updLaunch_saveKey (s : State) (j : JobId) (l : Lslot) (f : Launch → Launch) : (s.updLaunch j l f).saveKey = s.saveKey := rfl
@[simp] theorem State.updLaunch_comet (s : State) (j : JobId) (l : Lslot) (f : Launch → Launch) : (s.updLaunch j l f).comet = s.comet := rfl
@[simp] theorem State.updLaunch_frames (s : State) (j : JobId) (l : Lslot) (f : Launch → Launch) : (s.updLaunch j l f).frames = s.frames := rfl
@[simp] theorem State.updLaunch_frameHits (s : State) (j : JobId) (l : Lslot) (f : Launch → Launch) : (s.updLaunch j l f).frameHits = s.frameHits := rfl
@[simp] theorem State.updLaunch_evictOff (s : State) (j : JobId) (l : Lslot) (f : Launch → Launch) : (s.updLaunch j l f).evictOff = s.evictOff := rfl
@[simp] theorem State.updLaunch_mem (s : State) (j : JobId) (l : Lslot) (f : Launch → Launch) : (s.updLaunch j l f).mem = s.mem := rfl
@[simp] theorem State.updLaunch_empties (s : State) (j : JobId) (l : Lslot) (f : Launch → Launch) : (s.updLaunch j l f).empties = s.empties := rfl
@[simp] theorem State.updLaunch_poisons (s : State) (j : JobId) (l : Lslot) (f : Launch → Launch) : (s.updLaunch j l f).poisons = s.poisons := rfl
@[simp] theorem State.updLaunch_clusters (s : State) (j : JobId) (l : Lslot) (f : Launch → Launch) : (s.updLaunch j l f).clusters = s.clusters := rfl
@[simp] theorem State.updLaunch_cores (s : State) (j : JobId) (l : Lslot) (f : Launch → Launch) : (s.updLaunch j l f).cores = s.cores := rfl
@[simp] theorem State.updLaunch_ptsIdle (s : State) (j : JobId) (l : Lslot) (f : Launch → Launch) : (s.updLaunch j l f).ptsIdle = s.ptsIdle := rfl
@[simp] theorem State.updLaunch_hostTs (s : State) (j : JobId) (l : Lslot) (f : Launch → Launch) : (s.updLaunch j l f).hostTs = s.hostTs := rfl
@[simp] theorem State.updLaunch_decQueues (s : State) (j : JobId) (l : Lslot) (f : Launch → Launch) : (s.updLaunch j l f).decQueues = s.decQueues := rfl
@[simp] theorem State.updLaunch_decoders (s : State) (j : JobId) (l : Lslot) (f : Launch → Launch) : (s.updLaunch j l f).decoders = s.decoders := rfl
@[simp] theorem State.updLaunch_ports (s : State) (j : JobId) (l : Lslot) (f : Launch → Launch) : (s.updLaunch j l f).ports = s.ports := rfl
@[simp] theorem State.updLaunch_msgs (s : State) (j : JobId) (l : Lslot) (f : Launch → Launch) : (s.updLaunch j l f).msgs = s.msgs := rfl
@[simp] theorem State.updLaunch_flits (s : State) (j : JobId) (l : Lslot) (f : Launch → Launch) : (s.updLaunch j l f).flits = s.flits := rfl
@[simp] theorem State.updLaunch_trainEnded (s : State) (j : JobId) (l : Lslot) (f : Launch → Launch) : (s.updLaunch j l f).trainEnded = s.trainEnded := rfl
@[simp] theorem State.updLaunch_descs (s : State) (j : JobId) (l : Lslot) (f : Launch → Launch) : (s.updLaunch j l f).descs = s.descs := rfl
@[simp] theorem State.updLaunch_sram (s : State) (j : JobId) (l : Lslot) (f : Launch → Launch) : (s.updLaunch j l f).sram = s.sram := rfl
@[simp] theorem State.updLaunch_hostData (s : State) (j : JobId) (l : Lslot) (f : Launch → Launch) : (s.updLaunch j l f).hostData = s.hostData := rfl
@[simp] theorem State.updLaunch_physDone (s : State) (j : JobId) (l : Lslot) (f : Launch → Launch) : (s.updLaunch j l f).physDone = s.physDone := rfl

/-! ## State.push -/

@[simp] theorem State.push_arg (s : State) (n : Nat) (i : Instr) (x : StepArg) : (s.push n i x).arg = s.arg := rfl
@[simp] theorem State.push_offer (s : State) (n : Nat) (i : Instr) (x : StepArg) : (s.push n i x).offer = s.offer := rfl
@[simp] theorem State.push_fresh (s : State) (n : Nat) (i : Instr) (x : StepArg) : (s.push n i x).fresh = s.fresh := rfl
@[simp] theorem State.push_nextId (s : State) (n : Nat) (i : Instr) (x : StepArg) : (s.push n i x).nextId = s.nextId := rfl
@[simp] theorem State.push_now (s : State) (n : Nat) (i : Instr) (x : StepArg) : (s.push n i x).now = s.now := rfl
@[simp] theorem State.push_stage (s : State) (n : Nat) (i : Instr) (x : StepArg) : (s.push n i x).stage = s.stage := rfl
@[simp] theorem State.push_trained (s : State) (n : Nat) (i : Instr) (x : StepArg) : (s.push n i x).trained = s.trained := rfl
@[simp] theorem State.push_failed (s : State) (n : Nat) (i : Instr) (x : StepArg) : (s.push n i x).failed = s.failed := rfl
@[simp] theorem State.push_diesvc (s : State) (n : Nat) (i : Instr) (x : StepArg) : (s.push n i x).diesvc = s.diesvc := rfl
@[simp] theorem State.push_trainFails (s : State) (n : Nat) (i : Instr) (x : StepArg) : (s.push n i x).trainFails = s.trainFails := rfl
@[simp] theorem State.push_rstcause (s : State) (n : Nat) (i : Instr) (x : StepArg) : (s.push n i x).rstcause = s.rstcause := rfl
@[simp] theorem State.push_resets (s : State) (n : Nat) (i : Instr) (x : StepArg) : (s.push n i x).resets = s.resets := rfl
@[simp] theorem State.push_meas (s : State) (n : Nat) (i : Instr) (x : StepArg) : (s.push n i x).meas = s.meas := rfl
@[simp] theorem State.push_nonce (s : State) (n : Nat) (i : Instr) (x : StepArg) : (s.push n i x).nonce = s.nonce := rfl
@[simp] theorem State.push_repaddr (s : State) (n : Nat) (i : Instr) (x : StepArg) : (s.push n i x).repaddr = s.repaddr := rfl
@[simp] theorem State.push_repGo (s : State) (n : Nat) (i : Instr) (x : StepArg) : (s.push n i x).repGo = s.repGo := rfl
@[simp] theorem State.push_repDone (s : State) (n : Nat) (i : Instr) (x : StepArg) : (s.push n i x).repDone = s.repDone := rfl
@[simp] theorem State.push_repErr (s : State) (n : Nat) (i : Instr) (x : StepArg) : (s.push n i x).repErr = s.repErr := rfl
@[simp] theorem State.push_report (s : State) (n : Nat) (i : Instr) (x : StepArg) : (s.push n i x).report = s.report := rfl
@[simp] theorem State.push_isl (s : State) (n : Nat) (i : Instr) (x : StepArg) : (s.push n i x).isl = s.isl := rfl
@[simp] theorem State.push_islock (s : State) (n : Nat) (i : Instr) (x : StepArg) : (s.push n i x).islock = s.islock := rfl
@[simp] theorem State.push_isdflt (s : State) (n : Nat) (i : Instr) (x : StepArg) : (s.push n i x).isdflt = s.isdflt := rfl
@[simp] theorem State.push_devnum (s : State) (n : Nat) (i : Instr) (x : StepArg) : (s.push n i x).devnum = s.devnum := rfl
@[simp] theorem State.push_routes (s : State) (n : Nat) (i : Instr) (x : StepArg) : (s.push n i x).routes = s.routes := rfl
@[simp] theorem State.push_cmdtail (s : State) (n : Nat) (i : Instr) (x : StepArg) : (s.push n i x).cmdtail = s.cmdtail := rfl
@[simp] theorem State.push_cmdhead (s : State) (n : Nat) (i : Instr) (x : StepArg) : (s.push n i x).cmdhead = s.cmdhead := rfl
@[simp] theorem State.push_ackbase (s : State) (n : Nat) (i : Instr) (x : StepArg) : (s.push n i x).ackbase = s.ackbase := rfl
@[simp] theorem State.push_ackRing (s : State) (n : Nat) (i : Instr) (x : StepArg) : (s.push n i x).ackRing = s.ackRing := rfl
@[simp] theorem State.push_cmderr (s : State) (n : Nat) (i : Instr) (x : StepArg) : (s.push n i x).cmderr = s.cmderr := rfl
@[simp] theorem State.push_hostjob (s : State) (n : Nat) (i : Instr) (x : StepArg) : (s.push n i x).hostjob = s.hostjob := rfl
@[simp] theorem State.push_cmdslots (s : State) (n : Nat) (i : Instr) (x : StepArg) : (s.push n i x).cmdslots = s.cmdslots := rfl
@[simp] theorem State.push_wraps (s : State) (n : Nat) (i : Instr) (x : StepArg) : (s.push n i x).wraps = s.wraps := rfl
@[simp] theorem State.push_backInv (s : State) (n : Nat) (i : Instr) (x : StepArg) : (s.push n i x).backInv = s.backInv := rfl
@[simp] theorem State.push_hostLines (s : State) (n : Nat) (i : Instr) (x : StepArg) : (s.push n i x).hostLines = s.hostLines := rfl
@[simp] theorem State.push_msix (s : State) (n : Nat) (i : Instr) (x : StepArg) : (s.push n i x).msix = s.msix := rfl
@[simp] theorem State.push_msixTable (s : State) (n : Nat) (i : Instr) (x : StepArg) : (s.push n i x).msixTable = s.msixTable := rfl
@[simp] theorem State.push_mcstat (s : State) (n : Nat) (i : Instr) (x : StepArg) : (s.push n i x).mcstat = s.mcstat := rfl
@[simp] theorem State.push_mcWritten (s : State) (n : Nat) (i : Instr) (x : StepArg) : (s.push n i x).mcWritten = s.mcWritten := rfl
@[simp] theorem State.push_mcHeadIdx (s : State) (n : Nat) (i : Instr) (x : StepArg) : (s.push n i x).mcHeadIdx = s.mcHeadIdx := rfl
@[simp] theorem State.push_mcctl (s : State) (n : Nat) (i : Instr) (x : StepArg) : (s.push n i x).mcctl = s.mcctl := rfl
@[simp] theorem State.push_mcrec (s : State) (n : Nat) (i : Instr) (x : StepArg) : (s.push n i x).mcrec = s.mcrec := rfl
@[simp] theorem State.push_slotTable (s : State) (n : Nat) (i : Instr) (x : StepArg) : (s.push n i x).slotTable = s.slotTable := rfl
@[simp] theorem State.push_prectl (s : State) (n : Nat) (i : Instr) (x : StepArg) : (s.push n i x).prectl = s.prectl := rfl
@[simp] theorem State.push_presave (s : State) (n : Nat) (i : Instr) (x : StepArg) : (s.push n i x).presave = s.presave := rfl
@[simp] theorem State.push_prestat (s : State) (n : Nat) (i : Instr) (x : StepArg) : (s.push n i x).prestat = s.prestat := rfl
@[simp] theorem State.push_treectl (s : State) (n : Nat) (i : Instr) (x : StepArg) : (s.push n i x).treectl = s.treectl := rfl
@[simp] theorem State.push_cut (s : State) (n : Nat) (i : Instr) (x : StepArg) : (s.push n i x).cut = s.cut := rfl
@[simp] theorem State.push_saveKey (s : State) (n : Nat) (i : Instr) (x : StepArg) : (s.push n i x).saveKey = s.saveKey := rfl
@[simp] theorem State.push_comet (s : State) (n : Nat) (i : Instr) (x : StepArg) : (s.push n i x).comet = s.comet := rfl
@[simp] theorem State.push_frames (s : State) (n : Nat) (i : Instr) (x : StepArg) : (s.push n i x).frames = s.frames := rfl
@[simp] theorem State.push_frameHits (s : State) (n : Nat) (i : Instr) (x : StepArg) : (s.push n i x).frameHits = s.frameHits := rfl
@[simp] theorem State.push_evictOff (s : State) (n : Nat) (i : Instr) (x : StepArg) : (s.push n i x).evictOff = s.evictOff := rfl
@[simp] theorem State.push_mem (s : State) (n : Nat) (i : Instr) (x : StepArg) : (s.push n i x).mem = s.mem := rfl
@[simp] theorem State.push_empties (s : State) (n : Nat) (i : Instr) (x : StepArg) : (s.push n i x).empties = s.empties := rfl
@[simp] theorem State.push_poisons (s : State) (n : Nat) (i : Instr) (x : StepArg) : (s.push n i x).poisons = s.poisons := rfl
@[simp] theorem State.push_jobs (s : State) (n : Nat) (i : Instr) (x : StepArg) : (s.push n i x).jobs = s.jobs := rfl
@[simp] theorem State.push_clusters (s : State) (n : Nat) (i : Instr) (x : StepArg) : (s.push n i x).clusters = s.clusters := rfl
@[simp] theorem State.push_cores (s : State) (n : Nat) (i : Instr) (x : StepArg) : (s.push n i x).cores = s.cores := rfl
@[simp] theorem State.push_ptsIdle (s : State) (n : Nat) (i : Instr) (x : StepArg) : (s.push n i x).ptsIdle = s.ptsIdle := rfl
@[simp] theorem State.push_hostTs (s : State) (n : Nat) (i : Instr) (x : StepArg) : (s.push n i x).hostTs = s.hostTs := rfl
@[simp] theorem State.push_decQueues (s : State) (n : Nat) (i : Instr) (x : StepArg) : (s.push n i x).decQueues = s.decQueues := rfl
@[simp] theorem State.push_decoders (s : State) (n : Nat) (i : Instr) (x : StepArg) : (s.push n i x).decoders = s.decoders := rfl
@[simp] theorem State.push_ports (s : State) (n : Nat) (i : Instr) (x : StepArg) : (s.push n i x).ports = s.ports := rfl
@[simp] theorem State.push_msgs (s : State) (n : Nat) (i : Instr) (x : StepArg) : (s.push n i x).msgs = s.msgs := rfl
@[simp] theorem State.push_flits (s : State) (n : Nat) (i : Instr) (x : StepArg) : (s.push n i x).flits = s.flits := rfl
@[simp] theorem State.push_trainEnded (s : State) (n : Nat) (i : Instr) (x : StepArg) : (s.push n i x).trainEnded = s.trainEnded := rfl
@[simp] theorem State.push_descs (s : State) (n : Nat) (i : Instr) (x : StepArg) : (s.push n i x).descs = s.descs := rfl
@[simp] theorem State.push_sram (s : State) (n : Nat) (i : Instr) (x : StepArg) : (s.push n i x).sram = s.sram := rfl
@[simp] theorem State.push_hostData (s : State) (n : Nat) (i : Instr) (x : StepArg) : (s.push n i x).hostData = s.hostData := rfl
@[simp] theorem State.push_physDone (s : State) (n : Nat) (i : Instr) (x : StepArg) : (s.push n i x).physDone = s.physDone := rfl

/-! ## State.soon -/

@[simp] theorem State.soon_arg (s : State) (i : Instr) (x : StepArg) : (s.soon i x).arg = s.arg := rfl
@[simp] theorem State.soon_offer (s : State) (i : Instr) (x : StepArg) : (s.soon i x).offer = s.offer := rfl
@[simp] theorem State.soon_fresh (s : State) (i : Instr) (x : StepArg) : (s.soon i x).fresh = s.fresh := rfl
@[simp] theorem State.soon_nextId (s : State) (i : Instr) (x : StepArg) : (s.soon i x).nextId = s.nextId := rfl
@[simp] theorem State.soon_now (s : State) (i : Instr) (x : StepArg) : (s.soon i x).now = s.now := rfl
@[simp] theorem State.soon_stage (s : State) (i : Instr) (x : StepArg) : (s.soon i x).stage = s.stage := rfl
@[simp] theorem State.soon_trained (s : State) (i : Instr) (x : StepArg) : (s.soon i x).trained = s.trained := rfl
@[simp] theorem State.soon_failed (s : State) (i : Instr) (x : StepArg) : (s.soon i x).failed = s.failed := rfl
@[simp] theorem State.soon_diesvc (s : State) (i : Instr) (x : StepArg) : (s.soon i x).diesvc = s.diesvc := rfl
@[simp] theorem State.soon_trainFails (s : State) (i : Instr) (x : StepArg) : (s.soon i x).trainFails = s.trainFails := rfl
@[simp] theorem State.soon_rstcause (s : State) (i : Instr) (x : StepArg) : (s.soon i x).rstcause = s.rstcause := rfl
@[simp] theorem State.soon_resets (s : State) (i : Instr) (x : StepArg) : (s.soon i x).resets = s.resets := rfl
@[simp] theorem State.soon_meas (s : State) (i : Instr) (x : StepArg) : (s.soon i x).meas = s.meas := rfl
@[simp] theorem State.soon_nonce (s : State) (i : Instr) (x : StepArg) : (s.soon i x).nonce = s.nonce := rfl
@[simp] theorem State.soon_repaddr (s : State) (i : Instr) (x : StepArg) : (s.soon i x).repaddr = s.repaddr := rfl
@[simp] theorem State.soon_repGo (s : State) (i : Instr) (x : StepArg) : (s.soon i x).repGo = s.repGo := rfl
@[simp] theorem State.soon_repDone (s : State) (i : Instr) (x : StepArg) : (s.soon i x).repDone = s.repDone := rfl
@[simp] theorem State.soon_repErr (s : State) (i : Instr) (x : StepArg) : (s.soon i x).repErr = s.repErr := rfl
@[simp] theorem State.soon_report (s : State) (i : Instr) (x : StepArg) : (s.soon i x).report = s.report := rfl
@[simp] theorem State.soon_isl (s : State) (i : Instr) (x : StepArg) : (s.soon i x).isl = s.isl := rfl
@[simp] theorem State.soon_islock (s : State) (i : Instr) (x : StepArg) : (s.soon i x).islock = s.islock := rfl
@[simp] theorem State.soon_isdflt (s : State) (i : Instr) (x : StepArg) : (s.soon i x).isdflt = s.isdflt := rfl
@[simp] theorem State.soon_devnum (s : State) (i : Instr) (x : StepArg) : (s.soon i x).devnum = s.devnum := rfl
@[simp] theorem State.soon_routes (s : State) (i : Instr) (x : StepArg) : (s.soon i x).routes = s.routes := rfl
@[simp] theorem State.soon_cmdtail (s : State) (i : Instr) (x : StepArg) : (s.soon i x).cmdtail = s.cmdtail := rfl
@[simp] theorem State.soon_cmdhead (s : State) (i : Instr) (x : StepArg) : (s.soon i x).cmdhead = s.cmdhead := rfl
@[simp] theorem State.soon_ackbase (s : State) (i : Instr) (x : StepArg) : (s.soon i x).ackbase = s.ackbase := rfl
@[simp] theorem State.soon_ackRing (s : State) (i : Instr) (x : StepArg) : (s.soon i x).ackRing = s.ackRing := rfl
@[simp] theorem State.soon_cmderr (s : State) (i : Instr) (x : StepArg) : (s.soon i x).cmderr = s.cmderr := rfl
@[simp] theorem State.soon_hostjob (s : State) (i : Instr) (x : StepArg) : (s.soon i x).hostjob = s.hostjob := rfl
@[simp] theorem State.soon_cmdslots (s : State) (i : Instr) (x : StepArg) : (s.soon i x).cmdslots = s.cmdslots := rfl
@[simp] theorem State.soon_wraps (s : State) (i : Instr) (x : StepArg) : (s.soon i x).wraps = s.wraps := rfl
@[simp] theorem State.soon_backInv (s : State) (i : Instr) (x : StepArg) : (s.soon i x).backInv = s.backInv := rfl
@[simp] theorem State.soon_hostLines (s : State) (i : Instr) (x : StepArg) : (s.soon i x).hostLines = s.hostLines := rfl
@[simp] theorem State.soon_msix (s : State) (i : Instr) (x : StepArg) : (s.soon i x).msix = s.msix := rfl
@[simp] theorem State.soon_msixTable (s : State) (i : Instr) (x : StepArg) : (s.soon i x).msixTable = s.msixTable := rfl
@[simp] theorem State.soon_mcstat (s : State) (i : Instr) (x : StepArg) : (s.soon i x).mcstat = s.mcstat := rfl
@[simp] theorem State.soon_mcWritten (s : State) (i : Instr) (x : StepArg) : (s.soon i x).mcWritten = s.mcWritten := rfl
@[simp] theorem State.soon_mcHeadIdx (s : State) (i : Instr) (x : StepArg) : (s.soon i x).mcHeadIdx = s.mcHeadIdx := rfl
@[simp] theorem State.soon_mcctl (s : State) (i : Instr) (x : StepArg) : (s.soon i x).mcctl = s.mcctl := rfl
@[simp] theorem State.soon_mcrec (s : State) (i : Instr) (x : StepArg) : (s.soon i x).mcrec = s.mcrec := rfl
@[simp] theorem State.soon_slotTable (s : State) (i : Instr) (x : StepArg) : (s.soon i x).slotTable = s.slotTable := rfl
@[simp] theorem State.soon_prectl (s : State) (i : Instr) (x : StepArg) : (s.soon i x).prectl = s.prectl := rfl
@[simp] theorem State.soon_presave (s : State) (i : Instr) (x : StepArg) : (s.soon i x).presave = s.presave := rfl
@[simp] theorem State.soon_prestat (s : State) (i : Instr) (x : StepArg) : (s.soon i x).prestat = s.prestat := rfl
@[simp] theorem State.soon_treectl (s : State) (i : Instr) (x : StepArg) : (s.soon i x).treectl = s.treectl := rfl
@[simp] theorem State.soon_cut (s : State) (i : Instr) (x : StepArg) : (s.soon i x).cut = s.cut := rfl
@[simp] theorem State.soon_saveKey (s : State) (i : Instr) (x : StepArg) : (s.soon i x).saveKey = s.saveKey := rfl
@[simp] theorem State.soon_comet (s : State) (i : Instr) (x : StepArg) : (s.soon i x).comet = s.comet := rfl
@[simp] theorem State.soon_frames (s : State) (i : Instr) (x : StepArg) : (s.soon i x).frames = s.frames := rfl
@[simp] theorem State.soon_frameHits (s : State) (i : Instr) (x : StepArg) : (s.soon i x).frameHits = s.frameHits := rfl
@[simp] theorem State.soon_evictOff (s : State) (i : Instr) (x : StepArg) : (s.soon i x).evictOff = s.evictOff := rfl
@[simp] theorem State.soon_mem (s : State) (i : Instr) (x : StepArg) : (s.soon i x).mem = s.mem := rfl
@[simp] theorem State.soon_empties (s : State) (i : Instr) (x : StepArg) : (s.soon i x).empties = s.empties := rfl
@[simp] theorem State.soon_poisons (s : State) (i : Instr) (x : StepArg) : (s.soon i x).poisons = s.poisons := rfl
@[simp] theorem State.soon_jobs (s : State) (i : Instr) (x : StepArg) : (s.soon i x).jobs = s.jobs := rfl
@[simp] theorem State.soon_clusters (s : State) (i : Instr) (x : StepArg) : (s.soon i x).clusters = s.clusters := rfl
@[simp] theorem State.soon_cores (s : State) (i : Instr) (x : StepArg) : (s.soon i x).cores = s.cores := rfl
@[simp] theorem State.soon_ptsIdle (s : State) (i : Instr) (x : StepArg) : (s.soon i x).ptsIdle = s.ptsIdle := rfl
@[simp] theorem State.soon_hostTs (s : State) (i : Instr) (x : StepArg) : (s.soon i x).hostTs = s.hostTs := rfl
@[simp] theorem State.soon_decQueues (s : State) (i : Instr) (x : StepArg) : (s.soon i x).decQueues = s.decQueues := rfl
@[simp] theorem State.soon_decoders (s : State) (i : Instr) (x : StepArg) : (s.soon i x).decoders = s.decoders := rfl
@[simp] theorem State.soon_ports (s : State) (i : Instr) (x : StepArg) : (s.soon i x).ports = s.ports := rfl
@[simp] theorem State.soon_msgs (s : State) (i : Instr) (x : StepArg) : (s.soon i x).msgs = s.msgs := rfl
@[simp] theorem State.soon_flits (s : State) (i : Instr) (x : StepArg) : (s.soon i x).flits = s.flits := rfl
@[simp] theorem State.soon_trainEnded (s : State) (i : Instr) (x : StepArg) : (s.soon i x).trainEnded = s.trainEnded := rfl
@[simp] theorem State.soon_descs (s : State) (i : Instr) (x : StepArg) : (s.soon i x).descs = s.descs := rfl
@[simp] theorem State.soon_sram (s : State) (i : Instr) (x : StepArg) : (s.soon i x).sram = s.sram := rfl
@[simp] theorem State.soon_hostData (s : State) (i : Instr) (x : StepArg) : (s.soon i x).hostData = s.hostData := rfl
@[simp] theorem State.soon_physDone (s : State) (i : Instr) (x : StepArg) : (s.soon i x).physDone = s.physDone := rfl

/-! ## State.newFresh -/

@[simp] theorem State.newFresh_agenda (s : State) : (s.newFresh).agenda = s.agenda := rfl
@[simp] theorem State.newFresh_arg (s : State) : (s.newFresh).arg = s.arg := rfl
@[simp] theorem State.newFresh_offer (s : State) : (s.newFresh).offer = s.offer := rfl
@[simp] theorem State.newFresh_nextId (s : State) : (s.newFresh).nextId = s.nextId := rfl
@[simp] theorem State.newFresh_now (s : State) : (s.newFresh).now = s.now := rfl
@[simp] theorem State.newFresh_stage (s : State) : (s.newFresh).stage = s.stage := rfl
@[simp] theorem State.newFresh_trained (s : State) : (s.newFresh).trained = s.trained := rfl
@[simp] theorem State.newFresh_failed (s : State) : (s.newFresh).failed = s.failed := rfl
@[simp] theorem State.newFresh_diesvc (s : State) : (s.newFresh).diesvc = s.diesvc := rfl
@[simp] theorem State.newFresh_trainFails (s : State) : (s.newFresh).trainFails = s.trainFails := rfl
@[simp] theorem State.newFresh_rstcause (s : State) : (s.newFresh).rstcause = s.rstcause := rfl
@[simp] theorem State.newFresh_resets (s : State) : (s.newFresh).resets = s.resets := rfl
@[simp] theorem State.newFresh_meas (s : State) : (s.newFresh).meas = s.meas := rfl
@[simp] theorem State.newFresh_nonce (s : State) : (s.newFresh).nonce = s.nonce := rfl
@[simp] theorem State.newFresh_repaddr (s : State) : (s.newFresh).repaddr = s.repaddr := rfl
@[simp] theorem State.newFresh_repGo (s : State) : (s.newFresh).repGo = s.repGo := rfl
@[simp] theorem State.newFresh_repDone (s : State) : (s.newFresh).repDone = s.repDone := rfl
@[simp] theorem State.newFresh_repErr (s : State) : (s.newFresh).repErr = s.repErr := rfl
@[simp] theorem State.newFresh_report (s : State) : (s.newFresh).report = s.report := rfl
@[simp] theorem State.newFresh_isl (s : State) : (s.newFresh).isl = s.isl := rfl
@[simp] theorem State.newFresh_islock (s : State) : (s.newFresh).islock = s.islock := rfl
@[simp] theorem State.newFresh_isdflt (s : State) : (s.newFresh).isdflt = s.isdflt := rfl
@[simp] theorem State.newFresh_devnum (s : State) : (s.newFresh).devnum = s.devnum := rfl
@[simp] theorem State.newFresh_routes (s : State) : (s.newFresh).routes = s.routes := rfl
@[simp] theorem State.newFresh_cmdtail (s : State) : (s.newFresh).cmdtail = s.cmdtail := rfl
@[simp] theorem State.newFresh_cmdhead (s : State) : (s.newFresh).cmdhead = s.cmdhead := rfl
@[simp] theorem State.newFresh_ackbase (s : State) : (s.newFresh).ackbase = s.ackbase := rfl
@[simp] theorem State.newFresh_ackRing (s : State) : (s.newFresh).ackRing = s.ackRing := rfl
@[simp] theorem State.newFresh_cmderr (s : State) : (s.newFresh).cmderr = s.cmderr := rfl
@[simp] theorem State.newFresh_hostjob (s : State) : (s.newFresh).hostjob = s.hostjob := rfl
@[simp] theorem State.newFresh_cmdslots (s : State) : (s.newFresh).cmdslots = s.cmdslots := rfl
@[simp] theorem State.newFresh_wraps (s : State) : (s.newFresh).wraps = s.wraps := rfl
@[simp] theorem State.newFresh_backInv (s : State) : (s.newFresh).backInv = s.backInv := rfl
@[simp] theorem State.newFresh_hostLines (s : State) : (s.newFresh).hostLines = s.hostLines := rfl
@[simp] theorem State.newFresh_msix (s : State) : (s.newFresh).msix = s.msix := rfl
@[simp] theorem State.newFresh_msixTable (s : State) : (s.newFresh).msixTable = s.msixTable := rfl
@[simp] theorem State.newFresh_mcstat (s : State) : (s.newFresh).mcstat = s.mcstat := rfl
@[simp] theorem State.newFresh_mcWritten (s : State) : (s.newFresh).mcWritten = s.mcWritten := rfl
@[simp] theorem State.newFresh_mcHeadIdx (s : State) : (s.newFresh).mcHeadIdx = s.mcHeadIdx := rfl
@[simp] theorem State.newFresh_mcctl (s : State) : (s.newFresh).mcctl = s.mcctl := rfl
@[simp] theorem State.newFresh_mcrec (s : State) : (s.newFresh).mcrec = s.mcrec := rfl
@[simp] theorem State.newFresh_slotTable (s : State) : (s.newFresh).slotTable = s.slotTable := rfl
@[simp] theorem State.newFresh_prectl (s : State) : (s.newFresh).prectl = s.prectl := rfl
@[simp] theorem State.newFresh_presave (s : State) : (s.newFresh).presave = s.presave := rfl
@[simp] theorem State.newFresh_prestat (s : State) : (s.newFresh).prestat = s.prestat := rfl
@[simp] theorem State.newFresh_treectl (s : State) : (s.newFresh).treectl = s.treectl := rfl
@[simp] theorem State.newFresh_cut (s : State) : (s.newFresh).cut = s.cut := rfl
@[simp] theorem State.newFresh_saveKey (s : State) : (s.newFresh).saveKey = s.saveKey := rfl
@[simp] theorem State.newFresh_comet (s : State) : (s.newFresh).comet = s.comet := rfl
@[simp] theorem State.newFresh_frames (s : State) : (s.newFresh).frames = s.frames := rfl
@[simp] theorem State.newFresh_frameHits (s : State) : (s.newFresh).frameHits = s.frameHits := rfl
@[simp] theorem State.newFresh_evictOff (s : State) : (s.newFresh).evictOff = s.evictOff := rfl
@[simp] theorem State.newFresh_mem (s : State) : (s.newFresh).mem = s.mem := rfl
@[simp] theorem State.newFresh_empties (s : State) : (s.newFresh).empties = s.empties := rfl
@[simp] theorem State.newFresh_poisons (s : State) : (s.newFresh).poisons = s.poisons := rfl
@[simp] theorem State.newFresh_jobs (s : State) : (s.newFresh).jobs = s.jobs := rfl
@[simp] theorem State.newFresh_clusters (s : State) : (s.newFresh).clusters = s.clusters := rfl
@[simp] theorem State.newFresh_cores (s : State) : (s.newFresh).cores = s.cores := rfl
@[simp] theorem State.newFresh_ptsIdle (s : State) : (s.newFresh).ptsIdle = s.ptsIdle := rfl
@[simp] theorem State.newFresh_hostTs (s : State) : (s.newFresh).hostTs = s.hostTs := rfl
@[simp] theorem State.newFresh_decQueues (s : State) : (s.newFresh).decQueues = s.decQueues := rfl
@[simp] theorem State.newFresh_decoders (s : State) : (s.newFresh).decoders = s.decoders := rfl
@[simp] theorem State.newFresh_ports (s : State) : (s.newFresh).ports = s.ports := rfl
@[simp] theorem State.newFresh_msgs (s : State) : (s.newFresh).msgs = s.msgs := rfl
@[simp] theorem State.newFresh_flits (s : State) : (s.newFresh).flits = s.flits := rfl
@[simp] theorem State.newFresh_trainEnded (s : State) : (s.newFresh).trainEnded = s.trainEnded := rfl
@[simp] theorem State.newFresh_descs (s : State) : (s.newFresh).descs = s.descs := rfl
@[simp] theorem State.newFresh_sram (s : State) : (s.newFresh).sram = s.sram := rfl
@[simp] theorem State.newFresh_hostData (s : State) : (s.newFresh).hostData = s.hostData := rfl
@[simp] theorem State.newFresh_physDone (s : State) : (s.newFresh).physDone = s.physDone := rfl

/-! ## State.took -/

@[simp] theorem State.took_agenda (s : State) : (s.took).agenda = s.agenda := rfl
@[simp] theorem State.took_arg (s : State) : (s.took).arg = s.arg := rfl
@[simp] theorem State.took_fresh (s : State) : (s.took).fresh = s.fresh := rfl
@[simp] theorem State.took_nextId (s : State) : (s.took).nextId = s.nextId := rfl
@[simp] theorem State.took_now (s : State) : (s.took).now = s.now := rfl
@[simp] theorem State.took_stage (s : State) : (s.took).stage = s.stage := rfl
@[simp] theorem State.took_trained (s : State) : (s.took).trained = s.trained := rfl
@[simp] theorem State.took_failed (s : State) : (s.took).failed = s.failed := rfl
@[simp] theorem State.took_diesvc (s : State) : (s.took).diesvc = s.diesvc := rfl
@[simp] theorem State.took_trainFails (s : State) : (s.took).trainFails = s.trainFails := rfl
@[simp] theorem State.took_rstcause (s : State) : (s.took).rstcause = s.rstcause := rfl
@[simp] theorem State.took_resets (s : State) : (s.took).resets = s.resets := rfl
@[simp] theorem State.took_meas (s : State) : (s.took).meas = s.meas := rfl
@[simp] theorem State.took_nonce (s : State) : (s.took).nonce = s.nonce := rfl
@[simp] theorem State.took_repaddr (s : State) : (s.took).repaddr = s.repaddr := rfl
@[simp] theorem State.took_repGo (s : State) : (s.took).repGo = s.repGo := rfl
@[simp] theorem State.took_repDone (s : State) : (s.took).repDone = s.repDone := rfl
@[simp] theorem State.took_repErr (s : State) : (s.took).repErr = s.repErr := rfl
@[simp] theorem State.took_report (s : State) : (s.took).report = s.report := rfl
@[simp] theorem State.took_isl (s : State) : (s.took).isl = s.isl := rfl
@[simp] theorem State.took_islock (s : State) : (s.took).islock = s.islock := rfl
@[simp] theorem State.took_isdflt (s : State) : (s.took).isdflt = s.isdflt := rfl
@[simp] theorem State.took_devnum (s : State) : (s.took).devnum = s.devnum := rfl
@[simp] theorem State.took_routes (s : State) : (s.took).routes = s.routes := rfl
@[simp] theorem State.took_cmdtail (s : State) : (s.took).cmdtail = s.cmdtail := rfl
@[simp] theorem State.took_cmdhead (s : State) : (s.took).cmdhead = s.cmdhead := rfl
@[simp] theorem State.took_ackbase (s : State) : (s.took).ackbase = s.ackbase := rfl
@[simp] theorem State.took_ackRing (s : State) : (s.took).ackRing = s.ackRing := rfl
@[simp] theorem State.took_cmderr (s : State) : (s.took).cmderr = s.cmderr := rfl
@[simp] theorem State.took_hostjob (s : State) : (s.took).hostjob = s.hostjob := rfl
@[simp] theorem State.took_cmdslots (s : State) : (s.took).cmdslots = s.cmdslots := rfl
@[simp] theorem State.took_wraps (s : State) : (s.took).wraps = s.wraps := rfl
@[simp] theorem State.took_backInv (s : State) : (s.took).backInv = s.backInv := rfl
@[simp] theorem State.took_hostLines (s : State) : (s.took).hostLines = s.hostLines := rfl
@[simp] theorem State.took_msix (s : State) : (s.took).msix = s.msix := rfl
@[simp] theorem State.took_msixTable (s : State) : (s.took).msixTable = s.msixTable := rfl
@[simp] theorem State.took_mcstat (s : State) : (s.took).mcstat = s.mcstat := rfl
@[simp] theorem State.took_mcWritten (s : State) : (s.took).mcWritten = s.mcWritten := rfl
@[simp] theorem State.took_mcHeadIdx (s : State) : (s.took).mcHeadIdx = s.mcHeadIdx := rfl
@[simp] theorem State.took_mcctl (s : State) : (s.took).mcctl = s.mcctl := rfl
@[simp] theorem State.took_mcrec (s : State) : (s.took).mcrec = s.mcrec := rfl
@[simp] theorem State.took_slotTable (s : State) : (s.took).slotTable = s.slotTable := rfl
@[simp] theorem State.took_prectl (s : State) : (s.took).prectl = s.prectl := rfl
@[simp] theorem State.took_presave (s : State) : (s.took).presave = s.presave := rfl
@[simp] theorem State.took_prestat (s : State) : (s.took).prestat = s.prestat := rfl
@[simp] theorem State.took_treectl (s : State) : (s.took).treectl = s.treectl := rfl
@[simp] theorem State.took_cut (s : State) : (s.took).cut = s.cut := rfl
@[simp] theorem State.took_saveKey (s : State) : (s.took).saveKey = s.saveKey := rfl
@[simp] theorem State.took_comet (s : State) : (s.took).comet = s.comet := rfl
@[simp] theorem State.took_frames (s : State) : (s.took).frames = s.frames := rfl
@[simp] theorem State.took_frameHits (s : State) : (s.took).frameHits = s.frameHits := rfl
@[simp] theorem State.took_evictOff (s : State) : (s.took).evictOff = s.evictOff := rfl
@[simp] theorem State.took_mem (s : State) : (s.took).mem = s.mem := rfl
@[simp] theorem State.took_empties (s : State) : (s.took).empties = s.empties := rfl
@[simp] theorem State.took_poisons (s : State) : (s.took).poisons = s.poisons := rfl
@[simp] theorem State.took_jobs (s : State) : (s.took).jobs = s.jobs := rfl
@[simp] theorem State.took_clusters (s : State) : (s.took).clusters = s.clusters := rfl
@[simp] theorem State.took_cores (s : State) : (s.took).cores = s.cores := rfl
@[simp] theorem State.took_ptsIdle (s : State) : (s.took).ptsIdle = s.ptsIdle := rfl
@[simp] theorem State.took_hostTs (s : State) : (s.took).hostTs = s.hostTs := rfl
@[simp] theorem State.took_decQueues (s : State) : (s.took).decQueues = s.decQueues := rfl
@[simp] theorem State.took_decoders (s : State) : (s.took).decoders = s.decoders := rfl
@[simp] theorem State.took_ports (s : State) : (s.took).ports = s.ports := rfl
@[simp] theorem State.took_msgs (s : State) : (s.took).msgs = s.msgs := rfl
@[simp] theorem State.took_flits (s : State) : (s.took).flits = s.flits := rfl
@[simp] theorem State.took_trainEnded (s : State) : (s.took).trainEnded = s.trainEnded := rfl
@[simp] theorem State.took_descs (s : State) : (s.took).descs = s.descs := rfl
@[simp] theorem State.took_sram (s : State) : (s.took).sram = s.sram := rfl
@[simp] theorem State.took_hostData (s : State) : (s.took).hostData = s.hostData := rfl
@[simp] theorem State.took_physDone (s : State) : (s.took).physDone = s.physDone := rfl

/-! ## Core.setStrand -/

@[simp] theorem Core.setStrand_p (v : Core) (k : StrandId) (t : Strand) : (v.setStrand k t).p = v.p := rfl
@[simp] theorem Core.setStrand_tiles (v : Core) (k : StrandId) (t : Strand) : (v.setStrand k t).tiles = v.tiles := rfl
@[simp] theorem Core.setStrand_acc (v : Core) (k : StrandId) (t : Strand) : (v.setStrand k t).acc = v.acc := rfl
@[simp] theorem Core.setStrand_mq (v : Core) (k : StrandId) (t : Strand) : (v.setStrand k t).mq = v.mq := rfl
@[simp] theorem Core.setStrand_mrun (v : Core) (k : StrandId) (t : Strand) : (v.setStrand k t).mrun = v.mrun := rfl
@[simp] theorem Core.setStrand_mres (v : Core) (k : StrandId) (t : Strand) : (v.setStrand k t).mres = v.mres := rfl
@[simp] theorem Core.setStrand_wb (v : Core) (k : StrandId) (t : Strand) : (v.setStrand k t).wb = v.wb := rfl
@[simp] theorem Core.setStrand_bload (v : Core) (k : StrandId) (t : Strand) : (v.setStrand k t).bload = v.bload := rfl
@[simp] theorem Core.setStrand_copies (v : Core) (k : StrandId) (t : Strand) : (v.setStrand k t).copies = v.copies := rfl
@[simp] theorem Core.setStrand_lane (v : Core) (k : StrandId) (t : Strand) : (v.setStrand k t).lane = v.lane := rfl
@[simp] theorem Core.setStrand_dcache (v : Core) (k : StrandId) (t : Strand) : (v.setStrand k t).dcache = v.dcache := rfl
@[simp] theorem Core.setStrand_icache (v : Core) (k : StrandId) (t : Strand) : (v.setStrand k t).icache = v.icache := rfl
@[simp] theorem Core.setStrand_dtlb (v : Core) (k : StrandId) (t : Strand) : (v.setStrand k t).dtlb = v.dtlb := rfl
@[simp] theorem Core.setStrand_itlb (v : Core) (k : StrandId) (t : Strand) : (v.setStrand k t).itlb = v.itlb := rfl
@[simp] theorem Core.setStrand_pts (v : Core) (k : StrandId) (t : Strand) : (v.setStrand k t).pts = v.pts := rfl
@[simp] theorem Core.setStrand_bars (v : Core) (k : StrandId) (t : Strand) : (v.setStrand k t).bars = v.bars := rfl
@[simp] theorem Core.setStrand_sendBuf (v : Core) (k : StrandId) (t : Strand) : (v.setStrand k t).sendBuf = v.sendBuf := rfl
@[simp] theorem Core.setStrand_seq (v : Core) (k : StrandId) (t : Strand) : (v.setStrand k t).seq = v.seq := rfl
@[simp] theorem Core.setStrand_reqs (v : Core) (k : StrandId) (t : Strand) : (v.setStrand k t).reqs = v.reqs := rfl
@[simp] theorem Core.setStrand_waiters (v : Core) (k : StrandId) (t : Strand) : (v.setStrand k t).waiters = v.waiters := rfl
@[simp] theorem Core.setStrand_slog (v : Core) (k : StrandId) (t : Strand) : (v.setStrand k t).slog = v.slog := rfl
@[simp] theorem Core.setStrand_sblk (v : Core) (k : StrandId) (t : Strand) : (v.setStrand k t).sblk = v.sblk := rfl
@[simp] theorem Core.setStrand_sblkUsed (v : Core) (k : StrandId) (t : Strand) : (v.setStrand k t).sblkUsed = v.sblkUsed := rfl
@[simp] theorem Core.setStrand_replay (v : Core) (k : StrandId) (t : Strand) : (v.setStrand k t).replay = v.replay := rfl
@[simp] theorem Core.setStrand_pktq (v : Core) (k : StrandId) (t : Strand) : (v.setStrand k t).pktq = v.pktq := rfl
@[simp] theorem Core.setStrand_rings (v : Core) (k : StrandId) (t : Strand) : (v.setStrand k t).rings = v.rings := rfl
@[simp] theorem Core.setStrand_xdrop (v : Core) (k : StrandId) (t : Strand) : (v.setStrand k t).xdrop = v.xdrop := rfl
@[simp] theorem Core.setStrand_wctlS (v : Core) (k : StrandId) (t : Strand) : (v.setStrand k t).wctlS = v.wctlS := rfl
@[simp] theorem Core.setStrand_wctlM (v : Core) (k : StrandId) (t : Strand) : (v.setStrand k t).wctlM = v.wctlM := rfl
@[simp] theorem Core.setStrand_queue (v : Core) (k : StrandId) (t : Strand) : (v.setStrand k t).queue = v.queue := rfl
@[simp] theorem Core.setStrand_spill (v : Core) (k : StrandId) (t : Strand) : (v.setStrand k t).spill = v.spill := rfl
@[simp] theorem Core.setStrand_refuse (v : Core) (k : StrandId) (t : Strand) : (v.setStrand k t).refuse = v.refuse := rfl
@[simp] theorem Core.setStrand_installed (v : Core) (k : StrandId) (t : Strand) : (v.setStrand k t).installed = v.installed := rfl
@[simp] theorem Core.setStrand_freed (v : Core) (k : StrandId) (t : Strand) : (v.setStrand k t).freed = v.freed := rfl

/-! ## Core.setSlot -/

@[simp] theorem Core.setSlot_p (v : Core) (n : Nat) (t : Slot) : (v.setSlot n t).p = v.p := rfl
@[simp] theorem Core.setSlot_strands (v : Core) (n : Nat) (t : Slot) : (v.setSlot n t).strands = v.strands := rfl
@[simp] theorem Core.setSlot_acc (v : Core) (n : Nat) (t : Slot) : (v.setSlot n t).acc = v.acc := rfl
@[simp] theorem Core.setSlot_mq (v : Core) (n : Nat) (t : Slot) : (v.setSlot n t).mq = v.mq := rfl
@[simp] theorem Core.setSlot_mrun (v : Core) (n : Nat) (t : Slot) : (v.setSlot n t).mrun = v.mrun := rfl
@[simp] theorem Core.setSlot_mres (v : Core) (n : Nat) (t : Slot) : (v.setSlot n t).mres = v.mres := rfl
@[simp] theorem Core.setSlot_wb (v : Core) (n : Nat) (t : Slot) : (v.setSlot n t).wb = v.wb := rfl
@[simp] theorem Core.setSlot_bload (v : Core) (n : Nat) (t : Slot) : (v.setSlot n t).bload = v.bload := rfl
@[simp] theorem Core.setSlot_copies (v : Core) (n : Nat) (t : Slot) : (v.setSlot n t).copies = v.copies := rfl
@[simp] theorem Core.setSlot_lane (v : Core) (n : Nat) (t : Slot) : (v.setSlot n t).lane = v.lane := rfl
@[simp] theorem Core.setSlot_dcache (v : Core) (n : Nat) (t : Slot) : (v.setSlot n t).dcache = v.dcache := rfl
@[simp] theorem Core.setSlot_icache (v : Core) (n : Nat) (t : Slot) : (v.setSlot n t).icache = v.icache := rfl
@[simp] theorem Core.setSlot_dtlb (v : Core) (n : Nat) (t : Slot) : (v.setSlot n t).dtlb = v.dtlb := rfl
@[simp] theorem Core.setSlot_itlb (v : Core) (n : Nat) (t : Slot) : (v.setSlot n t).itlb = v.itlb := rfl
@[simp] theorem Core.setSlot_pts (v : Core) (n : Nat) (t : Slot) : (v.setSlot n t).pts = v.pts := rfl
@[simp] theorem Core.setSlot_bars (v : Core) (n : Nat) (t : Slot) : (v.setSlot n t).bars = v.bars := rfl
@[simp] theorem Core.setSlot_sendBuf (v : Core) (n : Nat) (t : Slot) : (v.setSlot n t).sendBuf = v.sendBuf := rfl
@[simp] theorem Core.setSlot_seq (v : Core) (n : Nat) (t : Slot) : (v.setSlot n t).seq = v.seq := rfl
@[simp] theorem Core.setSlot_reqs (v : Core) (n : Nat) (t : Slot) : (v.setSlot n t).reqs = v.reqs := rfl
@[simp] theorem Core.setSlot_waiters (v : Core) (n : Nat) (t : Slot) : (v.setSlot n t).waiters = v.waiters := rfl
@[simp] theorem Core.setSlot_slog (v : Core) (n : Nat) (t : Slot) : (v.setSlot n t).slog = v.slog := rfl
@[simp] theorem Core.setSlot_sblk (v : Core) (n : Nat) (t : Slot) : (v.setSlot n t).sblk = v.sblk := rfl
@[simp] theorem Core.setSlot_sblkUsed (v : Core) (n : Nat) (t : Slot) : (v.setSlot n t).sblkUsed = v.sblkUsed := rfl
@[simp] theorem Core.setSlot_replay (v : Core) (n : Nat) (t : Slot) : (v.setSlot n t).replay = v.replay := rfl
@[simp] theorem Core.setSlot_pktq (v : Core) (n : Nat) (t : Slot) : (v.setSlot n t).pktq = v.pktq := rfl
@[simp] theorem Core.setSlot_rings (v : Core) (n : Nat) (t : Slot) : (v.setSlot n t).rings = v.rings := rfl
@[simp] theorem Core.setSlot_xdrop (v : Core) (n : Nat) (t : Slot) : (v.setSlot n t).xdrop = v.xdrop := rfl
@[simp] theorem Core.setSlot_wctlS (v : Core) (n : Nat) (t : Slot) : (v.setSlot n t).wctlS = v.wctlS := rfl
@[simp] theorem Core.setSlot_wctlM (v : Core) (n : Nat) (t : Slot) : (v.setSlot n t).wctlM = v.wctlM := rfl
@[simp] theorem Core.setSlot_queue (v : Core) (n : Nat) (t : Slot) : (v.setSlot n t).queue = v.queue := rfl
@[simp] theorem Core.setSlot_spill (v : Core) (n : Nat) (t : Slot) : (v.setSlot n t).spill = v.spill := rfl
@[simp] theorem Core.setSlot_refuse (v : Core) (n : Nat) (t : Slot) : (v.setSlot n t).refuse = v.refuse := rfl
@[simp] theorem Core.setSlot_installed (v : Core) (n : Nat) (t : Slot) : (v.setSlot n t).installed = v.installed := rfl
@[simp] theorem Core.setSlot_freed (v : Core) (n : Nat) (t : Slot) : (v.setSlot n t).freed = v.freed := rfl

/-! ## Strand.advance -/

@[simp] theorem Strand.advance_st (t : Strand) (n : Nat) : (t.advance n).st = t.st := rfl
@[simp] theorem Strand.advance_park (t : Strand) (n : Nat) : (t.advance n).park = t.park := rfl
@[simp] theorem Strand.advance_held (t : Strand) (n : Nat) : (t.advance n).held = t.held := rfl
@[simp] theorem Strand.advance_wants (t : Strand) (n : Nat) : (t.advance n).wants = t.wants := rfl
@[simp] theorem Strand.advance_res (t : Strand) (n : Nat) : (t.advance n).res = t.res := rfl
@[simp] theorem Strand.advance_base (t : Strand) (n : Nat) : (t.advance n).base = t.base := rfl
@[simp] theorem Strand.advance_ntile (t : Strand) (n : Nat) : (t.advance n).ntile = t.ntile := rfl
@[simp] theorem Strand.advance_nscr (t : Strand) (n : Nat) : (t.advance n).nscr = t.nscr := rfl
@[simp] theorem Strand.advance_pool (t : Strand) (n : Nat) : (t.advance n).pool = t.pool := rfl
@[simp] theorem Strand.advance_x (t : Strand) (n : Nat) : (t.advance n).x = t.x := rfl
@[simp] theorem Strand.advance_xF (t : Strand) (n : Nat) : (t.advance n).xF = t.xF := rfl
@[simp] theorem Strand.advance_a (t : Strand) (n : Nat) : (t.advance n).a = t.a := rfl
@[simp] theorem Strand.advance_aF (t : Strand) (n : Nat) : (t.advance n).aF = t.aF := rfl
@[simp] theorem Strand.advance_m (t : Strand) (n : Nat) : (t.advance n).m = t.m := rfl
@[simp] theorem Strand.advance_mF (t : Strand) (n : Nat) : (t.advance n).mF = t.mF := rfl
@[simp] theorem Strand.advance_i (t : Strand) (n : Nat) : (t.advance n).i = t.i := rfl
@[simp] theorem Strand.advance_iF (t : Strand) (n : Nat) : (t.advance n).iF = t.iF := rfl
@[simp] theorem Strand.advance_badX (t : Strand) (n : Nat) : (t.advance n).badX = t.badX := rfl
@[simp] theorem Strand.advance_vt (t : Strand) (n : Nat) : (t.advance n).vt = t.vt := rfl
@[simp] theorem Strand.advance_pix (t : Strand) (n : Nat) : (t.advance n).pix = t.pix := rfl
@[simp] theorem Strand.advance_vl (t : Strand) (n : Nat) : (t.advance n).vl = t.vl := rfl
@[simp] theorem Strand.advance_rm (t : Strand) (n : Nat) : (t.advance n).rm = t.rm := rfl
@[simp] theorem Strand.advance_flags (t : Strand) (n : Nat) : (t.advance n).flags = t.flags := rfl
@[simp] theorem Strand.advance_ann (t : Strand) (n : Nat) : (t.advance n).ann = t.ann := rfl
@[simp] theorem Strand.advance_opt (t : Strand) (n : Nat) : (t.advance n).opt = t.opt := rfl
@[simp] theorem Strand.advance_scoff (t : Strand) (n : Nat) : (t.advance n).scoff = t.scoff := rfl
@[simp] theorem Strand.advance_lease (t : Strand) (n : Nat) : (t.advance n).lease = t.lease := rfl
@[simp] theorem Strand.advance_rslot (t : Strand) (n : Nat) : (t.advance n).rslot = t.rslot := rfl
@[simp] theorem Strand.advance_prog (t : Strand) (n : Nat) : (t.advance n).prog = t.prog := rfl
@[simp] theorem Strand.advance_desc (t : Strand) (n : Nat) : (t.advance n).desc = t.desc := rfl
@[simp] theorem Strand.advance_cur (t : Strand) (n : Nat) : (t.advance n).cur = t.cur := rfl
@[simp] theorem Strand.advance_endv (t : Strand) (n : Nat) : (t.advance n).endv = t.endv := rfl
@[simp] theorem Strand.advance_ext (t : Strand) (n : Nat) : (t.advance n).ext = t.ext := rfl
@[simp] theorem Strand.advance_task (t : Strand) (n : Nat) : (t.advance n).task = t.task := rfl
@[simp] theorem Strand.advance_buf (t : Strand) (n : Nat) : (t.advance n).buf = t.buf := rfl
@[simp] theorem Strand.advance_filling (t : Strand) (n : Nat) : (t.advance n).filling = t.filling := rfl
@[simp] theorem Strand.advance_last (t : Strand) (n : Nat) : (t.advance n).last = t.last := rfl
@[simp] theorem Strand.advance_issued (t : Strand) (n : Nat) : (t.advance n).issued = t.issued := rfl
@[simp] theorem Strand.advance_pend (t : Strand) (n : Nat) : (t.advance n).pend = t.pend := rfl
@[simp] theorem Strand.advance_fills (t : Strand) (n : Nat) : (t.advance n).fills = t.fills := rfl
@[simp] theorem Strand.advance_froze (t : Strand) (n : Nat) : (t.advance n).froze = t.froze := rfl
@[simp] theorem Strand.advance_marked (t : Strand) (n : Nat) : (t.advance n).marked = t.marked := rfl
@[simp] theorem Strand.advance_walked (t : Strand) (n : Nat) : (t.advance n).walked = t.walked := rfl
@[simp] theorem Strand.advance_waitTill (t : Strand) (n : Nat) : (t.advance n).waitTill = t.waitTill := rfl
@[simp] theorem Strand.advance_killAt (t : Strand) (n : Nat) : (t.advance n).killAt = t.killAt := rfl
@[simp] theorem Strand.advance_rollAt (t : Strand) (n : Nat) : (t.advance n).rollAt = t.rollAt := rfl
@[simp] theorem Strand.advance_waitNf (t : Strand) (n : Nat) : (t.advance n).waitNf = t.waitNf := rfl
@[simp] theorem Strand.advance_mulk (t : Strand) (n : Nat) : (t.advance n).mulk = t.mulk := rfl
@[simp] theorem Strand.advance_filled (t : Strand) (n : Nat) : (t.advance n).filled = t.filled := rfl

/-! ## Strand.goto -/

@[simp] theorem Strand.goto_st (t : Strand) (a : BitVec 48) : (t.goto a).st = t.st := rfl
@[simp] theorem Strand.goto_park (t : Strand) (a : BitVec 48) : (t.goto a).park = t.park := rfl
@[simp] theorem Strand.goto_held (t : Strand) (a : BitVec 48) : (t.goto a).held = t.held := rfl
@[simp] theorem Strand.goto_wants (t : Strand) (a : BitVec 48) : (t.goto a).wants = t.wants := rfl
@[simp] theorem Strand.goto_res (t : Strand) (a : BitVec 48) : (t.goto a).res = t.res := rfl
@[simp] theorem Strand.goto_base (t : Strand) (a : BitVec 48) : (t.goto a).base = t.base := rfl
@[simp] theorem Strand.goto_ntile (t : Strand) (a : BitVec 48) : (t.goto a).ntile = t.ntile := rfl
@[simp] theorem Strand.goto_nscr (t : Strand) (a : BitVec 48) : (t.goto a).nscr = t.nscr := rfl
@[simp] theorem Strand.goto_pool (t : Strand) (a : BitVec 48) : (t.goto a).pool = t.pool := rfl
@[simp] theorem Strand.goto_x (t : Strand) (a : BitVec 48) : (t.goto a).x = t.x := rfl
@[simp] theorem Strand.goto_xF (t : Strand) (a : BitVec 48) : (t.goto a).xF = t.xF := rfl
@[simp] theorem Strand.goto_a (t : Strand) (a : BitVec 48) : (t.goto a).a = t.a := rfl
@[simp] theorem Strand.goto_aF (t : Strand) (a : BitVec 48) : (t.goto a).aF = t.aF := rfl
@[simp] theorem Strand.goto_m (t : Strand) (a : BitVec 48) : (t.goto a).m = t.m := rfl
@[simp] theorem Strand.goto_mF (t : Strand) (a : BitVec 48) : (t.goto a).mF = t.mF := rfl
@[simp] theorem Strand.goto_i (t : Strand) (a : BitVec 48) : (t.goto a).i = t.i := rfl
@[simp] theorem Strand.goto_iF (t : Strand) (a : BitVec 48) : (t.goto a).iF = t.iF := rfl
@[simp] theorem Strand.goto_badX (t : Strand) (a : BitVec 48) : (t.goto a).badX = t.badX := rfl
@[simp] theorem Strand.goto_vt (t : Strand) (a : BitVec 48) : (t.goto a).vt = t.vt := rfl
@[simp] theorem Strand.goto_pix (t : Strand) (a : BitVec 48) : (t.goto a).pix = t.pix := rfl
@[simp] theorem Strand.goto_vl (t : Strand) (a : BitVec 48) : (t.goto a).vl = t.vl := rfl
@[simp] theorem Strand.goto_rm (t : Strand) (a : BitVec 48) : (t.goto a).rm = t.rm := rfl
@[simp] theorem Strand.goto_flags (t : Strand) (a : BitVec 48) : (t.goto a).flags = t.flags := rfl
@[simp] theorem Strand.goto_ann (t : Strand) (a : BitVec 48) : (t.goto a).ann = t.ann := rfl
@[simp] theorem Strand.goto_opt (t : Strand) (a : BitVec 48) : (t.goto a).opt = t.opt := rfl
@[simp] theorem Strand.goto_scoff (t : Strand) (a : BitVec 48) : (t.goto a).scoff = t.scoff := rfl
@[simp] theorem Strand.goto_lease (t : Strand) (a : BitVec 48) : (t.goto a).lease = t.lease := rfl
@[simp] theorem Strand.goto_rslot (t : Strand) (a : BitVec 48) : (t.goto a).rslot = t.rslot := rfl
@[simp] theorem Strand.goto_prog (t : Strand) (a : BitVec 48) : (t.goto a).prog = t.prog := rfl
@[simp] theorem Strand.goto_desc (t : Strand) (a : BitVec 48) : (t.goto a).desc = t.desc := rfl
@[simp] theorem Strand.goto_cur (t : Strand) (a : BitVec 48) : (t.goto a).cur = t.cur := rfl
@[simp] theorem Strand.goto_endv (t : Strand) (a : BitVec 48) : (t.goto a).endv = t.endv := rfl
@[simp] theorem Strand.goto_ext (t : Strand) (a : BitVec 48) : (t.goto a).ext = t.ext := rfl
@[simp] theorem Strand.goto_task (t : Strand) (a : BitVec 48) : (t.goto a).task = t.task := rfl
@[simp] theorem Strand.goto_filling (t : Strand) (a : BitVec 48) : (t.goto a).filling = t.filling := rfl
@[simp] theorem Strand.goto_last (t : Strand) (a : BitVec 48) : (t.goto a).last = t.last := rfl
@[simp] theorem Strand.goto_issued (t : Strand) (a : BitVec 48) : (t.goto a).issued = t.issued := rfl
@[simp] theorem Strand.goto_pend (t : Strand) (a : BitVec 48) : (t.goto a).pend = t.pend := rfl
@[simp] theorem Strand.goto_fills (t : Strand) (a : BitVec 48) : (t.goto a).fills = t.fills := rfl
@[simp] theorem Strand.goto_froze (t : Strand) (a : BitVec 48) : (t.goto a).froze = t.froze := rfl
@[simp] theorem Strand.goto_marked (t : Strand) (a : BitVec 48) : (t.goto a).marked = t.marked := rfl
@[simp] theorem Strand.goto_walked (t : Strand) (a : BitVec 48) : (t.goto a).walked = t.walked := rfl
@[simp] theorem Strand.goto_waitTill (t : Strand) (a : BitVec 48) : (t.goto a).waitTill = t.waitTill := rfl
@[simp] theorem Strand.goto_killAt (t : Strand) (a : BitVec 48) : (t.goto a).killAt = t.killAt := rfl
@[simp] theorem Strand.goto_rollAt (t : Strand) (a : BitVec 48) : (t.goto a).rollAt = t.rollAt := rfl
@[simp] theorem Strand.goto_waitNf (t : Strand) (a : BitVec 48) : (t.goto a).waitNf = t.waitNf := rfl
@[simp] theorem Strand.goto_mulk (t : Strand) (a : BitVec 48) : (t.goto a).mulk = t.mulk := rfl
@[simp] theorem Strand.goto_filled (t : Strand) (a : BitVec 48) : (t.goto a).filled = t.filled := rfl

/-! ## Strand.putA -/

@[simp] theorem Strand.putA_st (t : Strand) (r : BitVec 4) (v : Word) : (t.putA r v).st = t.st := rfl
@[simp] theorem Strand.putA_park (t : Strand) (r : BitVec 4) (v : Word) : (t.putA r v).park = t.park := rfl
@[simp] theorem Strand.putA_held (t : Strand) (r : BitVec 4) (v : Word) : (t.putA r v).held = t.held := rfl
@[simp] theorem Strand.putA_wants (t : Strand) (r : BitVec 4) (v : Word) : (t.putA r v).wants = t.wants := rfl
@[simp] theorem Strand.putA_res (t : Strand) (r : BitVec 4) (v : Word) : (t.putA r v).res = t.res := rfl
@[simp] theorem Strand.putA_base (t : Strand) (r : BitVec 4) (v : Word) : (t.putA r v).base = t.base := rfl
@[simp] theorem Strand.putA_ntile (t : Strand) (r : BitVec 4) (v : Word) : (t.putA r v).ntile = t.ntile := rfl
@[simp] theorem Strand.putA_nscr (t : Strand) (r : BitVec 4) (v : Word) : (t.putA r v).nscr = t.nscr := rfl
@[simp] theorem Strand.putA_pool (t : Strand) (r : BitVec 4) (v : Word) : (t.putA r v).pool = t.pool := rfl
@[simp] theorem Strand.putA_x (t : Strand) (r : BitVec 4) (v : Word) : (t.putA r v).x = t.x := rfl
@[simp] theorem Strand.putA_xF (t : Strand) (r : BitVec 4) (v : Word) : (t.putA r v).xF = t.xF := rfl
@[simp] theorem Strand.putA_aF (t : Strand) (r : BitVec 4) (v : Word) : (t.putA r v).aF = t.aF := rfl
@[simp] theorem Strand.putA_m (t : Strand) (r : BitVec 4) (v : Word) : (t.putA r v).m = t.m := rfl
@[simp] theorem Strand.putA_mF (t : Strand) (r : BitVec 4) (v : Word) : (t.putA r v).mF = t.mF := rfl
@[simp] theorem Strand.putA_i (t : Strand) (r : BitVec 4) (v : Word) : (t.putA r v).i = t.i := rfl
@[simp] theorem Strand.putA_iF (t : Strand) (r : BitVec 4) (v : Word) : (t.putA r v).iF = t.iF := rfl
@[simp] theorem Strand.putA_badX (t : Strand) (r : BitVec 4) (v : Word) : (t.putA r v).badX = t.badX := rfl
@[simp] theorem Strand.putA_pc (t : Strand) (r : BitVec 4) (v : Word) : (t.putA r v).pc = t.pc := rfl
@[simp] theorem Strand.putA_vt (t : Strand) (r : BitVec 4) (v : Word) : (t.putA r v).vt = t.vt := rfl
@[simp] theorem Strand.putA_pix (t : Strand) (r : BitVec 4) (v : Word) : (t.putA r v).pix = t.pix := rfl
@[simp] theorem Strand.putA_vl (t : Strand) (r : BitVec 4) (v : Word) : (t.putA r v).vl = t.vl := rfl
@[simp] theorem Strand.putA_rm (t : Strand) (r : BitVec 4) (v : Word) : (t.putA r v).rm = t.rm := rfl
@[simp] theorem Strand.putA_flags (t : Strand) (r : BitVec 4) (v : Word) : (t.putA r v).flags = t.flags := rfl
@[simp] theorem Strand.putA_ann (t : Strand) (r : BitVec 4) (v : Word) : (t.putA r v).ann = t.ann := rfl
@[simp] theorem Strand.putA_opt (t : Strand) (r : BitVec 4) (v : Word) : (t.putA r v).opt = t.opt := rfl
@[simp] theorem Strand.putA_scoff (t : Strand) (r : BitVec 4) (v : Word) : (t.putA r v).scoff = t.scoff := rfl
@[simp] theorem Strand.putA_lease (t : Strand) (r : BitVec 4) (v : Word) : (t.putA r v).lease = t.lease := rfl
@[simp] theorem Strand.putA_rslot (t : Strand) (r : BitVec 4) (v : Word) : (t.putA r v).rslot = t.rslot := rfl
@[simp] theorem Strand.putA_prog (t : Strand) (r : BitVec 4) (v : Word) : (t.putA r v).prog = t.prog := rfl
@[simp] theorem Strand.putA_desc (t : Strand) (r : BitVec 4) (v : Word) : (t.putA r v).desc = t.desc := rfl
@[simp] theorem Strand.putA_cur (t : Strand) (r : BitVec 4) (v : Word) : (t.putA r v).cur = t.cur := rfl
@[simp] theorem Strand.putA_endv (t : Strand) (r : BitVec 4) (v : Word) : (t.putA r v).endv = t.endv := rfl
@[simp] theorem Strand.putA_ext (t : Strand) (r : BitVec 4) (v : Word) : (t.putA r v).ext = t.ext := rfl
@[simp] theorem Strand.putA_task (t : Strand) (r : BitVec 4) (v : Word) : (t.putA r v).task = t.task := rfl
@[simp] theorem Strand.putA_buf (t : Strand) (r : BitVec 4) (v : Word) : (t.putA r v).buf = t.buf := rfl
@[simp] theorem Strand.putA_filling (t : Strand) (r : BitVec 4) (v : Word) : (t.putA r v).filling = t.filling := rfl
@[simp] theorem Strand.putA_last (t : Strand) (r : BitVec 4) (v : Word) : (t.putA r v).last = t.last := rfl
@[simp] theorem Strand.putA_issued (t : Strand) (r : BitVec 4) (v : Word) : (t.putA r v).issued = t.issued := rfl
@[simp] theorem Strand.putA_pend (t : Strand) (r : BitVec 4) (v : Word) : (t.putA r v).pend = t.pend := rfl
@[simp] theorem Strand.putA_fills (t : Strand) (r : BitVec 4) (v : Word) : (t.putA r v).fills = t.fills := rfl
@[simp] theorem Strand.putA_froze (t : Strand) (r : BitVec 4) (v : Word) : (t.putA r v).froze = t.froze := rfl
@[simp] theorem Strand.putA_marked (t : Strand) (r : BitVec 4) (v : Word) : (t.putA r v).marked = t.marked := rfl
@[simp] theorem Strand.putA_walked (t : Strand) (r : BitVec 4) (v : Word) : (t.putA r v).walked = t.walked := rfl
@[simp] theorem Strand.putA_waitTill (t : Strand) (r : BitVec 4) (v : Word) : (t.putA r v).waitTill = t.waitTill := rfl
@[simp] theorem Strand.putA_killAt (t : Strand) (r : BitVec 4) (v : Word) : (t.putA r v).killAt = t.killAt := rfl
@[simp] theorem Strand.putA_rollAt (t : Strand) (r : BitVec 4) (v : Word) : (t.putA r v).rollAt = t.rollAt := rfl
@[simp] theorem Strand.putA_waitNf (t : Strand) (r : BitVec 4) (v : Word) : (t.putA r v).waitNf = t.waitNf := rfl
@[simp] theorem Strand.putA_mulk (t : Strand) (r : BitVec 4) (v : Word) : (t.putA r v).mulk = t.mulk := rfl
@[simp] theorem Strand.putA_filled (t : Strand) (r : BitVec 4) (v : Word) : (t.putA r v).filled = t.filled := rfl

/-! ## Strand.putI -/

@[simp] theorem Strand.putI_st (t : Strand) (r : BitVec 2) (v : Word) : (t.putI r v).st = t.st := rfl
@[simp] theorem Strand.putI_park (t : Strand) (r : BitVec 2) (v : Word) : (t.putI r v).park = t.park := rfl
@[simp] theorem Strand.putI_held (t : Strand) (r : BitVec 2) (v : Word) : (t.putI r v).held = t.held := rfl
@[simp] theorem Strand.putI_wants (t : Strand) (r : BitVec 2) (v : Word) : (t.putI r v).wants = t.wants := rfl
@[simp] theorem Strand.putI_res (t : Strand) (r : BitVec 2) (v : Word) : (t.putI r v).res = t.res := rfl
@[simp] theorem Strand.putI_base (t : Strand) (r : BitVec 2) (v : Word) : (t.putI r v).base = t.base := rfl
@[simp] theorem Strand.putI_ntile (t : Strand) (r : BitVec 2) (v : Word) : (t.putI r v).ntile = t.ntile := rfl
@[simp] theorem Strand.putI_nscr (t : Strand) (r : BitVec 2) (v : Word) : (t.putI r v).nscr = t.nscr := rfl
@[simp] theorem Strand.putI_pool (t : Strand) (r : BitVec 2) (v : Word) : (t.putI r v).pool = t.pool := rfl
@[simp] theorem Strand.putI_x (t : Strand) (r : BitVec 2) (v : Word) : (t.putI r v).x = t.x := rfl
@[simp] theorem Strand.putI_xF (t : Strand) (r : BitVec 2) (v : Word) : (t.putI r v).xF = t.xF := rfl
@[simp] theorem Strand.putI_a (t : Strand) (r : BitVec 2) (v : Word) : (t.putI r v).a = t.a := rfl
@[simp] theorem Strand.putI_aF (t : Strand) (r : BitVec 2) (v : Word) : (t.putI r v).aF = t.aF := rfl
@[simp] theorem Strand.putI_m (t : Strand) (r : BitVec 2) (v : Word) : (t.putI r v).m = t.m := rfl
@[simp] theorem Strand.putI_mF (t : Strand) (r : BitVec 2) (v : Word) : (t.putI r v).mF = t.mF := rfl
@[simp] theorem Strand.putI_iF (t : Strand) (r : BitVec 2) (v : Word) : (t.putI r v).iF = t.iF := rfl
@[simp] theorem Strand.putI_badX (t : Strand) (r : BitVec 2) (v : Word) : (t.putI r v).badX = t.badX := rfl
@[simp] theorem Strand.putI_pc (t : Strand) (r : BitVec 2) (v : Word) : (t.putI r v).pc = t.pc := rfl
@[simp] theorem Strand.putI_vt (t : Strand) (r : BitVec 2) (v : Word) : (t.putI r v).vt = t.vt := rfl
@[simp] theorem Strand.putI_pix (t : Strand) (r : BitVec 2) (v : Word) : (t.putI r v).pix = t.pix := rfl
@[simp] theorem Strand.putI_vl (t : Strand) (r : BitVec 2) (v : Word) : (t.putI r v).vl = t.vl := rfl
@[simp] theorem Strand.putI_rm (t : Strand) (r : BitVec 2) (v : Word) : (t.putI r v).rm = t.rm := rfl
@[simp] theorem Strand.putI_flags (t : Strand) (r : BitVec 2) (v : Word) : (t.putI r v).flags = t.flags := rfl
@[simp] theorem Strand.putI_ann (t : Strand) (r : BitVec 2) (v : Word) : (t.putI r v).ann = t.ann := rfl
@[simp] theorem Strand.putI_opt (t : Strand) (r : BitVec 2) (v : Word) : (t.putI r v).opt = t.opt := rfl
@[simp] theorem Strand.putI_scoff (t : Strand) (r : BitVec 2) (v : Word) : (t.putI r v).scoff = t.scoff := rfl
@[simp] theorem Strand.putI_lease (t : Strand) (r : BitVec 2) (v : Word) : (t.putI r v).lease = t.lease := rfl
@[simp] theorem Strand.putI_rslot (t : Strand) (r : BitVec 2) (v : Word) : (t.putI r v).rslot = t.rslot := rfl
@[simp] theorem Strand.putI_prog (t : Strand) (r : BitVec 2) (v : Word) : (t.putI r v).prog = t.prog := rfl
@[simp] theorem Strand.putI_desc (t : Strand) (r : BitVec 2) (v : Word) : (t.putI r v).desc = t.desc := rfl
@[simp] theorem Strand.putI_cur (t : Strand) (r : BitVec 2) (v : Word) : (t.putI r v).cur = t.cur := rfl
@[simp] theorem Strand.putI_endv (t : Strand) (r : BitVec 2) (v : Word) : (t.putI r v).endv = t.endv := rfl
@[simp] theorem Strand.putI_ext (t : Strand) (r : BitVec 2) (v : Word) : (t.putI r v).ext = t.ext := rfl
@[simp] theorem Strand.putI_task (t : Strand) (r : BitVec 2) (v : Word) : (t.putI r v).task = t.task := rfl
@[simp] theorem Strand.putI_buf (t : Strand) (r : BitVec 2) (v : Word) : (t.putI r v).buf = t.buf := rfl
@[simp] theorem Strand.putI_filling (t : Strand) (r : BitVec 2) (v : Word) : (t.putI r v).filling = t.filling := rfl
@[simp] theorem Strand.putI_last (t : Strand) (r : BitVec 2) (v : Word) : (t.putI r v).last = t.last := rfl
@[simp] theorem Strand.putI_issued (t : Strand) (r : BitVec 2) (v : Word) : (t.putI r v).issued = t.issued := rfl
@[simp] theorem Strand.putI_pend (t : Strand) (r : BitVec 2) (v : Word) : (t.putI r v).pend = t.pend := rfl
@[simp] theorem Strand.putI_fills (t : Strand) (r : BitVec 2) (v : Word) : (t.putI r v).fills = t.fills := rfl
@[simp] theorem Strand.putI_froze (t : Strand) (r : BitVec 2) (v : Word) : (t.putI r v).froze = t.froze := rfl
@[simp] theorem Strand.putI_marked (t : Strand) (r : BitVec 2) (v : Word) : (t.putI r v).marked = t.marked := rfl
@[simp] theorem Strand.putI_walked (t : Strand) (r : BitVec 2) (v : Word) : (t.putI r v).walked = t.walked := rfl
@[simp] theorem Strand.putI_waitTill (t : Strand) (r : BitVec 2) (v : Word) : (t.putI r v).waitTill = t.waitTill := rfl
@[simp] theorem Strand.putI_killAt (t : Strand) (r : BitVec 2) (v : Word) : (t.putI r v).killAt = t.killAt := rfl
@[simp] theorem Strand.putI_rollAt (t : Strand) (r : BitVec 2) (v : Word) : (t.putI r v).rollAt = t.rollAt := rfl
@[simp] theorem Strand.putI_waitNf (t : Strand) (r : BitVec 2) (v : Word) : (t.putI r v).waitNf = t.waitNf := rfl
@[simp] theorem Strand.putI_mulk (t : Strand) (r : BitVec 2) (v : Word) : (t.putI r v).mulk = t.mulk := rfl
@[simp] theorem Strand.putI_filled (t : Strand) (r : BitVec 2) (v : Word) : (t.putI r v).filled = t.filled := rfl

/-! ## Views after updates -/

theorem State.core_setCore (s : State) (c d : CoreId) (v : Core) : (s.setCore c v).core d = if d = c then v else s.core d := by
  unfold State.core State.setCore
  simp only [Tab.get_put, BitVec.toNat_eq.symm]

@[simp] theorem State.core_setCore_same (s : State) (c : CoreId) (v : Core) : (s.setCore c v).core c = v := by
  simp [State.core_setCore]

theorem State.core_setCore_ne (s : State) {c d : CoreId} (v : Core) (h : d ≠ c) : (s.setCore c v).core d = s.core d := by
  simp [State.core_setCore, h]

theorem State.core_updCore (s : State) (c d : CoreId) (f : Core → Core) :
    (s.updCore c f).core d = if d = c then f (s.core c) else s.core d := State.core_setCore s c d _

@[simp] theorem State.core_updCore_same (s : State) (c : CoreId) (f : Core → Core) : (s.updCore c f).core c = f (s.core c) := by
  simp [State.core_updCore]

theorem Core.strand_setStrand (v : Core) (k n : StrandId) (t : Strand) : (v.setStrand k t).strand n = if n = k then t else v.strand n := by
  unfold Core.strand Core.setStrand
  simp only [Tab.get_put, BitVec.toNat_eq.symm]

@[simp] theorem Core.strand_setStrand_same (v : Core) (k : StrandId) (t : Strand) : (v.setStrand k t).strand k = t := by
  simp [Core.strand_setStrand]

theorem State.strand_setStrand (s : State) (c d : CoreId) (k n : StrandId) (t : Strand) :
    (s.setStrand c k t).strand d n = if d = c ∧ n = k then t else s.strand d n := by
  unfold State.strand State.setStrand
  rw [State.core_setCore]
  by_cases h : d = c
  · subst h; simp [Core.strand_setStrand]
  · simp [h]

theorem State.strand_updStrand (s : State) (c d : CoreId) (k n : StrandId) (f : Strand → Strand) :
    (s.updStrand c k f).strand d n = if d = c ∧ n = k then f (s.strand c k) else s.strand d n :=
  State.strand_setStrand s c d k n _

@[simp] theorem State.strand_updStrand_same (s : State) (c : CoreId) (k : StrandId) (f : Strand → Strand) :
    (s.updStrand c k f).strand c k = f (s.strand c k) := by simp [State.strand_updStrand]

theorem State.strand_updStrand_ne (s : State) {c d : CoreId} {k n : StrandId} (f : Strand → Strand) (h : ¬(d = c ∧ n = k)) :
    (s.updStrand c k f).strand d n = s.strand d n := by simp [State.strand_updStrand, h]

/-- Two updates of one strand are one. -/
@[simp] theorem State.updStrand_updStrand (s : State) (c : CoreId) (k : StrandId) (f g : Strand → Strand) :
    (s.updStrand c k f).updStrand c k g = s.updStrand c k fun t => g (f t) := by
  simp [State.updStrand, State.setStrand, State.setCore, State.strand, Core.setStrand, State.core, Core.strand]

@[simp] theorem State.job_updJob_same (s : State) (j : JobId) (f : Job → Job) : (s.updJob j f).job j = f (s.job j) := by
  simp [State.job, State.updJob]

theorem State.job_updJob (s : State) (i j : JobId) (f : Job → Job) : (s.updJob j f).job i = if i = j then f (s.job j) else s.job i := by
  unfold State.job State.updJob
  simp only [Tab.get_put, BitVec.toNat_eq.symm, State.job]

theorem State.cluster_updCluster (s : State) (a b : ClusterId) (f : Cluster → Cluster) :
    (s.updCluster b f).cluster a = if a = b then f (s.cluster b) else s.cluster a := by
  unfold State.cluster State.updCluster
  simp only [Tab.get_put, BitVec.toNat_eq.symm, State.cluster]

@[simp] theorem State.cluster_updCluster_same (s : State) (a : ClusterId) (f : Cluster → Cluster) :
    (s.updCluster a f).cluster a = f (s.cluster a) := by simp [State.cluster_updCluster]

/-! ## Full-empty bits and registers of a strand -/

theorem getLsbD_setBit {n : Nat} (w : BitVec n) (k i : Nat) (v : Bool) (hk : k < n) :
    (setBit w k v).getLsbD i = if i = k then v else w.getLsbD i := by
  have h1 : (1#n <<< k).getLsbD i = decide (i = k) := by
    rcases Nat.lt_trichotomy i k with h | h | h
    · simp [h, Nat.ne_of_lt h]
    · simp [h, hk]
    · simp [show i ≠ k by omega, show i - k ≠ 0 by omega]
  unfold setBit
  by_cases hi : i = k
  · cases v <;> simp_all
  · rcases Nat.lt_or_ge i n with h | h
    · cases v <;> simp only [Bool.false_eq_true, if_false, if_true, BitVec.getLsbD_or, BitVec.getLsbD_and, BitVec.getLsbD_not, h1, hi, h,
        decide_false, decide_true, Bool.not_false, Bool.and_true, Bool.or_false]
    · cases v <;> simp [hi, h]

theorem Strand.full_setF_same (t : Strand) (r : RegRef) (v : Bool) (h0 : r ≠ .x 0#6) (h1 : r ≠ .m 0#3) : (t.setF r v).full r = v := by
  cases r with
  | x r => have h : ¬r = 0#6 := fun e => h0 (e ▸ rfl); simp [Strand.setF, Strand.full, h, getLsbD_setBit _ _ _ _ r.isLt]
  | a r => simp [Strand.setF, Strand.full, getLsbD_setBit _ _ _ _ r.isLt]
  | m r => have h : ¬r = 0#3 := fun e => h1 (e ▸ rfl); simp [Strand.setF, Strand.full, h, getLsbD_setBit _ _ _ _ r.isLt]
  | i r => simp [Strand.setF, Strand.full, getLsbD_setBit _ _ _ _ r.isLt]

theorem Strand.full_setF (t : Strand) (r q : RegRef) (v : Bool) (h0 : r ≠ .x 0#6) (h1 : r ≠ .m 0#3) :
    (t.setF r v).full q = if q = r then v else t.full q := by
  by_cases h : q = r
  · subst h; simp [Strand.full_setF_same t q v h0 h1]
  · rw [if_neg h]
    cases r with
    | x r =>
      have h2 : ¬r = 0#6 := fun e => h0 (e ▸ rfl)
      cases q with
      | x q =>
        have h3 : q.toNat ≠ r.toNat := fun e => h (by rw [BitVec.eq_of_toNat_eq e])
        simp [Strand.setF, Strand.full, h2, getLsbD_setBit _ _ _ _ r.isLt, h3]
      | _ => simp [Strand.setF, Strand.full, h2]
    | a r =>
      cases q with
      | a q =>
        have h3 : q.toNat ≠ r.toNat := fun e => h (by rw [BitVec.eq_of_toNat_eq e])
        simp [Strand.setF, Strand.full, getLsbD_setBit _ _ _ _ r.isLt, h3]
      | _ => rfl
    | m r =>
      have h2 : ¬r = 0#3 := fun e => h1 (e ▸ rfl)
      cases q with
      | m q =>
        have h3 : q.toNat ≠ r.toNat := fun e => h (by rw [BitVec.eq_of_toNat_eq e])
        simp [Strand.setF, Strand.full, h2, getLsbD_setBit _ _ _ _ r.isLt, h3]
      | _ => simp [Strand.setF, Strand.full, h2]
    | i r =>
      cases q with
      | i q =>
        have h3 : q.toNat ≠ r.toNat := fun e => h (by rw [BitVec.eq_of_toNat_eq e])
        simp [Strand.setF, Strand.full, getLsbD_setBit _ _ _ _ r.isLt, h3]
      | _ => rfl

@[simp] theorem Strand.rx_zero (t : Strand) : t.rx 0 = 0 := rfl

theorem Strand.rx_putX (t : Strand) (d r : XReg) (v : Word) (h : d ≠ 0) : (t.putX d v).rx r = if r = d then v else t.rx r := by
  unfold Strand.putX Strand.rx
  by_cases hr : r = 0
  · subst hr; simp only [if_true, if_neg (Ne.symm h)]
  · simp only [if_neg h, if_neg hr, Tab.get_put]
    simp only [BitVec.toNat_eq]

@[simp] theorem Strand.rx_setF (t : Strand) (q : RegRef) (v : Bool) (r : XReg) : (t.setF q v).rx r = t.rx r := by
  unfold Strand.rx
  cases q <;> simp only [Strand.setF] <;> (repeat' split) <;> rfl

end Sys2Proof.Machine
end

