-- ==== Sys2Proof/Laws/Issue.lean ====
section
/-! SUPPORT. The shared operation by which every instruction issues: what it answers, when its body runs, and what a body that writes one
register leaves. -/

namespace Sys2Proof.Machine

/-- Everything that `issuePre` can answer: the fault of an instruction that holds no slot, or a next state. -/
theorem issuePre_cases (len : Nat) (u : Uses) (pre : CoreId → StrandId → State → Option Res) (body : Body') (s : State) :
    (s.offer = none ∧ issuePre len u pre body s = .fault .noOffer) ∨
    ∃ c k, s.offer = some (c, k) ∧
      issuePre len u pre body s = .next (s.took.issueAt c k len u pre body) := by
  unfold issuePre
  cases h : s.offer with
  | none => exact .inl ⟨rfl, rfl⟩
  | some x => exact .inr ⟨x.1, x.2, rfl, rfl⟩

/-- An instruction that holds the slot is answered with a next state. -/
theorem issuePre_next {s : State} {c : CoreId} {k : StrandId} (h : s.offer = some (c, k)) (len : Nat) (u : Uses)
    (pre : CoreId → StrandId → State → Option Res) (body : Body') :
    issuePre len u pre body s = .next (s.took.issueAt c k len u pre body) := by
  simp [issuePre, h]

@[simp] theorem State.strand_took (s : State) (c : CoreId) (k : StrandId) : s.took.strand c k = s.strand c k := rfl
@[simp] theorem State.core_took (s : State) (c : CoreId) : s.took.core c = s.core c := rfl
@[simp] theorem State.launchOf_took (s : State) (t : Strand) : s.took.launchOf t = s.launchOf t := rfl

/-- Where nothing holds the instruction up its body runs: the registers that check 3 names exist, the sources are full and without error,
the destinations free. -/
theorem issueAt_body {s : State} {c : CoreId} {k : StrandId} {len : Nat} {u : Uses} {pre : CoreId → StrandId → State → Option Res}
    {body : Body'} (hl : u.legal (s.launchOf (s.strand c k)).nreg = true) (hp : pre c k s = none)
    (hs : ∀ x ∈ u.srcs, (s.strand c k).full x.1 = true) (hd : ∀ r ∈ u.dsts, s.dstOk c k r = true)
    (hr : ∀ r ∈ u.dregs, (s.strand c k).full r = true) (ha : ∀ a ∈ u.accs, ((s.core c).accAt a).full = true)
    (hb : ∀ r w, (RegRef.x r, w) ∈ u.srcs → r.toNat ∉ (s.strand c k).badX) :
    s.issueAt c k len u pre body = s.settle c k u len (body c k s) := by
  have he : u.emptyFault (s.strand c k) = false := by
    simp only [Uses.emptyFault, List.any_eq_false]
    intro x hx; simp [hs x hx]
  have hk : s.parks c k u = none := by
    unfold State.parks
    have h1 : u.srcs.find? (fun x => !(s.strand c k).full x.1) = none := by simpa [List.find?_eq_none] using hs
    have h2 : u.dsts.find? (fun r => !s.dstOk c k r) = none := by simpa [List.find?_eq_none] using hd
    have h3 : u.dregs.find? (fun r => !(s.strand c k).full r) = none := by simpa [List.find?_eq_none] using hr
    have h4 : u.accs.find? (fun a => !((s.core c).accAt a).full) = none := by simpa [List.find?_eq_none] using ha
    simp only [h1, h2, h3, h4, Option.map_none]
  have hbad : u.badSource (s.strand c k) = none := by
    unfold Uses.badSource
    split
    · rfl
    · rw [List.head?_eq_none_iff, List.filterMap_eq_nil_iff]
      rintro ⟨r, w⟩ hx
      cases r with
      | x r => simpa using hb r w hx
      | _ => rfl
  simp only [State.issueAt, hl, hp, he, hk, hbad, Bool.not_true, Bool.false_eq_true, if_false]

end Sys2Proof.Machine

namespace Sys2Proof

open Machine

/-- The registers of an instruction as statements name them: the x registers of its sources are srcs, its destinations are dsts, and check 3
names these. -/
structure UsesAre (u : Uses) (ss ds : List XReg) : Prop where
  names : ∀ r ∈ u.names, r ∈ ss ∨ r ∈ ds
  srcs : ∀ x ∈ u.srcs, ∃ r ∈ ss, x.1 = RegRef.x r
  dsts : u.dsts = ds
  dregs : u.dregs = []
  accs : u.accs = []
  nf : u.readsNf = decide (63#6 ∈ ss)

/-- Under `CanIssue` an instruction without a check 4 runs its body. -/
theorem CanIssue.issue {s : State} {c : CoreId} {k : StrandId} {srcs dsts : List XReg} (h : CanIssue s c k srcs dsts) {u : Uses}
    (hu : UsesAre u srcs dsts) (len : Nat) (body : Body') :
    Machine.issue len u body s =
      .next (s.took.settle c k u len (body c k s.took)) := by
  unfold Machine.issue
  rw [issuePre_next h.slot]
  congr 1
  refine issueAt_body ?_ rfl ?_ ?_ ?_ ?_ ?_
  · simp only [Uses.legal, List.all_eq_true]
    intro r hr
    have := h.legal r (hu.names r hr)
    rw [Bool.or_eq_true, beq_iff_eq, decide_eq_true_eq]
    exact this
  · intro x hx
    obtain ⟨r, hr, e⟩ := hu.srcs x hx
    simpa [e] using h.full r hr
  · intro r hr
    rw [hu.dsts] at hr
    by_cases h63 : r = 63#6
    · subst h63
      have e : s.took.producing c k 63#6 = s.producing c k 63#6 := rfl
      simpa [State.dstOk, e] using h.room hr
    · simpa [State.dstOk, h63] using h.dests r hr h63
  · simp [hu.dregs]
  · simp [hu.accs]
  · intro r w hx
    obtain ⟨q, hq, e⟩ := hu.srcs _ hx
    simp only [RegRef.x.injEq] at e
    subst e
    exact h.sound r hq

theorem Machine.State.complete_eq (s : State) (c : CoreId) (k : StrandId) (u : Uses) (len : Nat) :
    s.complete c k u len = s.updStrand c k fun a => a.ended s.cycle len u.readsNf := by
  unfold State.complete State.markIssued
  rw [State.updStrand_updStrand]
  congr 1
  funext a
  cases u.readsNf <;> rfl

@[simp] theorem Machine.Strand.rx_ended (a : Strand) (n len : Nat) (nf : Bool) (r : XReg) : (a.ended n len nf).rx r = a.rx r := rfl

theorem Machine.Strand.full_ended (a : Strand) (n len : Nat) (nf : Bool) (r : XReg) :
    (a.ended n len nf).full (.x r) = if nf = true ∧ r = 63#6 then false else a.full (.x r) := by
  cases nf
  · simp [Strand.ended, Strand.full]
  · by_cases h : r = 63#6
    · subst h
      have := getLsbD_setBit a.xF 63 63 false (by decide)
      simpa [Strand.ended, Strand.full] using this
    · have : r.toNat ≠ 63 := fun e => h (BitVec.eq_of_toNat_eq e)
      simp [Strand.ended, Strand.full, getLsbD_setBit, h, this]

/-- A register written, and its bit. -/
theorem Machine.Strand.full_putX (a : Strand) (d : XReg) (v : Word) (q : RegRef) : (a.putX d v).full q = a.full q := by
  cases q <;> simp only [Strand.putX, Strand.full] <;> split <;> rfl

/-- Nothing but one strand changed. -/
theorem elsewhere_updStrand (s : State) (c : CoreId) (k : StrandId) (f : Strand → Strand) : Elsewhere s (s.updStrand c k f) c [k] where
  memory _ := rfl
  strands d n h := State.strand_updStrand_ne s f (by simpa using h)
  cores d := by
    rw [State.updStrand, State.setStrand, State.core_setCore]
    split
    · subst d; rfl
    · rfl
  rest := rfl

theorem elsewhere_took (s : State) (c : CoreId) : Elsewhere s s.took c [] where
  memory _ := rfl
  strands _ _ _ := rfl
  cores _ := rfl
  rest := rfl

theorem elsewhere_mono {s t : State} {c : CoreId} {ks ls : List StrandId} (h : Elsewhere s t c ks) (hs : ∀ k ∈ ks, k ∈ ls) :
    Elsewhere s t c ls where
  memory := h.memory
  strands d n hn := h.strands d n fun e => hn ⟨e.1, hs n e.2⟩
  cores := h.cores
  rest := h.rest

theorem elsewhere_trans {s t u : State} {c : CoreId} {ks ls : List StrandId} (h : Elsewhere s t c ks) (g : Elsewhere t u c ls) :
    Elsewhere s u c (ks ++ ls) where
  memory a := by rw [g.memory, h.memory]
  strands d n hn := by
    simp only [List.mem_append] at hn
    rw [g.strands d n (by tauto), h.strands d n (by tauto)]
  cores d := by
    have h1 := h.cores d
    have h2 := g.cores d
    rw [← h1, ← h2]
  rest := by
    have h1 := h.rest
    have h2 := g.rest
    rw [← h1, ← h2]

/-- The issuing strand of an instruction that completes is otherwise as it was. -/
theorem kept_ended (a : Strand) (now len : Nat) (srcs : List XReg) :
    Kept a (a.ended now len (decide (63#6 ∈ srcs))) (srcs.filter (· = 63#6)) where
  regs _ _ := rfl
  fulls r hr := by
    rw [Strand.full_ended, if_neg]
    rintro ⟨h, rfl⟩
    exact hr (by simpa using h)
  rest := by cases a; rfl

theorem putX_setF (a : Strand) {d : XReg} (v : Word) (hd : d ≠ 0) : (a.putX d v).setF (.x d) true =
    { a with x := Tab.put a.x d.toNat v, badX := a.badX.filter fun n => n != d.toNat, xF := setBit a.xF d.toNat true } := by
  unfold Strand.setF Strand.putX
  simp only [if_neg hd]

/-- A strand with a register written is otherwise as it was. -/
theorem kept_putX (a : Strand) {d : XReg} (v : Word) (hd : d ≠ 0#6) : Kept a ((a.putX d v).setF (.x d) true) [d] where
  regs r hr := by
    rw [Strand.rx_setF, Strand.rx_putX a d r v hd, if_neg (by simpa using hr)]
  fulls r hr := by
    have hr : r ≠ d := by simpa using hr
    rw [Strand.full_setF _ _ _ _ (by simpa using hd) (by simp), Strand.full_putX, if_neg (by simpa using hr)]
  rest := by
    rw [putX_setF a v hd]

theorem Kept.trans {a b e : Strand} {ds es : List XReg} (h : Kept a b ds) (g : Kept b e es) : Kept a e (ds ++ es) where
  regs r hr := by simp only [List.mem_append] at hr; rw [g.regs r (by tauto), h.regs r (by tauto)]
  fulls r hr := by simp only [List.mem_append] at hr; rw [g.fulls r (by tauto), h.fulls r (by tauto)]
  rest := by
    have h1 := h.rest
    have h2 := g.rest
    rw [← h1, ← h2]

theorem Kept.mono {a b : Strand} {ds es : List XReg} (h : Kept a b ds) (hs : ∀ r ∈ ds, r ∈ es) : Kept a b es where
  regs r hr := h.regs r fun e => hr (hs r e)
  fulls r hr := h.fulls r fun e => hr (hs r e)
  rest := h.rest

theorem succ_ne (k : StrandId) : k + 1 ≠ k := by
  intro h
  simp at h

theorem Machine.State.completeJump_eq (s : State) (c : CoreId) (k : StrandId) (u : Uses) (pc : BitVec 48) :
    s.completeJump c k u pc = s.updStrand c k fun a => { a.ended s.cycle 0 u.readsNf with pc := pc, buf := [] } := by
  unfold State.completeJump State.markIssued
  rw [State.updStrand_updStrand]
  congr 1
  funext a
  cases u.readsNf <;> rfl

theorem kept_next (a b : Strand) (ds : List XReg) (pc : BitVec 48) (buf : List Group) (h : Kept a b ds) :
    Kept a { b with pc := pc, buf := buf } ds where
  regs := h.regs
  fulls := h.fulls
  rest := h.rest

/-- What a strand leaves that writes one x register and ends its instruction in any way that only moves it on (R130, R133). -/
theorem wrote_of {s : State} {c : CoreId} {k : StrandId} {srcs : List XReg} (d : XReg) (v : Word) (pc : BitVec 48) (buf : List Group)
    (now len : Nat) :
    Wrote s ((s.took.writeX c k d v).updStrand c k fun a => { a.ended now len (decide (63#6 ∈ srcs)) with pc := pc, buf := buf })
      c k srcs d v pc buf := by
  have hpc : ∀ (a : Strand) (w : Word), ((a.putX d w).setF (.x d) true).pc = a.pc ∧ ((a.putX d w).setF (.x d) true).buf = a.buf := by
    intro a w
    simp only [Strand.putX, Strand.setF]; split <;> exact ⟨rfl, rfl⟩
  have hfull : ∀ (a : Strand) (w : Word), d ≠ 0#6 → ((a.putX d w).setF (.x d) true).full (.x d) = true := by
    intro a w hd
    exact Strand.full_setF_same _ _ _ (by simpa using hd) (by simp)
  have hval : ∀ (a : Strand) (w : Word), d ≠ 0#6 → ((a.putX d w).setF (.x d) true).rx d = w := by
    intro a w hd
    rw [Strand.rx_setF, Strand.rx_putX a d d w hd, if_pos rfl]
  have hnf : ∀ (a : Strand), 63#6 ∈ srcs →
      Strand.full { a.ended now len (decide (63#6 ∈ srcs)) with pc := pc, buf := buf } (.x 63#6) = false := by
    intro a h
    show (a.ended now len _).full (.x 63#6) = false
    rw [Strand.full_ended]; simp [h]
  by_cases h0 : d = 0#6
  · subst h0
    have e : s.took.writeX c k 0#6 v = s.took := rfl
    rw [e]
    refine ⟨fun h => absurd rfl h, ?_, ?_, ?_, fun h => absurd h (by decide), ?_⟩
    · rw [State.strand_updStrand_same]; exact ⟨rfl, rfl⟩
    · intro h; rw [State.strand_updStrand_same]; exact hnf _ h
    · rw [State.strand_updStrand_same, State.strand_took]
      refine kept_next _ _ _ _ _ ((kept_ended _ _ _ srcs).mono fun r hr => ?_)
      simp only [changed]; exact List.mem_append_right _ hr
    · exact elsewhere_mono (elsewhere_trans (elsewhere_took s c) (elsewhere_updStrand s.took c k _)) (by simp [touched])
  · by_cases h63 : d = 63#6
    · subst h63
      have e : s.took.writeX c k 63#6 v = s.took.updStrand c (k + 1) fun t => (t.putX 63#6 v).setF (.x 63#6) true := rfl
      have hk : destStrand k 63#6 = k + 1 := rfl
      rw [e]
      have e1 : ∀ f g : Strand → Strand, ((s.took.updStrand c (k + 1) f).updStrand c k g).strand c (k + 1) = f (s.strand c (k + 1)) := by
        intro f g
        rw [State.strand_updStrand_ne _ _ (fun h => succ_ne k h.2), State.strand_updStrand_same, State.strand_took]
      have e2 : ∀ f g : Strand → Strand, ((s.took.updStrand c (k + 1) f).updStrand c k g).strand c k = g (s.strand c k) := by
        intro f g
        rw [State.strand_updStrand_same, State.strand_updStrand_ne _ _ (fun h => succ_ne k h.2.symm), State.strand_took]
      refine ⟨?_, ?_, ?_, ?_, ?_, ?_⟩
      · intro h; rw [hk, e1]; exact ⟨hval _ _ h, hfull _ _ h⟩
      · rw [e2]; exact ⟨rfl, rfl⟩
      · intro h; rw [e2]; exact hnf _ h
      · rw [e2]
        exact kept_next _ _ _ _ _ ((kept_ended _ _ _ srcs).mono fun r hr => by simpa [changed] using hr)
      · intro _; rw [e1]; exact ⟨kept_putX _ _ (by decide), hpc _ _⟩
      · refine elsewhere_mono (elsewhere_trans (elsewhere_trans (elsewhere_took s c) (elsewhere_updStrand _ c (k + 1) _))
          (elsewhere_updStrand _ c k _)) ?_
        intro x hx
        simp only [touched, List.nil_append, List.singleton_append, List.mem_cons, List.not_mem_nil, or_false, if_true] at hx ⊢
        tauto
    · have hk : destStrand k d = k := by simp [destStrand, h63]
      have e : s.took.writeX c k d v = s.took.updStrand c k fun t => (t.putX d v).setF (.x d) true := by
        simp only [State.writeX, hk]
        rw [if_neg (by simpa using h0)]
      rw [e, State.updStrand_updStrand]
      refine ⟨?_, ?_, ?_, ?_, fun h => absurd h h63, ?_⟩
      · intro h
        rw [hk, State.strand_updStrand_same, State.strand_took]
        refine ⟨hval _ _ h, ?_⟩
        show (Strand.ended _ now len _).full (.x d) = true
        rw [Strand.full_ended, if_neg (by simp [h63])]; exact hfull _ _ h
      · rw [State.strand_updStrand_same]; exact ⟨rfl, rfl⟩
      · intro h; rw [State.strand_updStrand_same]; exact hnf _ h
      · rw [State.strand_updStrand_same, State.strand_took]
        refine kept_next _ _ _ _ _ (((kept_putX _ v h0).trans (kept_ended _ _ _ srcs)).mono ?_)
        intro r hr; simpa [changed, h63] using hr
      · exact elsewhere_mono (elsewhere_trans (elsewhere_took s c) (elsewhere_updStrand s.took c k _)) (by simp [touched, h63])

/-- The pc and the fetch buffer of a strand after one of its registers, or its successor's slot, is written. -/
theorem writeX_next (s : State) (c : CoreId) (k : StrandId) (d : XReg) (v : Word) :
    ((s.writeX c k d v).strand c k).pc = (s.strand c k).pc ∧ ((s.writeX c k d v).strand c k).buf = (s.strand c k).buf := by
  have hpc : ∀ (a : Strand) (w : Word), ((a.putX d w).setF (.x d) true).pc = a.pc ∧ ((a.putX d w).setF (.x d) true).buf = a.buf := by
    intro a w
    simp only [Strand.putX, Strand.setF]; split <;> exact ⟨rfl, rfl⟩
  unfold State.writeX
  split
  · exact ⟨rfl, rfl⟩
  · rw [State.strand_updStrand]
    split
    · rename_i h; rw [← h.2]; exact hpc _ _
    · exact ⟨rfl, rfl⟩

/-- What an instruction leaves that completes with one x register written. -/
theorem wrote_complete {s : State} {c : CoreId} {k : StrandId} {u : Uses} {srcs : List XReg} (d : XReg) (v : Word) (len : Nat)
    (hn : u.readsNf = decide (63#6 ∈ srcs)) :
    Wrote s ((s.took.writeX c k d v).complete c k u len) c k srcs d v ((s.strand c k).pc + BitVec.ofNat 48 len) (s.strand c k).buf := by
  rw [State.complete_eq, hn]
  have h := wrote_of (s := s) (c := c) (k := k) (srcs := srcs) d v ((s.strand c k).pc + BitVec.ofNat 48 len) (s.strand c k).buf
    (s.took.writeX c k d v).cycle len
  have e : (s.took.writeX c k d v).updStrand c k (fun a => a.ended (s.took.writeX c k d v).cycle len (decide (63#6 ∈ srcs))) =
      (s.took.writeX c k d v).updStrand c k fun a =>
        { a.ended (s.took.writeX c k d v).cycle len (decide (63#6 ∈ srcs)) with
          pc := (s.strand c k).pc + BitVec.ofNat 48 len, buf := (s.strand c k).buf } := by
    obtain ⟨h1, h2⟩ := writeX_next s.took c k d v
    simp only [State.updStrand]
    congr 1
    rw [← State.strand_took s c k, ← h1, ← h2]
    rfl
  rw [e]; exact h

/-- What an instruction leaves that writes one x register and jumps. -/
theorem wrote_jump {s : State} {c : CoreId} {k : StrandId} {u : Uses} {srcs : List XReg} (d : XReg) (v : Word) (pc : BitVec 48)
    (hn : u.readsNf = decide (63#6 ∈ srcs)) :
    Wrote s ((s.took.writeX c k d v).completeJump c k u pc) c k srcs d v pc [] := by
  rw [State.completeJump_eq, hn]
  exact wrote_of d v pc [] _ 0

/-- An instruction whose body writes one register from the strand that issues it computes that register. -/
theorem computes_of {i : Instr} {srcs : List XReg} {d : XReg} {v : Strand → Word} {u : Uses} (hu : UsesAre u srcs [d])
    (he : ∀ s, exec i s = Machine.issue 4 u (fun c k s => .done (s.writeX c k d (v (s.strand c k)))) s) : Computes i srcs d v := by
  intro s c k h
  exact ⟨_, (he s).trans (h.issue hu 4 _), wrote_complete d _ 4 hu.nf⟩

/-- An instruction whose body changes its own strand only. -/
theorem changes_of {i : Instr} {srcs : List XReg} {f : Strand → Strand} {u : Uses} (hu : UsesAre u srcs [])
    (he : ∀ s, exec i s = Machine.issue 4 u (fun c k s => .done (s.updStrand c k f)) s) : Changes i srcs f := by
  intro s c k h
  refine ⟨_, (he s).trans (h.issue hu 4 _), ?_, ?_⟩
  · show (((s.took.updStrand c k f).complete c k u 4)).strand c k = _
    rw [State.complete_eq, hu.nf, State.strand_updStrand_same, State.strand_updStrand_same]
    rfl
  · show Elsewhere s (((s.took.updStrand c k f).complete c k u 4)) c [k]
    rw [State.complete_eq, State.updStrand_updStrand]
    exact elsewhere_mono (elsewhere_trans (elsewhere_took s c) (elsewhere_updStrand s.took c k _)) (by simp)

/-- Two sources and a destination. -/
theorem usesAre_rr (w u : Bool) (b a d : XReg) : UsesAre { names := [a, b, d], srcs := [sx a u, sx b w], dsts := [d] } [a, b] [d] where
  names r hr := by simp at hr ⊢; tauto
  srcs x hx := by
    simp [sx] at hx
    rcases hx with rfl | rfl
    · exact ⟨a, by simp, rfl⟩
    · exact ⟨b, by simp, rfl⟩
  dsts := rfl
  dregs := rfl
  accs := rfl
  nf := by by_cases h1 : 63#6 = a <;> by_cases h2 : 63#6 = b <;> simp_all [Uses.readsNf, sx, Ne.symm]

/-- One source and a destination. -/
theorem usesAre_r (u : Bool) (a d : XReg) : UsesAre { names := [a, d], srcs := [sx a u], dsts := [d] } [a] [d] where
  names r hr := by simp at hr ⊢; tauto
  srcs x hx := by simp [sx] at hx; subst hx; exact ⟨a, by simp, rfl⟩
  dsts := rfl
  dregs := rfl
  accs := rfl
  nf := by by_cases h1 : 63#6 = a <;> simp_all [Uses.readsNf, sx, Ne.symm]

/-- `opRR` computes a register from two. -/
theorem opRR_computes {i : Instr} {w u : Bool} {b a d : XReg} {f : Word → Word → Word} (he : ∀ s, exec i s = opRR w u b a d f s) :
    Computes i [a, b] d (fun t => f (t.rx a) (t.rx b)) := computes_of (usesAre_rr w u b a d) he

/-- `opR` computes a register from one. -/
theorem opR_computes {i : Instr} {u : Bool} {a d : XReg} {f : Word → Word} (he : ∀ s, exec i s = opR u a d f s) :
    Computes i [a] d (fun t => f (t.rx a)) := computes_of (usesAre_r u a d) he

end Sys2Proof
end

