-- ==== Sys2Proof/Laws/Memory.lean ====
section
/-! SUPPORT. The operations of the machine that write memory keep its canonical form: bytes of a local memory, of a slot, of a tier, of host
memory, the code copy, the release of a share, and a cold reset. -/

namespace Sys2Proof.Machine

theorem Memory.zero_wf {m : List Host.Cell} (a n : Nat) (h : Memory.wf m = true) : Memory.wf (Memory.zero m a n) = true := Memory.filter_wf _ h

@[simp] theorem State.setPoison_mem (s : State) (ws : List Nat) (v : Bool) : (s.setPoison ws v).mem = s.mem := by
  unfold State.setPoison; split
  · rfl
  · split <;> rfl

@[simp] theorem State.clearPoison_mem (s : State) (a n : Nat) : (s.clearPoison a n).mem = s.mem := by
  unfold State.clearPoison; split
  · rfl
  · exact State.setPoison_mem _ _ _

theorem State.localWrite_wf {s : State} (c : CoreId) (off : Nat) (bs : List Byte) (h : Memory.wf s.mem = true) :
    Memory.wf (s.localWrite c off bs).mem = true := Memory.write_wf _ _ h

theorem State.putSlot_wf {s : State} (c : CoreId) (n off : Nat) (bs : List Byte) (h : Memory.wf s.mem = true) :
    Memory.wf (s.putSlot c n off bs).mem = true := Memory.write_wf _ _ h

/-- A fold of steps each of which keeps the canonical form keeps it. -/
theorem foldl_wf {α : Type} (f : State → α → State) (hf : ∀ s x, Memory.wf s.mem = true → Memory.wf (f s x).mem = true) (l : List α) :
    ∀ {s : State}, Memory.wf s.mem = true → Memory.wf (l.foldl f s).mem = true := by
  induction l with
  | nil => exact fun h => h
  | cons x r ih => exact fun h => ih (hf _ x h)

theorem State.tierWrite_wf {s : State} (key : Option Key) (pa : Nat) (bs : List Byte) (h : Memory.wf s.mem = true) :
    Memory.wf (s.tierWrite key pa bs).mem = true := by
  unfold State.tierWrite
  split
  · exact Memory.write_wf _ _ h
  · split
    · exact Memory.write_wf _ _ h
    · exact foldl_wf _ (fun s i h => Memory.write_wf _ _ h) _ h

/-- A write of bytes of any kind of memory. -/
theorem State.memWrite_wf {s : State} (key : Option Key) (a : Nat) (bs : List Byte) (h : Memory.wf s.mem = true) :
    Memory.wf (s.memWrite key a bs).mem = true := by
  unfold State.memWrite
  split
  · rw [State.clearPoison_mem]; exact State.tierWrite_wf _ _ _ h
  · split
    · exact State.localWrite_wf _ _ _ h
    · exact Memory.write_wf _ _ h

theorem State.install_wf {s : State} (c : CoreId) (j : JobId) (l : Lslot) (h : Memory.wf s.mem = true) :
    Memory.wf (s.install c j l).mem = true := by
  unfold State.install; rw [State.setPoison_mem]; exact Memory.write_wf _ _ h

theorem State.acknowledge_wf {s : State} (w0 : Word) (n status : Nat) (h : Memory.wf s.mem = true) : Memory.wf (s.acknowledge w0 n status).mem = true :=
  Memory.write_wf _ _ h

theorem State.loseLines_wf {s : State} (ls : List (Nat × Line)) (h : Memory.wf s.mem = true) : Memory.wf (s.loseLines ls).mem = true :=
  foldl_wf _ (fun _ _ h => Memory.write_wf _ _ h) _ h

theorem State.coldReset_wf {s : State} (cause : Nat) (h : Memory.wf s.mem = true) : Memory.wf (s.coldReset cause).mem = true := by
  unfold State.coldReset
  dsimp only
  split <;> exact Memory.filter_wf _ (State.loseLines_wf _ h)

/-- Slots zeroed one after another. -/
theorem State.zeroSlots_wf (c : CoreId) (ns : List Nat) {s : State} (h : Memory.wf s.mem = true) :
    Memory.wf (ns.foldl (fun (s : State) n =>
      { s.clearPoison (localBase c + 2048 * n) 2048 with mem := Memory.zero s.mem (localBase c + 2048 * n) 2048 }) s).mem = true :=
  foldl_wf _ (fun _ _ h => Memory.zero_wf _ _ h) _ h

end Sys2Proof.Machine
end

