-- ==== Sys2Proof/Laws/PerInstr.lean ====
section
/-! SUPPORT. A family of statements about every instruction: the bit that frames it (spec/06_encoding.md R100). -/

namespace Sys2Proof.Laws.Framing

/-- Bit 0 of a 32-bit instruction is 1, and of a 16-bit one 0; no instruction has both forms (R100). -/
def Statement (i : Instr) : Prop :=
  (∀ w, encode32 i = some w → w.getLsbD 0 = true) ∧ ∀ w, encode16 i = some w → w.getLsbD 0 = false ∧ encode32 i = none

theorem of_word {i : Instr} {x : BitVec 32} (h : encode32 i = some x) (hb : x.getLsbD 0 = true) (h' : encode16 i = none) : Statement i := by
  refine ⟨fun w e => ?_, fun w e => ?_⟩
  · rw [h] at e; cases e; exact hb
  · rw [h'] at e; cases e

theorem of_parcel {i : Instr} {x : BitVec 16} (h : encode16 i = some x) (hb : x.getLsbD 0 = false) (h' : encode32 i = none) : Statement i := by
  refine ⟨fun w e => ?_, fun w e => ?_⟩
  · rw [h'] at e; cases e
  · rw [h] at e; cases e; exact ⟨hb, h'⟩

theorem of_none {i : Instr} (h : encode32 i = none) (h' : encode16 i = none) : Statement i := by
  refine ⟨fun w e => ?_, fun w e => ?_⟩
  · rw [h] at e; cases e
  · rw [h'] at e; cases e

theorem low_append {n m : Nat} (a : BitVec n) (b : BitVec m) (h : 0 < m) : (a ++ b).getLsbD 0 = b.getLsbD 0 := by
  rw [BitVec.getLsbD_append]; simp [h]

theorem add : ∀ a b c d e, Statement (Instr.add a b c d e) := fun _ _ _ _ _ => of_word rfl (low_append _ _ (by decide)) rfl
theorem sub : ∀ a b c d e, Statement (Instr.sub a b c d e) := fun _ _ _ _ _ => of_word rfl (low_append _ _ (by decide)) rfl
theorem and : ∀ a b c d e, Statement (Instr.and a b c d e) := fun _ _ _ _ _ => of_word rfl (low_append _ _ (by decide)) rfl
theorem or : ∀ a b c d e, Statement (Instr.or a b c d e) := fun _ _ _ _ _ => of_word rfl (low_append _ _ (by decide)) rfl
theorem xor : ∀ a b c d e, Statement (Instr.xor a b c d e) := fun _ _ _ _ _ => of_word rfl (low_append _ _ (by decide)) rfl
theorem andn : ∀ a b c d e, Statement (Instr.andn a b c d e) := fun _ _ _ _ _ => of_word rfl (low_append _ _ (by decide)) rfl
theorem sll : ∀ a b c d e, Statement (Instr.sll a b c d e) := fun _ _ _ _ _ => of_word rfl (low_append _ _ (by decide)) rfl
theorem srl : ∀ a b c d e, Statement (Instr.srl a b c d e) := fun _ _ _ _ _ => of_word rfl (low_append _ _ (by decide)) rfl
theorem sra : ∀ a b c d e, Statement (Instr.sra a b c d e) := fun _ _ _ _ _ => of_word rfl (low_append _ _ (by decide)) rfl
theorem slt : ∀ a b c d e, Statement (Instr.slt a b c d e) := fun _ _ _ _ _ => of_word rfl (low_append _ _ (by decide)) rfl
theorem sltu : ∀ a b c d e, Statement (Instr.sltu a b c d e) := fun _ _ _ _ _ => of_word rfl (low_append _ _ (by decide)) rfl
theorem min : ∀ a b c d e, Statement (Instr.min a b c d e) := fun _ _ _ _ _ => of_word rfl (low_append _ _ (by decide)) rfl
theorem max : ∀ a b c d e, Statement (Instr.max a b c d e) := fun _ _ _ _ _ => of_word rfl (low_append _ _ (by decide)) rfl
theorem minu : ∀ a b c d e, Statement (Instr.minu a b c d e) := fun _ _ _ _ _ => of_word rfl (low_append _ _ (by decide)) rfl
theorem maxu : ∀ a b c d e, Statement (Instr.maxu a b c d e) := fun _ _ _ _ _ => of_word rfl (low_append _ _ (by decide)) rfl
theorem mul : ∀ a b c d e, Statement (Instr.mul a b c d e) := fun _ _ _ _ _ => of_word rfl (low_append _ _ (by decide)) rfl
theorem mulh : ∀ a b c d e, Statement (Instr.mulh a b c d e) := fun _ _ _ _ _ => of_word rfl (low_append _ _ (by decide)) rfl
theorem mulhu : ∀ a b c d e, Statement (Instr.mulhu a b c d e) := fun _ _ _ _ _ => of_word rfl (low_append _ _ (by decide)) rfl
theorem div : ∀ a b c d e, Statement (Instr.div a b c d e) := fun _ _ _ _ _ => of_word rfl (low_append _ _ (by decide)) rfl
theorem divu : ∀ a b c d e, Statement (Instr.divu a b c d e) := fun _ _ _ _ _ => of_word rfl (low_append _ _ (by decide)) rfl
theorem rem : ∀ a b c d e, Statement (Instr.rem a b c d e) := fun _ _ _ _ _ => of_word rfl (low_append _ _ (by decide)) rfl
theorem remu : ∀ a b c d e, Statement (Instr.remu a b c d e) := fun _ _ _ _ _ => of_word rfl (low_append _ _ (by decide)) rfl
theorem clz : ∀ a b c, Statement (Instr.clz a b c) := fun _ _ _ => of_word rfl (low_append _ _ (by decide)) rfl
theorem ctz : ∀ a b c, Statement (Instr.ctz a b c) := fun _ _ _ => of_word rfl (low_append _ _ (by decide)) rfl
theorem popc : ∀ a b c, Statement (Instr.popc a b c) := fun _ _ _ => of_word rfl (low_append _ _ (by decide)) rfl
theorem sh1add : ∀ a b c d e, Statement (Instr.sh1add a b c d e) := fun _ _ _ _ _ => of_word rfl (low_append _ _ (by decide)) rfl
theorem sh2add : ∀ a b c d e, Statement (Instr.sh2add a b c d e) := fun _ _ _ _ _ => of_word rfl (low_append _ _ (by decide)) rfl
theorem sh3add : ∀ a b c d e, Statement (Instr.sh3add a b c d e) := fun _ _ _ _ _ => of_word rfl (low_append _ _ (by decide)) rfl
theorem addi : ∀ a b c d, Statement (Instr.addi a b c d) := fun _ _ _ _ => of_word rfl (low_append _ _ (by decide)) rfl
theorem andi : ∀ a b c d, Statement (Instr.andi a b c d) := fun _ _ _ _ => of_word rfl (low_append _ _ (by decide)) rfl
theorem ori : ∀ a b c d, Statement (Instr.ori a b c d) := fun _ _ _ _ => of_word rfl (low_append _ _ (by decide)) rfl
theorem xori : ∀ a b c d, Statement (Instr.xori a b c d) := fun _ _ _ _ => of_word rfl (low_append _ _ (by decide)) rfl
theorem slti : ∀ a b c d, Statement (Instr.slti a b c d) := fun _ _ _ _ => of_word rfl (low_append _ _ (by decide)) rfl
theorem sltiu : ∀ a b c d, Statement (Instr.sltiu a b c d) := fun _ _ _ _ => of_word rfl (low_append _ _ (by decide)) rfl
theorem slli : ∀ a b c d, Statement (Instr.slli a b c d) := fun _ _ _ _ => of_word rfl (low_append _ _ (by decide)) rfl
theorem srli : ∀ a b c d, Statement (Instr.srli a b c d) := fun _ _ _ _ => of_word rfl (low_append _ _ (by decide)) rfl
theorem srai : ∀ a b c d, Statement (Instr.srai a b c d) := fun _ _ _ _ => of_word rfl (low_append _ _ (by decide)) rfl
theorem lim : ∀ a b c, Statement (Instr.lim a b c) := fun _ _ _ => of_word rfl (low_append _ _ (by decide)) rfl
theorem limk : ∀ a b c, Statement (Instr.limk a b c) := fun _ _ _ => of_word rfl (low_append _ _ (by decide)) rfl
theorem chk : ∀ a b c d e f, Statement (Instr.chk a b c d e f) := fun _ _ _ _ _ _ => of_word rfl (low_append _ _ (by decide)) rfl
theorem chki : ∀ a b c d e, Statement (Instr.chki a b c d e) := fun _ _ _ _ _ => of_word rfl (low_append _ _ (by decide)) rfl
theorem fchk : ∀ a b c d e f, Statement (Instr.fchk a b c d e f) := fun _ _ _ _ _ _ => of_word rfl (low_append _ _ (by decide)) rfl
theorem br : ∀ a, Statement (Instr.br a) := fun _ => of_word rfl (low_append _ _ (by decide)) rfl
theorem jl : ∀ a b, Statement (Instr.jl a b) := fun _ _ => of_word rfl (low_append _ _ (by decide)) rfl
theorem jlr : ∀ a b c d, Statement (Instr.jlr a b c d) := fun _ _ _ _ => of_word rfl (low_append _ _ (by decide)) rfl
theorem fadd : ∀ a b c d e, Statement (Instr.fadd a b c d e) := fun _ _ _ _ _ => of_word rfl (low_append _ _ (by decide)) rfl
theorem fsub : ∀ a b c d e, Statement (Instr.fsub a b c d e) := fun _ _ _ _ _ => of_word rfl (low_append _ _ (by decide)) rfl
theorem fmul : ∀ a b c d e, Statement (Instr.fmul a b c d e) := fun _ _ _ _ _ => of_word rfl (low_append _ _ (by decide)) rfl
theorem fdiv : ∀ a b c d e, Statement (Instr.fdiv a b c d e) := fun _ _ _ _ _ => of_word rfl (low_append _ _ (by decide)) rfl
theorem fsqrt : ∀ a b c, Statement (Instr.fsqrt a b c) := fun _ _ _ => of_word rfl (low_append _ _ (by decide)) rfl
theorem fmin : ∀ a b c d e, Statement (Instr.fmin a b c d e) := fun _ _ _ _ _ => of_word rfl (low_append _ _ (by decide)) rfl
theorem fmax : ∀ a b c d e, Statement (Instr.fmax a b c d e) := fun _ _ _ _ _ => of_word rfl (low_append _ _ (by decide)) rfl
theorem fma : ∀ a b c d e, Statement (Instr.fma a b c d e) := fun _ _ _ _ _ => of_word rfl (low_append _ _ (by decide)) rfl
theorem fcvtIF : ∀ a b c, Statement (Instr.fcvtIF a b c) := fun _ _ _ => of_word rfl (low_append _ _ (by decide)) rfl
theorem fcvtFI : ∀ a b c, Statement (Instr.fcvtFI a b c) := fun _ _ _ => of_word rfl (low_append _ _ (by decide)) rfl
theorem fclass : ∀ a b c, Statement (Instr.fclass a b c) := fun _ _ _ => of_word rfl (low_append _ _ (by decide)) rfl
theorem ctlr : ∀ a b c, Statement (Instr.ctlr a b c) := fun _ _ _ => of_word rfl (low_append _ _ (by decide)) rfl
theorem ctlw : ∀ a b c, Statement (Instr.ctlw a b c) := fun _ _ _ => of_word rfl (low_append _ _ (by decide)) rfl
theorem ctlx : ∀ a b c d, Statement (Instr.ctlx a b c d) := fun _ _ _ _ => of_word rfl (low_append _ _ (by decide)) rfl
theorem ctlset : ∀ a b c, Statement (Instr.ctlset a b c) := fun _ _ _ => of_word rfl (low_append _ _ (by decide)) rfl
theorem ctlclr : ∀ a b c, Statement (Instr.ctlclr a b c) := fun _ _ _ => of_word rfl (low_append _ _ (by decide)) rfl
theorem trap : ∀ a b c, Statement (Instr.trap a b c) := fun _ _ _ => of_word rfl (low_append _ _ (by decide)) rfl
theorem brk : ∀ a, Statement (Instr.brk a) := fun _ => of_word rfl (low_append _ _ (by decide)) rfl
theorem isync : Statement (Instr.isync) := of_word rfl rfl rfl
theorem resize : ∀ a b c, Statement (Instr.resize a b c) := fun _ _ _ => of_word rfl (low_append _ _ (by decide)) rfl
theorem spawn : ∀ a b c d e, Statement (Instr.spawn a b c d e) := fun _ _ _ _ _ => of_word rfl (low_append _ _ (by decide)) rfl
theorem spawna : ∀ a b c d e, Statement (Instr.spawna a b c d e) := fun _ _ _ _ _ => of_word rfl (low_append _ _ (by decide)) rfl
theorem migrate : ∀ a b, Statement (Instr.migrate a b) := fun _ _ => of_word rfl (low_append _ _ (by decide)) rfl
theorem exit : Statement (Instr.exit) := of_word rfl rfl rfl
theorem waitw : ∀ a b, Statement (Instr.waitw a b) := fun _ _ => of_word rfl (low_append _ _ (by decide)) rfl
theorem yield : Statement (Instr.yield) := of_word rfl rfl rfl
theorem suspend : ∀ a b, Statement (Instr.suspend a b) := fun _ _ => of_word rfl (low_append _ _ (by decide)) rfl
theorem resumec : ∀ a b c, Statement (Instr.resumec a b c) := fun _ _ _ => of_word rfl (low_append _ _ (by decide)) rfl
theorem launch : ∀ a b c, Statement (Instr.launch a b c) := fun _ _ _ => of_word rfl (low_append _ _ (by decide)) rfl
theorem cancel : ∀ a b c d e, Statement (Instr.cancel a b c d e) := fun _ _ _ _ _ => of_word rfl (low_append _ _ (by decide)) rfl
theorem iter : ∀ a b c, Statement (Instr.iter a b c) := fun _ _ _ => of_word rfl (low_append _ _ (by decide)) rfl
theorem itern : ∀ a b c d, Statement (Instr.itern a b c d) := fun _ _ _ _ => of_word rfl (low_append _ _ (by decide)) rfl
theorem ld : ∀ a b c d e, Statement (Instr.ld a b c d e) := fun _ _ _ _ _ => of_word rfl (low_append _ _ (by decide)) rfl
theorem st : ∀ a b c d e f, Statement (Instr.st a b c d e f) := fun _ _ _ _ _ _ => of_word rfl (low_append _ _ (by decide)) rfl
theorem ldb : ∀ a b c d e, Statement (Instr.ldb a b c d e) := fun _ _ _ _ _ => of_word rfl (low_append _ _ (by decide)) rfl
theorem stb : ∀ a b c d, Statement (Instr.stb a b c d) := fun _ _ _ _ => of_word rfl (low_append _ _ (by decide)) rfl
theorem pref : ∀ a b, Statement (Instr.pref a b) := fun _ _ => of_word rfl (low_append _ _ (by decide)) rfl
theorem filln : ∀ a b c d, Statement (Instr.filln a b c d) := fun _ _ _ _ => of_word rfl (low_append _ _ (by decide)) rfl
theorem flush : ∀ a b, Statement (Instr.flush a b) := fun _ _ => of_word rfl (low_append _ _ (by decide)) rfl
theorem inv : ∀ a b, Statement (Instr.inv a b) := fun _ _ => of_word rfl (low_append _ _ (by decide)) rfl
theorem hint : ∀ a b c d, Statement (Instr.hint a b c d) := fun _ _ _ _ => of_word rfl (low_append _ _ (by decide)) rfl
theorem fence : ∀ a b, Statement (Instr.fence a b) := fun _ _ => of_word rfl (low_append _ _ (by decide)) rfl
theorem putreg : ∀ a b c d, Statement (Instr.putreg a b c d) := fun _ _ _ _ => of_word rfl (low_append _ _ (by decide)) rfl
theorem deferSt : ∀ a b c d, Statement (Instr.deferSt a b c d) := fun _ _ _ _ => of_word rfl (low_append _ _ (by decide)) rfl
theorem deferSig : ∀ a b c d, Statement (Instr.deferSig a b c d) := fun _ _ _ _ => of_word rfl (low_append _ _ (by decide)) rfl
theorem ldM : ∀ a b c, Statement (Instr.ldM a b c) := fun _ _ _ => of_word rfl (low_append _ _ (by decide)) rfl
theorem stM : ∀ a b c, Statement (Instr.stM a b c) := fun _ _ _ => of_word rfl (low_append _ _ (by decide)) rfl
theorem ldfe : ∀ a b c, Statement (Instr.ldfe a b c) := fun _ _ _ => of_word rfl (low_append _ _ (by decide)) rfl
theorem ldff : ∀ a b c, Statement (Instr.ldff a b c) := fun _ _ _ => of_word rfl (low_append _ _ (by decide)) rfl
theorem stef : ∀ a b c d, Statement (Instr.stef a b c d) := fun _ _ _ _ => of_word rfl (low_append _ _ (by decide)) rfl
theorem stff : ∀ a b c d, Statement (Instr.stff a b c d) := fun _ _ _ _ => of_word rfl (low_append _ _ (by decide)) rfl
theorem fepurge : ∀ a b, Statement (Instr.fepurge a b) := fun _ _ => of_word rfl (low_append _ _ (by decide)) rfl
theorem amoAdd : ∀ a b c d e, Statement (Instr.amoAdd a b c d e) := fun _ _ _ _ _ => of_word rfl (low_append _ _ (by decide)) rfl
theorem amoAnd : ∀ a b c d e, Statement (Instr.amoAnd a b c d e) := fun _ _ _ _ _ => of_word rfl (low_append _ _ (by decide)) rfl
theorem amoOr : ∀ a b c d e, Statement (Instr.amoOr a b c d e) := fun _ _ _ _ _ => of_word rfl (low_append _ _ (by decide)) rfl
theorem amoXor : ∀ a b c d e, Statement (Instr.amoXor a b c d e) := fun _ _ _ _ _ => of_word rfl (low_append _ _ (by decide)) rfl
theorem amoMin : ∀ a b c d e, Statement (Instr.amoMin a b c d e) := fun _ _ _ _ _ => of_word rfl (low_append _ _ (by decide)) rfl
theorem amoMax : ∀ a b c d e, Statement (Instr.amoMax a b c d e) := fun _ _ _ _ _ => of_word rfl (low_append _ _ (by decide)) rfl
theorem amoMinu : ∀ a b c d e, Statement (Instr.amoMinu a b c d e) := fun _ _ _ _ _ => of_word rfl (low_append _ _ (by decide)) rfl
theorem amoMaxu : ∀ a b c d e, Statement (Instr.amoMaxu a b c d e) := fun _ _ _ _ _ => of_word rfl (low_append _ _ (by decide)) rfl
theorem amoSwap : ∀ a b c d e, Statement (Instr.amoSwap a b c d e) := fun _ _ _ _ _ => of_word rfl (low_append _ _ (by decide)) rfl
theorem amoCas : ∀ a b c d e, Statement (Instr.amoCas a b c d e) := fun _ _ _ _ _ => of_word rfl (low_append _ _ (by decide)) rfl
theorem amoFadd : ∀ a b c d e, Statement (Instr.amoFadd a b c d e) := fun _ _ _ _ _ => of_word rfl (low_append _ _ (by decide)) rfl
theorem redAdd : ∀ a b c d, Statement (Instr.redAdd a b c d) := fun _ _ _ _ => of_word rfl (low_append _ _ (by decide)) rfl
theorem redFadd : ∀ a b c d, Statement (Instr.redFadd a b c d) := fun _ _ _ _ => of_word rfl (low_append _ _ (by decide)) rfl
theorem barInit : ∀ a b c, Statement (Instr.barInit a b c) := fun _ _ _ => of_word rfl (low_append _ _ (by decide)) rfl
theorem barArr : ∀ a b c d, Statement (Instr.barArr a b c d) := fun _ _ _ _ => of_word rfl (low_append _ _ (by decide)) rfl
theorem barWait : ∀ a b c, Statement (Instr.barWait a b c) := fun _ _ _ => of_word rfl (low_append _ _ (by decide)) rfl
theorem barArw : ∀ a b, Statement (Instr.barArw a b) := fun _ _ => of_word rfl (low_append _ _ (by decide)) rfl
theorem mbarInit : ∀ a b c, Statement (Instr.mbarInit a b c) := fun _ _ _ => of_word rfl (low_append _ _ (by decide)) rfl
theorem mbarArr : ∀ a b c, Statement (Instr.mbarArr a b c) := fun _ _ _ => of_word rfl (low_append _ _ (by decide)) rfl
theorem mbarWait : ∀ a b c, Statement (Instr.mbarWait a b c) := fun _ _ _ => of_word rfl (low_append _ _ (by decide)) rfl
theorem verldEq : ∀ a b c d e, Statement (Instr.verldEq a b c d e) := fun _ _ _ _ _ => of_word rfl (low_append _ _ (by decide)) rfl
theorem verldAsof : ∀ a b c d e, Statement (Instr.verldAsof a b c d e) := fun _ _ _ _ _ => of_word rfl (low_append _ _ (by decide)) rfl
theorem verst : ∀ a b c d e f, Statement (Instr.verst a b c d e f) := fun _ _ _ _ _ _ => of_word rfl (low_append _ _ (by decide)) rfl
theorem verrel : ∀ a b c d, Statement (Instr.verrel a b c d) := fun _ _ _ _ => of_word rfl (low_append _ _ (by decide)) rfl
theorem verq : ∀ a b c d e, Statement (Instr.verq a b c d e) := fun _ _ _ _ _ => of_word rfl (low_append _ _ (by decide)) rfl
theorem vadd : ∀ a b c d e f g, Statement (Instr.vadd a b c d e f g) := fun _ _ _ _ _ _ _ => of_word rfl (low_append _ _ (by decide)) rfl
theorem vsub : ∀ a b c d e f g, Statement (Instr.vsub a b c d e f g) := fun _ _ _ _ _ _ _ => of_word rfl (low_append _ _ (by decide)) rfl
theorem vmul : ∀ a b c d e f g, Statement (Instr.vmul a b c d e f g) := fun _ _ _ _ _ _ _ => of_word rfl (low_append _ _ (by decide)) rfl
theorem vdiv : ∀ a b c d e f g, Statement (Instr.vdiv a b c d e f g) := fun _ _ _ _ _ _ _ => of_word rfl (low_append _ _ (by decide)) rfl
theorem vmin : ∀ a b c d e f g, Statement (Instr.vmin a b c d e f g) := fun _ _ _ _ _ _ _ => of_word rfl (low_append _ _ (by decide)) rfl
theorem vmax : ∀ a b c d e f g, Statement (Instr.vmax a b c d e f g) := fun _ _ _ _ _ _ _ => of_word rfl (low_append _ _ (by decide)) rfl
theorem vand : ∀ a b c d e f g, Statement (Instr.vand a b c d e f g) := fun _ _ _ _ _ _ _ => of_word rfl (low_append _ _ (by decide)) rfl
theorem vor : ∀ a b c d e f g, Statement (Instr.vor a b c d e f g) := fun _ _ _ _ _ _ _ => of_word rfl (low_append _ _ (by decide)) rfl
theorem vxor : ∀ a b c d e f g, Statement (Instr.vxor a b c d e f g) := fun _ _ _ _ _ _ _ => of_word rfl (low_append _ _ (by decide)) rfl
theorem vshl : ∀ a b c d e f g, Statement (Instr.vshl a b c d e f g) := fun _ _ _ _ _ _ _ => of_word rfl (low_append _ _ (by decide)) rfl
theorem vshr : ∀ a b c d e f g, Statement (Instr.vshr a b c d e f g) := fun _ _ _ _ _ _ _ => of_word rfl (low_append _ _ (by decide)) rfl
theorem vdot : ∀ a b c d e f g, Statement (Instr.vdot a b c d e f g) := fun _ _ _ _ _ _ _ => of_word rfl (low_append _ _ (by decide)) rfl
theorem vperm : ∀ a b c d e f g, Statement (Instr.vperm a b c d e f g) := fun _ _ _ _ _ _ _ => of_word rfl (low_append _ _ (by decide)) rfl
theorem vgath : ∀ a b c d e f g, Statement (Instr.vgath a b c d e f g) := fun _ _ _ _ _ _ _ => of_word rfl (low_append _ _ (by decide)) rfl
theorem vscat : ∀ a b c d e f g, Statement (Instr.vscat a b c d e f g) := fun _ _ _ _ _ _ _ => of_word rfl (low_append _ _ (by decide)) rfl
theorem vcompr : ∀ a b c d e f g, Statement (Instr.vcompr a b c d e f g) := fun _ _ _ _ _ _ _ => of_word rfl (low_append _ _ (by decide)) rfl
theorem vabs : ∀ a b c d e f, Statement (Instr.vabs a b c d e f) := fun _ _ _ _ _ _ => of_word rfl (low_append _ _ (by decide)) rfl
theorem vneg : ∀ a b c d e f, Statement (Instr.vneg a b c d e f) := fun _ _ _ _ _ _ => of_word rfl (low_append _ _ (by decide)) rfl
theorem vsqrt : ∀ a b c d e f, Statement (Instr.vsqrt a b c d e f) := fun _ _ _ _ _ _ => of_word rfl (low_append _ _ (by decide)) rfl
theorem vrcp : ∀ a b c d e f, Statement (Instr.vrcp a b c d e f) := fun _ _ _ _ _ _ => of_word rfl (low_append _ _ (by decide)) rfl
theorem vrsqrt : ∀ a b c d e f, Statement (Instr.vrsqrt a b c d e f) := fun _ _ _ _ _ _ => of_word rfl (low_append _ _ (by decide)) rfl
theorem vexp2 : ∀ a b c d e f, Statement (Instr.vexp2 a b c d e f) := fun _ _ _ _ _ _ => of_word rfl (low_append _ _ (by decide)) rfl
theorem vlog2 : ∀ a b c d e f, Statement (Instr.vlog2 a b c d e f) := fun _ _ _ _ _ _ => of_word rfl (low_append _ _ (by decide)) rfl
theorem vtanh : ∀ a b c d e f, Statement (Instr.vtanh a b c d e f) := fun _ _ _ _ _ _ => of_word rfl (low_append _ _ (by decide)) rfl
theorem vsigm : ∀ a b c d e f, Statement (Instr.vsigm a b c d e f) := fun _ _ _ _ _ _ => of_word rfl (low_append _ _ (by decide)) rfl
theorem vmov : ∀ a b c d e f, Statement (Instr.vmov a b c d e f) := fun _ _ _ _ _ _ => of_word rfl (low_append _ _ (by decide)) rfl
theorem vredsum : ∀ a b c d e f, Statement (Instr.vredsum a b c d e f) := fun _ _ _ _ _ _ => of_word rfl (low_append _ _ (by decide)) rfl
theorem vredmax : ∀ a b c d e f, Statement (Instr.vredmax a b c d e f) := fun _ _ _ _ _ _ => of_word rfl (low_append _ _ (by decide)) rfl
theorem vredmin : ∀ a b c d e f, Statement (Instr.vredmin a b c d e f) := fun _ _ _ _ _ _ => of_word rfl (low_append _ _ (by decide)) rfl
theorem vscan : ∀ a b c d e f, Statement (Instr.vscan a b c d e f) := fun _ _ _ _ _ _ => of_word rfl (low_append _ _ (by decide)) rfl
theorem vnorm : ∀ a b c d e f, Statement (Instr.vnorm a b c d e f) := fun _ _ _ _ _ _ => of_word rfl (low_append _ _ (by decide)) rfl
theorem viota : ∀ a b c d, Statement (Instr.viota a b c d) := fun _ _ _ _ => of_word rfl (low_append _ _ (by decide)) rfl
theorem vfma : ∀ a b c d e f g h, Statement (Instr.vfma a b c d e f g h) := fun _ _ _ _ _ _ _ _ => of_word rfl (low_append _ _ (by decide)) rfl
theorem vfms : ∀ a b c d e f g h, Statement (Instr.vfms a b c d e f g h) := fun _ _ _ _ _ _ _ _ => of_word rfl (low_append _ _ (by decide)) rfl
theorem vsel : ∀ a b c d e f g h, Statement (Instr.vsel a b c d e f g h) := fun _ _ _ _ _ _ _ _ => of_word rfl (low_append _ _ (by decide)) rfl
theorem vadam : ∀ a b c d e f g, Statement (Instr.vadam a b c d e f g) := fun _ _ _ _ _ _ _ => of_word rfl (low_append _ _ (by decide)) rfl
theorem vcmp : ∀ a b c d e f g h, Statement (Instr.vcmp a b c d e f g h) := fun _ _ _ _ _ _ _ _ => of_word rfl (low_append _ _ (by decide)) rfl
theorem vcvt : ∀ a b c d e f g h, Statement (Instr.vcvt a b c d e f g h) := fun _ _ _ _ _ _ _ _ => of_word rfl (low_append _ _ (by decide)) rfl
theorem vexpn : ∀ a b c d e f g, Statement (Instr.vexpn a b c d e f g) := fun _ _ _ _ _ _ _ => of_word rfl (low_append _ _ (by decide)) rfl
theorem vbcast : ∀ a b c d e f, Statement (Instr.vbcast a b c d e f) := fun _ _ _ _ _ _ => of_word rfl (low_append _ _ (by decide)) rfl
theorem vsetp : ∀ a b c, Statement (Instr.vsetp a b c) := fun _ _ _ => of_word rfl (low_append _ _ (by decide)) rfl
theorem vgetp : ∀ a b, Statement (Instr.vgetp a b) := fun _ _ => of_word rfl (low_append _ _ (by decide)) rfl
theorem vlen : ∀ a b, Statement (Instr.vlen a b) := fun _ _ => of_word rfl (low_append _ _ (by decide)) rfl
theorem vaddCompact : ∀ a b c, Statement (Instr.vaddCompact a b c) := fun _ _ _ => of_parcel rfl (low_append _ _ (by decide)) rfl
theorem vsubCompact : ∀ a b c, Statement (Instr.vsubCompact a b c) := fun _ _ _ => of_parcel rfl (low_append _ _ (by decide)) rfl
theorem vmulCompact : ∀ a b c, Statement (Instr.vmulCompact a b c) := fun _ _ _ => of_parcel rfl (low_append _ _ (by decide)) rfl
theorem vminCompact : ∀ a b c, Statement (Instr.vminCompact a b c) := fun _ _ _ => of_parcel rfl (low_append _ _ (by decide)) rfl
theorem vmaxCompact : ∀ a b c, Statement (Instr.vmaxCompact a b c) := fun _ _ _ => of_parcel rfl (low_append _ _ (by decide)) rfl
theorem vandCompact : ∀ a b c, Statement (Instr.vandCompact a b c) := fun _ _ _ => of_parcel rfl (low_append _ _ (by decide)) rfl
theorem vorCompact : ∀ a b c, Statement (Instr.vorCompact a b c) := fun _ _ _ => of_parcel rfl (low_append _ _ (by decide)) rfl
theorem vxorCompact : ∀ a b c, Statement (Instr.vxorCompact a b c) := fun _ _ _ => of_parcel rfl (low_append _ _ (by decide)) rfl
theorem vshlCompact : ∀ a b c, Statement (Instr.vshlCompact a b c) := fun _ _ _ => of_parcel rfl (low_append _ _ (by decide)) rfl
theorem vshrCompact : ∀ a b c, Statement (Instr.vshrCompact a b c) := fun _ _ _ => of_parcel rfl (low_append _ _ (by decide)) rfl
theorem vmovCompact : ∀ a b c, Statement (Instr.vmovCompact a b c) := fun _ _ _ => of_parcel rfl (low_append _ _ (by decide)) rfl
theorem vabsCompact : ∀ a b c, Statement (Instr.vabsCompact a b c) := fun _ _ _ => of_parcel rfl (low_append _ _ (by decide)) rfl
theorem vnegCompact : ∀ a b c, Statement (Instr.vnegCompact a b c) := fun _ _ _ => of_parcel rfl (low_append _ _ (by decide)) rfl
theorem vrcpCompact : ∀ a b c, Statement (Instr.vrcpCompact a b c) := fun _ _ _ => of_parcel rfl (low_append _ _ (by decide)) rfl
theorem vexp2Compact : ∀ a b c, Statement (Instr.vexp2Compact a b c) := fun _ _ _ => of_parcel rfl (low_append _ _ (by decide)) rfl
theorem vredsumCompact : ∀ a b c, Statement (Instr.vredsumCompact a b c) := fun _ _ _ => of_parcel rfl (low_append _ _ (by decide)) rfl
theorem tload : ∀ a b c d e f g, Statement (Instr.tload a b c d e f g) := fun _ _ _ _ _ _ _ => of_word rfl (low_append _ _ (by decide)) rfl
theorem tstore : ∀ a b c d e f, Statement (Instr.tstore a b c d e f) := fun _ _ _ _ _ _ => of_word rfl (low_append _ _ (by decide)) rfl
theorem tzero : ∀ a b c, Statement (Instr.tzero a b c) := fun _ _ _ => of_word rfl (low_append _ _ (by decide)) rfl
theorem tstat : ∀ a b, Statement (Instr.tstat a b) := fun _ _ => of_word rfl (low_append _ _ (by decide)) rfl
theorem town : ∀ a, Statement (Instr.town a) := fun _ => of_word rfl (low_append _ _ (by decide)) rfl
theorem tfree : ∀ a, Statement (Instr.tfree a) := fun _ => of_word rfl (low_append _ _ (by decide)) rfl
theorem tmul : ∀ a b c, Statement (Instr.tmul a b c) := fun _ _ _ => of_word rfl (low_append _ _ (by decide)) rfl
theorem tmulk : ∀ a b c, Statement (Instr.tmulk a b c) := fun _ _ _ => of_word rfl (low_append _ _ (by decide)) rfl
theorem tacc : ∀ a b, Statement (Instr.tacc a b) := fun _ _ => of_word rfl (low_append _ _ (by decide)) rfl
theorem tmuls : ∀ a b c d, Statement (Instr.tmuls a b c d) := fun _ _ _ _ => of_word rfl (low_append _ _ (by decide)) rfl
theorem twb : ∀ a b c d e, Statement (Instr.twb a b c d e) := fun _ _ _ _ _ => of_word rfl (low_append _ _ (by decide)) rfl
theorem tred : ∀ a b c d e, Statement (Instr.tred a b c d e) := fun _ _ _ _ _ => of_word rfl (low_append _ _ (by decide)) rfl
theorem tprog : ∀ a b, Statement (Instr.tprog a b) := fun _ _ => of_word rfl (low_append _ _ (by decide)) rfl
theorem cpy : ∀ a b c d e, Statement (Instr.cpy a b c d e) := fun _ _ _ _ _ => of_word rfl (low_append _ _ (by decide)) rfl
theorem cpy2 : ∀ a b c d e, Statement (Instr.cpy2 a b c d e) := fun _ _ _ _ _ => of_word rfl (low_append _ _ (by decide)) rfl
theorem cpyw : ∀ a b c d e, Statement (Instr.cpyw a b c d e) := fun _ _ _ _ _ => of_word rfl (low_append _ _ (by decide)) rfl
theorem decode : ∀ a b, Statement (Instr.decode a b) := fun _ _ => of_word rfl (low_append _ _ (by decide)) rfl
theorem powerOn : Statement (Instr.powerOn) := of_none rfl rfl
theorem hostReset : Statement (Instr.hostReset) := of_none rfl rfl
theorem watchdogExpiry : Statement (Instr.watchdogExpiry) := of_none rfl rfl
theorem romMeasureFirmware : Statement (Instr.romMeasureFirmware) := of_none rfl rfl
theorem stage2FirmwareLoad : Statement (Instr.stage2FirmwareLoad) := of_none rfl rfl
theorem stage3ReducedService : Statement (Instr.stage3ReducedService) := of_none rfl rfl
theorem stackTrainingEnd : Statement (Instr.stackTrainingEnd) := of_none rfl rfl
theorem islctlLock : Statement (Instr.islctlLock) := of_none rfl rfl
theorem islandPowerSample : Statement (Instr.islandPowerSample) := of_none rfl rfl
theorem thermalHalt : Statement (Instr.thermalHalt) := of_none rfl rfl
theorem ucieLinkFailure : Statement (Instr.ucieLinkFailure) := of_none rfl rfl
theorem jenayPortFailure : Statement (Instr.jenayPortFailure) := of_none rfl rfl
theorem hbmStackFailure : Statement (Instr.hbmStackFailure) := of_none rfl rfl
theorem uncorrectableError : Statement (Instr.uncorrectableError) := of_none rfl rfl
theorem supervisorTimeout : Statement (Instr.supervisorTimeout) := of_none rfl rfl
theorem repctlGo : Statement (Instr.repctlGo) := of_none rfl rfl
theorem reportComplete : Statement (Instr.reportComplete) := of_none rfl rfl
theorem registerWrite : Statement (Instr.registerWrite) := of_none rfl rfl
theorem cmdtailWrite : Statement (Instr.cmdtailWrite) := of_none rfl rfl
theorem jobstart : Statement (Instr.jobstart) := of_none rfl rfl
theorem phaseopen : Statement (Instr.phaseopen) := of_none rfl rfl
theorem cancelCommand : Statement (Instr.cancelCommand) := of_none rfl rfl
theorem keydestroy : Statement (Instr.keydestroy) := of_none rfl rfl
theorem reservedCommand : Statement (Instr.reservedCommand) := of_none rfl rfl
theorem teardown : Statement (Instr.teardown) := of_none rfl rfl
theorem hostCxlMemoryAccess : Statement (Instr.hostCxlMemoryAccess) := of_none rfl rfl
theorem backInvalidateResponse : Statement (Instr.backInvalidateResponse) := of_none rfl rfl
theorem bind : Statement (Instr.bind) := of_none rfl rfl
theorem strandBecomesResident : Statement (Instr.strandBecomesResident) := of_none rfl rfl
theorem launchCompletion : Statement (Instr.launchCompletion) := of_none rfl rfl
theorem graphCompletion : Statement (Instr.graphCompletion) := of_none rfl rfl
theorem phaseCompletion : Statement (Instr.phaseCompletion) := of_none rfl rfl
theorem taskMessageArrival : Statement (Instr.taskMessageArrival) := of_none rfl rfl
theorem antiMessageArrival : Statement (Instr.antiMessageArrival) := of_none rfl rfl
theorem spillRefill : Statement (Instr.spillRefill) := of_none rfl rfl
theorem dispense : Statement (Instr.dispense) := of_none rfl rfl
theorem sendBufferDeparture : Statement (Instr.sendBufferDeparture) := of_none rfl rfl
theorem taskMessageAccepted : Statement (Instr.taskMessageAccepted) := of_none rfl rfl
theorem stealRequest : Statement (Instr.stealRequest) := of_none rfl rfl
theorem stealReply : Statement (Instr.stealReply) := of_none rfl rfl
theorem shippedTasksArrival : Statement (Instr.shippedTasksArrival) := of_none rfl rfl
theorem stealPauseExpiry : Statement (Instr.stealPauseExpiry) := of_none rfl rfl
theorem iterationClaim : Statement (Instr.iterationClaim) := of_none rfl rfl
theorem fetchFill : Statement (Instr.fetchFill) := of_none rfl rfl
theorem barrelCycle : Statement (Instr.barrelCycle) := of_none rfl rfl
theorem strandWake : Statement (Instr.strandWake) := of_none rfl rfl
theorem producerResultWrite : Statement (Instr.producerResultWrite) := of_none rfl rfl
theorem replyArrival : Statement (Instr.replyArrival) := of_none rfl rfl
theorem putregFill : Statement (Instr.putregFill) := of_none rfl rfl
theorem pageWalk : Statement (Instr.pageWalk) := of_none rfl rfl
theorem translationInvalidation : Statement (Instr.translationInvalidation) := of_none rfl rfl
theorem invalidationAcknowledgement : Statement (Instr.invalidationAcknowledgement) := of_none rfl rfl
theorem coherentLoadRenewal : Statement (Instr.coherentLoadRenewal) := of_none rfl rfl
theorem coherentStoreAtHome : Statement (Instr.coherentStoreAtHome) := of_none rfl rfl
theorem ptsTick : Statement (Instr.ptsTick) := of_none rfl rfl
theorem noncoherentWriteback : Statement (Instr.noncoherentWriteback) := of_none rfl rfl
theorem amoAtHome : Statement (Instr.amoAtHome) := of_none rfl rfl
theorem reductionAtHome : Statement (Instr.reductionAtHome) := of_none rfl rfl
theorem fullEmptyAtHome : Statement (Instr.fullEmptyAtHome) := of_none rfl rfl
theorem waiterWithdrawal : Statement (Instr.waiterWithdrawal) := of_none rfl rfl
theorem waitwRegistration : Statement (Instr.waitwRegistration) := of_none rfl rfl
theorem waitwWake : Statement (Instr.waitwWake) := of_none rfl rfl
theorem resumecRequest : Statement (Instr.resumecRequest) := of_none rfl rfl
theorem remoteLocalAccess : Statement (Instr.remoteLocalAccess) := of_none rfl rfl
theorem resizeAtSlice : Statement (Instr.resizeAtSlice) := of_none rfl rfl
theorem frameExchange : Statement (Instr.frameExchange) := of_none rfl rfl
theorem scrubLine : Statement (Instr.scrubLine) := of_none rfl rfl
theorem versionStoreAtHome : Statement (Instr.versionStoreAtHome) := of_none rfl rfl
theorem versionLoadAtHome : Statement (Instr.versionLoadAtHome) := of_none rfl rfl
theorem versionQueryAtHome : Statement (Instr.versionQueryAtHome) := of_none rfl rfl
theorem versionRetraction : Statement (Instr.versionRetraction) := of_none rfl rfl
theorem exactReadRelease : Statement (Instr.exactReadRelease) := of_none rfl rfl
theorem readMarkRemoval : Statement (Instr.readMarkRemoval) := of_none rfl rfl
theorem versionCommit : Statement (Instr.versionCommit) := of_none rfl rfl
theorem barrierObjectOperation : Statement (Instr.barrierObjectOperation) := of_none rfl rfl
theorem barrierObjectNotice : Statement (Instr.barrierObjectNotice) := of_none rfl rfl
theorem mbarWaitTimeout : Statement (Instr.mbarWaitTimeout) := of_none rfl rfl
theorem laneStep : Statement (Instr.laneStep) := of_none rfl rfl
theorem laneInstructionComplete : Statement (Instr.laneInstructionComplete) := of_none rfl rfl
theorem copyRowTransfer : Statement (Instr.copyRowTransfer) := of_none rfl rfl
theorem transposeRowRead : Statement (Instr.transposeRowRead) := of_none rfl rfl
theorem fillLanding : Statement (Instr.fillLanding) := of_none rfl rfl
theorem drainComplete : Statement (Instr.drainComplete) := of_none rfl rfl
theorem matrixCommandStart : Statement (Instr.matrixCommandStart) := of_none rfl rfl
theorem matrixCommandComplete : Statement (Instr.matrixCommandComplete) := of_none rfl rfl
theorem tmulkStep : Statement (Instr.tmulkStep) := of_none rfl rfl
theorem decodeRequestStart : Statement (Instr.decodeRequestStart) := of_none rfl rfl
theorem frameDecoded : Statement (Instr.frameDecoded) := of_none rfl rfl
theorem decodeComplete : Statement (Instr.decodeComplete) := of_none rfl rfl
theorem routerCycle : Statement (Instr.routerCycle) := of_none rfl rfl
theorem cometAdvance : Statement (Instr.cometAdvance) := of_none rfl rfl
theorem flitEjection : Statement (Instr.flitEjection) := of_none rfl rfl
theorem packetReassembled : Statement (Instr.packetReassembled) := of_none rfl rfl
theorem retryReceive : Statement (Instr.retryReceive) := of_none rfl rfl
theorem backoffExpiry : Statement (Instr.backoffExpiry) := of_none rfl rfl
theorem throttleWindowEnd : Statement (Instr.throttleWindowEnd) := of_none rfl rfl
theorem jenayLinkArrival : Statement (Instr.jenayLinkArrival) := of_none rfl rfl
theorem jenayAnswerReturn : Statement (Instr.jenayAnswerReturn) := of_none rfl rfl
theorem gvtRoundStart : Statement (Instr.gvtRoundStart) := of_none rfl rfl
theorem colourFlip : Statement (Instr.colourFlip) := of_none rfl rfl
theorem leafReport : Statement (Instr.leafReport) := of_none rfl rfl
theorem gvtWaveStart : Statement (Instr.gvtWaveStart) := of_none rfl rfl
theorem gvtRoundClose : Statement (Instr.gvtRoundClose) := of_none rfl rfl
theorem gvtBroadcastReceive : Statement (Instr.gvtBroadcastReceive) := of_none rfl rfl
theorem commitStep : Statement (Instr.commitStep) := of_none rfl rfl
theorem versionArrivalNotice : Statement (Instr.versionArrivalNotice) := of_none rfl rfl
theorem rollback : Statement (Instr.rollback) := of_none rfl rfl
theorem ringPressureRollback : Statement (Instr.ringPressureRollback) := of_none rfl rfl
theorem packetDelivery : Statement (Instr.packetDelivery) := of_none rfl rfl
theorem resume : Statement (Instr.resume) := of_none rfl rfl
theorem resumeWithSkip : Statement (Instr.resumeWithSkip) := of_none rfl rfl
theorem kill : Statement (Instr.kill) := of_none rfl rfl
theorem contextWrite : Statement (Instr.contextWrite) := of_none rfl rfl
theorem tileTableWrite : Statement (Instr.tileTableWrite) := of_none rfl rfl
theorem accumulatorWrite : Statement (Instr.accumulatorWrite) := of_none rfl rfl
theorem sideLogDiscard : Statement (Instr.sideLogDiscard) := of_none rfl rfl
theorem replay : Statement (Instr.replay) := of_none rfl rfl
theorem replayEntryResult : Statement (Instr.replayEntryResult) := of_none rfl rfl
theorem prectlStop : Statement (Instr.prectlStop) := of_none rfl rfl
theorem stopFlip : Statement (Instr.stopFlip) := of_none rfl rfl
theorem eclipseCutClose : Statement (Instr.eclipseCutClose) := of_none rfl rfl
theorem strandSave : Statement (Instr.strandSave) := of_none rfl rfl
theorem coreSave : Statement (Instr.coreSave) := of_none rfl rfl
theorem prectlRestore : Statement (Instr.prectlRestore) := of_none rfl rfl
theorem launchRequestAtManagementCore : Statement (Instr.launchRequestAtManagementCore) := of_none rfl rfl
theorem cancelRequestAtManagementCore : Statement (Instr.cancelRequestAtManagementCore) := of_none rfl rfl
theorem linkLevelReplay : Statement (Instr.linkLevelReplay) := of_none rfl rfl
theorem linkCreditReturn : Statement (Instr.linkCreditReturn) := of_none rfl rfl

end Sys2Proof.Laws.Framing
end

