-- ==== Sys2Proof/Laws/Ring.lean ====
section
/-! SUPPORT. The entries of a retention-ring block are as many as its size says (spec/18_optimistic.md R345, R346). -/

namespace Sys2Proof.Machine

/-- A log entry has as many ring entries as its size, where the record of a deferred spawn has its eight words. -/
theorem LogEntry.entries_length {e : LogEntry} (h : ∀ t, e = .spawn t → t.args.length = 6) : e.entries.length = e.size := by
  cases e with
  | spawn t =>
    have h6 := h t rfl
    match ha : t.args, h6 with
    | [a, b, c, d, e, f], _ => simp [LogEntry.entries, LogEntry.size, Task.record, pairWords, ha]
  | _ => rfl

/-- A block has as many entries as its size says. -/
theorem Block.entries_length {b : Block} {n : Nat} (h : b.t.t.args.length = 6) (hl : ∀ t, LogEntry.spawn t ∈ b.log → t.args.length = 6) :
    (b.entries n).length = b.size := by
  have hlog : (b.log.flatMap LogEntry.entries).length = (b.log.map LogEntry.size).sum := by
    rw [List.length_flatMap]
    congr 1
    apply List.map_congr_left
    intro e he
    exact LogEntry.entries_length fun t ht => hl t (ht ▸ he)
  match ha : b.t.t.args, h with
  | [a, b', c, d, e, f], _ =>
    simp [Block.entries, Block.size, Task.envelope, Task.record, pairWords, ha] at hlog ⊢
    omega

end Sys2Proof.Machine
end

