-- ==== Sys2Proof/Tests/Slice0.lean ====
section
/-! SUPPORT. Tests: ill-formed instructions that the check refuses, words written out from the encodings of the spec, and states that meet
the hypotheses of the statements. -/

namespace Sys2Proof.Tests

open Sys2Proof.Machine

set_option Elab.async false

/-! ## States that meet hypotheses -/

/-- A device with all memory trained whose strand 0 of core 0 holds the issue slot; its job has SLICE set, a first gigabyte of tier memory that
may be read and written, and host memory behind it. -/
def board : State :=
  let s := { State.reset.withFetchWord 32 0 with trained := 0xFFF#12, stage := 4 }
  let s := s.updJob 0 fun j => { j with policy := 0x8000000000000000#64 }
  s.updCore 0 fun v => { v with dtlb := [{ job := 0, va := 0, size := 30, pa := 0, leaf := 0xF#64 },
    { job := 0, va := 0x40000000#48, size := 30, pa := 0x200000000000#52, leaf := 0xF#64 }] }

/-- The board with strand 0 of core 0 changed. -/
def withStrand (f : Strand → Strand) : State := board.updStrand 0 0 f

/-- A strand with values in x registers. -/
def regs (l : List (XReg × Word)) (t : Strand) : Strand := l.foldl (fun t e => t.putX e.1 e.2) t

/-- The conditions of `CanIssue` as one value. -/
def mayIssue (s : State) (c : CoreId) (k : StrandId) (srcs dsts : List XReg) : Bool :=
  decide (s.offer = some (c, k)) &&
  (srcs ++ dsts).all (fun r => r == 63#6 || decide (r.toNat ≤ (s.launchOf (s.strand c k)).nreg)) &&
  srcs.all (fun r => (s.strand c k).full (.x r) && !(s.strand c k).badX.contains r.toNat) &&
  dsts.all (fun r => r == 63#6 || (s.strand c k).full (.x r)) &&
  (!dsts.contains 63#6 || (!(s.strand c (k + 1)).full (.x 63#6) && !s.producing c k 63#6))

theorem canIssue_iff {s : State} {c : CoreId} {k : StrandId} {srcs dsts : List XReg} :
    CanIssue s c k srcs dsts ↔ mayIssue s c k srcs dsts = true := by
  simp only [mayIssue, Bool.and_eq_true, Bool.or_eq_true, List.all_eq_true, List.mem_append, decide_eq_true_eq, beq_iff_eq,
    Bool.not_eq_true', List.contains_eq_mem, decide_eq_false_iff_not]
  constructor
  · intro h
    refine ⟨⟨⟨⟨h.slot, h.legal⟩, fun r hr => ⟨h.full r hr, h.sound r hr⟩⟩, fun r hr => ?_⟩, ?_⟩
    · by_cases hn : r = 63#6
      · exact .inl hn
      · exact .inr (h.dests r hr hn)
    · by_cases hm : 63#6 ∈ dsts
      · exact .inr (h.room hm)
      · exact .inl hm
  · rintro ⟨⟨⟨⟨h1, h2⟩, h3⟩, h4⟩, h5⟩
    exact ⟨h1, h2, fun r hr => (h3 r hr).1, fun r hr => (h3 r hr).2, fun r hr hn => (h4 r hr).resolve_left hn,
      fun hm => h5.resolve_left fun hn => hn hm⟩

theorem noneDue_iff {s : State} {c : CoreId} {k : StrandId} {d : XReg} : NoneDue s c k d ↔
    ((s.strand c k).pend.all fun p => p.r != .x d) = true ∧ ((s.strand c (destStrand k d)).fills.all fun f => f.1 != d) = true := by
  simp only [NoneDue, List.all_eq_true, bne_iff_ne]

theorem ownLocal_iff {s : State} {c : CoreId} {k : StrandId} {va : BitVec 48} {n off : Nat} : OwnLocal s c k va n off ↔
    windowOf c va = some (c, off) ∧ va.toNat % n = 0 ∧ s.localCheck c (s.strand c k).job off n = none ∧
      (∀ m ∈ slotsOf off n, (s.slot c m).busy = false) ∧ s.poisoned (localBase c + off) n = false ∧
      (s.slogOverlap c k va n = false ∧ s.blockInto c k off n = false ∧ s.slogPage c k va = none) :=
  ⟨fun h => ⟨h.window, h.aligned, h.backed, h.idle, h.healthy, h.clear⟩, fun ⟨h1, h2, h3, h4, h5, h6⟩ => ⟨h1, h2, h3, h4, h5, h6⟩⟩

/-! ## Scalar instructions and control registers -/

/-- Own slot and successor's slot: a source nf and a destination nf (R133). -/
def forwarding : State := withStrand fun t => { regs [(63#6, 7#64), (1#6, 3#64)] t with xF := BitVec.allOnes 64 }

theorem witness_issue :
    CanIssue board 0 0 [] [] ∧ CanIssue board 0 0 [0#6, 62#6] [62#6] ∧ CanIssue board 0 0 [1#6, 2#6, 3#6] [0#6] ∧
      CanIssue forwarding 0 0 [63#6, 1#6] [63#6] := by
  simp only [canIssue_iff]
  decide +kernel

theorem witness_producer : CanIssue board 0 0 [1#6, 2#6] [3#6] ∧ NoneDue board 0 0 3#6 ∧ CanIssue forwarding 0 0 [1#6, 63#6] [63#6] ∧
    NoneDue forwarding 0 0 63#6 := by
  simp only [canIssue_iff, noneDue_iff]
  decide +kernel

def indexed : State := withStrand fun t => { t with iF := 0xF#4 }

theorem witness_ControlReads : CanIssue indexed 0 0 [] [3#6] ∧ ∀ n : BitVec 2, (indexed.strand 0 0).full (.i n) = true := by
  simp only [canIssue_iff]
  decide +kernel

/-- A launch of 5 registers. -/
def fewRegs : State := board.updLaunch 0 0 fun l => { l with nreg := 5 }

theorem witness_IllegalRegister : fewRegs.offer = some (0, 0) ∧ (fewRegs.launchOf (fewRegs.strand 0 0)).nreg < (6#6 : XReg).toNat ∧
    (6#6 : XReg) ≠ 63#6 := by
  decide +kernel

/-- x5 is empty. -/
def lacking : State := withStrand fun t => t.setF (.x 5#6) false

theorem witness_EmptySources : lacking.offer = some (0, 0) ∧
    (∀ r, r = 5#6 ∨ r = 5#6 ∨ r = 3#6 → r = 63#6 ∨ r.toNat ≤ (lacking.launchOf (lacking.strand 0 0)).nreg) ∧
    (lacking.strand 0 0).full (.x 5#6) = false ∧ (lacking.strand 0 0).full (.x 2#6) = true := by
  decide +kernel

/-! ## Task instructions -/

def optimistic : State := withStrand fun t => { t with opt := true }

theorem witness_IrrevocableInOptimistic : (optimistic.strand 0 0).opt = true ∧ CanIssue optimistic 0 0 [1#6, 2#6] [3#6] ∧
    optimistic.claiming 0 0 = false ∧ (optimistic.strand 0 0).endv ≤ (optimistic.strand 0 0).cur := by
  simp only [canIssue_iff]
  decide +kernel

theorem witness_AgentRequests : (board.strand 0 0).opt = false ∧ board.slotFree 0 0 = true ∧ CanIssue board 0 0 [1#6, 2#6] [3#6] ∧
    (board.job (board.strand 0 0).job).policy.getLsbD 63 = true ∧ ((board.strand 0 0).rx 1#6).extractLsb' 58 6 = board.devnum := by
  simp only [canIssue_iff]
  decide +kernel

theorem witness_LaunchRequests : CanIssue board 0 0 [1#6] [3#6] ∧ (board.strand 0 0).opt = false ∧
    ((board.strand 0 0).rx 1#6).toNat % 64 = 0 ∧ board.seqFree 0 = true ∧ (board.core 0).sendRoom = true ∧ board.slotFree 0 0 = true := by
  simp only [canIssue_iff]
  decide +kernel

theorem witness_Spawns : CanIssue board 0 0 ([1#6, 2#6] ++ argRegs 57#6) [] ∧ (board.strand 0 0).opt = false ∧
    (board.job (board.strand 0 0).job).live 0 = true ∧ (board.launch (board.strand 0 0).job 0).opt = false ∧
    (board.strand 0 0).vt ≤ (board.strand 0 0).rx 2#6 ∧ board.seqFree 0 = true ∧ (board.core 0).sendRoom = true := by
  simp only [canIssue_iff]
  decide +kernel

theorem witness_Migrates : CanIssue board 0 0 [1#6] [] ∧ (board.strand 0 0).opt = false ∧ MayEnd board 0 0 ∧ (board.strand 0 0).badX = [] ∧
    board.seqFree 0 = true ∧ (board.core 0).sendRoom = true := by
  simp only [canIssue_iff, MayEnd]
  decide +kernel

/-- x1, x3 and x9, and x6 alone, cannot be read. -/
theorem witness_UnreadableArguments : FirstBadArg (withStrand fun t => { t with badX := [3, 1, 9] }) 0 0 1 ∧
    FirstBadArg (withStrand fun t => { t with badX := [6] }) 0 0 6 ∧ (withStrand fun t => { t with badX := [6] }).quiet 0 0 = true ∧
    CanIssue (withStrand fun t => { t with badX := [6] }) 0 0 [1#6] [] := by
  refine ⟨⟨by decide, by decide, by decide +kernel, by decide +kernel, ?_⟩, ⟨by decide, by decide, by decide +kernel, by decide +kernel, ?_⟩,
    by decide +kernel, canIssue_iff.2 (by decide +kernel)⟩
  · intro m h1 h2
    omega
  · intro m h1 h2 h
    have hb : ((withStrand fun t => { t with badX := [6] }).strand 0 0).badX = [6] := by decide +kernel
    simp only [hb, List.mem_singleton] at h
    omega

theorem witness_Exits : CanIssue board 0 0 [] [] ∧ MayEnd board 0 0 ∧ (board.strand 0 0).opt = false ∧ CanIssue optimistic 0 0 [] [] ∧
    MayEnd optimistic 0 0 ∧ (optimistic.strand 0 0).opt = true := by
  simp only [canIssue_iff, MayEnd]
  decide +kernel

/-- x1 names byte 128 of the first page. -/
def pointing : State := withStrand (regs [(1#6, 128#64), (2#6, 5#64), (4#6, 0x7FFFFFF00000#64)])

theorem witness_ReachesHome : ReachesHome pointing 0 0 (((pointing.strand 0 0).rx 1#6).extractLsb' 0 48) 8 .w 128#52 0xF#64 ∧
    ReachesHome pointing 0 0 (((pointing.strand 0 0).rx 1#6).extractLsb' 0 48) 128 .r 128#52 0xF#64 := by
  simp only [ReachesHome]
  decide +kernel

theorem witness_SetsAside : MayEnd pointing 0 0 ∧ (pointing.strand 0 0).task = some {} ∧ QueueTakes pointing 0 0 ∧
    CanIssue pointing 0 0 [1#6] [] ∧ (pointing.strand 0 0).opt = false ∧ (pointing.strand 0 0).badX = [] ∧ CanIssue optimistic 0 0 [] [] ∧
    MayEnd optimistic 0 0 ∧ (optimistic.strand 0 0).task = some {} ∧ QueueTakes optimistic 0 0 := by
  simp only [canIssue_iff, MayEnd, QueueTakes]
  decide +kernel

def iterating : State := withStrand fun t => { regs [(1#6, 128#64)] t with desc := 128#64, cur := 2#64, endv := 3#64, ext := 0x20003#64 }

theorem witness_Iterates : CanIssue iterating 0 0 [1#6] [3#6] ∧ iterating.claiming 0 0 = false ∧
    (iterating.strand 0 0).opt = false ∧ (((iterating.strand 0 0).rx 1#6).extractLsb' 0 48).toNat % 64 = 0 ∧
    ReachesHome iterating 0 0 128#48 8 .w 128#52 0xF#64 ∧ iterating.slotFree 0 0 = true ∧
    (iterating.strand 0 0).rx 1#6 = (iterating.strand 0 0).desc ∧ (iterating.strand 0 0).cur < (iterating.strand 0 0).endv ∧
    CanIssue pointing 0 0 [1#6] [3#6] ∧ pointing.claiming 0 0 = false ∧ (pointing.strand 0 0).rx 1#6 ≠ (pointing.strand 0 0).desc ∧
    ReachesHome pointing 0 0 128#48 8 .w 128#52 0xF#64 ∧ pointing.slotFree 0 0 = true := by
  simp only [canIssue_iff, ReachesHome]
  decide +kernel

/-! ## Memory instructions, barriers and versions -/

theorem ownLocal_pointing : OwnLocal pointing 0 0 (ldAddr (pointing.strand 0 0) 4#6 0#9 3#2) 8 0 := by
  simp only [ownLocal_iff]
  decide +kernel

theorem ownLocal_wide : OwnLocal pointing 0 0 (((pointing.strand 0 0).rx 4#6).extractLsb' 0 48) 16 0 := by
  simp only [ownLocal_iff]
  decide +kernel

theorem ownLocal_block : OwnLocal pointing 0 0 (((pointing.strand 0 0).rx 4#6).extractLsb' 0 48) 128 0 := by
  simp only [ownLocal_iff]
  decide +kernel

theorem witness_LocalLoads : CanIssue pointing 0 0 [4#6] [3#6] ∧ NoneDue pointing 0 0 3#6 ∧ (3#6 : XReg) ≠ 0#6 ∧ (7#3 : BitVec 3) ≠ 0#3 ∧
    (pointing.strand 0 0).full (.m 7#3) = true ∧ ∀ p ∈ (pointing.strand 0 0).pend, p.r ≠ .m 7#3 := by
  simp only [canIssue_iff, noneDue_iff]
  decide +kernel

/-- An optimistic task of three tile operands and a private scratch of one slot behind them, slot 4, whose last byte x4 names. -/
def scratching : State :=
  let s := withStrand fun t => { regs [(4#6, 0x7FFFFFF027FF#64), (5#6, 0x7FFFFFF02000#64)] t with opt := true, base := 1, ntile := 3, nscr := 1 }
  s.updSlot 0 4 fun e => { e with jobtag := 0 }

theorem ownLocal_scratch : OwnLocal scratching 0 0 (ldAddr (scratching.strand 0 0) 4#6 0#9 0#2) 1 0x27FF ∧
    OwnLocal scratching 0 0 (((scratching.strand 0 0).rx 5#6).extractLsb' 0 48) 16 0x2000 := by
  simp only [ownLocal_iff]
  decide +kernel

theorem witness_OptimisticStores : CanIssue scratching 0 0 [4#6, 2#6] [] ∧ (scratching.strand 0 0).opt = true ∧ OwnScratch scratching 0 0 0x27FF 1 ∧
    OwnScratch scratching 0 0 0x2000 16 ∧ ¬OwnScratch scratching 0 0 0x1FFF 1 := by
  simp only [canIssue_iff, OwnScratch]
  decide +kernel

theorem witness_LocalStores : (pointing.strand 0 0).opt = false ∧ CanIssue pointing 0 0 [4#6, 2#6] [] ∧
    (pointing.strand 0 0).full (.m 0#3) = true := by
  simp only [canIssue_iff]
  decide +kernel

theorem witness_AccessFaults : CanIssue pointing 0 0 [2#6] [3#6] ∧ (ldAddr (pointing.strand 0 0) 2#6 0#9 1#2).toNat % 2 ^ (1#2 : BitVec 2).toNat ≠ 0 ∧
    CanIssue pointing 0 0 [2#6, 2#6] [] ∧ (((pointing.strand 0 0).rx 2#6).extractLsb' 0 48).toNat % 16 ≠ 0 ∧
    CanIssue optimistic 0 0 [2#6, 2#6] [] ∧ (optimistic.strand 0 0).opt = true ∧
    optimistic.inScratch 0 0 (ldAddr (optimistic.strand 0 0) 2#6 0#9 3#2) 8 = false := by
  simp only [canIssue_iff]
  decide +kernel

theorem witness_BlockRequests : (pointing.strand 0 0).opt = false ∧ pointing.slotFree 0 0 = true ∧ CanIssue pointing 0 0 [1#6, 4#6] [3#6] ∧
    (pointing.core 0).dfind (offOf 128#52 / 128) (pointing.keyOf 0 ((0xF#64 : Word).getLsbD 5)) = none ∧
    ReachesHome pointing 0 0 ((pointing.job 0).hintbase + BitVec.ofNat 48 (16 * ((pointing.strand 0 0).rx 1#6).toNat % 4096) + 8#48) 8 .w
      0x808#52 0xF#64 := by
  simp only [canIssue_iff, ReachesHome]
  decide +kernel

/-- The core holds line 1 with one dirty byte. -/
def caching : State := pointing.updCore 0 fun v => { v with dcache := [{ line := 1, data := 9#1024, nc := true, dirty := 1#128 }] }

theorem witness_LineRequests : pointing.reach 0 0 128#48 1 .r = .at' (.own 128#52) 0xF#64 ∧ pointing.filling 0 0 128#52 = false ∧
    pointing.slotFree 0 0 = true ∧ CanIssue pointing 0 0 [1#6, 2#6] [] ∧ pointing.hit 0 128#52 none = none ∧
    (pointing.strand 0 0).rx 2#6 ≠ 0#64 ∧ (pointing.core 0).dfind 1 none = none ∧
    caching.reach 0 0 128#48 1 .r = .at' (.own 128#52) 0xF#64 ∧ caching.filling 0 0 128#52 = false ∧ caching.slotFree 0 0 = true ∧
    CanIssue caching 0 0 [1#6] [] ∧
    (caching.core 0).dfind (offOf 128#52 / 128) (caching.keyOf 0 ((0xF#64 : Word).getLsbD 5)) =
      some { line := 1, data := 9#1024, nc := true, dirty := 1#128 } := by
  simp only [canIssue_iff]
  decide +kernel

/-- A load of the strand is under way. -/
def loading : State := pointing.updCore 0 fun v => { v with reqs := [{ id := 3, isLoad := true, pa := 0x80#52 }] }

theorem fenceMay_of {s : State} {c : CoreId} {k : StrandId} (n m : Nat) (h1 : (s.core c).reqs = []) (h2 : s.slogOf c k = [])
    (h3 : (s.core c).copies = []) (h4 : (s.core c).mq ++ (s.core c).mrun.toList = []) : FenceMay s c k n m :=
  ⟨by simp [h1], by simp [h1], by simp [h2], by simp [h3], by simp [h4], by simp [h1]⟩

/-- A load of a tier holds an acquire of a wider scope than .core, and no release. -/
theorem witness_Fences : CanIssue board 0 0 [] [] ∧ (∀ x ∈ (board.core 0).dcache, x.dirty = 0#128) ∧ FenceMay board 0 0 3 4 ∧
    CanIssue loading 0 0 [] [] ∧ (∀ x ∈ (loading.core 0).dcache, x.dirty = 0#128) ∧ ¬FenceMay loading 0 0 1 1 ∧
    FenceMay loading 0 0 1 0 ∧ CanIssue caching 0 0 [] [] ∧ (∃ x ∈ (caching.core 0).dcache, x.dirty ≠ 0#128) ∧
    ((caching.core 0).dcache.map fun x => (x.line, x.key)).Nodup := by
  have hr : (loading.core 0).reqs = [{ id := 3, isLoad := true, pa := 0x80#52 }] := by decide +kernel
  refine ⟨canIssue_iff.2 (by decide +kernel), by decide +kernel, fenceMay_of 3 4 (by decide +kernel) (by decide +kernel) (by decide +kernel)
    (by decide +kernel), canIssue_iff.2 (by decide +kernel), by decide +kernel, fun h => ?_, ⟨fun _ r h _ _ => ?_, by simp, by simp, by simp, by simp, by simp⟩,
    canIssue_iff.2 (by decide +kernel), by decide +kernel, by decide +kernel⟩
  · have := (h.loads (by decide) _ (by rw [hr]; exact List.mem_singleton.2 rfl) rfl rfl).1
    omega
  · rw [hr, List.mem_singleton] at h
    subst h
    decide +kernel

def putting : State := withStrand (regs [(1#6, 0x3E000010#64), (2#6, 0x3F000010#64)])

theorem witness_PutReg : CanIssue putting 0 0 [1#6, 2#6] [] ∧ (putting.strand 0 0).opt = false ∧
    ((putting.strand 0 0).rx 1#6).extractLsb' 24 6 = 62#6 ∧ ((putting.strand 0 0).rx 2#6).extractLsb' 24 6 = 63#6 := by
  simp only [canIssue_iff]
  decide +kernel

/-- An optimistic task with its block in the ring of its core. -/
def ringed : State :=
  let s := (withStrand fun t => { regs [(1#6, 128#64), (2#6, 5#64)] t with opt := true }).updLaunch 0 0 fun l => { l with opt := true, ringb := 4096 }
  s.updCore 0 fun v => { v with rings := [{ job := 0, lslot := 0, t := {}, strand := some 0 }] }

theorem witness_Deferred : CanIssue ringed 0 0 [1#6, 2#6] [] ∧ (ringed.strand 0 0).opt = true ∧
    ReachesHome ringed 0 0 128#48 8 .w 128#52 0xF#64 ∧ ringed.ringRoom 0 0 2 = true ∧ CanIssue pointing 0 0 [4#6, 2#6] [] ∧
    (pointing.strand 0 0).opt = false ∧ OwnLocal pointing 0 0 (((pointing.strand 0 0).rx 4#6).extractLsb' 0 48) 8 0 := by
  simp only [canIssue_iff, ownLocal_iff, ReachesHome]
  decide +kernel

theorem witness_wordRequests : (pointing.strand 0 0).opt = false ∧ pointing.slotFree 0 0 = true ∧ CanIssue pointing 0 0 [1#6, 2#6, 3#6] [3#6] ∧
    ReachesHome pointing 0 0 128#48 8 .w 128#52 0xF#64 ∧ ReachesHome pointing 0 0 128#48 8 .r 128#52 0xF#64 ∧
    amoValue 9 (BitVec.ofNat 64 (leValue pointing (localBase 0) 8)) 5#64 0#64 = some 5#64 ∧ CanIssue pointing 0 0 [4#6, 2#6, 0#6] [0#6] ∧
    NoneDue pointing 0 0 0#6 ∧ OwnLocal pointing 0 0 (((pointing.strand 0 0).rx 4#6).extractLsb' 0 48) 8 0 := by
  simp only [canIssue_iff, ReachesHome, noneDue_iff, ownLocal_iff]
  decide +kernel

/-- Barrier 0 expects 3 and has 2 arrivals. -/
def arrived : State :=
  let s := withStrand (regs [(1#6, 1#64), (2#6, 2#64), (4#6, 65535#64)])
  s.setBar 0 (s.bar 0 0 0#8).1 { (s.bar 0 0 0#8).2 with exp := 3, arv := 2 }

theorem witness_Barriers : arrived.released 0 0 = true ∧ (0#8 : BitVec 8).toNat < (arrived.launchOf (arrived.strand 0 0)).nbar ∧ CanIssue arrived 0 0 [1#6, 2#6, 4#6] [3#6] ∧
    (arrived.strand 0 0).opt = false ∧ (barOf arrived 0 0 1#8).arv = 0 ∧ (barOf arrived 0 0 0#8).exp ≠ 0 ∧
    (barOf arrived 0 0 0#8).arv.toNat + ((arrived.strand 0 0).rx 1#6).toNat = (barOf arrived 0 0 0#8).exp.toNat ∧
    (barOf arrived 0 0 0#8).gen.toNat ≠ ((arrived.strand 0 0).rx 1#6).toNat % 2 ^ 16 ∧
    (barOf arrived 0 0 0#8).gen.toNat = ((arrived.strand 0 0).rx 0#6).toNat % 2 ^ 16 := by
  simp only [canIssue_iff]
  decide +kernel

theorem witness_BarrierFaults : (barOf arrived 0 0 0#8).exp.toNat < (barOf arrived 0 0 0#8).arv.toNat + ((arrived.strand 0 0).rx 2#6).toNat ∧
    1 ≤ ((arrived.strand 0 0).rx 2#6).toNat ∧ ((arrived.strand 0 0).rx 2#6).toNat ≤ 65535 ∧
    (arrived.launchOf (arrived.strand 0 0)).nbar ≤ (255#8 : BitVec 8).toNat ∧ (barOf arrived 0 0 0#8).arv ≠ 0 ∧
    (barOf arrived 0 0 0#8).exp ≠ 0 ∧ (barOf arrived 0 0 1#8).exp = 0 ∧ CanIssue arrived 0 0 [2#6] [3#6] ∧
    (let s := arrived.setBar 0 (arrived.bar 0 0 0#8).1 { (arrived.bar 0 0 0#8).2 with exp := 3, arv := 3 }
     (barOf s 0 0 0#8).exp ≠ 0 ∧ (barOf s 0 0 0#8).exp.toNat < (barOf s 0 0 0#8).arv.toNat + 1 ∧ CanIssue s 0 0 [] [3#6] ∧ s.released 0 0 = true) ∧
    CanIssue optimistic 0 0 [2#6] [3#6] ∧ (optimistic.strand 0 0).opt = true := by
  simp only [canIssue_iff]
  decide +kernel

/-- x1 names 16 bytes of core 1, x2 a count of 65,535. -/
def objects : State :=
  (withStrand (regs [(1#6, 0x7FFE00100010#64), (2#6, 65535#64)])).updSlot 1 0 fun _ => { jobtag := 0, use := 3 }

theorem witness_BarrierObjects : (((objects.strand 0 0).rx 1#6).extractLsb' 0 48).toNat % 16 = 0 ∧
    objects.slogOverlap 0 0 0x7FFE00100010#48 16 = false ∧ objects.reach 0 0 0x7FFE00100010#48 16 .w = .at' (.loc 1 16) 0 ∧
    (1#12 : CoreId).toNat / 64 = (0#12 : CoreId).toNat / 64 ∧ objects.slotFree 0 0 = true ∧ CanIssue objects 0 0 [1#6, 2#6] [2#6] ∧
    (objects.strand 0 0).opt = false ∧ 1 ≤ ((objects.strand 0 0).rx 2#6).toNat ∧ ((objects.strand 0 0).rx 2#6).toNat ≤ 65535 := by
  simp only [canIssue_iff]
  decide +kernel

/-- x1 names core 64, of the next cluster, x2 byte 128 of a tier, x4 byte 8 of core 0. -/
def farObjects : State :=
  (withStrand (regs [(1#6, 0x7FFE04000010#64), (2#6, 128#64), (4#6, 0x7FFFFFF00008#64), (5#6, 65536#64)])).updSlot 64 0 fun _ => { jobtag := 0, use := 3 }

theorem witness_BarrierObjectFaults : CanIssue farObjects 0 0 [1#6, 4#6] [] ∧ CanIssue farObjects 0 0 [2#6, 0#6] [0#6] ∧ (farObjects.strand 0 0).opt = false ∧
    CanIssue optimistic 0 0 [1#6, 2#6] [] ∧ (optimistic.strand 0 0).opt = true ∧
    ((farObjects.strand 0 0).rx 0#6).toNat = 0 ∧ 65535 < ((farObjects.strand 0 0).rx 5#6).toNat ∧
    1 ≤ ((farObjects.strand 0 0).rx 2#6).toNat ∧ ((farObjects.strand 0 0).rx 2#6).toNat ≤ 65535 ∧
    (((farObjects.strand 0 0).rx 4#6).extractLsb' 0 48).toNat % 16 ≠ 0 ∧ farObjects.slogOverlap 0 0 0x7FFE04000010#48 16 = false ∧
    farObjects.reach 0 0 0x7FFE04000010#48 16 .w = .at' (.loc 64 16) 0 ∧ (64#12 : CoreId).toNat / 64 ≠ (0#12 : CoreId).toNat / 64 ∧
    farObjects.slogOverlap 0 0 128#48 16 = false ∧ farObjects.reach 0 0 128#48 16 .w = .at' (.own 128#52) 0xF#64 := by
  simp only [canIssue_iff]
  decide +kernel

/-- A strand with a READY tile in slot 1 and a VT of 9. -/
def tiled : State :=
  (withStrand fun t => { regs [(1#6, 128#64), (2#6, 9#64), (4#6, 2#64)] t with vt := 9#64 }).updSlot 0 2 fun e => { e with st := 2 }

theorem witness_VersionLoads : ((tiled.strand 0 0).rx 1#6).extractLsb' 50 6 = tiled.devnum ∧ tiled.slotFree 0 0 = true ∧
    (tiled.strand 0 0).opt = false ∧ CanIssue tiled 0 0 [1#6, 4#6] [3#6] ∧ (tiled.strand 0 0).rx 4#6 < (tiled.strand 0 0).vt ∧
    tiled.operandSlot 0 0 0 .fill = .inl 1 ∧ (tiled.core 0).copyFree = true ∧
    (ringed.strand 0 0).opt = true ∧ ringed.ringRoom 0 0 2 = true := by
  simp only [canIssue_iff]
  decide +kernel

theorem witness_VersionStores : CanIssue tiled 0 0 [1#6, 2#6, 2#6 + 1#6] [] ∧ ((tiled.strand 0 0).rx (2#6 + 1#6)).toNat ≤ 65535 ∧
    (tiled.strand 0 0).rx 2#6 ≠ BitVec.allOnes 64 ∧ (tiled.strand 0 0).vt ≤ (tiled.strand 0 0).rx 2#6 ∧
    tiled.operandSlot 0 0 1 .drain = .inl 2 ∧ (tiled.core 0).copyFree = true ∧ tiled.slotFree 0 0 = true ∧
    (tiled.strand 0 0).opt = false ∧ CanIssue tiled 0 0 [1#6, 4#6, 4#6 + 1#6] [] ∧ (tiled.strand 0 0).rx 4#6 < (tiled.strand 0 0).vt := by
  simp only [canIssue_iff]
  decide +kernel

/-! ## The lane unit -/

/-- A strand with a VL and its pointers 1 to 5 at bytes 0x100, 0x200, 0x300, 0x400 and 0x500 of its core, m1 selecting every second element. -/
def streams (vl : Word) : State :=
  withStrand fun t => { t with vl := vl, m := [(1, 0x55555555555555555555555555555555#128)],
                               a := [(1, 0x100#64), (2, 0x200#64), (3, 0x300#64), (4, 0x400#64), (5, 0x500#64)] }

/-- `Aligned` as one value. -/
def isAligned (r : LaneRole) (p : Word) : Bool :=
  match r with
  | .elem w | .packed w =>
    if w = 4 then decide (ptrLen p % 2 = 0) else decide (ptrOff p % (w / 8) = 0) && decide (ptrStr p % (w / 8 : Nat) = 0)
  | .bits => true
  | .result => decide (ptrOff p % 4 = 0)
  | .base w => decide (ptrOff p % (w / 8) = 0)
  | .hyper => decide (ptrOff p % 32 = 0)

theorem aligned_of {r : LaneRole} {p : Word} (h : isAligned r p = true) : Aligned r p := by
  cases r <;> simp only [isAligned, Aligned] at h ⊢ <;> first | exact of_decide_eq_true h | (split_ifs at h ⊢ <;> simp_all)

/-- The conditions of `LaneFits`, decided. -/
theorem laneFits_of {s : State} {c : CoreId} {k : StrandId} {xs : List XReg} {m : BitVec 3} {ps : List (BitVec 4 × LaneRole)} {rd wr : List (Nat × Nat)}
    (h : mayIssue s c k xs [] = true ∧
      ((∀ p ∈ ps, (s.strand c k).full (.a p.1) = true) ∧ (s.strand c k).full (.m m) = true) ∧
      ((s.core c).lane = none ∧ (s.core c).reqs = [] ∧ s.blockInto c k 0 0x100000 = false) ∧
      0 < (s.strand c k).vl.toNat ∧
      (∀ x ∈ rd ++ wr, s.localCheck c (s.strand c k).job x.1 x.2 = none ∧ ∀ n ∈ slotsOf x.1 x.2, (s.slot c n).busy = false) ∧
      (∀ x ∈ rd, s.poisoned (localBase c + x.1) x.2 = false) ∧ ((s.strand c k).opt = false ∧ s.stopAsked c k = false) ∧
      (∀ p ∈ ps, isAligned p.2 ((s.strand c k).ra p.1) = true)) : LaneFits s c k xs m ps rd wr := by
  obtain ⟨h1, h2, h3, h4, h5, h6, h7, h8⟩ := h
  exact ⟨canIssue_iff.2 h1, h2, ⟨h3.1, by simp [h3.2.1], h3.2.2⟩, h4, fun p hp => aligned_of (h8 p hp), h5, h6, by simp [h7.1], h7.2⟩

theorem witness_LaneMoves : CanIssue board 0 0 [1#6] [1#6] ∧ CanIssue board 0 0 [] [] ∧ (∀ q, (board.strand 0 0).full (.a q) = true) ∧
    (board.strand 0 0).full (.m 1#3) = true ∧ (board.core 0).lane = none ∧ (board.core 0).reqs = [] ∧ board.blockInto 0 0 0 0x100000 = false ∧ (board.strand 0 0).vl = 0 := by
  simp only [canIssue_iff]
  decide +kernel

/-- Two sources of INT8 under m1, the greatest VL of one step with 4-byte elements, T4 elements, and a bit stream. -/
theorem witness_LaneEach :
    LaneFits (streams 4) 0 0 [] 1#3 [(1#4, .elem 8), (2#4, .elem 8), (3#4, .elem 8)]
      (lies 0x100#64 8 (List.range 4) ++ lies 0x200#64 8 (List.range 4)) (lies 0x300#64 8 (masked ((streams 4).strand 0 0) 1#3)) ∧
    LaneFits (streams 32) 0 0 [] 0#3 [(1#4, .elem 32), (2#4, .elem 32)] (lies 0x100#64 32 (List.range 32))
      (lies 0x200#64 32 (masked ((streams 32).strand 0 0) 0#3)) ∧
    LaneFits (streams 3) 0 0 [] 0#3 [(1#4, .elem 4), (2#4, .elem 4)] (lies 0x100#64 4 (List.range 3))
      (lies 0x200#64 4 (masked ((streams 3).strand 0 0) 0#3)) ∧
    LaneFits (streams 2) 0 0 [1#6] 0#3 [(1#4, .elem 16), (2#4, .elem 16), (3#4, .bits), (4#4, .elem 16)]
      (lies 0x100#64 16 (List.range 2) ++ lies 0x200#64 16 (List.range 2) ++ bitsLie 0x300#64 (List.range 2))
      (lies 0x400#64 16 (masked ((streams 2).strand 0 0) 0#3)) := by
  exact ⟨laneFits_of (by decide +kernel), laneFits_of (by decide +kernel), laneFits_of (by decide +kernel),
    laneFits_of (by decide +kernel)⟩

theorem witness_LaneReductions :
    LaneFits (streams 4) 0 0 [] 1#3 [(1#4, .elem 8), (2#4, .elem 8), (3#4, .result)]
      (lies 0x100#64 8 (List.range 4) ++ lies 0x200#64 8 (List.range 4)) [(0x300, 4)] ∧
    Apart [(0x300, 4)] (lies 0x100#64 8 (List.range 4) ++ lies 0x200#64 8 (List.range 4)) ∧ tyInt 8 = false ∧
    LaneFits (streams 4) 0 0 [] 1#3 [(1#4, .elem 8), (2#4, .elem 32)] (lies 0x100#64 8 (List.range 4)) (lies 0x200#64 32 (List.range 4)) := by
  exact ⟨laneFits_of (by decide +kernel), by unfold Apart; decide +kernel, by decide, laneFits_of (by decide +kernel)⟩

/-- Element and index streams at 0x100 and 0x200 whose indices are 0: the elements picked lie at the base. -/
theorem witness_LaneSelections :
    LaneFits (streams 2) 0 0 [] 0#3 [(1#4, .elem 8), (2#4, .elem 8), (3#4, .bits)]
      (lies 0x100#64 8 (List.range 2) ++ lies 0x200#64 8 (List.range 2)) (bitsLie 0x300#64 [0, 1]) ∧
    LaneFits (streams 2) 0 0 [] 0#3 [(1#4, .elem 8), (2#4, .bits), (3#4, .packed 8)]
      (lies 0x100#64 8 (List.range 2) ++ bitsLie 0x200#64 (List.range 2)) (lies 0x300#64 8 []) ∧
    LaneFits (streams 2) 0 0 [] 0#3 [(1#4, .packed 8), (2#4, .bits), (3#4, .elem 8)]
      (lies 0x100#64 8 [] ++ bitsLie 0x200#64 (List.range 2)) (lies 0x300#64 8 []) ∧
    LaneFits (streams 2) 0 0 [] 0#3 [(1#4, .base 8), (2#4, .elem 32), (3#4, .elem 8)]
      (lies 0x200#64 32 (List.range 2) ++ [(0x100, 1), (0x100, 1)]) (lies 0x300#64 8 [0, 1]) ∧
    Apart (lies 0x300#64 8 (List.range 2)) [(0x100, 1), (0x100, 1)] ∧
    LaneFits (streams 2) 0 0 [] 0#3 [(1#4, .elem 8), (2#4, .elem 32), (3#4, .base 8)]
      (lies 0x100#64 8 (List.range 2) ++ lies 0x200#64 32 (List.range 2)) [(0x300, 1), (0x300, 1)] ∧
    Apart [(0x300, 1), (0x300, 1)] (lies 0x100#64 8 (List.range 2) ++ lies 0x200#64 32 (List.range 2)) ∧
    LaneFits (streams 2) 0 0 [] 0#3 [(1#4, .elem 8), (2#4, .elem 32), (3#4, .elem 8)]
      (lies 0x100#64 8 (List.range 2) ++ lies 0x200#64 32 (List.range 2) ++ lies 0x100#64 8 [0, 0]) (lies 0x300#64 8 [0, 1]) ∧
    (List.range 2).map (fun i => elem (streams 2) 0 0x200#64 32 i) = [0, 0] := by
  exact ⟨laneFits_of (by decide +kernel), laneFits_of (by decide +kernel), laneFits_of (by decide +kernel),
    laneFits_of (by decide +kernel), by unfold Apart; decide +kernel, laneFits_of (by decide +kernel), by unfold Apart; decide +kernel,
    laneFits_of (by decide +kernel), by decide +kernel⟩

theorem witness_LaneAdam : (3#4 : BitVec 4) ≠ 15#4 ∧
    LaneFits (streams 2) 0 0 [] 1#3 [(1#4, .elem 32), (2#4, .elem 32), (3#4, .elem 32), (3#4 + 1#4, .hyper), (5#4, .elem 32)]
      (lies 0x100#64 32 (List.range 2) ++ lies 0x200#64 32 (List.range 2) ++ lies 0x300#64 32 (List.range 2) ++ lies 0x500#64 32 (List.range 2) ++
        [(0x400, 32)])
      (lies 0x200#64 32 [0] ++ lies 0x300#64 32 [0] ++ lies 0x500#64 32 [0]) := by
  exact ⟨by decide, laneFits_of (by decide +kernel)⟩

/-- The statements on many steps: 64 elements of 4 bytes in two steps from PIX 0, 34 of them in two from PIX 30, in place in one step; and in an
optimistic task whose private scratch the destination lies in. -/
def streamsFrom (vl : Word) (pix : Nat) : State := (streams vl).updStrand 0 0 fun t => { t with pix := BitVec.ofNat 64 pix }
def optStreams : State := (streams 64).updStrand 0 0 fun t => { t with opt := true, base := 0, ntile := 0, nscr := 1 }

theorem witness_ManySteps : laneSteps ((streams 64).strand 0 0) 32 = 2 ∧ laneSteps ((streamsFrom 64 30).strand 0 0) 32 = 2 ∧
    todo ((streamsFrom 64 30).strand 0 0) ≠ [] ∧
    LaneFits (streams 64) 0 0 [] 1#3 [(1#4, .elem 32), (2#4, .elem 32)] (lies 0x100#64 32 (todo ((streams 64).strand 0 0)))
      (lies 0x200#64 32 (masked ((streams 64).strand 0 0) 1#3)) ∧
    StepsApart ((streams 64).strand 0 0) 32 (fun i => lies 0x200#64 32 [i]) (fun j => lies 0x100#64 32 [j]) ∧
    StepsApart ((streams 64).strand 0 0) 32 (fun i => lies 0x100#64 32 [i]) (fun j => lies 0x100#64 32 [j]) ∧
    LaneFits (streamsFrom 64 30) 0 0 [] 1#3 [(1#4, .elem 32), (2#4, .elem 32)] (lies 0x100#64 32 (todo ((streamsFrom 64 30).strand 0 0)))
      (lies 0x200#64 32 (masked ((streamsFrom 64 30).strand 0 0) 1#3)) ∧
    StepsApart ((streamsFrom 64 30).strand 0 0) 32 (fun i => lies 0x200#64 32 [i]) (fun j => lies 0x100#64 32 [j]) ∧
    ((streamsFrom 64 30).strand 0 0).pix.toNat < ((streamsFrom 64 30).strand 0 0).vl.toNat ∧
    Apart [(0x300, 4)] (lies 0x100#64 32 (every ((streamsFrom 64 30).strand 0 0))) := by
  refine ⟨by decide +kernel, by decide +kernel, by decide +kernel, laneFits_of (by decide +kernel), ?_, ?_, laneFits_of (by decide +kernel), ?_,
    by decide +kernel, ?_⟩ <;> simp only [StepsApart, Apart] <;> decide +kernel

theorem witness_OptimisticLane : (optStreams.strand 0 0).opt = true ∧
    LaneFits optStreams 0 0 [] 0#3 [(1#4, .elem 32), (2#4, .elem 32)] (lies 0x100#64 32 (todo (optStreams.strand 0 0)))
      (lies 0x200#64 32 (masked (optStreams.strand 0 0) 0#3)) := by
  refine ⟨by decide +kernel, ⟨canIssue_iff.2 (by decide +kernel), by decide +kernel, ⟨by decide +kernel, ?_, by decide +kernel⟩, by decide +kernel,
    fun p hp => aligned_of ?_, by decide +kernel, by decide +kernel, ?_, by decide +kernel⟩⟩
  · have : (optStreams.core 0).reqs = [] := by decide +kernel
    intro r hr
    rw [this] at hr
    cases hr
  · revert p
    decide +kernel
  · simp only [OwnScratch]
    decide +kernel

/-- A VADD of INT32 over 1,024 elements holds the lane unit at its first step. -/
def laneRun : LaneRun :=
  { strand := 0, op := { kind := .bin 0, ty := 3, a := 1, b := 2, d := 1 }, vl := 64, mask := BitVec.allOnes 128,
    a0 := List.replicate 16 0x100#64 }
def laneBusy : State :=
  let s := (streams 64).updCore 0 fun v => { v with lane := some laneRun }
  { s.updStrand 0 0 fun t => { t with held := .lane, a := [(1, 0x100#64), (2, 0x100#64)] } with arg := { c := 0 } }
/-- The same with a roll-back asked for. -/
def laneStopped : State := laneBusy.updStrand 0 0 fun t => { t with rollAt := some false }

theorem witness_LaneStops : (laneStopped.core 0).lane = some laneRun ∧ laneStopped.arg.c = 0 ∧ laneRun.a0.length = 16 ∧
    laneStopped.stopAsked 0 0 = true ∧ laneRun.op.reduces = false ∧ (laneBusy.core 0).lane = some laneRun ∧ laneBusy.arg.c = 0 ∧
    laneBusy.stopAsked 0 0 = false ∧ laneRun.op.kind ≠ .scan ∧ (laneBusy.strand 0 0).pix.toNat + 32 < laneRun.vl ∧ laneRun.vl ≤ 65536 ∧
    laneBusy.laneCheck 0 0 (laneRun.near 0 (List.range 32)).1 (laneRun.near 0 (List.range 32)).2 = none ∧
    laneBusy.laneFar 0 (if laneRun.fresh then laneBusy.laneBegin 0 laneRun 0 else laneRun) (List.range 32) = ([], []) := by
  decide +kernel

/-! ## Tiles, copies and the matrix unit -/

/-- Slots 1 and 2 hold READY tiles of FP16; x1 names byte 0x800 of a slot of the core, x2 is a control word for INT32 with a stride of 64. -/
def tiles : State :=
  let s := withStrand (regs [(1#6, 0x7FFFFFF01800#64), (2#6, 0x3000000040#64), (3#6, 0x3000#64), (4#6, 1#64)])
  (s.updSlot 0 1 fun e => { e with st := 2, layout := 0x6000#16 }).updSlot 0 2 fun e => { e with st := 2, layout := 0x6000#16 }

theorem witness_TileSlots : CanIssue tiles 0 0 [3#6] [5#6] ∧
    ((tiles.strand 0 0).rx 3#6 = 0x3000#64 ∧ loFmt 0x3000#16 < 10 ∧ loBlk 0x3000#16 = 0 ∧ loZ 0x3000#16 = false ∧ loX 0x3000#16 = false) ∧
    tiles.operandSlot 0 0 2 .fill = .inl 3 ∧ ¬((tiles.strand 0 0).rx 4#6).toNat % 64 = 0 ∧ tiles.operandSlot 0 0 0 .inspect = .inl 1 ∧
    (tiles.slot 0 1).st < 4 ∧ (tiles.slot 0 1).use < 4 ∧ (tiles.slot 0 1).jobtag < 32 ∧ (tiles.slot 0 1).rdc < 8 ∧
    (tiles.slot 0 1).scales.length < 256 ∧ tiles.operandSlot 0 0 0 .release = .inl 1 ∧ tiles.operandSlot 0 0 0 .release true = .inl 1 := by
  simp only [canIssue_iff]
  decide +kernel

/-- The rows of `LocalRows` as one value. -/
def rowsHere (s : State) (c : CoreId) (k : StrandId) (va : BitVec 48) (w : Word) (n : Nat) : Bool :=
  (List.range n).all fun r => (rowParts va w r).all fun x =>
    match windowOf c x.1 with | some p => s.localCheck p.1 (s.strand c k).job p.2 x.2 == none | none => false

theorem localRows_of {s : State} {c : CoreId} {k : StrandId} {va : BitVec 48} {w : Word} {n : Nat} (h1 : (windowOf c va).isSome = true)
    (h2 : rowsHere s c k va w n = true)
    (h3 : va.toNat % alignSize (w.extractLsb' 36 4).toNat = 0 ∧ (w.extractLsb' 0 32).toNat % alignSize (w.extractLsb' 36 4).toNat = 0) :
    LocalRows s c k va w n := by
  refine ⟨h1, fun r hr x hx => ?_, h3⟩
  have h := List.all_eq_true.1 (List.all_eq_true.1 h2 r (List.mem_range.2 hr)) x hx
  cases hw : windowOf c x.1 with
  | none => simp [hw] at h
  | some p => exact ⟨p.1, p.2, rfl, by simpa [hw] using h⟩

theorem witness_LocalRows : LocalRows tiles 0 0 0x7FFFFFF01800#48 0x3000000040#64 32 ∧ LocalRows tiles 0 0 0x7FFFFFF01800#48 0x3000000040#64 64 :=
  ⟨localRows_of (by decide +kernel) (by decide +kernel) (by decide +kernel), localRows_of (by decide +kernel) (by decide +kernel) (by decide +kernel)⟩

/-- Fills of slots 3 and 4, one with a follow-on on slot 1 and accumulator 2, a transposing one, and a drain of slot 1. -/
theorem witness_TileCopies : CanIssue tiles 0 0 [1#6, 2#6] [] ∧ (tiles.strand 0 0).opt = false ∧ (tiles.core 0).copyFree = true ∧
    (CopyIns.tload false false).legal 0x3000000040#64 2 8 = true ∧ CopyIns.cpy2.legal 0x3000000040#64 2 8 = true ∧
    CopyIns.cpyw.legal 0x3000000040#64 2 8 = true ∧ fillLegal 3 0 0#2 false false 0x7FFFFFF01800#48 0x40#32 = true ∧
    (∀ r < 64, tiles.slogOverlap 0 0 (rowVa 0x7FFFFFF01800#48 0x40#32 r) 64 = false) ∧
    tiles.operandSlots 0 0 .fill ((List.range 2).map (2 + ·)) = .inl [3, 4] ∧
    CopyIns.cpy.legal 0xA0006000000040#64 2 8 = true ∧ fillLegal 6 0 0#2 false false 0x7FFFFFF01800#48 0x40#32 = true ∧
    ((tiles.core 0).accAt 2).full = true ∧ 1 ≤ (tiles.core 0).mfree ∧ tiles.operandSlots 0 0 .read [0] = .inl [1] ∧
    PairOk 0#64 (mkLayout 6 0 false false 0#2) (tiles.slot 0 1).layout ∧
    (CopyIns.tload false true).legal 0x3400000040#64 2 8 = true ∧ fillLegal 3 0 1#2 false true 0x7FFFFFF01800#48 0x40#32 = true ∧
    (tiles.strand 0 0).pix = 0 ∧ (CopyIns.tstore true).legal 0x3000000040#64 0 8 = true ∧
    CopyIns.cpy2.legal 0x43000000040#64 0 8 = true ∧ tiles.operandSlots 0 0 .drain ((List.range 2).map (0 + ·)) = .inl [1, 2] := by
  simp only [canIssue_iff, PairOk]
  decide +kernel

/-- A copy of one row from slot 5 of the core into slot 3, or from slot 3 to there. -/
def oneRow (op : CopyOp) : Copy :=
  { op := op, slots := [3], id := 9, layout := 0x3000#16,
    rows := [[{ pa := BitVec.ofNat 52 (localBase 0 + 2048 * 5), n := 64, va := 0x7FFFFFF02800#48 }]] }
def copying (x : Copy) : State :=
  { tiles.updCore 0 fun v => { v with copies := [x] } with arg := { c := 0, k := 0, n := 9, w0 := 0x3000000040#64 } }

theorem witness_CopyRows : ∀ op ∈ [CopyOp.fill, .drain],
    (copying (oneRow op)).arg.c = 0 ∧ (copying (oneRow op)).arg.n = (oneRow op).id ∧
    ((copying (oneRow op)).core 0).copyAt 9 = some (oneRow op) ∧
    (oneRow op).row = 32 * 0 + 0 ∧ (oneRow op).slots[0]? = some 3 ∧
    (∀ ps ∈ (oneRow op).rows, ∀ p ∈ ps, p.n = 64 ∧ devOf p.pa = (copying (oneRow op)).devnum ∧ isLocal (offOf p.pa) = true ∧
      localCore (offOf p.pa) = 0 ∧ (copying (oneRow op)).pieceHeld 0 0 9 p = false ∧
      localOff (offOf p.pa) % 64 = 0 ∧ ∀ j ∈ slotsOf (localOff (offOf p.pa)) 64, ((copying (oneRow op)).slot (localCore (offOf p.pa)) j).busy = false) ∧
    loZ (oneRow op).layout = false ∧ (oneRow op).undef = false ∧ (oneRow op).xp = false ∧ ((copying (oneRow op)).core 0).rowsOut 9 = false := by decide +kernel

/-- A row whose part lies in a tier. -/
theorem witness_RowRequests : ∀ op ∈ [CopyOp.fill, .drain],
    (copying { oneRow op with rows := [[{ pa := 128#52, n := 64 }]] }).direct 0 0 { pa := 128#52, n := 64 } = false := by decide +kernel

/-- A transposing TLOAD of INT32 into slot 3 from byte 0x1800 on, at row 31. -/
def transposing : Copy := { xp := true, slots := [3], id := 9, layout := 0x3040#16, va := 0x7FFFFFF02000#48, stride := 0x40#32, row := 31 }

theorem witness_Transposing : ((copying transposing).core 0).copyAt transposing.id = some transposing ∧ (copying transposing).arg.w0 = 0x3000000040#64 ∧
    (copying transposing).stopAsked 0 0 = false ∧ ((copying transposing).updStrand 0 0 fun t => { t with rollAt := some false }).stopAsked 0 0 = true ∧
    LocalRows (copying transposing) 0 0 transposing.va 0x3000000040#64 32 ∧ loFmt transposing.layout = 3 ∧ loBlk transposing.layout = 0 ∧
    rowParts transposing.va 0x3000000040#64 31 = [(rowVa transposing.va transposing.stride 31, 64)] ∧
    windowOf 0 (rowVa transposing.va transposing.stride 31) = some (0, 0x27C0) ∧
    (∀ j ∈ slotsOf 0x27C0 64, ((copying transposing).slot 0 j).busy = false) ∧ 2048 * 3 + 2048 ≤ 0x27C0 ∧
    ((copying transposing).core 0).rowsOut 9 = false ∧
    (copying transposing).pieceHeld 0 0 9 (localPart (copying transposing) 0 (rowVa transposing.va transposing.stride 31, 64)) = false :=
  ⟨by decide +kernel, by decide +kernel, by decide +kernel, by decide +kernel,
   localRows_of (by decide +kernel) (by decide +kernel) (by decide +kernel), by decide +kernel, by decide +kernel, by decide +kernel,
   by decide +kernel, by decide +kernel, by decide +kernel, by decide +kernel, by decide +kernel⟩

def landing (fol : List MCmd) (poison : List Bool) : State :=
  let s := copying { oneRow .fill with fol := fol, poison := poison }
  s.updCore 0 fun v => { v with mres := fol.length }

theorem witness_CopyEnds :
    ((landing [] [false, false]).core 0).copyAt 9 = some { oneRow .fill with fol := [], poison := [false, false] } ∧ (oneRow .fill).slots.Nodup ∧
    ((landing [{ op := .tmul 3 1 }] [false, false]).core 0).copyAt 9 = some { oneRow .fill with fol := [{ op := .tmul 3 1 }], poison := [false, false] } ∧
    ((landing [{ op := .tmul 3 1 }] [false, false]).slot 0 3).poison = false ∧ 1 ≤ ((landing [{ op := .tmul 3 1 }] [false, false]).core 0).mres ∧
    ((landing [{ op := .tmul 3 1 }] [true, false]).core 0).copyAt 9 = some { oneRow .fill with fol := [{ op := .tmul 3 1 }], poison := [true, false] } ∧
    ((copying (oneRow .drain)).core 0).copyAt 9 = some (oneRow .drain) ∧
    (∀ ps ∈ (oneRow .drain).rows, ∀ p ∈ ps, isTier (offOf p.pa) = false) := by decide +kernel

/-- The skip list at pointer 3 names one block. -/
def skipping : State := tiles.updStrand 0 0 fun t => { regs [(1#6, 0x7FFFFFF01800#64), (2#6, 0x3000000080#64), (5#6, 1#64)] t with a := [(3, 0x100#64)], vl := 1 }

theorem witness_MatrixIssue : CanIssue skipping 0 0 [1#6, 2#6] [] ∧ CanIssue skipping 0 0 [] [] ∧ ((skipping.core 0).accAt 1).full = true ∧ 0 < (skipping.core 0).mfree ∧
    skipping.operandSlots 0 0 .read [0, 1] = .inl [1, 2] ∧ PairOk 0#64 (skipping.slot 0 1).layout (skipping.slot 0 2).layout ∧
    (skipping.strand 0 0).full (.a 3#4) = true ∧ loFmt (skipping.slot 0 1).layout = 6 ∧
    (skipping.skipList 0 0 0x100 4 0 0 9 []).isLeft = true ∧ skipping.operandSlot 0 0 0 .read = .inl 1 ∧
    skipping.operandSlot 0 0 2 .fill = .inl 3 ∧ progLegal ((skipping.strand 0 0).rx 0#6) = true ∧ progLegal ((skipping.strand 0 0).rx 1#6) = false ∧
    (skipping.strand 0 0).opt = false ∧ CopyIns.tred.legal 0x3000000080#64 0 0 = true ∧
    ¬(((skipping.core 0).accAt 1).int = true) ∧ CopyIns.tred.legal 0x8000000080#64 0 0 = true ∧
    (0x7FFFFFF01800#48 : BitVec 48).toNat % (32 * (fmtBits 8 / 8)) = 0 ∧
    (rowsHere skipping 0 0 0x7FFFFFF01800#48 0x8000000080#64 32) = true ∧ (skipping.strand 0 0).vl ≠ 0 ∧ (skipping.strand 0 0).pix = 0 ∧
    (skipping.launchOf (skipping.strand 0 0)).ntile = 8 ∧ (skipping.tileSlot 0 0 0).isSome = true ∧ (skipping.tileSlot 0 0 1).isSome = true ∧
    (tiles.strand 0 0).vl = 0 := by
  simp only [canIssue_iff, PairOk]
  decide +kernel

def queued (m : MCmd) : State := { skipping.updCore 0 fun v => { v with mq := [m] } with arg := { c := 0, k := 0 } }
def stepping (ok : Bool) : State :=
  { skipping.updStrand 0 0 fun t => { t with mulk := some { a := 0, b := 1, n := 1 }, held := .tmulk } with arg := { c := 0, k := 0, ok := ok } }

theorem witness_MatrixQueue : ((queued { op := .tacc 1 }).core 0).mrun = none ∧ ((queued { op := .tacc 1 }).core 0).mq = [{ op := .tacc 1 }] ∧
    ((stepping true).strand 0 0).mulk = some { a := 0, b := 1, n := 1 } ∧ (stepping true).arg.ok = true ∧
    1 ≤ ((stepping true).strand 0 0).pix.toNat + 1 ∧ (stepping false).arg.ok = false ∧ ((stepping false).strand 0 0).pix.toNat < 1 ∧
    (stepping false).stopAsked 0 0 = false ∧ 0 < ((stepping false).core 0).mfree ∧
    (stepping false).operandSlots 0 0 .read [0 + ((stepping false).strand 0 0).pix.toNat, 1 + ((stepping false).strand 0 0).pix.toNat] = .inl [1, 2] ∧
    PairOk ((stepping false).strand 0 0).prog ((stepping false).slot 0 1).layout ((stepping false).slot 0 2).layout ∧
    ((stepping false).updStrand 0 0 fun t => { t with rollAt := some false }).stopAsked 0 0 = true := by
  simp only [PairOk]
  decide +kernel

def running (m : MCmd) : State := { skipping.updCore 0 fun v => { v with mrun := some m } with arg := { c := 0 } }

theorem witness_MatrixResults : ∀ m ∈ [({ op := .tmul 1 2 } : MCmd), { op := .tmuls 1 2 [0] }, { op := .tacc 1 }, { op := .twb 3 1#4 true 0 true },
      { op := .tred 0x7FFFFFF01800#48 ([{ pa := BitVec.ofNat 52 (localBase 0 + 0x1800), n := 128, va := 0x7FFFFFF01800#48 }].map fun p => [p]) 8 }],
    (running m).arg.c = 0 ∧ ((running m).core 0).mrun = some m ∧ m.step = false ∧ m.more = false ∧ (running m).tredHeld 0 m = false ∧
    (running m).agenda = [] ∧ ((running m).tileOf 0 1).poison = false ∧
    ((running m).tileOf 0 2).poison = false ∧ (running m).poisons = [] ∧
    devOf (BitVec.ofNat 52 (localBase 0 + 0x1800)) = (running m).devnum ∧ isLocal (localBase 0 + 0x1800) = true ∧
    localOff (localBase 0 + 0x1800) % 128 = 0 ∧ ∀ j ∈ slotsOf (localOff (localBase 0 + 0x1800)) 128, ((running m).slot 0 j).busy = false := by
  decide +kernel

/-- A poisoned slot, and an unreadable word that holds element (31, 31) of A. -/
theorem witness_PoisonedTile :
    (((running { op := .tmul 1 2 }).updSlot 0 1 fun e => { e with poison := true }).tileOf 0 1).poison = true ∧
    (let s : State := { running { op := .tmul 1 2 } with poisons := [(localBase 0 + 2048 + 2047) / 8] }
     let e := matElem (s.slot 0 1).layout 31 31
     s.poisoned (localBase 0 + 2048 * 1 + elemPos (loFmt (s.slot 0 1).layout) (loZ (s.slot 0 1).layout) e.1 e.2 / 8) 1 = true ∧ s.slotBad 0 1 = true) := by
  decide +kernel

/-- An accumulator of the job with an element that holds an error, and an unreadable word of a TACC's tile. -/
theorem witness_UnsoundAccumulator : (let s := (running { op := .tmul 1 2 }).updCore 0 fun v => { v with acc := [(0, { bad := [5], tag := 0 })] }
     let old := (s.core 0).accAt 0
     old.tag = (0#4 : JobId).toNat ∧ old.bad ≠ [] ∧ (s.core 0).mrun = some { op := .tmul 1 2 } ∧ (s.tileOf 0 1).poison = false ∧ (s.tileOf 0 2).poison = false) ∧
    (let s : State := { running { op := .tacc 1 } with poisons := [(localBase 0 + 2048 + 2047) / 8] }
     let e := matElem (s.slot 0 1).layout 31 31
     s.poisoned (localBase 0 + 2048 * 1 + elemPos (loFmt (s.slot 0 1).layout) (loZ (s.slot 0 1).layout) e.1 e.2 / 8) 1 = true ∧ s.slotBad 0 1 = true ∧
       loX (s.slot 0 1).layout = false ∧ tileCols (loFmt (s.slot 0 1).layout) = 32) := by
  decide +kernel

/-- A DECODE descriptor at byte 0x1800 of the core: 2 frames, each read once. -/
def decoding : State :=
  { tiles with mem := Memory.write tiles.mem (localBase 0 + 0x1800 + 32) (leBytes 8 0x20001), arg := { n := 0, w2 := 1 } }
def decoderRuns : State :=
  { decoding with decoders := [(0, { run := some { job := 0, lslot := 0, nframes := 2, frames := 1 } })],
                  decQueues := [(0, [{ job := 0, lslot := 0 }])] }.updLaunch 0 0 fun l => { l with count := 2 }

theorem witness_Decoding : CanIssue decoding 0 0 [1#6] [] ∧ (decoding.strand 0 0).opt = false ∧
    OwnLocal decoding 0 0 (((decoding.strand 0 0).rx 1#6).extractLsb' 0 48) 64 0x1800 ∧
    (List.range 8).map (fun i => leValue decoding (localBase 0 + 0x1800 + 8 * i) 8) = [0, 0, 0, 0, 0x20001, 0, 0, 0] ∧
    (Tab.get [] decoding.decQueues 0).length < 16 ∧
    (decoderRuns.decoder 1).run = none ∧ (decoderRuns.decoder 0).run = some { job := 0, lslot := 0, nframes := 2, frames := 1 } ∧
    decoding.sameLine 0 0 (decoding.devnum ++ BitVec.ofNat 46 (localBase 0 + 0x1800)) = [] ∧
    Tab.get [] decoderRuns.decQueues 0 = [{ job := 0, lslot := 0 }] ∧ (decoderRuns.decoder 0).tainted = 0 ∧ (decoderRuns.decoder 0).work = none ∧
    (∀ i, 8 * 0 ≤ i → i < 1 → (decoderRuns.decoder i).run ≠ none) ∧ 2 ≤ (decoderRuns.launch 0 0).count := by
  refine ⟨canIssue_iff.2 (by decide +kernel), by decide +kernel, ownLocal_iff.2 (by decide +kernel), by decide +kernel, by decide +kernel,
    by decide +kernel, by decide +kernel, by decide +kernel, by decide +kernel, by decide +kernel, by decide +kernel, ?_, by decide +kernel⟩
  intro i _ hi
  obtain rfl : i = 0 := by omega
  decide +kernel

/-- A request whose completion word is at byte 0x1808 of core 0, or past its slots, and one whose stream lies in no page. -/
def signalling (sigw : Word) : State := { decoding with decoders := [(0, { run := some { sigw := sigw } })] }.updLaunch 0 0 fun l => { l with count := 2 }
def unreadable : DecReq := { bs := 0x500000000000#64, len := 1#64 }
def streaming : State := { decoding with decoders := [(0, { run := some unreadable })] }

theorem witness_DecodeSignals : ∀ x ∈ [((0x7FFFFFF01808#64 : Word), 0x1808), (0x7FFFFFFC0000#64, 0xC0000)],
    ((signalling x.1).decoder 0).run = some { sigw := x.1 } ∧ x.1 ≠ 0#64 ∧ 2 ≤ ((signalling x.1).launch 0 0).count ∧
    windowOf 0 (x.1.extractLsb' 0 48) = some (0, x.2) ∧ x.1.toNat % 8 = 0 ∧
    (signalling x.1).localCheck 0 0 x.2 8 = (if x.2 = 0x1808 then none else some 6) ∧ (signalling x.1).memBad (localBase 0 + x.2) 8 = false ∧
    (signalling x.1).waitersOf (localBase 0 + x.2) = [] := by
  decide +kernel

/-- Whichever AV1 makes of the unreadable byte, no frame or one, a clause of the statement applies. -/
theorem witness_DecodeStreams : (streaming.decoder 0).run = some unreadable ∧ unreadable.cancelled = false ∧ unreadable.paused = false ∧
    (streaming.decoder 0).work = none ∧ unreadable.nframes = 0 ∧ unreadable.base.toNat + unreadable.frames ≠ 2 ^ 64 - 1 ∧
    (streaming.job 0).stopped = false ∧ ((streaming.job 0).leaf (.decoder 0)).stopped = false ∧
    (streaming.decoder 0).pos < (streaming.bitstream unreadable).length ∧
    (((streaming.bitstream unreadable).drop (streaming.decoder 0).pos).find? fun b => b.2 ≠ 0).map (·.2) = some 5 ∧
    (Config.av1Frame ((streaming.bitstream unreadable).map (·.1)) 0 = none ∨ ∃ f, Config.av1Frame ((streaming.bitstream unreadable).map (·.1)) 0 = some f) ∧
    ((streaming.bitstream { len := 0#64 }).drop (streaming.decoder 0).pos = [] ∧
      (streaming.bitstream { len := 0#64 }).length ≤ (streaming.decoder 0).pos) := by
  refine ⟨by decide +kernel, by decide +kernel, by decide +kernel, by decide +kernel, by decide +kernel, by decide +kernel, by decide +kernel,
    by decide +kernel, by decide +kernel, by decide +kernel, ?_, by decide +kernel⟩
  cases Config.av1Frame ((streaming.bitstream unreadable).map (·.1)) 0 with
  | none => exact .inl rfl
  | some f => exact .inr ⟨f, rfl⟩

/-! ## The board -/

/-- The device with operands for a device step. -/
def given (x : StepArg) : State := { board with arg := x }

theorem witness_ColdResets : ((given { n := 16 }).island 16).halted = false ∧
    ((given { n := 23 }).island 23).halted = false ∧ (given { n := 23 }).arg.n = 23 := by decide +kernel

theorem witness_MachineChecks : (given { n := 15 }).arg.n = 15 ∧ ((given { n := 15 }).island 15).halted = false ∧
    (given { n := 11 }).trained.getLsbD 11 = true := by decide +kernel

theorem witness_UncorrectableErrors : ∀ x ∈ [ErrSite.memWord 8, .poolEntry 0 0 62, .tileEntry 0 383, .weightBlock 0 0, .accElement 0 3 1023,
    .decoderRef 31 7, .frameBoth 0, .versionState 0 0 0, .flitHeader 63], (given { site := x }).arg.site = x := by decide +kernel

theorem witness_BringUp : State.reset.stage = 0 ∧ State.reset.meas.length = 8 ∧ { State.reset with stage := 1 }.islock = false ∧
    ((List.range 24).map fun k => (State.reset.island k).cap.toNat).sum ≤ 2600 ∧
    2600 < ((List.range 24).map fun k => (({ State.reset with isl := [(0, { cap := 4095 })] } : State).island k).cap.toNat).sum ∧
    { State.reset with stage := 2 }.diesvc = 0 ∧ { State.reset with stage := 3, arg := { n := 11 } }.trained.getLsbD 11 = false ∧
    { State.reset with stage := 3, arg := { n := 11 } }.failed.getLsbD 11 = false ∧
    { State.reset with stage := 3, arg := { n := 11 } }.trainEnded.getLsbD 11 = false ∧ { State.reset with stage := 3 }.diesvc ≠ 15#4 ∧
    { board with islock := true }.islock = true ∧ (List.replicate 24 100#12).length = 24 ∧
    ((List.replicate 24 100#12).map (·.toNat)).sum ≤ 2600 ∧ 2600 < ((List.replicate 24 109#12).map (·.toNat)).sum := by decide +kernel

theorem witness_IslandSamples : ∀ k ∈ [0, 15, 16, 20, 23], (given { n := k, w0 := 100, w1 := 115 }).arg.n = k ∧
    ((given { n := k, w0 := 100, w1 := 115 }).island k).halted = false ∧
    115 ≤ ((given { n := k, w0 := 100, w1 := 115 }).arg.w1.extractLsb' 0 8).toNat := by decide +kernel

theorem witness_ReportAndRegisters : board.repGo = false ∧ { board with repGo := true }.repGo = true ∧
    { board with report := some (0, [1#8]) }.report = some (0, [1#8]) ∧
    (∀ n ∈ [0x1210, 0x1228, 0x1230, 0x1240, 0x12F8, 0x1410], (given { n := n, who := .host }).arg.n = n ∧
      (given { n := n, who := .host }).arg.space = .bar0) ∧
    isHost (0x200000000000#46 : BitVec 46).toNat = true ∧
    ∀ x ∈ [RegSpace.gvtPeriod, .presave, .route 63, .wctl 4095, .sram 0, .phys 0x200000000000#46 8], (given { space := x, w0 := 0xFF }).arg.space = x ∧
      (given { space := x, w0 := 0xFF }).arg.w0.getLsbD 8 = false := by decide +kernel

/-- A supervisor takes a packet of cluster 0, whose core 0 has kept one; the management core stores the last bytes of a line of host memory. -/
theorem witness_Mailboxes : (given { space := .mailbox 0, who := .supervisor }).arg.space = .mailbox 0 ∧
    (∃ e ∈ (board.updCore 0 fun v => { v with pktq := [{}] }).cores, e.1 / 64 = (0#6 : BitVec 6).toNat ∧ e.2.pktq ≠ []) ∧
    isHost (0x200000000078#46 : BitVec 46).toNat = true ∧ (0x200000000078#46 : BitVec 46).toNat % 128 + min 8 8 ≤ 128 := by
  decide +kernel

/-! ## Task messages, dispense and donation -/

/-- A task of the launch, another of the same identity as an anti-message, and one of a launch slot that is not in use. -/
def aTask : QEntry := { t := { seq := 5, vt := 7#64 } }
def anAnti : QEntry := { t := { seq := 5, vt := 7#64, anti := true } }
def aStray : QEntry := { t := { seq := 5, lslot := 9 } }

/-- The device with a message for the dispenser of cluster 0 on its way. -/
def arriving (b : Body) : State :=
  { board with msgs := [(1, { dst := { ep := 66 }, body := b })], arg := { c := 0, n := 1 } }

/-- A message leaves, one that has left, and one that waits for request 4. -/
def leaving (left : Bool) (after : List Nat) : State :=
  { board.updCore 0 fun v => { v with sendBuf := [{ m := 1, t := aTask, left := left, after := after }] } with arg := { c := 0, n := 1 } }

theorem witness_Departures :
    (∀ x ∈ [(true, []), (false, [4]), (false, [])], (leaving x.1 x.2).arg.n = 1 ∧
      ((leaving x.1 x.2).core 0).sendBuf.find? (fun e => e.m == 1) = some { m := 1, t := aTask, left := x.1, after := x.2 }) ∧
    sentMsg { board with msgs := [(1, { dst := { ep := 63 }, body := .accepted 1 })] } 1 = some { dst := { ep := 63 }, body := .accepted 1 } := by
  decide +kernel

def cancelled (s : State) : State := s.updLaunch 0 0 fun l => { l with c := { l.c with cancelled := true } }
def holding (es : List QEntry) (spilled : List QEntry) (s : State) : State :=
  s.updCore 0 fun v => { v with queue := es, spill := [(0, spilled)],
                                dtlb := [{ job := 0, va := 0, size := 30, pa := 0, leaf := 0xF#64 }] }
/-- A queue of 56 tasks. -/
def manyTasks : List QEntry := (List.range 56).map fun n => { t := { seq := BitVec.ofNat 20 n, vt := 3#64 } }

theorem witness_PositiveArrivals : sentMsg (arriving (.task aTask 0)) 1 = some { dst := { ep := 66 }, body := .task aTask 0 } ∧
    ((arriving (.task aStray 0)).job 0).live 9 = false ∧ ((arriving (.task aTask 0)).job 0).live 0 = true ∧
    ((cancelled (arriving (.task aTask 0))).job 0).cancels 0 7#64 = true ∧ ((arriving (.task aTask 0)).job 0).cancels 0 7#64 = false ∧
    (holding [anAnti] [] (arriving (.task aTask 0))).entryIn 0 aTask.t.ident true = some (0, anAnti) ∧
    (arriving (.task aTask 0)).entryIn 0 aTask.t.ident true = none ∧ ((arriving (.task aTask 0)).core 0).refuse.contains 0 = false ∧
    ((arriving (.task aTask 0)).core 0).spmin 0 = none ∧ ((arriving (.task aTask 0)).core 0).queue.length < 56 ∧
    ((holding [] [{ t := { vt := 3#64 } }] (arriving (.task aTask 0))).core 0).spmin 0 = some ({ t := { vt := 3#64 } } : QEntry).key ∧
    ({ t := { vt := 3#64 } } : QEntry).key < aTask.key ∧
    ((holding [] [{ t := { vt := 3#64 } }] (arriving (.task aTask 0))).core 0).spillRoom 0 false = true ∧
    (holding [] [{ t := { vt := 3#64 } }] (arriving (.task aTask 0))).spillFault 0 0 .w = none ∧
    56 ≤ ((holding manyTasks [] (arriving (.task aTask 0))).core 0).queue.length := by decide +kernel

/-- The dispenser of the cluster is stopped. -/
theorem witness_StoppedDispenser :
    let s := (arriving (.task aTask 0)).updLeaf 0 (.dispenser 0) fun x => { x with stopped := true }
    s.cutAt 0 0 = true ∧ ((s.job 0).live 0) = true ∧ (s.job 0).cancels 0 7#64 = false ∧ s.entryIn 0 aTask.t.ident true = none ∧
    (s.core 0).refuse.contains 0 = false ∧ (s.core 0).spillRoom 0 false = true ∧ s.spillFault 0 0 .w = none := by decide +kernel

/-- A spill area that cannot be written: no page of the job's table maps it. -/
theorem witness_SpillFaults : (((holding manyTasks [] (arriving (.task aTask 0))).updCore 0 fun v => { v with dtlb := [] }).spillFault 0 0 .w).isSome = true ∧
    (match ((holding manyTasks [] (arriving (.task aTask 0))).core 0).place 0 aTask with | .spill _ => true | _ => false) = true ∧
    (arriving (.task aTask 0)).msgs.map (·.2.dst.ep) = [66] := by decide +kernel

/-- A spill area that holds 3,584 positives is full for them (R80). -/
theorem fullSpill (es : List QEntry) (hl : es.length = 3584) (ha : ∀ e ∈ es, e.t.anti = false) :
    ((holding manyTasks es board).core 0).spillRoom 0 false = false := by
  have h : Tab.get [] ((holding manyTasks es board).core 0).spill 0 = es := rfl
  have hf : es.filter (fun e => !e.t.anti) = es := List.filter_eq_self.2 fun e he => by rw [ha e he]; rfl
  simp only [Core.spillRoom, show ((0 : JobId)).toNat = 0 from rfl, h, hf, hl, Bool.false_eq_true, if_false]
  decide

theorem witness_FullSpill : ((holding manyTasks (List.replicate 3584 aTask) board).core 0).spillRoom 0 false = false :=
  fullSpill _ List.length_replicate fun e he => by rw [List.eq_of_mem_replicate he]; rfl

theorem witness_AntiArrivals : sentMsg (arriving (.task anAnti 0)) 1 = some { dst := { ep := 66 }, body := .task anAnti 0 } ∧
    ((arriving (.task aStray 0)).job 0).live 9 = false ∧ ((arriving (.task anAnti 0)).job 0).live 0 = true ∧
    ((arriving (.task anAnti 0)).job 0).cancels 0 7#64 = false ∧
    ((arriving (.task anAnti 0)).updCore 0 fun v => { v with rings := [{ t := aTask }] }).blockIn 0 anAnti.t.ident = some 0 ∧
    (arriving (.task anAnti 0)).blockIn 0 anAnti.t.ident = none ∧
    (holding [aTask] [] (arriving (.task anAnti 0))).entryIn 0 anAnti.t.ident false = some (0, aTask) ∧
    (arriving (.task anAnti 0)).entryIn 0 anAnti.t.ident false = none ∧
    (((arriving (.task anAnti 0)).updCluster 0 fun v => { v with fwd := [{ t := anAnti.t.ident }] }).cluster 0).fwd.find?
      (fun f => f.t == anAnti.t.ident && f.job == 0) = some { t := anAnti.t.ident } ∧
    ((arriving (.task anAnti 0)).core 0).queue.length < 64 ∧ ((arriving (.task anAnti 0)).core 0).spmin 0 = none := by decide +kernel

theorem witness_Refills : 48 ≤ ((holding manyTasks [] board).core 0).queue.length ∧ Tab.get [] ((holding [] [] board).core 0).spill 0 = [] ∧
    ((holding [] [aTask] board).core 0).queue.length < 48 ∧ Tab.get [] ((holding [] [aTask] board).core 0).spill 0 = [aTask] ∧
    (holding [] [aTask] board).spillEntryFault 0 0 .r 0 = none ∧
    ((holding [] [aTask] board).updCore 0 fun v => { v with dtlb := [] }).spillEntryFault 0 0 .r 0 = some 6 ∧ board.arg.v = 0 ∧
    (given { v := 1 }).arg.v = 1 ∧ (given { v := 2 }).arg.v = 2 := by decide +kernel

/-- Strand 0 of core 0 is idle, and a task of its launch stands in the queue. -/
def idling (q : QEntry) : State :=
  { (holding [q] [] board).updStrand 0 0 fun t => { t with st := .idle, task := none } with arg := { c := 0, k := 0 } }

theorem witness_Dispenses : board.choice 0 0 = none ∧ (board.strand 0 0).st ≠ .idle ∧ (idling aTask).choice 0 0 = some (0, aTask) ∧ ((idling aTask).job 0).live 0 = true ∧
    ((idling aTask).job 0).cancels 0 7#64 = false ∧ (cancelled (idling aTask)).choice 0 0 = some (0, aTask) ∧
    ((cancelled (idling aTask)).job 0).cancels 0 7#64 = true := by decide +kernel

/-- Cluster 0 of a launch in clusters 0 and 3 has an idle strand and no task, since cycle 0 and 300 cycles later. -/
def starving (now : Nat) (since : Option Nat) : State :=
  let s := (holding [] [] board).updStrand 0 0 fun t => { t with st := .idle, task := none }
  let s := (s.updLaunch 0 0 fun l => { l with cmask := 9 }).setSteal 0 { ((s.cluster 0).steal 0 0 0) with since := since }
  { s with now := now }

theorem witness_Donation : (holding [aTask] [] board).starved 0 0 0 = false ∧ (starving 0 none).starved 0 0 0 = true ∧
    (((starving 0 none).cluster 0).steal 0 0 0).since = none ∧ (starving 100 (some 0)).starved 0 0 0 = true ∧ (starving 100 (some 0)).cycle < 0 + 256 ∧
    0 + 256 ≤ (starving 600 (some 0)).cycle ∧ (((starving 600 (some 0)).cluster 0).steal 0 0 0).outstanding = false ∧
    ((starving 600 (some 0)).cluster 0).level = 0 ∧ nextVictim ((starving 600 (some 0)).launch 0 0).cmask 0 (((starving 600 (some 0)).cluster 0).steal 0 0 0).last = some 3 ∧
    sentMsg (arriving (.steal 3 0)) 1 = some { dst := { ep := 66 }, body := .steal 3 0 } ∧
    sentMsg (arriving (.shipped none 0 0)) 1 = some { dst := { ep := 66 }, body := .shipped none 0 0 } ∧
    (((arriving (.shipped none 0 0)).cluster 0).steal 0 0 0).shipped = false ∧ (((arriving (.shipped none 0 0)).cluster 0).steal 0 0 0).left = none ∧
    (bitsOf ((arriving (.shipped none 0 0)).launch 0 0).cmask).length - 1 ≤ (((arriving (.shipped none 0 0)).cluster 0).steal 0 0 0).asked ∧
    ((((arriving (.shipped (some aTask) 1 0)).updCore 0 fun v => { v with refuse := [0] })).takeShipped 0 0 (some aTask)).isNone = true ∧
    ((arriving (.shipped (some aTask) 1 0)).takeShipped 0 0 (some aTask)).isSome = true ∧
    (((holding [aTask, { t := { seq := 6, vt := 8#64 } }] [] (arriving (.steal 3 0))).coresOf 0).flatMap fun c =>
      ((holding [aTask, { t := { seq := 6, vt := 8#64 } }] [] (arriving (.steal 3 0))).core c).queue.filter fun q =>
        (holding [aTask, { t := { seq := 6, vt := 8#64 } }] [] (arriving (.steal 3 0))).ready12 0 0 q && !q.pinned && !q.block).length = 2 := by
  decide +kernel

/-- A handle of the suspended task, and one of another job. -/
def resuming (w : Word) : State :=
  { holding [{ aTask with hold := .suspend }] [] (arriving (.req { kind := .resumec, w0 := w })) with arg := { n := 1 } }
def registering : State := { arriving (.req { kind := .waitw, pa := 64#52 }) with arg := { n := 1 } }

theorem witness_HoldsEnd : (resuming 0x500#64).msgReq 1 = some { kind := .resumec, w0 := 0x500#64 } ∧
    (∃ q ∈ ((resuming 0x500#64).core 0).entries, q.t.ident = ⟨0, 0, 5⟩ ∧ q.t.anti = false ∧ q.t.job = 0 ∧ q.hold = .suspend) ∧
    (resuming 0x510#64).msgReq 1 = some { kind := .resumec, w0 := 0x510#64 } ∧ (0x510#64 : Word).extractLsb' 4 4 ≠ (0#4 : JobId) ∧
    registering.msgReq 1 = some { kind := .waitw, pa := 64#52 } ∧ registering.full 64 = true ∧
    ({ registering with empties := [8] } : State).full 64 = false ∧
    sentMsg (arriving (.wake 0 ⟨0, 0, 5⟩)) 1 = some { dst := { ep := 66 }, body := .wake 0 ⟨0, 0, 5⟩ } := by decide +kernel

/-! ## Steps of a core -/

/-- A strand with one annulled instruction before it: its buffer holds an ADDI. -/
def annulled : State :=
  { withStrand (fun t => { t with ann := 1, buf := [{ va := 0x7FFFFFF00000#48, bytes := 0x0140E385#128 }] }) with offer := none, arg := { c := 0 } }

theorem witness_BarrelCycles : annulled.arg.c = 0 ∧ annulled.offer = none ∧ (annulled.strand 0 0).st = .ready ∧ (annulled.strand 0 0).ann ≠ 0 ∧
    (annulled.strand 0 0).issued = false ∧ (annulled.strand 0 0).rawParcel (annulled.strand 0 0).pc = .word 0xE385#16 ∧
    (annulled.strand 0 1).ann = 0 ∧ { board with offer := none }.qualifies 0 ((({ board with offer := none } : State).core 0).p + 1 + BitVec.ofNat 4 0) = true ∧
    (∀ k, { board.updStrand 0 0 (fun t => { t with st := .idle }) with offer := none }.qualifies 0 k = false) := by decide +kernel

def fetching (f : Strand → Strand) : State := { withStrand fun t => f { t with filling := true } with arg := { c := 0, k := 0 } }

theorem witness_FetchFills : board.arg.c = 0 ∧ (board.strand 0 0).filling = false ∧ ((fetching id).strand 0 0).filling = true ∧
    ((fetching fun t => { t with task := none }).strand 0 0).task = none ∧ ((fetching id).strand 0 0).task.isSome = true ∧
    windowOf 0 (groupVa ((fetching id).strand 0 0).pc) = some (0, 0) ∧ (fetching id).localCheck 0 0 0 16 = none ∧
    (∀ n ∈ slotsOf 0 16, ((fetching id).slot 0 n).busy = false) ∧
    windowOf 0 (groupVa ((fetching fun t => { t with pc := 0x7FFE00100000#48 }).strand 0 0).pc) = some (1, 0) ∧
    (fetching id).localCheck 1 0 0 16 ≠ none := by decide +kernel

def parked (p : Park) : State := { withStrand fun t => { t with st := .parked, park := p } with arg := { c := 0, k := 0 } }

theorem witness_Wakes : ((parked (.reg (.x 3#6))).strand 0 0).st = .parked ∧ (parked (.reg (.x 3#6))).parkOver 0 0 (.reg (.x 3#6)) = true ∧
    (parked (.bar 0 0)).parkOver 0 0 (.bar 0 0) = false ∧ (parked (.barArw 0 1 3#6)).parkOver 0 0 (.barArw 0 1 3#6) = true ∧
    ((parked (.barArw 0 1 3#6)).strand 0 0).fills = [] := by decide +kernel

/-- Core 0 awaits a reply, and message 1 brings it. -/
def replied (r : Req) (v : Rep) : State :=
  let s := board.updCore 0 fun w => { w with reqs := [r] }
  { s with msgs := [(1, { body := .reply r v })], arg := { n := 1 } }

theorem answers_of {s : State} {n : Nat} {c : CoreId} {r : Req} {v : Rep} (h : s.arg.n = n ∧ sentMsg s n = some { body := .reply r v } ∧
    (s.core c).reqs.find? (fun x => x.id == r.id) = some r ∧ r.core = c ∧ (s.core c).slog = [] ∧ (s.core c).rings = [] ∧
    ∀ k : StrandId, (s.strand c k).fills = []) : Answers s n c r v := by
  obtain ⟨h1, h2, h3, h4, h5, h6, h7⟩ := h
  exact ⟨h1, ⟨_, r, h2, rfl, h4, rfl, by simp⟩, h3, h4, ⟨by simp [h5], by simp [h6]⟩, fun d _ => by simp [h7]⟩

def aLoad : Req := { id := 7, kind := .load, dest := .x 3#6, slot := true, isLoad := true, pa := 128#52 }
def aParked (k : ReqKind) (d : Dest) : Req := { id := 7, kind := k, dest := d, slot := true, parks := true }
def waitingFor (r : Req) (v : Rep) : State := (replied r v).updStrand 0 0 fun t => { t with st := .parked, park := .reply 7 5 }

theorem witness_Replies : Answers (replied aLoad {}) 1 0 aLoad {} ∧ ({} : Rep).fault = none ∧ ({} : Rep).withdrawn = false ∧
    ((replied aLoad {}).core 0).dcache = [] ∧
    (∀ w ∈ wordsOf (offOf aLoad.pa % 128) aLoad.size, ((replied aLoad {}).replyLine aLoad {}).2.getLsbD w = false) ∧
    Answers (replied { aLoad with kind := .amo 10 } {}) 1 0 { aLoad with kind := .amo 10 } {} ∧
    Answers (replied { aLoad with kind := .stff, dest := .none } {}) 1 0 { aLoad with kind := .stff, dest := .none } {} ∧
    Answers (waitingFor (aParked .ldfe (.x 3#6)) {}) 1 0 (aParked .ldfe (.x 3#6)) {} ∧
    ((waitingFor (aParked .ldfe (.x 3#6)) {}).strand 0 0).st = .parked ∧ ((waitingFor (aParked .ldfe (.x 3#6)) {}).strand 0 0).waitNf = false ∧
    Answers (waitingFor (aParked .stef .none) {}) 1 0 (aParked .stef .none) {} ∧ (aParked .stef .none).opt = false ∧
    Answers (replied { aLoad with kind := .flush, dest := .none } {}) 1 0 { aLoad with kind := .flush, dest := .none } {} :=
  ⟨answers_of (by decide +kernel), rfl, rfl, by decide +kernel, by decide +kernel, answers_of (by decide +kernel), answers_of (by decide +kernel),
   answers_of (by decide +kernel), by decide +kernel, by decide +kernel, answers_of (by decide +kernel), rfl, answers_of (by decide +kernel)⟩

theorem witness_FaultReplies : Answers (waitingFor (aParked .ldfe (.x 3#6)) { fault := some { cls := 6 } }) 1 0 (aParked .ldfe (.x 3#6)) { fault := some { cls := 6 } } ∧
    Answers (replied aLoad { fault := some { cls := 12 } }) 1 0 aLoad { fault := some { cls := 12 } } :=
  ⟨answers_of (by decide +kernel), answers_of (by decide +kernel)⟩

/-- A PUTREG for register 62 of strand 0 of core 0. -/
def filling (f : Strand → Strand) : State :=
  { withStrand f with msgs := [(1, { body := .req { kind := .putreg, w0 := 9, w1 := 0x3E000000#64 } })], arg := { n := 1 } }
def producing (t : Strand) : Strand := { t.setF (.x 62#6) false with pend := [{ r := .x 62#6 }] }

theorem witness_PutregFills : (filling id).msgReq 1 = some { kind := .putreg, w0 := 9, w1 := 0x3E000000#64 } ∧
    ((filling id).strand 0 0).res = some (0, 0) ∧ (62#6 : XReg).toNat ≤ ((filling id).launch 0 0).nreg ∧
    ((filling id).strand 0 0).full (.x 62#6) = true ∧ ((filling producing).strand 0 0).full (.x 62#6) = false ∧
    (filling producing).producing 0 0 62#6 = true ∧ ((filling fun t => { t with res := none }).strand 0 0).res ≠ some (0, 0) := by decide +kernel

/-- A barrel cycle of core 0 is due, and a fill of another source has come before in the cycle. -/
def crowded : State := (filling fun t => { t with filled := Tab.put [] 62 (board.cycle * 2 ^ 16 + 5) }).push 0 .barrelCycle { c := 0 }

theorem witness_PutregOrder : (crowded.agenda.any fun e => decide (e.1 ≤ crowded.now) && e.2.1 == .barrelCycle && e.2.2.c == 0) = true ∧
    ((filling id).agenda.any fun e => decide (e.1 ≤ (filling id).now) && e.2.1 == .barrelCycle && e.2.2.c == 0) = false ∧
    board.cycle * 2 ^ 16 < Tab.get 0 (crowded.strand 0 0).filled 62 ∧ Tab.get 0 (crowded.strand 0 0).filled 62 / 2 ^ 16 = crowded.cycle ∧
    Tab.get 0 ((filling id).strand 0 0).filled 62 ≤ board.cycle * 2 ^ 16 := by decide +kernel

/-- Page tables at 4,096 of one leaf for the page at 0: level 4 to level 1, each in a page of its own. -/
def tables (leaf : Word) : State :=
  let s := (withStrand fun t => { t with held := .walk 0 }).updJob 0 fun j => { j with ptroot := 0x1000#52 }
  let s := s.updCore 0 fun v => { v with dtlb := [] }
  let m := Memory.write s.mem 0x1000 (leBytes 8 0x2001)
  let m := Memory.write m 0x2000 (leBytes 8 0x3001)
  let m := Memory.write m 0x3000 (leBytes 8 0x4001)
  { s with mem := Memory.write m 0x4000 (leBytes 8 leaf.toNat), arg := { c := 0, k := 0, w0 := 0, n := 1 } }
def walkClass (w : WalkRes) : Nat := match w with | .leaf e => if Need.r.ok e.leaf then 0 else 1 | .fault cls _ => cls

theorem witness_PageWalks : (tables 0x5003#64).arg.w0 = (0#48 : BitVec 48).setWidth 64 ∧ ((tables 0x5003#64).strand 0 0).held = .walk 0 ∧
    walkClass ((tables 0x5003#64).walk 0 0) = 0 ∧ walkClass ((tables 0x5001#64).walk 0 0) = 1 ∧ walkClass ((tables 0#64).walk 0 0) = 6 ∧
    ((tables 0#64).cluster (clusterOf 0)).l2.find? (fun e => e.hits 0 0 && Need.r.ok e.leaf) = none ∧
    (((tables 0#64).updCluster 0 fun v => { v with l2 := [{ leaf := 3#64 }] }).cluster (clusterOf 0)).l2.find? (fun e => e.hits 0 0 && Need.r.ok e.leaf) =
      some { leaf := 3#64 } := by decide +kernel

def outstanding : State :=
  { board.updCore 0 fun v => { v with reqs := [{ id := 4 }] } with arg := { cl := 0, n := 5 }, clusters := [(0, { invWait := [(5, 0, 4)] })] }

theorem witness_Invalidations : ((outstanding.cluster outstanding.arg.cl).invWait.filter fun e => e.1 = outstanding.arg.n && (outstanding.core e.2.1).pendingIds.contains e.2.2) = [(5, 0, 4)] ∧
    ((board.cluster board.arg.cl).invWait.filter fun e => e.1 = board.arg.n && (board.core e.2.1).pendingIds.contains e.2.2) = [] := by decide +kernel

/-- An armed object at byte 16 of core 0 that expects 3 and has 2 arrivals in phase 0, and a request for it. -/
def object (kind : ReqKind) (w : Word) : State :=
  let r : Req := { id := 7, kind := kind, pa := BitVec.ofNat 52 (localBase 0 + 16), size := 16, w0 := w }
  { board.updCore 0 fun v => { v with reqs := [r] } with
    mem := Memory.write board.mem (localBase 0 + 16) (leBytes 8 0x2000020003), msgs := [(1, { body := .req r })], arg := { n := 1 } }

theorem witness_BarrierObjectSteps : ∀ x ∈ [(ReqKind.mbarInit, 3#64), (.mbarArr, 1#64), (.mbarArr, 2#64), (.mbarArr, 65535#64), (.mbarWait, 0#64), (.mbarWait, 15#64)],
    (object x.1 x.2).msgReq 1 = some { id := 7, kind := x.1, pa := BitVec.ofNat 52 (localBase 0 + 16), size := 16, w0 := x.2 } ∧ isLocal (localBase 0 + 16) = true ∧
    (object x.1 x.2).bankFault { id := 7, kind := x.1, pa := BitVec.ofNat 52 (localBase 0 + 16), size := 16, w0 := x.2 } = none ∧
    (object x.1 x.2).memBad (localBase 0 + 16) 16 = false ∧
    (∀ n ∈ slotsOf (localOff (localBase 0 + 16)) 16, ((object x.1 x.2).slot (localCore (localBase 0 + 16)) n).busy = false) ∧ (object x.1 x.2).poisons = [] ∧
    (leBits 64 (Memory.read (object x.1 x.2).mem (localBase 0 + 16) 8) : Word) = 0x2000020003#64 := by decide +kernel

theorem witness_BarrierWaits : sentMsg (arriving (.barNotice 0 64#52)) 1 = some { dst := { ep := 66 }, body := .barNotice 0 64#52 } ∧
    (∀ b : Bool, ((({ board.updCore 0 (fun v => { v with reqs := [{ id := 9, kind := .mbarWait, waiting := b }] }) with arg := { c := 0, n := 9 } } : State).core 0).reqs.find?
      (fun r => r.id == 9 && r.kind == .mbarWait)) = some { id := 9, kind := .mbarWait, waiting := b }) := by decide +kernel

/-- A stop of job 0 has reached core 0. -/
def held (s : State) : State := s.updLeaf 0 (.core 0) fun x => { x with stopped := true }

theorem witness_StoppedWaits : (held (object .mbarWait 0#64)).stopHolds { id := 7, kind := .mbarWait, pa := BitVec.ofNat 52 (localBase 0 + 16), size := 16 } = true ∧
    (object .mbarWait 0#64).stopHolds { id := 7, kind := .mbarWait, pa := BitVec.ofNat 52 (localBase 0 + 16), size := 16 } = false ∧
    (held (object .mbarWait 0#64)).msgReq 1 = (object .mbarWait 0#64).msgReq 1 ∧
    ((given { c := 0, n := 9 }).push 1 .teardown {}).agenda.any (fun e => decide (e.1 ≤ 2 * board.cycle + 1) && e.2.1 != .mbarWaitTimeout) = true ∧
    (given { c := 0, n := 9 }).agenda.any (fun e => decide (e.1 ≤ 2 * board.cycle + 1) && e.2.1 != .mbarWaitTimeout) = false := by decide +kernel

/-! ## Homes -/

/-- A request of core 0 for byte 128 on its way to its home. -/
def homing (r : Req) : State := { board with msgs := [(1, { body := .req r })], arg := { n := 1 } }
def anAt (k : ReqKind) (size : Nat) : Req := { id := 7, kind := k, pa := 128#52, size := size, lease := 256#64, w0 := 9#64 }

theorem atHome_iff {s : State} {n : Nat} {r : Req} {size : Nat} : AtHome s n r size ↔ s.arg.n = n ∧ s.msgReq n = some r ∧ devOf r.pa = s.devnum ∧
    isTier (offOf r.pa) = true ∧ offOf r.pa % 128 + size ≤ 128 ∧ s.hostHolds (offOf r.pa) = false ∧ r.twin = none ∧ s.poisons = [] ∧
    s.lostAt (offOf r.pa) = false :=
  ⟨fun h => ⟨h.arg, h.req, h.own, h.tier, h.line, h.free, h.single, h.sound⟩, fun ⟨h1, h2, h3, h4, h5, h6, h7, h8⟩ => ⟨h1, h2, h3, h4, h5, h6, h7, h8⟩⟩

theorem witness_AtHome : ∀ x ∈ [(ReqKind.load, 8), (.loadM, 16), (.store, 1), (.storeM, 16), (.writeback, 128), (.amo 9, 8), (.red 17, 8), (.claim true, 32),
      (.ldfe, 8), (.stef, 8), (.stff, 8)], AtHome (homing (anAt x.1 x.2)) 1 (anAt x.1 x.2) x.2 ∧ (anAt x.1 x.2).pois = 0 ∧
    Unwalked (homing (anAt x.1 x.2)) (anAt x.1 x.2) ∧ 1 ≠ (homing (anAt x.1 x.2)).nextId + 1 := by
  simp only [atHome_iff, Unwalked]
  decide +kernel

theorem witness_HostHolds : { homing (anAt .store 8) with hostLines := [1] }.hostHolds (offOf (anAt .store 8).pa) = true := by decide +kernel

/-- The word at 128 full and empty, and 512 waiter records in use. -/
def fullEmpty (k : ReqKind) (es : List Nat) (n : Nat) : State :=
  { homing (anAt k 8) with nextId := 2, empties := es,
                           clusters := [(1, { waiters := List.replicate n { anAt .ldfe 8 with waiting := true } })] }

theorem witness_FullEmptyAtHome : (fullEmpty .ldfe [] 0).full 128 = true ∧ (fullEmpty .ldfe [16] 0).full 128 = false ∧
    1 ≠ (fullEmpty .ldfe [16] 0).nextId ∧ AtHome (fullEmpty .stef [16] 0) 1 (anAt .stef 8) 8 ∧ (fullEmpty .ldfe [] 0).waitersOf 128 = [] ∧
    ((fullEmpty .ldfe [] 0).cluster (waitCluster 128)).waitw = [] ∧ ((fullEmpty .ldfe [16] 511).waitersOf 128).length < 512 ∧
    512 ≤ ((fullEmpty .ldfe [16] 512).waitersOf 128).length := by
  simp only [atHome_iff]
  decide +kernel

theorem witness_StoppedFullEmpty : AtHome (held (fullEmpty .ldfe [16] 0)) 1 (anAt .ldfe 8) 8 ∧ (held (fullEmpty .ldfe [16] 0)).full 128 = false ∧
    (held (fullEmpty .ldfe [16] 0)).stopHolds (anAt .ldfe 8) = true ∧ (fullEmpty .ldfe [16] 0).stopHolds (anAt .ldfe 8) = false := by
  simp only [atHome_iff]
  decide +kernel

/-- A request for the bank of core 0, in slot 0 of the job or past the slots. -/
def banking (k : ReqKind) (off : Nat) : State := homing { anAt k 8 with pa := BitVec.ofNat 52 (localBase 0 + off) }

theorem witness_RemoteAccesses : ∀ k ∈ [ReqKind.load, .store], (banking k 0).msgReq 1 = some { anAt k 8 with pa := BitVec.ofNat 52 (localBase 0) } ∧
    isLocal (localBase 0) = true ∧ k.fullEmpty = false ∧ (banking k 0).bankFault { anAt k 8 with pa := BitVec.ofNat 52 (localBase 0) } = none ∧
    (∀ m ∈ slotsOf (localOff (localBase 0)) 8, ((banking k 0).slot (localCore (localBase 0)) m).busy = false) ∧
    ((banking k 0xC0000).bankFault { anAt k 8 with pa := BitVec.ofNat 52 (localBase 0 + 0xC0000) }).isSome = true := by decide +kernel

theorem witness_SlicesAndHost : (homing (anAt .resize 8)).msgReq 1 = some (anAt .resize 8) ∧
    ((homing (anAt .resize 8)).cluster (clusterOf (anAt .resize 8).core)).vwait = [] ∧
    (((homing (anAt .resize 8)).updCluster (clusterOf (anAt .resize 8).core) fun v => { v with vways := 15 }).cluster (clusterOf (anAt .resize 8).core)).vways = 15 ∧
    ((homing (anAt .resize 8)).cluster (clusterOf (anAt .resize 8).core)).vways < (anAt .resize 8).w0.toNat ∧
    isTier (given { w0 := 0x200000000000#64 }).arg.w0.toNat = false ∧ isTier (given { w0 := 128, ok := true, n := 8 }).arg.w0.toNat = true ∧
    (given { w0 := 128, ok := true, n := 8 }).stackOk 128 = true ∧ (5, 3) ∈ ({ board with backInv := [(5, 3)] } : State).backInv := by decide +kernel

/-- A frame of the capacity tier has been hit sixteen times. -/
def hot (off : List Nat) : State := { board with frames := [(0x10000000, { at' := 0x10000000 })], frameHits := [(0x10000000, List.replicate 16 0)],
                                                 evictOff := off, arg := { n := 0x10000000, v := 0 } }

theorem witness_FrameExchanges : (hot []).arg.v ∉ (hot []).evictOff ∧ isCap (((hot []).frame 0x10000000).at' * 65536) = true ∧
    (Tab.get [] (hot []).frameHits 0x10000000).length = 16 ∧ (∀ x ∈ Tab.get [] (hot []).frameHits 0x10000000, (hot []).now ≤ x + 179200) ∧
    ((hot []).frame 0x10000000).lost = false ∧ (hot []).victim 0 = some 0 ∧ ((hot []).victimKey 0).1 = 0 ∧ (hot [0]).arg.v ∈ (hot [0]).evictOff := by decide +kernel

/-! ## The ephemeris -/

/-- A version request at its home, with the versions there. -/
def versioning (r : Req) (vs : List Version) (gvt : Word) : State :=
  let s := (homing r).updCluster (verHome 0 5#64) fun v => { v with vers := vs }
  s.updLeaf 0 (.dispenser (verHome 0 5#64)) fun x => { x with gvt := gvt }
def aVersionReq (k : ReqKind) : Req := { id := 7, kind := k, w0 := 5#64, w1 := 8#64 }
def aVersion (st : VSt) : Version := { name := 5#64, ver := 8#64, st := st, creator := ⟨0, 1, 1⟩ }

theorem atVersions_iff {s : State} {n : Nat} {r : Req} : AtVersions s n r ↔ s.arg.n = n ∧ s.msgReq n = some r :=
  ⟨fun h => ⟨h.arg, h.req⟩, fun ⟨h1, h2⟩ => ⟨h1, h2⟩⟩

/-- A job whose space 0 is near, with one version-store way at the home. -/
def nearby (r : Req) : State :=
  ((versioning r [] 0).updJob 0 fun j => { j with near := 1 }).updCluster (verHome 0 5#64) fun v => { v with vways := 1 }

/-- An ephemeris with 262,144 entries, none of them of a version, has no free one for it. -/
theorem fullEphemeris (vs : List Version) (h : vs.length = 262144) (hn : ∀ x ∈ vs, x.is 0 5#64 8#64 = false) :
    ({ vers := vs } : Cluster).entryFree 0 5#64 8#64 = false := by
  have hf : vs.find? (fun x => x.is 0 5#64 8#64) = none := List.find?_eq_none.2 fun x hx => by rw [hn x hx]; decide
  simp only [Cluster.entryFree, Cluster.version, hf, h]
  decide

theorem witness_FullEphemeris : ({ vers := List.replicate 262144 {} } : Cluster).entryFree 0 5#64 8#64 = false :=
  fullEphemeris _ List.length_replicate fun x hx => by rw [List.eq_of_mem_replicate hx]; decide +kernel

theorem witness_VersionStoresAtHome : AtVersions (versioning (aVersionReq .verst) [] 0) 1 (aVersionReq .verst) ∧
    Alone (versioning (aVersionReq .verst) [] 0) (aVersionReq .verst) ∧ entryOf (versioning (aVersionReq .verst) [] 0) (aVersionReq .verst) = none ∧
    ((nearby (aVersionReq .verst)).cluster (verHome 0 5#64)).entryFree 0 5#64 8#64 = true ∧
    ((nearby (aVersionReq .verst)).storage (verHome 0 5#64) 0 5#64 {}).isSome = true ∧
    entryOf (versioning (aVersionReq .verst) [aVersion .absent] 0) (aVersionReq .verst) = some (aVersion .absent) ∧
    entryOf (versioning (aVersionReq .verst) [aVersion .committed] 0) (aVersionReq .verst) = some (aVersion .committed) ∧
    (aVersion .committed).dec = false ∧ (aVersion .committed).creator = ({ aVersionReq .verst with ident := ⟨0, 1, 1⟩ } : Req).ident ∧
    (aVersion .committed).creator ≠ (aVersionReq .verst).ident := by
  simp only [atVersions_iff, Alone]
  decide +kernel

theorem witness_ExactLoads : ∀ st ∈ [VSt.absent, .tentative, .committed, .poisoned, .retracted, .dead],
    AtVersions (versioning (aVersionReq .verldEq) [aVersion st] 0) 1 (aVersionReq .verldEq) ∧
    Alone (versioning (aVersionReq .verldEq) [aVersion st] 0) (aVersionReq .verldEq) ∧
    entryOf (versioning (aVersionReq .verldEq) [aVersion st] 0) (aVersionReq .verldEq) = some (aVersion st) ∧ (aVersion st).unlimited = true ∧
    entryOf (versioning (aVersionReq .verrel) [{ aVersion st with unlimited := false, r := 1, p := 1 }] 0) (aVersionReq .verrel) =
      some { aVersion st with unlimited := false, r := 1, p := 1 } := by
  simp only [atVersions_iff, Alone]
  decide +kernel

theorem witness_LoadsByTime : AtVersions (versioning (aVersionReq .verldAsof) [aVersion .committed] 9) 1 (aVersionReq .verldAsof) ∧
    Alone (versioning (aVersionReq .verldAsof) [aVersion .committed] 9) (aVersionReq .verldAsof) ∧
    ((versioning (aVersionReq .verldAsof) [aVersion .committed] 9).cluster (verHome 0 5#64)).latest 0 5#64 8#64 = some (aVersion .committed) ∧
    8#64 < (versioning (aVersionReq .verldAsof) [aVersion .committed] 9).homeGvt (verHome 0 5#64) 0 ∧
    (versioning (aVersionReq .verldAsof) [aVersion .committed] 8).homeGvt (verHome 0 5#64) 0 ≤ 8#64 ∧
    ((versioning (aVersionReq .verldAsof) [aVersion .dead] 9).cluster (verHome 0 5#64)).latest 0 5#64 8#64 = none ∧
    ((versioning (aVersionReq .verldAsof) [] 8).cluster (verHome 0 5#64)).latest 0 5#64 8#64 = none ∧ (aVersion .dead).st = .dead ∧ (aVersion .dead).ver ≤ 8#64 := by
  simp only [atVersions_iff, Alone]
  decide +kernel

/-- The stop has reached core 0, and a version of the tile has died whose entry is gone. -/
theorem witness_StoppedVersions : (∀ k ∈ [ReqKind.verst, .verldEq, .verldAsof], AtVersions (held (versioning (aVersionReq k) [] 0)) 1 (aVersionReq k) ∧
      Alone (held (versioning (aVersionReq k) [] 0)) (aVersionReq k) ∧ entryOf (held (versioning (aVersionReq k) [] 0)) (aVersionReq k) = none ∧
      (held (versioning (aVersionReq k) [] 0)).stopHolds (aVersionReq k) = true ∧ (versioning (aVersionReq k) [] 0).stopHolds (aVersionReq k) = false) ∧
    (((versioning (aVersionReq .verldAsof) [] 0).updCluster (verHome 0 5#64) fun v => { v with died := [(0, 5#64, 7#64)] }).cluster (verHome 0 5#64)).died =
      [(0, 5#64, 7#64)] := by
  refine ⟨?_, by decide +kernel⟩
  simp only [atVersions_iff, Alone]
  decide +kernel

theorem witness_VersionEnds : sentMsg (versioning (aVersionReq .retract) [] 0) 1 = some { body := .req (aVersionReq .retract) } ∧
    entryOf (versioning (aVersionReq .retract) [] 0) (aVersionReq .retract) = none ∧
    entryOf (versioning (aVersionReq .retract) [aVersion .tentative] 0) (aVersionReq .retract) = some (aVersion .tentative) ∧
    ((versioning (aVersionReq .retract) [aVersion .tentative] 0).cluster (verHome 0 5#64)).waitedFor 0 5#64 8#64 = false ∧
    Alone (versioning { aVersionReq .verCommit with w2 := 4 } [aVersion .tentative] 0) { aVersionReq .verCommit with w2 := 4 } ∧
    (aVersion .tentative).unlimited = true ∧ (∀ z ∈ [aVersion .tentative], ¬(aVersionReq .verCommit).w1 < z.ver) ∧
    entryOf (versioning { aVersionReq .verCommit with w2 := 5 } [{ aVersion .committed with unlimited := false, r := 2, p := 1 }] 0)
      { aVersionReq .verCommit with w2 := 5 } = some { aVersion .committed with unlimited := false, r := 2, p := 1 } ∧
    ({ aVersion .committed with unlimited := false, r := 2, p := 1 } : Version).live = true := by
  simp only [Alone]
  decide +kernel

/-! ## The network -/

/-- A flit at router 0, for another router, for a slice endpoint there, or of a request. -/
def aFlit (dst : Ep) (kind : BitVec 6) : Flit := { m := 1, key := { src := { router := 9 }, tag := 3 }, dst := dst, kind := kind, port := 1, age := 4095 }
def meshing (fs : List Flit) : State := { board with flits := fs, msgs := [(1, { due := [1, 2], fcnt := 2, dst := { ep := 65 }, tag := 5 })], arg := { cl := 0, n := 0 } }
def injecting (due : List Nat) : State :=
  { board with now := 9, msgs := [(1, { due := due, fcnt := 2, dst := { router := 5, ep := 65 }, src := { ep := 0 }, tag := 5 })],
               clusters := [(0, { inj := [1] })], arg := { cl := 0, n := 0 } }

theorem witness_RouterCycles : (meshing [aFlit { router := 63, ep := 65 } 0x20]).arg.cl = 0 ∧
    Sys2Proof.arriving (meshing [aFlit { router := 63, ep := 65 } 0x20]) 0 0 = [aFlit { router := 63, ep := 65 } 0x20] ∧
    (meshing [aFlit { router := 63, ep := 65 } 0x20]).injectable 0 0 = none ∧
    ((meshing [aFlit { ep := 65 } 0x20]).accepts 0 (aFlit { ep := 65 } 0x20)).isSome = true ∧
    Sys2Proof.arriving (injecting [0, 1]) 0 0 = [] ∧ ((injecting [0, 1]).injectable 0 0).map (·.1) = some 1 ∧
    ((injecting [1]).injectable 0 0).map (·.1) = some 1 ∧
    Sys2Proof.arriving (meshing []) 0 0 = [] ∧ (meshing []).injectable 0 0 = none := by decide +kernel

/-- A pool with 62 or 63 entries and a filter with some. -/
def pooled (n : Nat) (comet : Bool) (flt : List (PKey × Nat)) : State :=
  { meshing [aFlit { ep := 65 } 1] with
    clusters := [(0, { pools := [(65, (List.range n).map (fun i => ({ key := { tag := BitVec.ofNat 10 (100 + i) } } : PoolEntry)) ++
                         if comet then [{ key := { tag := 99 }, comet := true }] else [])], filters := [(65, flt)] })] }

theorem witness_FlitAcceptance : Sys2Proof.arriving (pooled 62 false []) 0 0 = [aFlit { ep := 65 } 1] ∧ (aFlit { ep := 65 } 1).dst.ep ≠ 68 ∧
    (pooled 62 false []).injectable 0 0 = none ∧ (aFlit { ep := 65 } 0x20).never = true ∧ (aFlit { ep := 65 } 1).never = false ∧
    ((pooled 62 false []).accepts 0 (aFlit { ep := 65 } 1)).isSome = true ∧
    ((Tab.get [] ((pooled 62 false []).cluster 0).pools 65).filter fun x => !x.comet).length < 63 ∧
    63 ≤ ((Tab.get [] ((pooled 63 true []).cluster 0).pools 65).filter fun x => !x.comet).length ∧ (pooled 63 true []).isComet (aFlit { ep := 65 } 1) = false ∧
    (Tab.get [] ((pooled 63 true [((aFlit { ep := 65 } 1).key, 2)]).cluster 0).filters 65).find? (fun x => x.1 == (aFlit { ep := 65 } 1).key) =
      some ((aFlit { ep := 65 } 1).key, 2) ∧
    64 ≤ (Tab.get [] ((pooled 63 true (List.replicate 64 ({}, 2))).cluster 0).filters 65).length := by decide +kernel

def ejecting (e : Eject) (got : List Nat) : State :=
  { board with flits := [{ aFlit { ep := 65 } 1 with fidx := 1, eject := e }], msgs := [(1, { fcnt := 3, got := got })], arg := { cl := 0, n := 1, v := 1 } }

theorem witness_FlitEjections : (ejecting .take [0, 2]).flits.find? (fun x => x.router == 0 && x.m == 1 && x.fidx == 1 && x.eject != .no) =
      some { aFlit { ep := 65 } 1 with fidx := 1, eject := .take } ∧ sentMsg (ejecting .take [0, 2]) 1 = some { fcnt := 3, got := [0, 2] } ∧
    ([] : List Nat).length + 1 < 3 ∧ 3 ≤ [0, 2].length + 1 ∧
    (ejecting (.drop true false) []).flits.find? (fun x => x.router == 0 && x.m == 1 && x.fidx == 1 && x.eject != .no) =
      some { aFlit { ep := 65 } 1 with fidx := 1, eject := .drop true false } ∧
    (ejecting (.drop false true) []).flits.find? (fun x => x.router == 0 && x.m == 1 && x.fidx == 1 && x.eject != .no) =
      some { aFlit { ep := 65 } 1 with fidx := 1, eject := .drop false true } := by decide +kernel

def whole (m : Msg) : State := { board with nextId := 5, msgs := [(1, m)], routes := [(3, 1#16)], arg := { n := 1 } }

theorem witness_WholePackets : sentMsg (whole { src := { ep := 1 }, dst := { ep := 65 }, body := .req { kind := .load } }) 1 =
      some { src := { ep := 1 }, dst := { ep := 65 }, body := .req { kind := .load } } ∧
    sentMsg (whole { dst := { ep := 68 } }) 1 = some { dst := { ep := 68 } } ∧
    sentMsg (whole { dst := { dev := 3, ep := 65 } }) 1 = some { dst := { dev := 3, ep := 65 } } ∧ (3#6 : BitVec 6) ≠ board.devnum ∧
    (whole { dst := { dev := 3, ep := 65 } }).portTo 3 0 0 = some 0 := by decide +kernel

/-- A task message leaves for device 3 through port 0, whose leaf is open or not. -/
def crossing (colour isOpen : Bool) : State :=
  (whole { dst := { dev := 3, ep := 65 }, via := 0, colour := colour, body := .task aTask 0 }).updLeaf 0 (.port 0) fun x => { x with isOpen := isOpen }

theorem witness_Crossings : sentMsg (whole { dst := { ep := 65 }, parts := 3, body := .req { kind := .load } }) 1 =
      some { dst := { ep := 65 }, parts := 3, body := .req { kind := .load } } ∧
    (1 : Nat) ≠ (whole {}).nextId ∧ (∀ k, ({ body := .req { kind := .load } } : Msg).body ≠ .part k) ∧ (∀ k, ({ body := .task aTask 0 } : Msg).body ≠ .part k) ∧
    (∀ x ∈ [(false, false), (true, false), (true, true)],
      sentMsg (crossing x.1 x.2) 1 = some { dst := { dev := 3, ep := 65 }, via := 0, colour := x.1, body := .task aTask 0 } ∧
      ((crossing x.1 x.2).job 0).resident = true ∧ (((crossing x.1 x.2).job 0).leaf (.port 0)).colour = false ∧
      (((crossing x.1 x.2).job 0).leaf (.port 0)).isOpen = x.2) :=
  ⟨by decide +kernel, by decide +kernel, by simp, by simp, by decide +kernel⟩

theorem witness_InMesh : (meshing [aFlit { router := 63, ep := 65 } 0x20]).inMesh 1 = true ∧
    ({ whole {} with msgs := [(1, { refused := true, due := [1], fcnt := 2 })] } : State).inMesh 1 = true ∧ (whole { refused := true }).inMesh 1 = false ∧
    (aFlit { ep := 65 } 1).proxied = false := by decide +kernel

theorem witness_RetriesAndBackoff :
    sentMsg { whole { body := .retry 2 } with msgs := [(1, { body := .retry 2 }), (2, { retries := 6 })] } 1 = some { body := .retry 2 } ∧
    sentMsg { whole { body := .retry 2 } with msgs := [(1, { body := .retry 2 }), (2, { retries := 6 })] } 2 = some { retries := 6 } ∧
    sentMsg (whole { refused := true }) 1 = some { refused := true } ∧ sentMsg (whole {}) 1 = some {} := by decide +kernel

/-- Port 15 with a proxy entry for message 1, failed, and with all 1,024 entries in use. -/
def porting (m : Msg) (f : Port → Port) : State :=
  { board with nextId := 5, msgs := [(1, m)], ports := [(15, f { proxies := [{ m := 4, src := { dev := 2, router := 8 }, tag := 6, new := some 7 }] })], arg := { v := 15, n := 1 } }

theorem witness_JenayPorts : ((porting {} fun p => { p with failed := true }).port 15).failed = true ∧ ((porting {} id).port 15).failed = false ∧
    isReplyKind ({} : Msg).kind = false ∧ isReplyKind 0x20#6 = true ∧ ((porting {} id).port 15).proxies.length < 1024 ∧
    1024 ≤ ((porting {} fun p => { p with proxies := List.replicate 1024 {} }).port 15).proxies.length ∧
    sentMsg (porting { body := .accepted 4, answers := 7 } id) 1 = some { body := .accepted 4, answers := 7 } ∧
    ((porting { body := .accepted 4, answers := 7 } id).port 15).proxies.find? (fun x => x.new == some ({ body := .accepted 4, answers := 7 } : Msg).answers) =
      some { m := 4, src := { dev := 2, router := 8 }, tag := 6, new := some 7 } ∧
    ((porting { body := .retry 4, answers := 7 } id).port 15).proxies.find? (fun x => x.new == some ({ body := .retry 4, answers := 7 } : Msg).answers) =
      some { m := 4, src := { dev := 2, router := 8 }, tag := 6, new := some 7 } ∧
    (((porting {} fun p => { p with hold := [{ kind := 0x20 }] }).port 15).hold.find? fun m => linkClass m.kind m.isAnti == 1) = some { kind := 0x20 } := by decide +kernel

theorem witness_PortAnswers : (∀ k ∈ [0#6, 0x08#6], isReplyKind k = false ∧ k ≠ 0x30#6) ∧ (1 : Nat) < (porting { body := .accepted 4, answers := 7 } id).nextId ∧
    (porting { body := .retry 4, answers := 7 } id).inMesh 4 = false ∧
    ({ porting { body := .retry 4, answers := 7 } id with flits := [{ aFlit { ep := 65 } 1 with m := 4 }] } : State).inMesh 4 = true ∧ (4 : Nat) ≠ 1 ∧
    ((porting { body := .accepted 4, answers := 7 } fun p => { p with proxies := p.proxies.map fun e => { e with back := true } }).port 15).proxies.find?
      (fun x => x.new == some ({ body := .accepted 4, answers := 7 } : Msg).answers) =
        some { m := 4, src := { dev := 2, router := 8 }, tag := 6, new := some 7, back := true } := by decide +kernel

/-! ## Global virtual time, commit and rollback -/

/-- Device 5 with a link to device 3, so that 3 is the root of its domain. -/
def domain (r : Round) (f : Job → Job) : State :=
  { board.updJob 0 fun j => f { j with round := r } with devnum := 5, routes := [(3, 1#16)], arg := { j := 0 } }

theorem witness_Domains : (domain {} id).root = 3 ∧ (domain {} id).devnum = 5 ∧ board.root = board.devnum.toNat ∧ ((domain { held := [3] } id).job 0).round.held ≠ [] ∧
    ((domain { asked := [3] } id).job 0).round.asked ≠ [] ∧ (board.job 0).round.held = [] ∧ (domain {} id).portTo 3 0 0 = some 0 ∧
    ((domain { active := true, reps := [{ lmin := 8, smin := 9, cnt := 2 }] } id).job 0).round.reps ≠ [] ∧
    ((domain { active := true, reps := [{ lmin := 8, smin := 9, cnt := 2 }] } id).job 0).round.due = [] ∧
    (domain {} id).cut = none ∧ ((domain {} id).job 0).resident = true ∧ ((domain {} id).job 0).stopped = false := by decide +kernel

def rounding (r : Round) : State := { board.updJob 0 fun j => { j with round := r } with arg := { j := 0 } }

theorem witness_RoundStarts : (board.job 1).resident = false ∧ (board.job 0).resident = true ∧ (board.job 0).stopped = false ∧
    (board.job 0).round.active = false ∧ ((rounding { active := true }).job 0).round.active = true ∧ ((rounding { active := true }).job 0).round.stop = false ∧
    (board.updJob 0 fun j => { j with stopped := true }).arg.j = 0 := by decide +kernel

theorem witness_FlipsAndReports : ∀ x ∈ [Leaf.core 4095, .dispenser 63, .decoder 31, .port 15, .mgmt],
    { rounding { active := true, k := true } with arg := { j := 0, leaf := x } }.arg.leaf = x ∧
    (({ rounding { active := true, k := true } with arg := { j := 0, leaf := x } } : State).job 0).round.active = true ∧
    ((({ rounding { active := true, k := true } with arg := { j := 0, leaf := x } } : State).job 0).leaf x).isOpen = false := by decide +kernel

theorem witness_RoundCloses : ((rounding { active := true, due := [1] }).job 0).round.due ≠ [] ∧
    ((rounding { active := true, reps := [{ cnt := 1 }] }).job 0).round.reps.map (·.cnt) = [1] ∧
    ((rounding { active := true, reps := [{ lmin := 8, smin := 9 }] }).job 0).round.due = [] ∧
    (((rounding { active := true, reps := [{ lmin := 8, smin := 9 }] }).job 0).round.reps.map (·.cnt)).foldl (· + ·) 0 = 0 ∧
    ((rounding { active := true, reps := [{ lmin := 8, smin := 9 }] }).job 0).round.stop = false := by decide +kernel

/-- Core 0 holds a block of a task with a time of 7. -/
def blocked (b : Block) : State := { board.updCore 0 fun v => { v with rings := [b] } with arg := { c := 0, t := aTask.t.ident, w0 := 8, leaf := .core 0 } }
def aBlock (ts : TState) (log : List LogEntry) : Block := { t := aTask, ts := ts, log := log }

theorem witness_Broadcasts : (blocked (aBlock .done [])).arg.leaf = .core 0 ∧ (blocked (aBlock .done [])).arg.w0 = 8 ∧
    (aBlock .done []) ∈ ((blocked (aBlock .done [])).core 0).rings ∧ (aBlock .done []).t.t.vt < 8 ∧
    (board.cluster 0).vers = [] ∧ (board.cluster 0).vwait = [] := by decide +kernel

theorem witness_CommitSteps : ((blocked (aBlock .running [])).core 0).blockOf aTask.t.ident = some (aBlock .running []) ∧
    ((blocked (aBlock .done [])).core 0).blockOf aTask.t.ident = some (aBlock .done []) ∧
    (((blocked (aBlock .done [])).job 0).leaf (.core 0)).gvt ≤ (aBlock .done []).t.t.vt ∧
    ((blocked { aBlock .committing [] with wait := some 4 }).core 0).blockOf aTask.t.ident = some { aBlock .committing [] with wait := some 4 } ∧
    (∃ r ∈ (({ blocked { aBlock .committing [] with wait := some 4 } with cores := [(0, { reqs := [{ id := 4 }] })] } : State).core 0).reqs, r.id = 4) ∧
    (aBlock .committing [.created 5 8, .exact 5 8, .asof 1 5 8, .spawn {}]).wait = none ∧
    (((blocked (aBlock .done [])).updLeaf 0 (.core 0) fun x => { x with gvt := 9 }).job 0).leaf (.core 0) = { gvt := 9 } ∧
    ((board.updCore 0 fun v => { v with sendBuf := List.replicate 16 {} }).core 0).sendRoom = false := by decide +kernel

/-- The block commits one entry; a block before it has a spawn left; the bank of core 0, of core 1 and past the slots are named. -/
def committing (e : LogEntry) : State := blocked (aBlock .committing [e])
def behind (e : LogEntry) : State :=
  (committing e).updCore 0 fun v => { v with rings := { t := { t := { seq := 4, vt := 3#64 } }, ts := .committing, log := [.spawn {}] } :: v.rings }

theorem witness_CommitActions : (aBlock .committing [.spawn {}]).wait = none ∧
    (∀ e ∈ [LogEntry.spawn {}, .deferred false 9 0x7FFFFFF00000#48 0 0],
      ((committing e).core 0).blockOf aTask.t.ident = some (aBlock .committing [e]) ∧ (aBlock .committing [e]).log[0]? = some e ∧
      ((behind e).core 0).blockOf aTask.t.ident = some (aBlock .committing [e]) ∧ ((behind e).core 0).rings.length = 2) ∧
    ({ t := { seq := 4, vt := 3#64 } } : QEntry).key < aTask.key ∧ ({ t := { seq := 4, vt := 3#64 } } : QEntry).t.ident ≠ aTask.t.ident ∧
    (committing (.spawn {})).seqFree 0 = true ∧ ((committing (.spawn {})).core 0).sendRoom = true ∧
    ((committing (.spawn {})).core 0).slFree = some 0 ∧
    (((committing (.spawn {})).updCore 0 fun v => { v with slog := (List.range 64).map fun i => (i, { st := 1 }) }).core 0).slFree = none ∧
    windowOf 0 0x7FFFFFF00000#48 = some (0, 0) ∧ windowOf 0 0x7FFE00100010#48 = some (1, 16) ∧
    (committing (.spawn {})).localCheck 0 0 0 8 = none ∧ (∀ n ∈ slotsOf 0 8, ((committing (.spawn {})).slot 0 n).busy = false) ∧
    (committing (.spawn {})).localCheck 0 0 0xC0000 8 = some 6 ∧ (committing (.spawn {})).autokill 0 6 = false ∧
    ((committing (.spawn {})).updSlot 1 0 fun _ => { jobtag := 0, use := 3 }).localCheck 1 0 16 8 = none := by decide +kernel

theorem witness_RollbackBegins : ((blocked (aBlock .committing [])).core 0).blockOf aTask.t.ident = some (aBlock .committing []) ∧
    ((blocked (aBlock .done [])).core 0).blockOf aTask.t.ident = some (aBlock .done []) ∧
    (((blocked (aBlock .rolling [])).updStrand 0 0 fun t => { t with task := some aTask, opt := true, held := .lane }).core 0).strandOf aTask.t.ident = some 0 ∧
    (((blocked (aBlock .rolling [])).updStrand 0 0 fun t => { t with task := some aTask, opt := true, held := .lane }).strand 0 0).held ≠ .none := by decide +kernel

theorem witness_RollbackEnds : ∀ e ∈ [LogEntry.sent 9 0 0 0x10 6 false 3, .created 5 8, .exact 5 8, .asof 7 5 8],
    ((blocked (aBlock .rolling [e])).core 0).blockOf aTask.t.ident = some (aBlock .rolling [e]) ∧ (aBlock .rolling [e]).ts = .rolling ∧
    ((blocked (aBlock .rolling [e])).core 0).strandOf aTask.t.ident = none ∧ (aBlock .rolling [e]).wait = none ∧
    (aBlock .rolling [e]).requeue = true ∧ (aBlock .rolling [e]).migrated = false := by decide +kernel

theorem witness_RollbackRoom : (blocked (aBlock .rolling [.exact 5 8])).mayRequeue 0 (aBlock .rolling [.exact 5 8]) = true := by decide +kernel

/-- A block of a task that stands neither in a full queue nor in a full spill area. -/
def lateBlock : Block := { t := { t := { seq := 100, vt := 7 } }, ts := .rolling, log := [.exact 5 8] }

theorem dropEntry_same (v : Core) {i : Ident} {q es : List QEntry} (h : v.queue = q) (hs : v.spill = [(0, es)])
    (hq : q.filter (fun q => !(q.t.ident == i && !q.t.anti)) = q) (he : es.filter (fun q => !(q.t.ident == i && !q.t.anti)) = es) : v.dropEntry i = v := by
  cases v
  subst h hs
  simp only [Core.dropEntry, List.map, hq, he]

theorem fullRollback (es : List QEntry) (hl : es.length = 3584) (ha : ∀ e ∈ es, e.t.anti = false) (hi : ∀ e ∈ es, e.t.ident ≠ lateBlock.t.t.ident) :
    (holding manyTasks es board).mayRequeue 0 lateBlock = false := by
  have hf : es.filter (fun q => !(q.t.ident == lateBlock.t.t.ident && !q.t.anti)) = es :=
    List.filter_eq_self.2 fun e he => by simp [hi e he]
  have hq : manyTasks.filter (fun q => !(q.t.ident == lateBlock.t.t.ident && !q.t.anti)) = manyTasks := by decide +kernel
  have hc : ((holding manyTasks es board).updCore 0 fun v => v.dropEntry lateBlock.t.t.ident).core 0 = (holding manyTasks es board).core 0 := by
    rw [State.core_updCore_same]
    exact dropEntry_same ((holding manyTasks es board).core 0) rfl rfl hq hf
  have hr : ((holding manyTasks es board).core 0).spillRoom lateBlock.t.t.job false = false := fullSpill es hl ha
  have hn : ¬((holding manyTasks es board).core 0).queue.length < 56 := by
    show ¬manyTasks.length < 56
    decide +kernel
  have hp : ((holding manyTasks es board).core 0).place lateBlock.t.t.job lateBlock.t = .full := by
    simp only [Core.place, hr, Bool.false_eq_true, if_false, if_neg hn, Bool.not_false, if_true, ite_self]
  simp only [State.mayRequeue, State.roomFor, State.placeIn, hc, hp]
  rfl

theorem witness_NoRollbackRoom : (holding manyTasks (List.replicate 3584 aTask) board).mayRequeue 0 lateBlock = false :=
  fullRollback _ List.length_replicate (fun e he => by rw [List.eq_of_mem_replicate he]; rfl)
    (fun e he => by rw [List.eq_of_mem_replicate he]; decide +kernel)

theorem witness_NoticeMerges : ∀ ts ∈ [TState.rolling, .committing], ((blocked (aBlock ts [.asof 7 5 8])).core 0).blockOf aTask.t.ident = some (aBlock ts [.asof 7 5 8]) ∧
    LogEntry.asof 7 5 8 ∈ (aBlock ts [.asof 7 5 8]).log := by decide +kernel

theorem witness_Notices : sentMsg { blocked (aBlock .done [.asof 7 5 8]) with msgs := [(1, { body := .notice 0 { straggler := true, name := 5, ver := 9, t := aTask.t.ident } })] } 1 =
      some { body := .notice 0 { straggler := true, name := 5, ver := 9, t := aTask.t.ident } } ∧
    ((blocked (aBlock .done [.asof 7 5 8])).core 0).blockOf aTask.t.ident = some (aBlock .done [.asof 7 5 8]) ∧
    LogEntry.asof 7 5 8 ∈ (aBlock .done [.asof 7 5 8]).log ∧ (8#64 : Word) < 9#64 ∧ (board.core 0).blockOf aTask.t.ident = none := by decide +kernel

/-- A task with a time of 3 waits for 6 entries of a ring that holds a later block. -/
def pressed (ts : TState) : State :=
  let s := (withStrand fun t => { t with st := .parked, park := .ring 6, opt := true, vt := 3, task := some { t := { vt := 3, seq := 6, opt := true } } })
  { s.updCore 0 fun v => { v with rings := [{ t := { t := { vt := 3, seq := 6, opt := true } }, strand := some 0 }, aBlock ts []] } with arg := { c := 0 } }

theorem witness_RingPressure : board.ringWaiter 0 0 0 = none ∧ ((pressed .done).ringWaiter 0 0 0).map (·.t.vt) = some 3 ∧
    ((pressed .rolling).ringWaiter 0 0 0).map (·.t.vt) = some 3 ∧ ({ t := { vt := 3, seq := 6, opt := true } } : QEntry).key < aTask.key ∧
    ((pressed .done).core 0).blockOf aTask.t.ident = some (aBlock .done []) := by decide +kernel

/-! ## Faults, the side log, the debug window, stops and restores -/

def frozen (f : Strand → Strand) : State := { withStrand fun t => f { t with st := .frozen, pc := 0x7FFFFFF00000#48 } with arg := { c := 0, k := 0 } }

theorem witness_Resumes : (board.strand 0 0).st ≠ .frozen ∧ ((frozen id).strand 0 0).st = .frozen ∧
    ((frozen fun t => { t with rollAt := some true }).strand 0 0).rollAt.isSome = true ∧ ((frozen id).strand 0 0).rollAt = none ∧
    ((frozen id).strand 0 0).killAt = none ∧
    (∃ r ∈ ((frozen id).updCore 0 fun v => { v with reqs := [{ id := 3, late := true }] }).strandReqs 0 0, r.late = true) ∧
    (∀ r ∈ (frozen id).strandReqs 0 0, r.late = false) := by decide +kernel

theorem witness_Kills : (board.strand 0 0).killAt = none ∧ ((frozen id).strand 0 0).task = some {} ∧ ((frozen id).strand 0 0).opt = false ∧
    ((frozen id).strand 0 0).held = .none ∧ (frozen id).strandReqs 0 0 = [] ∧ ((frozen id).strand 0 0).pend = [] ∧ (frozen id).slogOf 0 0 = [] ∧
    ((frozen id).core 0).leftFilling 0 = [] ∧ ((frozen fun t => { t with opt := true }).strand 0 0).opt = true ∧
    ((frozen fun t => { t with held := .lane }).strand 0 0).held ≠ .none ∧ (frozen id).arg.v = 0 := by decide +kernel

theorem witness_WindowWrites : ((frozen id).core 0).wctlM = 0 ∧ ((frozen id).strand 0 0).st = .frozen ∧ (0x3F8 : Nat) < 0x400 ∧ 0x3F8 % 8 = 0 ∧
    (383 : Nat) < 384 ∧ ((frozen id).strand 0 ((frozen id).slot 0 383).strand).st = .frozen ∧ ((board.core 0).accAt 0).full = true ∧
    (board.core 0).accNamed 0 = false ∧ (board.strand 0 0).st ≠ .frozen ∧
    ((board.updCore 0 fun v => { v with mq := [{ op := .tacc 1 }] }).core 0).accNamed 0 = true := by decide +kernel

def logging (e : SlEntry) (v : Nat) : State := { board.updCore 0 fun x => { x with slog := [(5, e)] } with arg := { c := 0, n := 5, v := v } }

theorem witness_SideLogSteps : ∀ st ∈ [1, 2], Tab.find ((logging { st := st, kind := 1 } 0).core 0).slog 5 = some { st := st, kind := 1 } ∧
    ((logging { st := st, kind := 1 } 0).core 0).replay = [] ∧ (logging { st := st, kind := 1 } 6).arg.v = 6 ∧
    (logging { st := st, kind := 1 } 6).autokill 0 6 = false ∧ Tab.find ((logging { st := 1, kind := 1 } 0).core 0).slog 5 = some { st := 1, kind := 1 } ∧
    ({ st := 2 } : SlEntry).st ≠ 1 := by decide +kernel

/-- An entry of a store of 8 bytes in the own bank, in that of core 1, and past the slots. -/
def storing (va : BitVec 48) : SlEntry := { st := 1, kind := 0, sz := 3, va := va, data := 9 }
def replaying (va : BitVec 48) : State := (logging (storing va) 0).updSlot 1 0 fun _ => { jobtag := 0, use := 3 }

theorem witness_Replays (va : BitVec 48) : Tab.find ((replaying va).core 0).slog 5 = some (storing va) ∧ ((replaying va).core 0).replay = [] ∧
    ((replaying va).core 0).slog = [(5, storing va)] := ⟨rfl, rfl, rfl⟩

theorem witness_ReplayPlaces : windowOf 0 0x7FFFFFFC0000#48 = some (0, 0xC0000) ∧
    (replaying 0x7FFFFFF00000#48).localCheck 0 0 0 8 = none ∧ (∀ n ∈ slotsOf 0 8, ((replaying 0x7FFFFFF00000#48).slot 0 n).busy = false) ∧
    (replaying 0x7FFE00100010#48).localCheck 1 0 16 8 = none ∧ (replaying 0x7FFFFFFC0000#48).localCheck 0 0 0xC0000 8 = some 6 ∧
    (replaying 0x7FFFFFFC0000#48).autokill 0 6 = false ∧ ((board.core 0).replay = [] ∧ (board.core 0).slog = []) := by decide +kernel

theorem witness_FrozenFills : (let t : Strand := { producing {} with marked := [.x 5#6], fills := [(5#6, 9#64, 0)] }
      ((frozen fun _ => t).strand 0 0).marked = [.x 5#6] ∧ (((frozen fun _ => t).strand 0 0).fills.filter fun f => f.1 == 5#6).getLast? = some (5#6, 9#64, 0)) ∧
    ((frozen fun t => { producing t with killAt := some false }).strand 0 0).killAt ≠ none ∧
    ((frozen producing).strand 0 0).full (.x 62#6) = false ∧ (frozen producing).producing 0 0 62#6 = true ∧ (62 * 8 : Nat) < 0x200 ∧
    (given { c := 0, k := 0, t := ({} : QEntry).t.ident, ok := true }).arg.t = ({} : QEntry).t.ident := by decide +kernel

def stopping (f : Job → Job) (c : Option Cut) : State := { board.updJob 0 f with cut := c, arg := { j := 0, c := 0, k := 0, leaf := .decoder 1 } }

theorem witness_StopRequests : (stopping id none).prectl.extractLsb' 0 4 = 0 ∧ (stopping id none).cut = none ∧ ((stopping id none).job 0).resident = true ∧
    ((stopping id none).job 0).stopped = false ∧ ((stopping id none).job 0).round.active = false ∧
    ((stopping (fun j => { j with stopped := true }) none).job 0).stopped = true ∧
    ((stopping (fun j => { j with round := { active := true } }) none).job 0).round.active = true ∧
    ((stopping (fun j => { j with round := { active := true, stop := true } }) none).job 0).round.stop = true ∧
    (1#5 : BitVec 5).toNat % 8 ≠ 0 := by decide +kernel

theorem witness_CutCloses :
    ((stopping (fun j => { j with round := { active := true, stop := true, due := [1] } }) (some {})).job 0).round.due ≠ [] ∧
    (∀ (n : Nat) (v : Core), (n, v) ∈ (stopping (fun j => { j with round := { active := true, stop := true, due := [1] } }) (some {})).cores → n = 0) ∧
    ((stopping (fun j => { j with round := { active := true, stop := true, due := [1] } }) (some {})).core 0).queue = [] ∧
    ((stopping (fun j => { j with round := { active := true, stop := true } }) (some {})).job 0).round.due = [] ∧
    ((stopping (fun j => { j with round := { active := true, stop := true } }) (some {})).job 0).round.reps = [] := by
  refine ⟨by decide +kernel, ?_, by decide +kernel, by decide +kernel, by decide +kernel⟩
  intro n v h
  have : ((stopping (fun j => { j with round := { active := true, stop := true, due := [1] } }) (some {})).cores.map (·.1)) = [0] := by decide +kernel
  have := this ▸ List.mem_map_of_mem (f := Prod.fst) h
  simpa using this

/-- A stop that saves strand 0 of core 0, whose areas lie in the first page of the tables. -/
def saving (strands : List (CoreId × StrandId)) (leaf : Word) : State :=
  let s := { tables leaf with cut := some { phase := 2, strands := strands, cores := [0] } }
  { s.updStrand 0 0 fun t => { t with held := .none } with arg := { c := 0, k := 0 } }

theorem witness_StrandSaves : (saving [(0, 0)] 0#64).canSave 0 0 0 = true ∧ (saving [(0, 0)] 0#64).cut = some { phase := 2, strands := [(0, 0)], cores := [0] } ∧
    ((saving [(0, 0)] 0#64).saveParts 0 [((saving [(0, 0)] 0#64).strandVa 0 0, (saving [(0, 0)] 0#64).strandArea 0 0)]).isRight = true ∧
    ((saving [(0, 0)] 0#64).updStrand 0 0 fun t => { t with held := .lane }).canSave 0 0 0 = false := by decide +kernel

theorem witness_CoreSaves : (saving [] 0#64).cut = some { phase := 2, strands := [], cores := [0] } ∧ ((saving [] 0#64).core 0).mq = [] ∧
    ((saving [] 0#64).core 0).mrun = none ∧ ((saving [] 0#64).core 0).copies = [] ∧
    (((saving [] 0#64).updCore 0 fun v => { v with copies := [{ job := 0 }] }).core 0).copies = [{ job := 0 }] := by decide +kernel

theorem witness_SaveWaits : (saving [(0, 0)] 0x500F#64).canSave 0 0 0 = true ∧
    (saving [] 0#64).committing 0 = false ∧ ((saving [] 0#64).updCore 0 fun v => { v with rings := [aBlock .committing []] }).committing 0 = true ∧
    ((saving [] 0#64).core 0).reqs = [] := by decide +kernel

/-- Where the host holds no line and no slice has one, every line is clear. -/
theorem jobClear_of {s : State} (hh : s.hostLines = []) (hc : s.clusters = []) (j : JobId) (vas : List (BitVec 48)) : s.jobClear j vas = true := by
  have h (ln : Nat) : s.homeLine ln = {} := by
    unfold State.homeLine State.cluster
    rw [hc]
    rfl
  simp only [State.jobClear, State.lineClear, State.hostHolds, h, hh, List.all_eq_true]
  intro va _
  split <;> simp

theorem witness_SavesClear (vas : List (BitVec 48)) : (saving [(0, 0)] 0x500F#64).jobClear 0 vas = true ∧ (saving [] 0#64).jobClear 0 vas = true :=
  ⟨jobClear_of rfl rfl _ _, jobClear_of rfl rfl _ _⟩

theorem witness_CutOuts : (let s := stopping (fun j => { j with round := { active := true, stop := true, reps := [{ cnt := 1 }, { out := 2 }] } }) (some {})
      s.root = s.devnum.toNat ∧ s.arg.v ≠ 1 ∧ s.cut = some {} ∧ ({} : Cut).job = 0 ∧ ({} : Cut).restore = false ∧ (s.job 0).round.due = [] ∧
      ((s.job 0).round.reps.map (·.cnt)).foldl (· + ·) 0 ≠ 0 ∧ ((s.job 0).round.reps.map (·.out)).sum ≠ 0) := by decide +kernel

theorem witness_Restores : (stopping id (some {})).cut ≠ none ∧ (stopping id none).cut = none ∧ ((stopping id none).job 0).stopped = false ∧
    ((stopping (fun j => { j with stopped := true, saved := { strands := [(0, 0, 1)] } }) none).job 0).saved.strands = [(0, 0, 1)] ∧
    ((stopping (fun j => { j with stopped := true, saved := { strands := [(0, 0, 1)] } }) none).job 0).saved.cores = [] ∧
    ((stopping (fun j => { j with stopped := true, saved := { strands := [(0, 0, 1)] } }) none).job 0).saved.whole = false := by decide +kernel

/-! ## Commands, launches and binding -/

/-- A command at CMDHEAD: its code, job 1 in bits 11:8, and END, the kind of a CANCEL or nothing in word 1. -/
def commanded (code : Nat) (w1 : Nat) : State :=
  { board.updJob 1 (fun j => { j with resident := true }) with
    cmdtail := 1, cmdslots := [(0, BitVec.ofNat 512 (code + 2 ^ 8 + w1 * 2 ^ 64))] }

theorem witness_Commands : Due (commanded 0 0) .reservedCommand ∧ Due (commanded 1 0) .jobstart ∧ Due (commanded 2 9) .phaseopen ∧ Due (commanded 3 0) .cancelCommand ∧
    Due (commanded 4 0) .keydestroy ∧ commandJob (commanded 2 9) = 1 ∧ ((commanded 2 9).job 1).resident = true ∧ ((commanded 2 9).job 1).teardown = none ∧
    ((commanded 2 9).job 1).lastEnd < commandWord (commanded 2 9) 1 ∧ commandWord (commanded 2 0) 1 ≤ ((commanded 2 0).job 1).lastEnd ∧
    (((commanded 4 0).job 1).launches.any fun (e : Nat × Launch) => !e.2.complete) = false ∧
    ((((commanded 4 0).updLaunch 1 0 id).job 1).launches.any fun (e : Nat × Launch) => !e.2.complete) = true ∧
    (({ commanded 1 0 with jobs := [] } : State).job 1).resident = false ∧ (commanded 1 0).severe = false ∧ ((commanded 1 0).job 1).starting = none ∧
    (commanded 1 0).poisoned (hostAddr (commandWord (commanded 1 0) 2)) 64 = false ∧
    ({ commanded 1 0 with poisons := [hostAddr 0 / 8] } : State).poisoned (hostAddr (commandWord (commanded 1 0) 2)) 64 = true ∧
    (((commanded 1 0).updJob 1 fun j => { j with starting := some {} }).job 1).starting = some {} := by
  unfold Due
  decide +kernel

theorem witness_CommandRing : (given { w0 := 255 }).arg.w0.extractLsb' 0 8 = 255#8 ∧
    256 ≤ ((commanded 1 0).cmdtail - (commanded 1 0).cmdhead).toNat + ((0#8 : BitVec 8) - (commanded 1 0).cmdtail).toNat ∧
    ((given { w0 := 1 }).cmdtail - (given { w0 := 1 }).cmdhead).toNat + ((1#8 : BitVec 8) - (given { w0 := 1 }).cmdtail).toNat < 256 ∧
    3 ≤ (given { w0 := 1 }).stage ∧ (given { w0 := 1 }).taking = false ∧ (given { w0 := 1 }).ackPending 0 = false := by decide +kernel

theorem witness_Teardown : board.busyJob 0 = false ∧ (board.updCore 0 fun v => { v with reqs := [{}] }).busyJob 0 = true ∧
    (tables 0x500F#64).jobClear 0 ((tables 0x500F#64).job 0).outlet.addrs = true ∧
    ({ tables 0x500F#64 with hostLines := [160] } : State).jobClear 0 ((tables 0x500F#64).job 0).outlet.addrs = false ∧ ∀ n ∈ [1, 2, 3, 4, 5, 6, 7, 8],
    ((board.updJob 0 fun j => { j with teardown := some (n, 3, 9), gvt := BitVec.allOnes 64, phases := [{ complete := true }] }).job 0).teardown = some (n, 3, 9) ∧
    ((board.updJob 0 fun j => { j with teardown := some (n, 3, 9), gvt := BitVec.allOnes 64, phases := [{ complete := true }] }).job 0).round.active = false ∧
    ((board.updJob 0 fun j => { j with teardown := some (n, 3, 9), gvt := BitVec.allOnes 64, phases := [{ complete := true }] }).job 0).gvt = BitVec.allOnes 64 := by
  decide +kernel

def completing (f : Job → Job) : State := { (board.updLaunch 0 0 fun l => { l with count := 0 }).updJob 0 f with arg := { j := 0, l := 0, n := 5, w0 := 0 } }

theorem witness_Completions : (completing id).jobClear 0 ((completing id).launch 0 0).outlet.addrs = true ∧
    ({ tables 0x500F#64 with hostLines := [160] } : State).jobClear 0 [64#48] = false ∧
    ((completing id).job 0).live 0 = true ∧ ((completing id).launch 0 0).count = 0 ∧ ((completing id).launch 0 0).graph = none ∧
    (board.launch 0 0).count ≠ 0 ∧ Tab.find ((completing fun j => { j with graphs := [(5, { closed := true, members := [0], done := [(0, 3)] })] }).job 0).graphs 5 =
      some { closed := true, members := [0], done := [(0, 3)] } ∧
    ((completing fun j => { j with phases := [{ stop := 4 }], gvt := 4 }).job 0).phases.find? (fun p => p.start == 0) = some { stop := 4 } := by decide +kernel

/-- A phase that has ended waits for a launch that is over, and not for one that runs. -/
theorem witness_PhaseOrder : (completing id).completing 0 = true ∧ board.completing 0 = false ∧
    (let s := (board.updJob 0 fun j => { j with phases := [{ stop := 4 }], gvt := 4 }).updLeaf 0 .mgmt fun x => { x with gvt := 4 }
     ((s.job 0).leaf .mgmt).gvt = 4 ∧ (s.job 0).phases.find? (fun p => p.start == 0) = some { stop := 4 } ∧
     ((blocked (aBlock .done [])).core 0).rings.map (·.migrated) = [false]) ∧
    ((commanded 1 0).updJob 1 fun j => { j with starting := some {}, cancelled := true }).arg.n = 0 ∧
    (((commanded 1 0).updJob 1 fun j => { j with starting := some {}, cancelled := true }).job 1).cancelled = true ∧
    ((board.updJob 0 fun j => { j with round := { users := [3] }, teardown := some (8, 0, 0) }).job 0).round.users ≠ [] := by decide +kernel

def binding : State :=
  { board.updLaunch 0 0 fun l => { l with bound := none } with arg := { n := 255, w0 := 0x8000000000000000#64, w1 := 1, w2 := 1, c := 0, j := 0, l := 0 } }
/-- Core 0 has the launch installed and another strand of it may become resident. -/
def residing : State := { board.updLaunch 0 0 fun l => { l with maxs := 8, bmaxs := 8 } with arg := { c := 0, j := 0, l := 0 } }

theorem witness_Binding : (255 : Nat) < 256 ∧ (Tab.get {} binding.slotTable 255).v = false ∧ binding.arg.w0.getLsbD 63 = true ∧ (binding.launch 0 0).bound = none ∧
    (binding.job 0).live 0 = true ∧ (board.launch 0 0).bound.isSome = true ∧ board.canReside 1 0 0 = false ∧ residing.canReside 0 0 0 = true ∧ (residing.core 0).freed = [] ∧
    (residing.core 0).installed.contains (0, 0) = true ∧ residing.nextResident 0 0 0 = some (1, 9) ∧
    ({ binding with arg := { n := 255, w0 := 0 } } : State).arg.w0.getLsbD 63 = false ∧ (homing (anAt .launch 8)).descs = [] ∧
    Tab.find ({ homing (anAt .launch 8) with descs := [(1, {})] } : State).descs 1 = some {} ∧
    (homing (anAt .launch 8)).msgReq 1 = some (anAt .launch 8) ∧ ((homing (anAt .launch 8)).job 0).cancelled = false := by decide +kernel

/-! ## Steps -/

theorem witness_StepRuns : (State.reset.withFetchWord 32 0x0140E385).offer = some (0, 0) ∧
    ((State.reset.withFetchWord 32 0x0140E385).strand 0 0).parcel ((State.reset.withFetchWord 32 0x0140E385).strand 0 0).pc = .word 0xE385#16 ∧
    ((State.reset.withFetchWord 32 0x0140E385).strand 0 0).parcel (((State.reset.withFetchWord 32 0x0140E385).strand 0 0).pc + 2#48) = .word 0x0140#16 ∧
    decodeParcels 0xE385#16 0x0140#16 = some (.addi 20#12 false 7#6 7#6) := by decide +kernel

theorem witness_StepFaults : decodeParcels 0#16 0#16 = none ∧
    ((withStrand fun t => { t with buf := [{ va := 0x7FFFFFF00000#48, fault := some { cls := 5 } }] }).strand 0 0).parcel 0x7FFFFFF00000#48 =
      .fault { cls := 5, addr := 0x7FFFFFF00000#64 } := by decide +kernel

theorem witness_EncodeDecode : (Instr.addi 20#12 false 7#6 7#6).wf = true ∧ encodeBytes (.addi 20#12 false 7#6 7#6) = some [0x85#8, 0xE3#8, 0x40#8, 0x01#8] ∧
    decodeBytes [0x85#8, 0xE3#8, 0x40#8, 0x01#8, 0#8] = some (.addi 20#12 false 7#6 7#6, [0#8]) := by decide +kernel

theorem witness_StepsAnswer : State.reset.offer = none ∧ (∀ e ∈ State.reset.agenda, hasWord e.2.1 = false) ∧ Memory.wf State.reset.mem = true := by
  decide +kernel

/-! ## The cipher -/

/-- Appendix C.3 of FIPS 197. -/
theorem test_aes : (aesEnc (aesKeys (ablk 0x0F0E0D0C0B0A09080706050403020100#128, ablk 0x1F1E1D1C1B1A19181716151413121110#128))
    (ablk 0xFFEEDDCCBBAA99887766554433221100#128)).bits = 0x8960494B9049FCEABF456751CAB7A28E#128 := by decide +kernel

/-- The first two blocks of vector 10 of IEEE 1619, data unit 255. -/
theorem test_xts : (xtsEnc 0x92459474098205513799931697418802952783336462842393975853265941312776966649575999699370245777496226357174286053234590452818281827#512 255
    0x7F7E7D7C7B7A797877767574737271706F6E6D6C6B6A696867666564636261605F5E5D5C5B5A595857565554535251504F4E4D4C4B4A494847464544434241403F3E3D3C3B3A393837363534333231302F2E2D2C2B2A292827262524232221201F1E1D1C1B1A191817161514131211100F0E0D0C0B0A09080706050403020100#1024).extractLsb' 0 256 =
    0x3BE6A314D412AEA45723485E3F8000EA9BCF70E3996C83E48603772F103A3B1C#256 := by decide +kernel

/-! ## Ill-formed instructions: one for each check (R104, R107 to R118, R158, R248, R260, R280) -/

theorem test_skip_count_zero : (Instr.chk false false 1#6 2#6 0#3 0#2).wf = false ∧ (Instr.chki 0#13 1#6 false 0#3 0#2).wf = false ∧
    (Instr.fchk false false 1#6 2#6 0#3 0#2).wf = false := by decide
theorem test_bit_number_above_63 : (Instr.chki 64#13 1#6 false 6#3 1#2).wf = false ∧ (Instr.chki 63#13 1#6 false 6#3 1#2).wf = true := by decide
theorem test_control_register_unlisted : (Instr.ctlr 0x014#9 false 1#6).wf = false ∧ (Instr.ctlr 0x023#9 true 1#6).wf = true ∧
    (Instr.ctlr 0x000#9 true 1#6).wf = false := by decide
theorem test_control_register_read_only : (Instr.ctlw 0x000#9 false 1#6).wf = false ∧ (Instr.ctlx 0x020#9 false 1#6 2#6).wf = false ∧
    (Instr.ctlset 0x008#9 false 1#6).wf = false ∧ (Instr.ctlclr 0x1FF#9 false 1#6).wf = false ∧ (Instr.ctlw 0x00E#9 false 1#6).wf = true := by decide
theorem test_six_arguments : (Instr.spawn false false 1#6 2#6 58#6).wf = false ∧ (Instr.spawna false false 1#6 2#6 63#6).wf = false ∧
    (Instr.spawn false false 1#6 2#6 57#6).wf = true := by decide
theorem test_fence_fields : (Instr.fence 0#4 0#2).wf = false ∧ (Instr.fence 4#4 1#2).wf = false ∧ (Instr.fence 3#4 3#2).wf = true := by decide
theorem test_tile_operand_384 : (Instr.tfree 384#9).wf = false ∧ (Instr.tfree 383#9).wf = true ∧ (Instr.tmul 0#2 384#9 0#9).wf = false ∧
    (Instr.verldEq false false 1#6 2#6 511#9).wf = false := by decide
theorem test_odd_version_register : (Instr.verst false false false 5#6 2#6 0#9).wf = false ∧ (Instr.verst false false false 4#6 2#6 0#9).wf = true := by
  decide
theorem test_lane_types : (Instr.vadd false false 0#3 0#4 1#4 2#4 3#4).wf = false ∧ (Instr.vadd false false 0#3 4#4 1#4 2#4 3#4).wf = false ∧
    (Instr.vdiv false false 0#3 5#4 1#4 2#4 3#4).wf = false ∧ (Instr.vshr false false 0#3 8#4 1#4 2#4 3#4).wf = false ∧
    (Instr.vsqrt false false 0#3 1#4 2#4 3#4).wf = false ∧ (Instr.vmov false false 0#3 10#4 2#4 3#4).wf = false ∧
    (Instr.vmov false false 0#3 4#4 2#4 3#4).wf = true ∧ (Instr.vnorm false false 0#3 3#4 2#4 3#4).wf = false := by decide
theorem test_lane_fields : (Instr.vcmp false false 0#3 8#4 8#4 1#4 2#4 3#4).wf = false ∧ (Instr.vcvt false false 0#3 8#4 6#4 1#3 2#4 3#4).wf = false ∧
    (Instr.vadam false false 0#3 15#4 1#4 2#4 3#4).wf = false ∧ (Instr.vlen true 1#6).wf = false := by decide
theorem test_compact_types : (Instr.vaddCompact 7#3 1#4 2#4).wf = false ∧ (Instr.vshlCompact 0#3 1#4 2#4).wf = false ∧
    (Instr.vrcpCompact 3#3 1#4 2#4).wf = false ∧ (Instr.vredsumCompact 6#3 1#4 2#4).wf = true := by decide
theorem test_writeback_types : (Instr.twb 4#4 false 0#2 0#3 0#9).wf = false ∧ (Instr.twb 6#4 true 0#2 0#3 0#9).wf = false ∧
    (Instr.twb 5#4 true 0#2 0#3 0#9).wf = true ∧ (Instr.twb 8#4 false 0#2 3#3 0#9).wf = false := by decide

/-! ## Words written out field by field from the formats of R101, in the order of the opcode map (R106 to R116, R301) -/

theorem test_decode_int : decode32 (4#5 ++ 0#1 ++ 1#1 ++ 3#6 ++ 2#6 ++ 1#6 ++ 0x03#7) = some (.xor false true 3#6 2#6 1#6) ∧
    decode32 (22#5 ++ 0#1 ++ 0#1 ++ 0#6 ++ 2#6 ++ 1#6 ++ 0x03#7) = some (.clz false 2#6 1#6) ∧
    decode32 (28#5 ++ 0#1 ++ 0#1 ++ 3#6 ++ 2#6 ++ 1#6 ++ 0x03#7) = none := by decide
theorem test_decode_immediates : decode32 (0xFFF#12 ++ 1#1 ++ 2#6 ++ 1#6 ++ 0x0F#7) = some (.sltiu 0xFFF#12 true 2#6 1#6) ∧
    decode32 (2#2 ++ 0#4 ++ 63#6 ++ 1#1 ++ 2#6 ++ 1#6 ++ 0x11#7) = some (.srai 63#6 true 2#6 1#6) ∧
    decode32 (0xBEEF#16 ++ 1#1 ++ 3#2 ++ 1#6 ++ 0x13#7) = some (.limk 0xBEEF#16 3#2 1#6) := by decide
theorem test_decode_checks : decode32 (0#5 ++ 1#1 ++ 0#1 ++ 3#6 ++ 2#6 ++ 0#1 ++ 5#3 ++ 2#2 ++ 0x15#7) = some (.chk true false 3#6 2#6 5#3 2#2) ∧
    decode32 (0x3F#13 ++ 2#6 ++ 1#1 ++ 6#3 ++ 3#2 ++ 0x17#7) = some (.chki 63#13 2#6 true 6#3 3#2) ∧
    decode32 (0#5 ++ 0#1 ++ 1#1 ++ 3#6 ++ 2#6 ++ 0#1 ++ 7#3 ++ 1#2 ++ 0x19#7) = some (.fchk false true 3#6 2#6 7#3 1#2) := by decide
theorem test_decode_branches : decode32 (0x1FFFFFF#25 ++ 0x1B#7) = some (.br 0x1FFFFFF#25) ∧ decode32 (0x40000#19 ++ 1#6 ++ 0x1D#7) = some (.jl 0x40000#19 1#6) ∧
    decode32 (0x7FF#12 ++ 0#1 ++ 2#6 ++ 0#6 ++ 0x1F#7) = some (.jlr 0x7FF#12 false 2#6 0#6) := by decide
theorem test_decode_fp : decode32 (7#5 ++ 1#1 ++ 1#1 ++ 3#6 ++ 2#6 ++ 1#6 ++ 0x21#7) = some (.fma true true 3#6 2#6 1#6) ∧
    decode32 (4#5 ++ 0#1 ++ 0#1 ++ 0#6 ++ 2#6 ++ 1#6 ++ 0x21#7) = some (.fsqrt false 2#6 1#6) := by decide
theorem test_decode_sys : decode32 (0x00E#9 ++ 2#3 ++ 0#1 ++ 2#6 ++ 1#6 ++ 0x23#7) = some (.ctlx 0x00E#9 false 2#6 1#6) ∧
    decode32 (0x1FF#9 ++ 5#3 ++ 1#1 ++ 2#6 ++ 0#6 ++ 0x23#7) = some (.trap 0x1FF#9 true 2#6) ∧
    decode32 (0#9 ++ 7#3 ++ 0#1 ++ 0#6 ++ 0#6 ++ 0x23#7) = some .isync ∧
    decode32 (1#9 ++ 7#3 ++ 0#1 ++ 2#6 ++ 1#6 ++ 0x23#7) = some (.resize false 2#6 1#6) := by decide
theorem test_decode_task : decode32 (1#5 ++ 0#1 ++ 1#1 ++ 3#6 ++ 2#6 ++ 57#6 ++ 0x25#7) = some (.spawna false true 3#6 2#6 57#6) ∧
    decode32 (10#5 ++ 0#1 ++ 0#1 ++ 0#6 ++ 2#6 ++ 1#6 ++ 0x25#7) = some (.iter false 2#6 1#6) ∧
    decode32 (0xFFC#12 ++ 1#1 ++ 2#6 ++ 1#6 ++ 0x27#7) = some (.itern 0xFFC#12 true 2#6 1#6) := by decide
theorem test_decode_memory : decode32 (0x100#9 ++ 0#2 ++ 0#1 ++ 1#1 ++ 2#6 ++ 1#6 ++ 0x29#7) = some (.ld 0x100#9 0#2 true 2#6 1#6) ∧
    decode32 (0#5 ++ 0#1 ++ 0#1 ++ 3#6 ++ 2#6 ++ 1#6 ++ 0x2D#7) = some (.ldb false false 3#6 2#6 1#6) ∧
    decode32 (7#5 ++ 0#1 ++ 0#1 ++ 3#4 ++ 2#2 ++ 0#6 ++ 0#6 ++ 0x2D#7) = some (.fence 3#4 2#2) ∧
    decode32 (11#5 ++ 0#1 ++ 1#1 ++ 0#6 ++ 2#6 ++ 0#3 ++ 7#3 ++ 0x2D#7) = some (.ldM true 2#6 7#3) := by decide
theorem test_decode_words : decode32 (2#5 ++ 1#1 ++ 0#1 ++ 3#6 ++ 2#6 ++ 0#6 ++ 0x2F#7) = some (.stef true false 3#6 2#6) ∧
    decode32 (9#5 ++ 0#1 ++ 0#1 ++ 3#6 ++ 2#6 ++ 1#6 ++ 0x31#7) = some (.amoCas false false 3#6 2#6 1#6) ∧
    decode32 (17#5 ++ 0#1 ++ 0#1 ++ 3#6 ++ 2#6 ++ 0#6 ++ 0x31#7) = some (.redFadd false false 3#6 2#6) ∧
    decode32 (3#4 ++ 0xFF#8 ++ 0#1 ++ 0#6 ++ 1#6 ++ 0x33#7) = some (.barArw 0xFF#8 1#6) ∧
    decode32 (6#4 ++ 0#8 ++ 1#1 ++ 2#6 ++ 1#6 ++ 0x33#7) = some (.mbarWait true 2#6 1#6) := by decide
theorem test_decode_versions : decode32 (0#1 ++ 1#1 ++ 0#1 ++ 1#1 ++ 3#6 ++ 2#6 ++ 383#9 ++ 0x35#7) = some (.verldAsof false true 3#6 2#6 383#9) ∧
    decode32 (0#1 ++ 1#1 ++ 1#1 ++ 0#1 ++ 4#6 ++ 2#6 ++ 7#9 ++ 0x37#7) = some (.verst true true false 4#6 2#6 7#9) ∧
    decode32 (1#2 ++ 0#1 ++ 0#1 ++ 3#6 ++ 2#6 ++ 0#3 ++ 1#6 ++ 0x39#7) = some (.verq false false 3#6 2#6 1#6) := by decide
theorem test_decode_lane_binary : decode32 (1#1 ++ 0#1 ++ 5#3 ++ 3#4 ++ 15#4 ++ 3#4 ++ 2#4 ++ 1#4 ++ 0x41#7) = some (.vcompr true false 5#3 3#4 3#4 2#4 1#4) ∧
    decode32 (0#1 ++ 1#1 ++ 0#3 ++ 5#4 ++ 14#4 ++ 0#4 ++ 2#4 ++ 1#4 ++ 0x43#7) = some (.vnorm false true 0#3 5#4 2#4 1#4) ∧
    decode32 (0#1 ++ 0#1 ++ 0#3 ++ 3#4 ++ 15#4 ++ 0#4 ++ 0#4 ++ 1#4 ++ 0x43#7) = some (.viota false 0#3 3#4 1#4) := by decide
theorem test_decode_lane_others : decode32 (0#1 ++ 0#1 ++ 0#3 ++ 8#4 ++ 4#4 ++ 3#4 ++ 2#4 ++ 1#4 ++ 0x47#7) = some (.vfms false false 0#3 8#4 4#4 3#4 2#4 1#4) ∧
    decode32 (0#1 ++ 0#1 ++ 0#3 ++ 8#4 ++ 7#4 ++ 3#4 ++ 2#4 ++ 1#4 ++ 0x4D#7) = some (.vcmp false false 0#3 8#4 7#4 3#4 2#4 1#4) ∧
    decode32 (0#1 ++ 0#1 ++ 0#3 ++ 4#4 ++ 8#4 ++ 0#1 ++ 7#3 ++ 2#4 ++ 1#4 ++ 0x4F#7) = some (.vcvt false false 0#3 4#4 8#4 7#3 2#4 1#4) ∧
    decode32 (0#1 ++ 1#1 ++ 2#3 ++ 6#4 ++ 0#3 ++ 0#2 ++ 1#1 ++ 9#6 ++ 1#4 ++ 0x53#7) = some (.vbcast true 2#3 6#4 true 9#6 1#4) ∧
    decode32 (0#1 ++ 0#1 ++ 0#3 ++ 0#4 ++ 0#3 ++ 1#2 ++ 0#1 ++ 9#6 ++ 15#4 ++ 0x53#7) = some (.vsetp false 9#6 15#4) := by decide
theorem test_decode_compact : decode16 (6#3 ++ 2#4 ++ 1#4 ++ 15#4 ++ 0#1) = some (.vredsumCompact 6#3 2#4 1#4) ∧
    decode16 (7#3 ++ 2#4 ++ 1#4 ++ 0#4 ++ 0#1) = none := by decide
theorem test_decode_tiles : decode32 (1#1 ++ 0#1 ++ 0#1 ++ 1#1 ++ 3#6 ++ 2#6 ++ 383#9 ++ 0x61#7) = some (.tload true false false true 3#6 2#6 383#9) ∧
    decode32 (1#2 ++ 0#1 ++ 0#1 ++ 0#6 ++ 9#6 ++ 5#9 ++ 0x65#7) = some (.tstat 9#6 5#9) ∧
    decode32 (2#2 ++ 0#1 ++ 1#1 ++ 3#6 ++ 2#6 ++ 5#9 ++ 0x71#7) = some (.cpyw false true 3#6 2#6 5#9) ∧
    decode32 (0#2 ++ 0#1 ++ 0#1 ++ 0#6 ++ 2#6 ++ 0#9 ++ 0x73#7) = some (.decode false 2#6) := by decide
theorem test_decode_matrix : decode32 (1#5 ++ 3#2 ++ 6#9 ++ 5#9 ++ 0x67#7) = some (.tmulk 3#2 6#9 5#9) ∧
    decode32 (9#4 ++ 0#1 ++ 2#2 ++ 6#9 ++ 5#9 ++ 0x69#7) = some (.tmuls 9#4 2#2 6#9 5#9) ∧
    decode32 (5#4 ++ 1#1 ++ 2#2 ++ 0#6 ++ 6#3 ++ 5#9 ++ 0x6B#7) = some (.twb 5#4 true 2#2 6#3 5#9) ∧
    decode32 (0#2 ++ 1#1 ++ 0#1 ++ 3#6 ++ 2#6 ++ 0#7 ++ 3#2 ++ 0x6D#7) = some (.tred true false 3#6 2#6 3#2) ∧
    decode32 (0#2 ++ 0#1 ++ 0#1 ++ 0#6 ++ 2#6 ++ 0#9 ++ 0x6F#7) = some (.tprog false 2#6) := by decide

/-! ## Steps on the words of the manual -/

/-- ADDI x7, x7, 20 on the device right after a word is placed (R142, R144). -/
theorem test_step_addi : (match step (State.reset.withFetchWord 32 0x0140E385) with | .next t => (t.strand 0 0).rx 7#6 | _ => 0#64) = 20#64 := by decide +kernel
/-- A word that is no instruction freezes the strand with class 1 (R104, R371). -/
theorem test_step_illegal : (match step (State.reset.withFetchWord 32 1) with | .next t => (t.strand 0 0).froze.map (·.cls) | _ => none) = some 1 := by
  decide +kernel

end Sys2Proof.Tests
end

/-! ## Rules of issue: masks among the registers, faults, completion without a destination (spec/06_encoding.md R119, spec/07_issue.md R130, R131) -/

namespace Sys2Proof

open Machine

/-- x0 may be named as a destination wherever an instruction without destinations issues (R130, R139). -/
theorem CanIssue.discards {s : State} {c : CoreId} {k : StrandId} {srcs : List XReg} (h : CanIssue s c k srcs []) :
    CanIssue s c k srcs [0#6] where
  slot := h.slot
  legal r hr := by
    rcases hr with hr | hr
    · exact h.legal r (.inl hr)
    · rw [List.mem_singleton.1 hr]
      exact .inr (Nat.zero_le _)
  full := h.full
  sound := h.sound
  dests r hr _ := by rw [List.mem_singleton.1 hr]; rfl
  room hr := absurd hr (by decide)

/-- Under `CanIssue` an instruction runs its body also where its sources or destinations are registers other than x registers, all full, or
accumulators, all full. -/
theorem CanIssue.issue_of_full {s : State} {c : CoreId} {k : StrandId} {srcs dsts : List XReg} (h : CanIssue s c k srcs dsts) {u : Uses}
    (names : ∀ r ∈ u.names, r ∈ srcs ∨ r ∈ dsts)
    (xs : ∀ r w, (RegRef.x r, w) ∈ u.srcs → r ∈ srcs) (others : ∀ x ∈ u.srcs, (∀ r, x.1 ≠ .x r) → (s.strand c k).full x.1 = true)
    (hd : u.dsts = dsts) (dregs : ∀ r ∈ u.dregs, (s.strand c k).full r = true) (accs : ∀ a ∈ u.accs, ((s.core c).accAt a).full = true)
    (len : Nat) (body : Body') :
    Machine.issue len u body s = .next (s.took.settle c k u len (body c k s.took)) := by
  have full : ∀ x ∈ u.srcs, (s.strand c k).full x.1 = true := by
    rintro ⟨r, w⟩ hx
    cases r with
    | x r => exact h.full r (xs r w hx)
    | _ => exact others _ hx fun _ e => by cases e
  have dests : ∀ r ∈ u.dsts, s.took.dstOk c k r = true := by
    intro r hr
    rw [hd] at hr
    by_cases h63 : r = 63#6
    · subst h63
      have e : s.took.producing c k 63#6 = s.producing c k 63#6 := rfl
      simpa [State.dstOk, e] using h.room hr
    · simpa [State.dstOk, h63] using h.dests r hr h63
  unfold Machine.issue
  rw [issuePre_next h.slot]
  congr 1
  refine issueAt_body ?_ rfl full dests dregs accs fun r w hx => h.sound r (xs r w hx)
  simp only [Uses.legal, List.all_eq_true, Bool.or_eq_true, beq_iff_eq, decide_eq_true_eq]
  exact fun r hr => h.legal r (names r hr)

/-- Where the body of an instruction has changed no strand, its strand goes on behind it. -/
theorem passed_complete {s t : State} {c : CoreId} {k : StrandId} {srcs : List XReg} {u : Uses} (len : Nat)
    (hn : u.readsNf = decide (63#6 ∈ srcs)) (hs : ∀ d n, t.strand d n = s.strand d n) :
    Passed s (t.complete c k u len) c k srcs len := by
  rw [State.complete_eq, hn]
  have own : (t.updStrand c k fun a => a.ended t.cycle len (decide (63#6 ∈ srcs))).strand c k =
      (s.strand c k).ended t.cycle len (decide (63#6 ∈ srcs)) := by rw [State.strand_updStrand_same, hs]
  refine ⟨?_, ?_, fun e n hne => ?_⟩
  · rw [own]; exact ⟨rfl, rfl⟩
  · rw [own]; exact kept_ended _ _ _ srcs
  · rw [State.strand_updStrand_ne _ _ hne, hs]

/-- Completion changes nothing but the issuing strand. -/
theorem elsewhere_complete (s : State) (c : CoreId) (k : StrandId) (u : Uses) (len : Nat) : Elsewhere s (s.complete c k u len) c [k] := by
  rw [State.complete_eq]
  exact elsewhere_updStrand s c k _

end Sys2Proof

/-! ## Steps put on the agenda -/

namespace Sys2Proof.Machine

theorem mem_agendaInsert {a : List (Nat × Instr × StepArg)} {due : Nat} {i : Instr} {x : StepArg} {e : Nat × Instr × StepArg} :
    e ∈ agendaInsert a due i x ↔ e = (due, i, x) ∨ e ∈ a := by
  induction a with
  | nil => simp [agendaInsert]
  | cons y r ih =>
    unfold agendaInsert
    split
    · rw [List.mem_cons, ih, List.mem_cons, or_left_comm]
    · rw [List.mem_cons]

theorem State.mem_agenda_push {s : State} {n : Nat} {i : Instr} {x : StepArg} {e : Nat × Instr × StepArg} :
    e ∈ (s.push n i x).agenda ↔ e = (s.now + n, i, x) ∨ e ∈ s.agenda := mem_agendaInsert

@[simp] theorem State.strand_push (s : State) (n : Nat) (i : Instr) (x : StepArg) (c : CoreId) (k : StrandId) :
    (s.push n i x).strand c k = s.strand c k := rfl

end Sys2Proof.Machine

/-! ## Taking a fault (spec/20_faults.md R372 to R376) -/

namespace Sys2Proof.Machine

/-- A strand frozen by a fault with its packet (R126, R372). -/
def Strand.frozenBy (t : Strand) (p : Packet) : Strand :=
  { t with st := .frozen, park := .none, held := .none, walked := none, froze := some p, buf := t.buf.filter Group.sound }

/-- The packet with which a strand freezes (R374). -/
def State.freezePacket (s : State) (c : CoreId) (k : StrandId) (f : Fault') : Packet := { s.packet c k f with frozen := true }

/-- The state right before the kill that a trap policy asks for. -/
def State.frozeAndSent (s : State) (c : CoreId) (k : StrandId) (f : Fault') : State :=
  ((s.updStrand c k fun t => t.frozenBy (s.freezePacket c k f)).countFault (s.strand c k).job (s.strand c k).lslot (s.strand c k).vt f.cls
    (firstWord c k (s.strand c k).pc)).sendPacket (s.freezePacket c k f)

@[simp] theorem State.now_countFault (s : State) (j : JobId) (l : Lslot) (vt : Word) (cls : Nat) (first : Word) :
    (s.countFault j l vt cls first).now = s.now := rfl
@[simp] theorem State.agenda_countFault (s : State) (j : JobId) (l : Lslot) (vt : Word) (cls : Nat) (first : Word) :
    (s.countFault j l vt cls first).agenda = s.agenda := rfl
@[simp] theorem State.now_sendPacket (s : State) (p : Packet) : (s.sendPacket p).now = s.now := rfl
theorem State.agenda_sendPacket (s : State) (p : Packet) :
    (s.sendPacket p).agenda = agendaInsert s.agenda (s.now + 2) .packetDelivery { c := p.core } := rfl

/-- Taking a fault adds at most the kill of the trap policy to freezing, counting and sending the packet. -/
theorem State.raise_eq (s : State) (c : CoreId) (k : StrandId) (f : Fault') :
    s.raise c k f = if s.autokill (s.strand c k).job f.cls then
      (s.frozeAndSent c k f).push 0 .kill { c := c, k := k, t := (s.strand c k).ident, ok := true } else s.frozeAndSent c k f := rfl

theorem State.core_raise (s : State) (c d : CoreId) (k : StrandId) (f : Fault') : (s.raise c k f).core d =
    if d = c then { (s.core c).setStrand k ((s.strand c k).frozenBy (s.freezePacket c k f)) with
      pktq := (s.core c).pktq ++ [s.freezePacket c k f] } else s.core d := by
  have sent : (s.raise c k f).core d = (s.frozeAndSent c k f).core d := by
    rw [State.raise_eq]
    split <;> rfl
  have own : (s.updStrand c k fun t => t.frozenBy (s.freezePacket c k f)).core c =
      (s.core c).setStrand k ((s.strand c k).frozenBy (s.freezePacket c k f)) := State.core_setCore_same _ _ _
  rw [sent]
  show ((s.updStrand c k fun t => t.frozenBy (s.freezePacket c k f)).updCore c
    fun v => { v with pktq := v.pktq ++ [s.freezePacket c k f] }).core d = _
  rw [State.core_updCore]
  split
  · rw [own]; rfl
  · rename_i hd; exact State.core_setCore_ne s _ hd

theorem State.strand_raise (s : State) (c d : CoreId) (k n : StrandId) (f : Fault') : (s.raise c k f).strand d n =
    if d = c ∧ n = k then (s.strand c k).frozenBy (s.freezePacket c k f) else s.strand d n := by
  unfold State.strand
  rw [State.core_raise]
  by_cases hd : d = c
  · subst hd
    rw [if_pos rfl]
    refine (Core.strand_setStrand (s.core d) k n _).trans ?_
    by_cases hn : n = k <;> simp [hn, State.strand]
  · simp [hd]

/-- The job of the faulting strand, with its counts (R376). -/
theorem State.job_raise (s : State) (c : CoreId) (k : StrandId) (f : Fault') (i : JobId) : (s.raise c k f).job i =
    (s.countFault (s.strand c k).job (s.strand c k).lslot (s.strand c k).vt f.cls (firstWord c k (s.strand c k).pc)).job i := by
  rw [State.raise_eq]
  split <;> rfl

/-- The agenda after a fault: the delivery of the packet, and the kill of a class that the trap policy names (R373, R375). -/
theorem State.mem_agenda_raise (s : State) (c : CoreId) (k : StrandId) (f : Fault') (e : Nat × Instr × StepArg) :
    e ∈ (s.raise c k f).agenda ↔ (s.autokill (s.strand c k).job f.cls = true ∧
        e = (s.now, Instr.kill, ({ c := c, k := k, t := (s.strand c k).ident, ok := true } : StepArg))) ∨
      e = (s.now + 2, Instr.packetDelivery, ({ c := c } : StepArg)) ∨ e ∈ s.agenda := by
  have now : (s.frozeAndSent c k f).now = s.now := by simp [State.frozeAndSent]
  have sent : (s.frozeAndSent c k f).agenda = agendaInsert s.agenda (s.now + 2) .packetDelivery { c := c } := by
    rw [State.frozeAndSent, State.agenda_sendPacket]
    simp [State.freezePacket, State.packet]
  rw [State.raise_eq]
  split
  · rename_i h
    rw [State.mem_agenda_push, sent, mem_agendaInsert, now]
    simp only [h, true_and, Nat.add_zero]
  · rename_i h
    rw [sent, mem_agendaInsert]
    simp only [h, Bool.false_eq_true, false_and, false_or]

end Sys2Proof.Machine

namespace Sys2Proof

open Machine

/-- One more fault in the records of a launch and its graph, phases and job (R376, R77). -/
theorem job_countFault (s : State) (j : JobId) (l : Lslot) (vt : Word) (cls : Nat) (first : Word) :
    (s.countFault j l vt cls first).job j = { s.job j with
      launches := if Tab.has (s.job j).launches l.toNat then
        Tab.put (s.job j).launches l.toNat { s.launch j l with c := oneMore cls first (s.launch j l).c } else (s.job j).launches
      graphs := match (s.launch j l).graph with
        | some g => Tab.upd {} (s.job j).graphs g.toNat fun x => { x with c := oneMore cls first x.c }
        | none => (s.job j).graphs
      phases := (s.job j).phases.map fun p => if p.has vt then { p with c := oneMore cls first p.c } else p
      c := oneMore cls first (s.job j).c } := State.job_updJob_same s j _

/-- The launches of the job: the counts of the faulting task's one, if it is listed. -/
theorem launch_countFault (s : State) (j : JobId) (l : Lslot) (vt : Word) (cls : Nat) (first : Word) (m : Lslot) :
    (s.countFault j l vt cls first).launch j m =
      if m = l ∧ Tab.has (s.job j).launches m.toNat = true then { s.launch j m with c := oneMore cls first (s.launch j m).c }
      else s.launch j m := by
  unfold State.launch Job.launch
  rw [job_countFault]
  by_cases hm : m = l
  · subst hm
    by_cases hl : Tab.has (s.job j).launches m.toNat = true
    · simp only [hl, if_true, Tab.get_put_same, and_self]
      rfl
    · simp only [hl, and_false, Bool.false_eq_true, if_false]
  · have hn : m.toNat ≠ l.toNat := fun e => hm (BitVec.eq_of_toNat_eq e)
    simp only [hm, false_and, if_false]
    split
    · exact Tab.get_put_ne _ _ _ hn
    · rfl

/-- The graphs of the job: the counts of the faulting task's one. -/
theorem graph_countFault (s : State) (j : JobId) (l : Lslot) (vt : Word) (cls : Nat) (first : Word) (g : Nat) :
    Tab.get ({} : Graph) ((s.countFault j l vt cls first).job j).graphs g =
      if (s.launch j l).graph.map (·.toNat) = some g then
        { Tab.get ({} : Graph) (s.job j).graphs g with c := oneMore cls first (Tab.get ({} : Graph) (s.job j).graphs g).c }
      else Tab.get ({} : Graph) (s.job j).graphs g := by
  rw [job_countFault]
  cases hg : (s.launch j l).graph with
  | none => simp
  | some x =>
    simp only [Tab.upd, Tab.get_put, Option.map_some, Option.some.injEq]
    by_cases e : g = x.toNat
    · subst e; simp
    · simp [e, Ne.symm e]

/-- Taking a fault is what the statements say of it. -/
theorem takesFault_raise (s : State) (c : CoreId) (k : StrandId) (f : Fault') :
    TakesFault s (s.took.raise c k f) c k f (s.strand c k).pc := by
  have own : (s.took.raise c k f).strand c k = (s.strand c k).frozenBy (s.took.freezePacket c k f) := by
    rw [State.strand_raise, if_pos ⟨rfl, rfl⟩, State.strand_took]
  have core : (s.took.raise c k f).core c = { (s.core c).setStrand k ((s.strand c k).frozenBy (s.took.freezePacket c k f)) with
      pktq := (s.core c).pktq ++ [s.took.freezePacket c k f] } := by
    rw [State.core_raise, if_pos rfl, State.strand_took, State.core_took]
  have agenda := State.mem_agenda_raise s.took c k f
  constructor
  case frozen => rw [own]; rfl
  case pc => rw [own]; rfl
  case same => rw [own]; rfl
  case fulls => rw [own]; rfl
  case buf => rw [own]; rfl
  case others =>
    intro d n h
    rw [State.strand_raise, if_neg h, State.strand_took]
  case packet =>
    refine ⟨s.took.freezePacket c k f, ?_, ?_, ?_⟩
    · rw [core]
    · rw [own]; rfl
    · exact ⟨rfl, rfl, rfl, rfl, rfl, rfl, rfl, rfl, rfl, rfl, rfl, rfl, rfl, rfl, rfl, rfl, rfl⟩
  case core => rw [core]; rfl
  case cores =>
    intro d hd
    rw [State.core_raise, if_neg hd, State.core_took]
  case delivery => exact (agenda _).2 (.inr (.inl rfl))
  case agenda =>
    refine ⟨fun e he => (agenda e).2 (.inr (.inr he)), fun e he => ?_⟩
    rcases (agenda e).1 he with ⟨hk, rfl⟩ | h | h
    · have policy : (s.job (s.strand c k).job).policy.getLsbD f.cls = true := by
        have hk : s.autokill (s.strand c k).job f.cls = true := hk
        simp only [State.autokill, Bool.and_eq_true] at hk
        exact hk.2
      exact .inr (.inr ⟨policy, rfl⟩)
    · exact .inr (.inl h)
    · exact .inl h
  case counted =>
    rw [State.job_raise, State.strand_took, job_countFault]
    simp only [Phase.has, Bool.and_eq_true, decide_eq_true_eq]
    rfl
  case launches =>
    intro l
    show ((s.took.raise c k f).job _).launch l = _
    rw [State.job_raise, State.strand_took]
    exact launch_countFault s.took _ _ _ _ _ l
  case graphs =>
    intro g
    rw [State.job_raise, State.strand_took]
    exact graph_countFault s.took _ _ _ _ _ g
  case jobs =>
    intro i hi
    rw [State.job_raise, State.strand_took]
    exact (State.job_updJob s.took i _ _).trans (if_neg hi)
  case rest =>
    rw [State.raise_eq]
    split <;> rfl

/-- An instruction whose body faults takes that fault. -/
theorem takesFault_settle (s : State) (c : CoreId) (k : StrandId) (u : Uses) (len : Nat) (f : Fault') :
    TakesFault s (s.took.settle c k u len (.fault f)) c k f (s.strand c k).pc := takesFault_raise s c k f

end Sys2Proof

/-! ## Bytes of local memory as values (spec/02_formats.md R5) -/

namespace Sys2Proof

open Machine

/-- The number that the bytes from an address hold is the sum of the statements. -/
theorem leNat_read (s : State) (a n : Nat) : leNat (Memory.read s.mem a n) = leValue s a n := by
  induction n generalizing a with
  | zero => rfl
  | succ n ih =>
    have tail : (List.range n).map (fun i => Memory.get s.mem (a + (i + 1))) = Memory.read s.mem (a + 1) n :=
      List.map_congr_left fun i _ => by rw [Nat.add_comm i 1, Nat.add_assoc]
    unfold Memory.read leValue
    rw [List.range_succ_eq_map, List.map_cons, List.map_map, leNat, List.map_cons, List.map_map, List.sum_cons, Nat.pow_zero, Nat.mul_one]
    refine congrArg₂ (· + ·) rfl ?_
    refine (congrArg (fun bs => 256 * leNat bs) tail).trans ?_
    rw [ih, leValue, ← List.sum_map_mul_left]
    congr 1
    refine List.map_congr_left fun i _ => ?_
    simp only [Function.comp, Nat.succ_eq_add_one, Nat.add_comm i 1, Nat.add_assoc, Nat.pow_add, Nat.pow_one]
    ring

/-- The bytes of a number, lowest first, are those of the statements. -/
theorem toBytes_eq_leBytes (n v : Nat) : toBytes n v = leBytes n v := by
  induction n generalizing v with
  | zero => rfl
  | succ n ih =>
    rw [toBytes, ih]
    unfold leBytes
    rw [List.range_succ_eq_map, List.map_cons, List.map_map, Nat.pow_zero, Nat.div_one]
    congr 1
    refine List.map_congr_left fun i _ => ?_
    simp only [Function.comp, Nat.div_div_eq_div_mul, Nat.pow_succ, Nat.mul_comm]

@[simp] theorem length_leBytes (n v : Nat) : (leBytes n v).length = n := by simp [leBytes]

/-! ## The address of LD and ST (spec/06_encoding.md R105, spec/10_isa_memory.md R209) -/

theorem setWidth_ofInt_of_le {v w : Nat} (h : v ≤ w) (i : Int) : (BitVec.ofInt w i).setWidth v = BitVec.ofInt v i := by
  have dvd : ((2 ^ v : Nat) : Int) ∣ ((2 ^ w : Nat) : Int) := Int.natCast_dvd_natCast.2 (Nat.pow_dvd_pow 2 h)
  have nonneg : 0 ≤ i % ((2 ^ w : Nat) : Int) := Int.emod_nonneg _ (by positivity)
  apply BitVec.eq_of_toNat_eq
  rw [BitVec.toNat_setWidth, BitVec.toNat_ofInt, BitVec.toNat_ofInt, ← Int.emod_emod_of_dvd i dvd, Int.toNat_emod nonneg (by positivity)]
  rfl

theorem twoPow_eq_ofInt (w n : Nat) : BitVec.twoPow w n = BitVec.ofInt w (2 ^ n) := by
  have cast : ((2 : Int) ^ n) = ((2 ^ n : Nat) : Int) := by push_cast; rfl
  apply BitVec.eq_of_toNat_eq
  rw [cast, BitVec.ofInt_natCast, BitVec.toNat_twoPow, BitVec.toNat_ofNat]

/-- The scaled offset is added modulo the size of an address. -/
theorem memAddr_eq_ldAddr (t : Strand) (a : XReg) (o : BitVec 9) (z : BitVec 2) : memAddr (t.rx a) o z = ldAddr t a o z := by
  have sum : t.rx a + simm o <<< z.toNat = BitVec.ofInt 64 ((t.rx a).toNat + o.toInt * 2 ^ z.toNat) := by
    rw [BitVec.ofInt_add, BitVec.ofInt_mul, BitVec.ofInt_natCast, BitVec.ofNat_toNat, BitVec.setWidth_eq,
      BitVec.shiftLeft_eq_mul_twoPow, twoPow_eq_ofInt]
    rfl
  unfold memAddr vaOf ldAddr
  rw [sum, ← BitVec.setWidth_eq_extractLsb' (by decide), setWidth_ofInt_of_le (by decide)]

/-! ## Accesses to the own local memory (spec/10_isa_memory.md R203, R206; spec/09_memory.md R170, R171) -/

theorem OwnLocal.took {s : State} {c : CoreId} {k : StrandId} {va : BitVec 48} {n off : Nat} (h : OwnLocal s c k va n off) :
    OwnLocal s.took c k va n off := ⟨h.window, h.aligned, h.backed, h.idle, h.healthy, h.clear⟩

/-- The access reaches its bytes without a translation. -/
theorem OwnLocal.reach {s : State} {c : CoreId} {k : StrandId} {va : BitVec 48} {n off : Nat} (h : OwnLocal s c k va n off) (need : Need) :
    s.reach c k va n need = .at' (.loc c off) 0 := by
  simp only [State.reach, h.window, h.backed]

/-- No slot of the access is held by an engine. -/
theorem OwnLocal.not_busy {s : State} {c : CoreId} {k : StrandId} {va : BitVec 48} {n off : Nat} (h : OwnLocal s c k va n off) :
    ((slotsOf off n).any fun t => (s.slot c t).busy) = false := by
  simpa only [List.any_eq_false, Bool.not_eq_true] using h.idle

theorem OwnLocal.localRead {s : State} {c : CoreId} {k : StrandId} {va : BitVec 48} {n off : Nat} (h : OwnLocal s c k va n off) :
    s.localRead c off n = Memory.read s.mem (localBase c + off) n := by
  simp only [State.localRead, h.not_busy, Bool.false_eq_true, if_false]

/-- No word of the access is poisoned. -/
theorem OwnLocal.localBad {s : State} {c : CoreId} {k : StrandId} {va : BitVec 48} {n off : Nat} (h : OwnLocal s c k va n off) :
    s.localBad c off n = false := by
  have healthy := h.healthy
  simp only [State.poisoned, List.any_eq_false] at healthy
  simp only [State.localBad, Bool.and_eq_false_imp, List.any_eq_false, Bool.and_eq_true]
  exact fun _ w hw hp => healthy w hw hp.1

/-- A load there delivers its bytes after three cycles (R205). -/
theorem OwnLocal.loadBody {s : State} {c : CoreId} {k : StrandId} {va : BitVec 48} {n off : Nat} (h : OwnLocal s c k va n off)
    (kind : ReqKind) (d : Dest) :
    loadBody kind n d va c k s = .done (s.deliver c k d (Memory.read s.mem (localBase c + off) n) 3) := by
  obtain ⟨log, block, -⟩ := h.clear
  simp only [Machine.loadBody, h.aligned, log, h.reach, block, h.localBad, h.localRead, ne_eq, not_true_eq_false, Bool.false_eq_true, if_true,
    if_false]

/-- A store there writes its bytes. -/
theorem OwnLocal.storeGo {s : State} {c : CoreId} {k : StrandId} {va : BitVec 48} {n off : Nat} (h : OwnLocal s c k va n off)
    (kind : ReqKind) (slot : Bool) (slk sz : Nat) (data : BitVec 128) :
    storeGo kind slot slk sz n data va c k s = .done (s.localWrite c off (bytesOf n data)) := by
  obtain ⟨-, block, page⟩ := h.clear
  simp only [Machine.storeGo, h.aligned, page, h.reach, block, ne_eq, not_true_eq_false, Bool.false_eq_true, if_true, if_false]

/-- The scratch of a strand, as the statements name it, is that of the check of R208. -/
theorem OwnLocal.inScratch {s : State} {c : CoreId} {k : StrandId} {va : BitVec 48} {n off : Nat} (h : OwnLocal s c k va n off)
    (hs : OwnScratch s c k off n) : s.inScratch c k va n = true := by
  simp only [State.inScratch, h.window, hs.1, hs.2, decide_true, Bool.and_self]

/-- So does a store of an optimistic task within its own scratch, and of any other task (R208). -/
theorem OwnLocal.storeBody {s : State} {c : CoreId} {k : StrandId} {va : BitVec 48} {n off : Nat} (h : OwnLocal s c k va n off)
    (hs : (s.strand c k).opt = true → OwnScratch s c k off n) (kind : ReqKind) (slk sz : Nat) (data : BitVec 128) :
    storeBody kind slk sz n data va c k s = .done (s.localWrite c off (bytesOf n data)) := by
  have allowed : ((s.strand c k).opt && !s.inScratch c k va n) = false := by
    cases ho : (s.strand c k).opt with
    | false => rfl
    | true => rw [h.inScratch (hs ho)]; rfl
  simp only [Machine.storeBody, allowed, Bool.false_eq_true, if_false]
  exact h.storeGo kind true slk sz data

/-! ## Bytes written to a local memory (spec/12_tiles.md R265, spec/10_isa_memory.md R207) -/

theorem strand_setPoison (s : State) (ws : List Nat) (v : Bool) (c : CoreId) (k : StrandId) :
    (s.setPoison ws v).strand c k = s.strand c k := by
  unfold State.setPoison
  split
  · rfl
  · split <;> rfl

theorem strand_clearPoison (s : State) (a n : Nat) (c : CoreId) (k : StrandId) : (s.clearPoison a n).strand c k = s.strand c k := by
  unfold State.clearPoison
  split
  · rfl
  · exact strand_setPoison s _ _ c k

/-- A change of a core that leaves its strands table leaves every strand. -/
theorem strand_updCore_of_strands {f : Core → Core} (hf : ∀ v, (f v).strands = v.strands) (s : State) (c d : CoreId) (n : StrandId) :
    (s.updCore c f).strand d n = s.strand d n := by
  unfold State.strand
  rw [State.core_updCore]
  split
  · subst d
    exact congrArg (fun ts => Tab.get {} ts n.toNat) (hf _)
  · rfl

theorem strands_dropWb (v : Core) (ts : List Nat) : (v.dropWb ts).strands = v.strands := by
  unfold Core.dropWb
  split <;> rfl

theorem strand_localWrite (s : State) (c : CoreId) (off : Nat) (bs : List Byte) (d : CoreId) (n : StrandId) :
    (s.localWrite c off bs).strand d n = s.strand d n := by
  show (State.clearPoison (if (s.core c).wb = [] then s else _) _ _).strand d n = _
  rw [strand_clearPoison]
  split
  · rfl
  · exact strand_updCore_of_strands (fun v => strands_dropWb v _) s c d n

/-- In slots that no engine holds the bytes written stand, and every other byte of memory is as it was. -/
theorem OwnLocal.stored {s : State} {c : CoreId} {k : StrandId} {va : BitVec 48} {n off : Nat} (h : OwnLocal s c k va n off) {bs : List Byte}
    (hn : bs.length = n) : Stored s (s.localWrite c off bs) (localBase c + off) bs := by
  have mem : (s.localWrite c off bs).mem = Memory.write s.mem (localBase c + off) bs := by
    subst hn
    simp only [State.localWrite, h.not_busy, Bool.false_eq_true, if_false]
  refine ⟨fun i hi => ?_, fun x hx => ?_⟩
  · rw [mem]; exact Memory.get_write_inside bs i hi
  · rw [mem]; exact Memory.get_write_outside bs hx

end Sys2Proof

/-! ## Results that are written after issue (spec/07_issue.md R130, R132, spec/08_isa_scalar.md R140) -/

namespace Sys2Proof.Machine

/-- A bit written twice is written once. -/
theorem setBit_setBit {n : Nat} (w : BitVec n) {k : Nat} (u v : Bool) (hk : k < n) : setBit (setBit w k u) k v = setBit w k v := by
  apply BitVec.eq_of_getLsbD_eq
  intro i _
  simp only [getLsbD_setBit _ _ _ _ hk]
  split <;> rfl

/-- Writes of two bits may change places. -/
theorem setBit_comm {n : Nat} (w : BitVec n) {j k : Nat} (u v : Bool) (hj : j < n) (hk : k < n) (h : j ≠ k) :
    setBit (setBit w j u) k v = setBit (setBit w k v) j u := by
  apply BitVec.eq_of_getLsbD_eq
  intro i _
  simp only [getLsbD_setBit _ _ _ _ hj, getLsbD_setBit _ _ _ _ hk]
  by_cases hi : i = j
  · subst hi; simp [h]
  · simp [hi]

/-- PRODUCER_RESULT_WRITE names registers without confusion. -/
theorem regNum_inj {p q : RegRef} (h : regNum p = regNum q) : p = q := by
  cases p <;> cases q <;> simp only [regNum] at h <;>
    simp only [RegRef.x.injEq, RegRef.m.injEq, RegRef.a.injEq, RegRef.i.injEq, reduceCtorEq] <;> bv_omega

/-- The result that waits last of a strand, where no earlier one is of its register. -/
theorem find_pending_last {ps : List Pending} {p : Pending} {n : Nat} (hn : regNum p.r = n) (h : ∀ q ∈ ps, q.r ≠ p.r) :
    (ps ++ [p]).find? (fun q => regNum q.r == n) = some p := by
  have none : ps.find? (fun q => regNum q.r == n) = none := by
    simp only [List.find?_eq_none, beq_iff_eq]
    exact fun q hq e => h q hq (regNum_inj (e.trans hn.symm))
  rw [List.find?_append, none]
  simp [hn]

theorem eraseP_pending_last {ps : List Pending} {p : Pending} {n : Nat} (hn : regNum p.r = n) (h : ∀ q ∈ ps, q.r ≠ p.r) :
    (ps ++ [p]).eraseP (fun q => regNum q.r == n) = ps := by
  rw [List.eraseP_append_right]
  · simp [hn]
  · exact fun q hq e => h q hq (regNum_inj ((beq_iff_eq.1 e).trans hn.symm))

/-- Fills of other registers wait on. -/
theorem Strand.applyFills_of_none {t : Strand} {r : XReg} (h : ∀ f ∈ t.fills, f.1 ≠ r) : t.applyFills r = t := by
  have waiting : t.fills.filter (fun f => f.1 == r) = [] := by simpa [List.filter_eq_nil_iff] using h
  have others : t.fills.filter (fun f => f.1 != r) = t.fills := by simpa [List.filter_eq_self] using h
  simp only [Strand.applyFills, waiting, others, List.foldl_nil]

/-! ### A full bit marked, or a register written, and the other fields of the strand -/

@[simp] theorem Strand.pend_setF_x (t : Strand) (d : XReg) (v : Bool) : (t.setF (.x d) v).pend = t.pend := by
  simp only [Strand.setF]; split <;> rfl
@[simp] theorem Strand.fills_setF_x (t : Strand) (d : XReg) (v : Bool) : (t.setF (.x d) v).fills = t.fills := by
  simp only [Strand.setF]; split <;> rfl
@[simp] theorem Strand.flags_setF_x (t : Strand) (d : XReg) (v : Bool) : (t.setF (.x d) v).flags = t.flags := by
  simp only [Strand.setF]; split <;> rfl
@[simp] theorem Strand.pc_setF_x (t : Strand) (d : XReg) (v : Bool) : (t.setF (.x d) v).pc = t.pc := by
  simp only [Strand.setF]; split <;> rfl
@[simp] theorem Strand.fills_putX (t : Strand) (d : XReg) (v : Word) : (t.putX d v).fills = t.fills := by
  simp only [Strand.putX]; split <;> rfl
@[simp] theorem Strand.flags_putX (t : Strand) (d : XReg) (v : Word) : (t.putX d v).flags = t.flags := by
  simp only [Strand.putX]; split <;> rfl

/-- Without fills that wait a result is written as any other (R132). -/
theorem State.resultX_eq_writeX {s : State} {c : CoreId} {k : StrandId} {d : XReg} (v : Word)
    (h : ∀ f ∈ (s.strand c (destStrand k d)).fills, f.1 ≠ d) : s.resultX c k d v = s.writeX c k d v := by
  unfold State.resultX State.writeX
  split
  · rfl
  · unfold State.updStrand
    exact congrArg (s.setStrand c (destStrand k d)) (Strand.applyFills_of_none (by simpa using h))

/-- PRODUCER_RESULT_WRITE of a result of an x register that is the only one to wait for that register (R140). -/
theorem State.writePending_x {s : State} {c : CoreId} {k : StrandId} {d : XReg} {ps : List Pending} {p : Pending}
    (hp : (s.strand c k).pend = ps ++ [p]) (hr : p.r = .x d) (hq : ∀ q ∈ ps, q.r ≠ .x d) :
    s.writePending c k d.toNat =
      (s.updStrand c k fun t => { t with pend := ps, flags := t.flags ||| p.flags }).resultX c k d p.v := by
  have hn : regNum p.r = d.toNat := congrArg regNum hr
  rw [← hr] at hq
  simp only [State.writePending, State.updStrand, hp, find_pending_last hn hq, eraseP_pending_last hn hq, hr]

/-- PRODUCER_RESULT_WRITE of a result of a mask register that is the only one to wait for that register (R205). -/
theorem State.writePending_m {s : State} {c : CoreId} {k : StrandId} {m : BitVec 3} {ps : List Pending} {p : Pending}
    (hp : (s.strand c k).pend = ps ++ [p]) (hr : p.r = .m m) (hq : ∀ q ∈ ps, q.r ≠ .m m) :
    s.writePending c k (64 + m.toNat) =
      (s.updStrand c k fun t => { t with pend := ps, flags := t.flags ||| p.flags }).updStrand c k
        fun t => (t.putM m p.v2).setF (.m m) true := by
  have hn : regNum p.r = 64 + m.toNat := congrArg regNum hr
  rw [← hr] at hq
  simp only [State.writePending, State.updStrand, hp, find_pending_last hn hq, eraseP_pending_last hn hq, hr]

theorem Strand.setF_x {t : Strand} {d : XReg} (v : Bool) (h : d ≠ 0#6) : t.setF (.x d) v = { t with xF := setBit t.xF d.toNat v } := if_neg h

theorem State.strand_emptyX (s : State) (c e : CoreId) (k n : StrandId) (d : XReg) : (s.emptyX c k d).strand e n =
    if e = c ∧ n = destStrand k d then (s.strand e n).setF (.x d) false else s.strand e n := by
  unfold State.emptyX
  split
  · rename_i h; subst h; split <;> rfl
  · rw [State.strand_updStrand]
    split
    · rename_i h; rw [h.1, h.2]
    · rfl

theorem State.strand_writeX (s : State) (c e : CoreId) (k n : StrandId) (d : XReg) (v : Word) : (s.writeX c k d v).strand e n =
    if e = c ∧ n = destStrand k d then ((s.strand e n).putX d v).setF (.x d) true else s.strand e n := by
  unfold State.writeX
  split
  · rename_i h; subst h; split <;> rfl
  · rw [State.strand_updStrand]
    split
    · rename_i h; rw [h.1, h.2]
    · rfl

/-- A destination marked empty with its result at the strand, before the step that writes it is put on the agenda. -/
def State.awaitX (s : State) (c : CoreId) (k : StrandId) (d : XReg) (v : Word) (fl : BitVec 5) : State :=
  (s.emptyX c k d).updStrand c k fun t => { t with pend := t.pend ++ [{ r := .x d, v := v, flags := fl }] }

theorem State.produce_eq (s : State) (c : CoreId) (k : StrandId) (d : XReg) (v : Word) (fl : BitVec 5) (cycles : Nat) :
    s.produce c k d v fl cycles = (s.awaitX c k d v fl).push (2 * cycles + 1) .producerResultWrite { c := c, k := k, n := d.toNat } := rfl

/-- A step on the agenda and the end of the instruction may change places. -/
theorem State.complete_push (s : State) (n : Nat) (i : Instr) (x : StepArg) (c : CoreId) (k : StrandId) (u : Uses) (len : Nat) :
    (s.push n i x).complete c k u len = (s.complete c k u len).push n i x := rfl

end Sys2Proof.Machine

namespace Sys2Proof

open Machine

theorem destStrand_mem_touched (k : StrandId) (d : XReg) : destStrand k d ∈ touched k d := by
  unfold destStrand touched
  split <;> simp

theorem mem_touched (k : StrandId) (d : XReg) : k ∈ touched k d := by
  unfold touched
  split <;> simp

theorem elsewhere_emptyX (s : State) (c : CoreId) (k : StrandId) (d : XReg) : Elsewhere s (s.emptyX c k d) c (touched k d) := by
  unfold State.emptyX
  split
  · exact ⟨fun _ => rfl, fun _ _ _ => rfl, fun _ => rfl, rfl⟩
  · exact elsewhere_mono (elsewhere_updStrand s c _ _) fun n hn => List.mem_singleton.1 hn ▸ destStrand_mem_touched k d

theorem elsewhere_writeX (s : State) (c : CoreId) (k : StrandId) (d : XReg) (v : Word) : Elsewhere s (s.writeX c k d v) c (touched k d) := by
  unfold State.writeX
  split
  · exact ⟨fun _ => rfl, fun _ _ _ => rfl, fun _ => rfl, rfl⟩
  · exact elsewhere_mono (elsewhere_updStrand s c _ _) fun n hn => List.mem_singleton.1 hn ▸ destStrand_mem_touched k d

theorem Elsewhere.now {s t : State} {c : CoreId} {ks : List StrandId} (h : Elsewhere s t c ks) : t.now = s.now := by
  have r := h.rest
  rw [← r]

/-- What leaves the agenda leaves it also when it is written back. -/
theorem Elsewhere.withAgenda {s t : State} {c : CoreId} {ks : List StrandId} (h : Elsewhere s t c ks) :
    Elsewhere s { t with agenda := s.agenda } c ks where
  memory := h.memory
  strands := h.strands
  cores := h.cores
  rest := by
    have r := h.rest
    rw [← r]

/-- What an instruction wrote is a matter of the strands, where the rest of the machine is as it was. -/
theorem Wrote.of_strands {s t v : State} {c : CoreId} {k : StrandId} {srcs : List XReg} {d : XReg} {w : Word} {pc : BitVec 48}
    {buf : List Group} (h : Wrote s t c k srcs d w pc buf) (hv : Elsewhere s v c (touched k d))
    (hs : ∀ e n, v.strand e n = t.strand e n) : Wrote s v c k srcs d w pc buf where
  value := by rw [hs]; exact h.value
  next := by rw [hs]; exact h.next
  slot := by rw [hs]; exact h.slot
  kept := by rw [hs]; exact h.kept
  succ := by rw [hs]; exact h.succ
  elsewhere := hv

/-- A strand whose own x register was marked empty at issue and is written later, as if it had been written at issue. -/
theorem ended_putX_of_awaited (a : Strand) {d : XReg} (hd : d ≠ 63#6) (v : Word) (now len : Nat) (nf : Bool) (ps : List Pending) (fl : BitVec 5) :
    { (({ ({ a.setF (.x d) false with pend := ps } : Strand).ended now len nf with pend := a.pend, flags := fl } : Strand).putX d v).setF (.x d) true
      with flags := a.flags } = ((a.putX d v).setF (.x d) true).ended now len nf := by
  by_cases h0 : d = 0#6
  · subst h0; rfl
  · have h63 : d.toNat ≠ 63 := fun e => hd (BitVec.eq_of_toNat_eq e)
    have bits : setBit (if nf then setBit (setBit a.xF d.toNat false) 63 false else setBit a.xF d.toNat false) d.toNat true =
        if nf then setBit (setBit a.xF d.toNat true) 63 false else setBit a.xF d.toNat true := by
      have hlt : d.toNat < 64 := d.isLt
      cases nf
      · exact setBit_setBit a.xF false true hlt
      · simp only [if_true]
        rw [setBit_comm _ false true (by decide) hlt (Ne.symm h63), setBit_setBit _ _ _ hlt]
    rw [putX_setF _ v h0, putX_setF _ v h0, Strand.setF_x false h0]
    simp only [Strand.ended, bits]

/-- A slot that is marked empty and then written is as if it had been written at once. -/
theorem putX_setF_of_emptied (a : Strand) (d : XReg) (v : Word) :
    ((a.setF (.x d) false).putX d v).setF (.x d) true = (a.putX d v).setF (.x d) true := by
  by_cases h0 : d = 0#6
  · subst h0; rfl
  · rw [putX_setF _ v h0, putX_setF _ v h0]
    simp only [Strand.setF_x false h0, setBit_setBit a.xF false true d.isLt]

/-- The strand of a producer behind its instruction: its register empty unless it is the successor's, the result waiting (R130, R133). -/
def Machine.Strand.awaiting (a : Strand) (k : StrandId) (d : XReg) (p : Pending) (now : Nat) (nf : Bool) : Strand :=
  ({ (if k = destStrand k d then a.setF (.x d) false else a) with pend := a.pend ++ [p] } : Strand).ended now 4 nf

theorem strand_awaitX_complete (s : State) (c : CoreId) (k : StrandId) (d : XReg) (v : Word) (fl : BitVec 5) (u : Uses) (e : CoreId)
    (n : StrandId) : ((s.awaitX c k d v fl).complete c k u 4).strand e n =
      if e = c ∧ n = k then (s.strand c k).awaiting k d { r := .x d, v := v, flags := fl } s.cycle u.readsNf
      else if e = c ∧ n = destStrand k d then (s.strand e n).setF (.x d) false else s.strand e n := by
  have now : (s.awaitX c k d v fl).cycle = s.cycle := by
    unfold State.awaitX State.emptyX
    split <;> rfl
  have pend : ∀ a : Strand, (if k = destStrand k d then a.setF (.x d) false else a).pend = a.pend := by
    intro a
    split
    · exact Strand.pend_setF_x _ _ _
    · rfl
  rw [State.complete_eq, State.strand_updStrand, now]
  unfold State.awaitX
  by_cases h : e = c ∧ n = k
  · rw [if_pos h, if_pos h, State.strand_updStrand_same, State.strand_emptyX]
    simp only [true_and, pend]
    rfl
  · rw [if_neg h, if_neg h, State.strand_updStrand_ne _ _ h, State.strand_emptyX]

theorem elsewhere_awaitX_complete (s : State) (c : CoreId) (k : StrandId) (d : XReg) (v : Word) (fl : BitVec 5) (u : Uses) :
    Elsewhere s ((s.took.awaitX c k d v fl).complete c k u 4) c (touched k d) := by
  have issue := elsewhere_trans (elsewhere_trans (elsewhere_took s c) (elsewhere_emptyX s.took c k d))
    (elsewhere_updStrand (s.took.emptyX c k d) c k fun t => { t with pend := t.pend ++ [{ r := .x d, v := v, flags := fl }] })
  refine elsewhere_mono (elsewhere_trans issue (elsewhere_complete _ c k u 4)) fun n hn => ?_
  simp only [List.nil_append, List.mem_append, List.mem_singleton] at hn
  rcases hn with (hn | hn) | hn
  · exact hn
  · exact hn ▸ mem_touched k d
  · exact hn ▸ mem_touched k d

/-- Agenda and operands take no part in the issue of a producer. -/
theorem awaitX_complete_with (s : State) (c : CoreId) (k : StrandId) (d : XReg) (v : Word) (fl : BitVec 5) (u : Uses) :
    { (s.took.awaitX c k d v fl).complete c k u 4 with agenda := s.agenda, arg := s.arg } = (s.took.awaitX c k d v fl).complete c k u 4 := by
  unfold State.awaitX State.emptyX
  split <;> rfl

/-- Nor in the write of a result. -/
theorem writeX_with (s : State) (c : CoreId) (k : StrandId) (d : XReg) (v : Word) (a : List (Nat × Instr × StepArg)) (x : StepArg) :
    { s.writeX c k d v with agenda := a, arg := x } = ({ s with agenda := a, arg := x } : State).writeX c k d v := by
  unfold State.writeX
  split <;> rfl

/-- So a state that holds the agenda and operands given still does after a result is written. -/
theorem updStrand_writeX_with {s : State} {a : List (Nat × Instr × StepArg)} {x : StepArg} (h : { s with agenda := a, arg := x } = s) (c : CoreId)
    (k : StrandId) (f : Strand → Strand) (d : XReg) (v : Word) :
    { (s.updStrand c k f).writeX c k d v with agenda := a, arg := x } = (s.updStrand c k f).writeX c k d v :=
  (writeX_with (s.updStrand c k f) c k d v a x).trans (congrArg (fun t : State => (t.updStrand c k f).writeX c k d v) h)

/-- A result of an x register taken from a strand at which it waits. -/
def Machine.Strand.unpend (t : Strand) (ps : List Pending) (fl : BitVec 5) : Strand := { t with pend := ps, flags := t.flags ||| fl }

/-- The strand of a producer of an own register once the result is written, its flags aside. -/
theorem unpend_awaiting_own (a : Strand) {k : StrandId} {d : XReg} (hd : destStrand k d = k) (v : Word) (fl : BitVec 5) (now : Nat) (nf : Bool) :
    { ((((a.awaiting k d { r := .x d, v := v, flags := fl } now nf).unpend a.pend fl).putX d v).setF (.x d) true) with flags := a.flags } =
      ((a.putX d v).setF (.x d) true).ended now 4 nf := by
  have h63 : d ≠ 63#6 := by
    rintro rfl
    exact succ_ne k hd
  rw [Strand.awaiting, hd, if_pos rfl]
  exact ended_putX_of_awaited a h63 v now 4 nf _ _

/-- The strand of a producer of the successor's slot once the result is written, its flags aside. -/
theorem unpend_awaiting_succ (a : Strand) {k : StrandId} {d : XReg} (hd : k ≠ destStrand k d) (p : Pending) (now : Nat) (nf : Bool)
    (fl : BitVec 5) : { (a.awaiting k d p now nf).unpend a.pend fl with flags := a.flags } = a.ended now 4 nf := by
  rw [Strand.awaiting, if_neg hd]
  rfl

/-- The state in which the result of a producer has been written, with the agenda, the operands and the flags of the strand as they were. -/
def Machine.State.resultIn (s : State) (c : CoreId) (k : StrandId) (d : XReg) (v : Word) (fl f0 : BitVec 5) (ps : List Pending) : State :=
  ((s.updStrand c k fun t => t.unpend ps fl).writeX c k d v).updStrand c k fun t => { t with flags := f0 }

theorem elsewhere_resultIn (s : State) (c : CoreId) (k : StrandId) (d : XReg) (v : Word) (fl f0 : BitVec 5) (ps : List Pending) :
    Elsewhere s (s.resultIn c k d v fl f0 ps) c (touched k d) := by
  refine elsewhere_mono (elsewhere_trans (elsewhere_trans (elsewhere_updStrand s c k fun t => t.unpend ps fl) (elsewhere_writeX _ c k d v))
    (elsewhere_updStrand _ c k fun t => { t with flags := f0 })) fun n hn => ?_
  simp only [List.mem_append, List.mem_singleton] at hn
  rcases hn with (hn | hn) | hn
  · exact hn ▸ mem_touched k d
  · exact hn
  · exact hn ▸ mem_touched k d

/-- The strands once a producer's result has been written are those of an instruction that writes its register at issue. -/
theorem strand_resultIn {s : State} (c : CoreId) (k : StrandId) (d : XReg) (v : Word) (fl : BitVec 5) (u : Uses) (e : CoreId) (n : StrandId) :
    (((s.took.awaitX c k d v fl).complete c k u 4).resultIn c k d v fl (s.strand c k).flags (s.strand c k).pend).strand e n =
      ((s.took.writeX c k d v).complete c k u 4).strand e n := by
  have now : (s.took.writeX c k d v).cycle = s.cycle := by
    unfold State.writeX
    split <;> rfl
  rw [State.complete_eq (s.took.writeX c k d v), State.resultIn]
  simp only [State.strand_updStrand, State.strand_writeX, strand_awaitX_complete, now, State.strand_took]
  by_cases he : e = c
  · subst he
    by_cases hk : n = k
    · subst hk
      by_cases hd : n = destStrand n d
      · simp only [true_and, ← hd, if_true]
        exact unpend_awaiting_own _ hd.symm v fl _ _
      · simp only [true_and, if_true, if_neg hd]
        exact unpend_awaiting_succ _ hd _ _ _ _
    · by_cases hd : n = destStrand k d
      · simp only [true_and, if_neg hk, if_pos hd]
        exact putX_setF_of_emptied _ d v
      · simp only [true_and, if_neg hk, if_neg hd]
  · simp only [he, false_and, if_false]

/-- The fields of a waiting producer's strand that its instruction does not change. -/
theorem fields_awaiting (a : Strand) (k : StrandId) (d : XReg) (p : Pending) (now : Nat) (nf : Bool) :
    (a.awaiting k d p now nf).flags = a.flags ∧ (a.awaiting k d p now nf).fills = a.fills ∧
      (a.awaiting k d p now nf).pend = a.pend ++ [p] ∧ (a.awaiting k d p now nf).pc = a.pc + 4#48 := by
  unfold Strand.awaiting Strand.ended
  split <;> simp

theorem full_awaiting (a : Strand) {k : StrandId} {d : XReg} (hd : destStrand k d = k) (h0 : d ≠ 0#6) (p : Pending) (now : Nat) (nf : Bool) :
    (a.awaiting k d p now nf).full (.x d) = false := by
  rw [Strand.awaiting, if_pos hd.symm, Strand.full_ended]
  split
  · rfl
  · exact Strand.full_setF_same a (.x d) false (by simpa using h0) (by simp)

/-- PRODUCER_RESULT_WRITE in the state that the issue leaves, whatever the agenda and the operands hold. -/
theorem writePending_awaitX {s : State} {c : CoreId} {k : StrandId} {u : Uses} {d : XReg} (v : Word) (fl : BitVec 5)
    (hd : NoneDue s c k d) (a : List (Nat × Instr × StepArg)) (x : StepArg) :
    ({ (s.took.awaitX c k d v fl).complete c k u 4 with agenda := a, arg := x } : State).writePending c k d.toNat =
      { (((s.took.awaitX c k d v fl).complete c k u 4).updStrand c k fun t => t.unpend (s.strand c k).pend fl).writeX c k d v with
        agenda := a, arg := x } := by
  obtain ⟨noResult, noFill⟩ := hd
  have issued := strand_awaitX_complete s.took c k d v fl u
  generalize (s.took.awaitX c k d v fl).complete c k u 4 = I at issued ⊢
  obtain ⟨-, fills, pend, -⟩ := fields_awaiting (s.strand c k) k d { r := .x d, v := v, flags := fl } s.cycle u.readsNf
  have own : I.strand c k = _ := (issued c k).trans (if_pos ⟨rfl, rfl⟩)
  have waits : (({ I with agenda := a, arg := x } : State).strand c k).pend = _ := (congrArg Strand.pend own).trans pend
  have noFill' : ∀ f ∈ ((({ I with agenda := a, arg := x } : State).updStrand c k fun t =>
      t.unpend (s.strand c k).pend fl).strand c (destStrand k d)).fills, f.1 ≠ d := by
    rw [State.strand_updStrand]
    by_cases hk : destStrand k d = k
    · rw [hk] at noFill
      rw [if_pos ⟨rfl, hk⟩]
      show ∀ f ∈ (I.strand c k).fills, f.1 ≠ d
      rw [own]
      exact fills ▸ noFill
    · rw [if_neg fun h => hk h.2]
      show ∀ f ∈ (I.strand c (destStrand k d)).fills, f.1 ≠ d
      rw [issued, if_neg fun h => hk h.2, if_pos ⟨rfl, rfl⟩, Strand.fills_setF_x]
      exact noFill
  refine ((State.writePending_x waits rfl noResult).trans (State.resultX_eq_writeX v noFill')).trans ?_
  exact (writeX_with (I.updStrand c k fun t => t.unpend (s.strand c k).pend fl) c k d v a x).symm

/-- What a producer of an x register leaves at issue, and what PRODUCER_RESULT_WRITE makes of it (R130, R140, R205). -/
theorem resultLater_produce {s : State} {c : CoreId} {k : StrandId} {u : Uses} {srcs : List XReg} {d : XReg} (v : Word) (fl : BitVec 5)
    (cycles : Nat) (hn : u.readsNf = decide (63#6 ∈ srcs)) (hd : NoneDue s c k d) :
    ResultLater s ((s.took.produce c k d v fl cycles).complete c k u 4) c k srcs d cycles v fl := by
  have issued := strand_awaitX_complete s.took c k d v fl u
  have frame := elsewhere_awaitX_complete s c k d v fl u
  have same := awaitX_complete_with s c k d v fl u
  have final := strand_resultIn (s := s) c k d v fl u
  have write := writePending_awaitX (u := u) v fl hd
  rw [State.produce_eq, State.complete_push]
  generalize (s.took.awaitX c k d v fl).complete c k u 4 = I at issued frame same final write ⊢
  have own : I.strand c k = _ := (issued c k).trans (if_pos ⟨rfl, rfl⟩)
  obtain ⟨flags, -, -, pc⟩ := fields_awaiting (s.strand c k) k d { r := .x d, v := v, flags := fl } s.cycle u.readsNf
  constructor
  case empty =>
    intro h0
    show (I.strand c (destStrand k d)).full (.x d) = false
    rw [issued]
    by_cases hk : destStrand k d = k
    · rw [if_pos ⟨rfl, hk⟩]
      exact full_awaiting _ hk h0 _ _ _
    · rw [if_neg fun h => hk h.2, if_pos ⟨rfl, rfl⟩]
      exact Strand.full_setF_same _ _ _ (by simpa using h0) (by simp)
  case next =>
    show (I.strand c k).pc = _ ∧ (I.strand c k).flags = _
    rw [own]
    exact ⟨pc, flags⟩
  case due =>
    refine State.mem_agenda_push.2 (.inl ?_)
    rw [frame.now]
    rfl
  case elsewhere => exact frame.withAgenda
  case written =>
    refine ⟨_, congrArg Host.Outcome.next (write _ _), ?_, ?_⟩
    · show (((I.updStrand c k fun t => t.unpend (s.strand c k).pend fl).writeX c k d v).strand c k).flags = _
      have waiting : ((I.strand c k).unpend (s.strand c k).pend fl).flags = (s.strand c k).flags ||| fl := by
        rw [own]
        exact congrArg (· ||| fl) flags
      rw [State.strand_writeX, State.strand_updStrand_same]
      split
      · rw [Strand.flags_setF_x, Strand.flags_putX, waiting]
      · exact waiting
    · show Wrote s (({ (I.updStrand c k fun t => t.unpend (s.strand c k).pend fl).writeX c k d v with
          agenda := s.agenda, arg := s.arg } : State).updStrand c k fun b => { b with flags := (s.strand c k).flags }) c k srcs d v _ _
      rw [updStrand_writeX_with same]
      refine (wrote_complete d v 4 hn).of_strands ?_ final
      exact elsewhere_mono (elsewhere_trans frame (elsewhere_resultIn I c k d v fl _ _)) fun n hn => by simpa using hn

end Sys2Proof

/-! ## Results of mask registers (spec/10_isa_memory.md R205, R211) -/

namespace Sys2Proof.Machine

theorem Strand.rm'_putM (t : Strand) {m : BitVec 3} (n : BitVec 3) (v : BitVec 128) (h : m ≠ 0) :
    (t.putM m v).rm' n = if n = m then v else t.rm' n := by
  have put : t.putM m v = { t with m := Tab.put t.m m.toNat v } := if_neg h
  rw [put]
  unfold Strand.rm'
  by_cases hn : n = 0
  · subst hn
    rw [if_pos rfl, if_pos rfl, if_neg (Ne.symm h)]
  · rw [if_neg hn, if_neg hn, Tab.get_put]
    simp only [BitVec.toNat_inj]

@[simp] theorem Strand.rm'_setF_m (t : Strand) (m n : BitVec 3) (v : Bool) : (t.setF (.m m) v).rm' n = t.rm' n := by
  simp only [Strand.setF]
  split <;> rfl

@[simp] theorem Strand.pc_setF_m (t : Strand) (m : BitVec 3) (v : Bool) : (t.setF (.m m) v).pc = t.pc := by
  simp only [Strand.setF]
  split <;> rfl

/-- The strand of a load into a mask register behind its instruction. -/
def Strand.awaitingM (a : Strand) (m : BitVec 3) (v : BitVec 128) (now : Nat) (nf : Bool) : Strand :=
  ({ a.setF (.m m) false with pend := a.pend ++ [{ r := .m m, v2 := v }] } : Strand).ended now 4 nf

/-- What a producer of a mask register leaves: its strand, with the step that writes the result on the agenda. -/
theorem State.produceM_complete (s : State) (c : CoreId) (k : StrandId) (m : BitVec 3) (v : BitVec 128) (cycles : Nat) (u : Uses) :
    (s.produceM c k m v cycles).complete c k u 4 =
      (s.updStrand c k fun a => a.awaitingM m v s.cycle u.readsNf).push (2 * cycles + 1) .producerResultWrite
        { c := c, k := k, n := 64 + m.toNat } := by
  rw [State.produceM, State.complete_push, State.complete_eq, State.updStrand_updStrand]
  rfl

end Sys2Proof.Machine

namespace Sys2Proof

open Machine

/-- What a load of a mask register leaves (R130, R205, R211): the register is empty, the strand behind the instruction, and PRODUCER_RESULT_WRITE
on the agenda; that step writes the value and no other mask register. -/
def MaskLater (s t : State) (c : CoreId) (k : StrandId) (m : BitVec 3) (v : BitVec 128) : Prop :=
  (t.strand c k).full (.m m) = false ∧ (t.strand c k).pc = (s.strand c k).pc + 4#48 ∧ Elsewhere s { t with agenda := s.agenda } c [k] ∧
    (s.now + 7, Instr.producerResultWrite, ({ c := c, k := k, n := 64 + m.toNat } : StepArg)) ∈ t.agenda ∧
    ∃ w, exec .producerResultWrite { t with arg := { c := c, k := k, n := 64 + m.toNat } } = .next w ∧
      (w.strand c k).full (.m m) = true ∧ (w.strand c k).rm' m = v ∧ ∀ n, n ≠ m → (w.strand c k).rm' n = (s.strand c k).rm' n

theorem maskLater_produceM {s : State} {c : CoreId} {k : StrandId} {m : BitVec 3} (u : Uses) (v : BitVec 128) (h0 : m ≠ 0#3)
    (hp : ∀ p ∈ (s.strand c k).pend, p.r ≠ .m m) : MaskLater s ((s.took.produceM c k m v 3).complete c k u 4) c k m v := by
  have own : (s.took.updStrand c k fun a => a.awaitingM m v s.took.cycle u.readsNf).strand c k =
      (s.strand c k).awaitingM m v s.took.cycle u.readsNf := State.strand_updStrand_same s.took c k _
  have frame : Elsewhere s (s.took.updStrand c k fun a => a.awaitingM m v s.took.cycle u.readsNf) c [k] :=
    elsewhere_trans (elsewhere_took s c) (elsewhere_updStrand s.took c k _)
  have due : s.now + 7 = (s.took.updStrand c k fun a => a.awaitingM m v s.took.cycle u.readsNf).now + (2 * 3 + 1) := rfl
  rw [State.produceM_complete]
  generalize s.took.updStrand c k (fun a => a.awaitingM m v s.took.cycle u.readsNf) = I at own frame due ⊢
  refine ⟨?_, ?_, frame.withAgenda, State.mem_agenda_push.2 (.inl (by rw [due])), ?_⟩
  · rw [State.strand_push, own]
    exact Strand.full_setF_same (s.strand c k) (.m m) false (by simp) (by simpa using h0)
  · rw [State.strand_push, own]
    exact congrArg (· + 4#48) (Strand.pc_setF_m (s.strand c k) m false)
  · refine ⟨_, congrArg Host.Outcome.next (State.writePending_m (congrArg Strand.pend own) rfl hp), ?_, ?_, fun n hn => ?_⟩
    · rw [State.strand_updStrand_same]
      exact Strand.full_setF_same _ (.m m) true (by simp) (by simpa using h0)
    · rw [State.strand_updStrand_same, Strand.rm'_setF_m, Strand.rm'_putM _ _ _ h0, if_pos rfl]
    · rw [State.strand_updStrand_same, Strand.rm'_setF_m, Strand.rm'_putM _ _ _ h0, if_neg hn, State.strand_updStrand_same]
      calc Strand.rm' _ n = ((s.strand c k).awaitingM m v s.took.cycle u.readsNf).rm' n := congrArg (Strand.rm' · n) own
        _ = (s.strand c k).rm' n := Strand.rm'_setF_m (s.strand c k) m n false

/-! ## LD, LD.m, ST and ST.m on the own local memory (spec/10_isa_memory.md R205, R208 to R211) -/

/-- One x register and one mask register as sources. -/
theorem readsNf_stM (u : Bool) (a : XReg) (m : BitVec 3) (names : List XReg) :
    ({ names := names, srcs := [sx a u, s0 (.m m)] } : Uses).readsNf = decide (63#6 ∈ [a]) := by
  by_cases h : 63#6 = a <;> simp_all [Uses.readsNf, sx, s0, Ne.symm]

/-- Two sources, both x registers. -/
theorem usesAre_st (v u : Bool) (a r : XReg) : UsesAre { names := [a, r], srcs := [sx a u, sx r v] } [a, r] [] where
  names _ hx := .inl hx
  srcs := (usesAre_rr v u r a 0#6).srcs
  dsts := rfl
  dregs := rfl
  accs := rfl
  nf := (usesAre_rr v u r a 0#6).nf

/-- LD runs the body of a load at the address of R209. -/
theorem exec_ld {s : State} {c : CoreId} {k : StrandId} {a d : XReg} (h : CanIssue s c k [a] [d]) (h0 : d ≠ 0#6) (o : BitVec 9) (z : BitVec 2)
    (u : Bool) : exec (.ld o z u a d) s = .next (s.took.settle c k { names := [a, d], srcs := [sx a u], dsts := [d] } 4
      (loadBody .load (2 ^ z.toNat) (.x d) (ldAddr (s.strand c k) a o z) c k s.took)) := by
  rw [← memAddr_eq_ldAddr]
  exact (h.issue (usesAre_r u a d) 4 _).trans (congrArg (fun r => Host.Outcome.next (s.took.settle c k _ 4 r)) (if_neg h0))

/-- LD to x0 runs the body of a touch (R210). -/
theorem exec_touch {s : State} {c : CoreId} {k : StrandId} {a : XReg} (h : CanIssue s c k [a] []) (o : BitVec 9) (z : BitVec 2) (u : Bool) :
    exec (.ld o z u a 0#6) s = .next (s.took.settle c k { names := [a, 0#6], srcs := [sx a u], dsts := [0#6] } 4
      (touchBody (2 ^ z.toNat) (ldAddr (s.strand c k) a o z) c k s.took)) := by
  rw [← memAddr_eq_ldAddr]
  exact h.discards.issue (usesAre_r u a 0#6) 4 _

/-- A value that a load delivers to an x register or to a mask register is that of a producer (R205). -/
theorem deliver_x {s : State} {c : CoreId} {k : StrandId} {d : XReg} (h0 : d ≠ 0#6) (bs : List Byte) (cycles : Nat) :
    s.deliver c k (.x d) bs cycles = s.produce c k d (leBits 64 bs) 0 cycles := if_neg h0

theorem deliver_m {s : State} {c : CoreId} {k : StrandId} {m : BitVec 3} (h0 : m ≠ 0#3) (bs : List Byte) (cycles : Nat) :
    s.deliver c k (.m m) bs cycles = s.produceM c k m (leBits 128 bs) cycles := if_neg h0

/-- LD.m runs the body of a load of 16 bytes. -/
theorem exec_ldM {s : State} {c : CoreId} {k : StrandId} {a : XReg} {m : BitVec 3} (h : CanIssue s c k [a] [])
    (hm : (s.strand c k).full (.m m) = true) (u : Bool) :
    exec (.ldM u a m) s = .next (s.took.settle c k { names := [a], srcs := [sx a u], dregs := [.m m] } 4
      (loadBody .loadM 16 (.m m) (((s.strand c k).rx a).extractLsb' 0 48) c k s.took)) := by
  refine h.issue_of_full (fun r hr => .inl hr) ?_ ?_ rfl (by simpa using hm) (by simp) 4 _
  · simp [sx]
  · simp [sx]

/-- ST runs the body of a store at the address of R209. -/
theorem exec_st {s : State} {c : CoreId} {k : StrandId} {a r : XReg} (h : CanIssue s c k [a, r] []) (o : BitVec 9) (z : BitVec 2) (v u : Bool) :
    exec (.st o z v u a r) s = .next (s.took.settle c k { names := [a, r], srcs := [sx a u, sx r v] } 4
      (storeBody .store 0 z.toNat (2 ^ z.toNat) (((s.strand c k).rx r).setWidth 128) (ldAddr (s.strand c k) a o z) c k s.took)) := by
  rw [← memAddr_eq_ldAddr]
  exact h.issue (usesAre_st v u a r) 4 _

/-- ST.m runs the body of a store of 16 bytes. -/
theorem exec_stM {s : State} {c : CoreId} {k : StrandId} {a : XReg} {m : BitVec 3} (h : CanIssue s c k [a] [])
    (hm : (s.strand c k).full (.m m) = true) (u : Bool) :
    exec (.stM u a m) s = .next (s.took.settle c k { names := [a], srcs := [sx a u, s0 (.m m)] } 4
      (storeBody .storeM 1 4 16 ((s.strand c k).rm' m) (((s.strand c k).rx a).extractLsb' 0 48) c k s.took)) := by
  refine h.issue_of_full (fun r hr => .inl hr) ?_ ?_ rfl (by simp) (by simp) 4 _
  · simp [sx, s0]
  · simpa [sx, s0] using hm

/-- A store to the own local memory leaves its strand behind the instruction and the bytes of the register in memory. -/
theorem passed_and_stored {s : State} {c : CoreId} {k : StrandId} {va : BitVec 48} {n off : Nat} (h : OwnLocal s c k va n off) {u : Uses}
    {srcs : List XReg} (hn : u.readsNf = decide (63#6 ∈ srcs)) (data : BitVec 128) :
    Passed s ((s.took.localWrite c off (bytesOf n data)).complete c k u 4) c k srcs ∧
      Stored s ((s.took.localWrite c off (bytesOf n data)).complete c k u 4) (localBase c + off) (leBytes n data.toNat) := by
  refine ⟨passed_complete 4 hn fun d i => strand_localWrite s.took c off _ d i, ?_⟩
  rw [bytesOf, toBytes_eq_leBytes]
  exact h.took.stored (length_leBytes _ _)

theorem localLoads : LocalLoads := by
  intro o z u a d m s c k off
  refine ⟨fun h hd h0 hl => ?_, fun h hl => ?_, fun h h0 hm hp hl => ?_⟩
  · refine ⟨_, exec_ld h h0 o z u, ?_⟩
    rw [hl.took.loadBody, deliver_x h0, leBits, leNat_read]
    exact resultLater_produce _ 0 3 (usesAre_r u a d).nf hd
  · refine ⟨_, exec_touch h o z u, ?_⟩
    rw [touchBody, hl.took.loadBody]
    exact ⟨passed_complete 4 (usesAre_r u a 0#6).nf fun _ _ => rfl,
      elsewhere_mono (elsewhere_trans (elsewhere_took s c) (elsewhere_complete s.took c k _ 4)) fun _ h => h⟩
  · refine ⟨_, exec_ldM h hm u, ?_⟩
    rw [hl.took.loadBody, deliver_m h0, leBits, leNat_read]
    exact maskLater_produceM _ _ h0 hp

theorem localStores : LocalStores := by
  intro o z v u a r m s c k off
  refine ⟨fun h hl hs => ?_, fun h hm hl hs => ?_⟩
  · have low : (((s.strand c k).rx r).setWidth 128).toNat = ((s.strand c k).rx r).toNat := by
      rw [BitVec.toNat_setWidth]
      exact Nat.mod_eq_of_lt (Nat.lt_of_lt_of_le ((s.strand c k).rx r).isLt (by decide))
    refine ⟨_, exec_st h o z v u, ?_⟩
    rw [hl.took.storeBody hs, ← low]
    exact passed_and_stored hl (usesAre_st v u a r).nf _
  · refine ⟨_, exec_stM h hm u, ?_⟩
    rw [hl.took.storeBody hs]
    exact passed_and_stored hl (readsNf_stM u a m [a]) _

/-- A misaligned load faults before anything else (R209, R211). -/
theorem loadBody_misaligned {va : BitVec 48} {n : Nat} (h : va.toNat % n ≠ 0) (kind : ReqKind) (d : Dest) (c : CoreId) (k : StrandId)
    (s : State) : loadBody kind n d va c k s = .fault { cls := 10, addr := va.setWidth 64 } := if_pos h

/-- So does a misaligned store of a task that may make it. -/
theorem storeBody_misaligned {va : BitVec 48} {n : Nat} (h : va.toNat % n ≠ 0) (kind : ReqKind) (slk sz : Nat) (data : BitVec 128)
    {c : CoreId} {k : StrandId} {s : State} (ho : (s.strand c k).opt = false) :
    storeBody kind slk sz n data va c k s = .fault { cls := 10, addr := va.setWidth 64 } := by
  simp only [storeBody, ho, Bool.false_and, Bool.false_eq_true, if_false]
  exact if_pos h

/-- An optimistic task may not store outside its own scratch (R208). -/
theorem storeBody_irrevocable {va : BitVec 48} {n : Nat} (kind : ReqKind) (slk sz : Nat) (data : BitVec 128) {c : CoreId} {k : StrandId}
    {s : State} (ho : (s.strand c k).opt = true) (hs : s.inScratch c k va n = false) :
    storeBody kind slk sz n data va c k s = .fault { cls := 18 } := by
  simp only [storeBody, ho, hs, Bool.not_false, Bool.and_self, if_true]
  rfl

theorem accessFaults : AccessFaults := by
  intro o z v u a r m s c k
  refine ⟨fun h h0 hva => ?_, fun h ho hva => ?_, fun h hm hma => ⟨?_, fun ho => ?_⟩, fun h ho hs => ?_⟩
  · refine ⟨_, exec_ld h h0 o z u, ?_⟩
    rw [loadBody_misaligned hva]
    exact takesFault_settle s c k _ 4 _
  · refine ⟨_, exec_st h o z v u, ?_⟩
    rw [storeBody_misaligned (s := s.took) hva _ _ _ _ ho]
    exact takesFault_settle s c k _ 4 _
  · refine ⟨_, exec_ldM h hm u, ?_⟩
    rw [loadBody_misaligned hma]
    exact takesFault_settle s c k _ 4 _
  · refine ⟨_, exec_stM h hm u, ?_⟩
    rw [storeBody_misaligned (s := s.took) hma _ _ _ _ ho]
    exact takesFault_settle s c k _ 4 _
  · refine ⟨_, exec_st h o z v u, ?_⟩
    rw [storeBody_irrevocable (s := s.took) _ _ _ _ ho hs]
    exact takesFault_settle s c k _ 4 _

/-- Settles O14: loads and touches of the own local memory, stores to it, and the faults of misaligned and irrevocable accesses. -/
theorem localAccesses : Obligations.LocalAccesses := ⟨localLoads, localStores, accessFaults⟩

end Sys2Proof

/-! ## Checks 3 and 5 of the two-source INT instructions (spec/06_encoding.md R119, spec/07_issue.md R131) -/

namespace Sys2Proof

open Machine

/-- Every two-source INT instruction names its two sources and its destination, and issues without a check 4. -/
theorem exec_of_mem_intInstrs {w u : Bool} {b a d : XReg} {i : Instr} (h : i ∈ intInstrs w u b a d) :
    ∃ body, ∀ s, exec i s = issue 4 { names := [a, b, d], srcs := [sx a u, sx b w], dsts := [d] } body s := by
  simp only [intInstrs, List.mem_cons, List.not_mem_nil, or_false] at h
  rcases h with rfl | rfl | rfl | rfl | rfl | rfl | rfl | rfl | rfl | rfl | rfl | rfl | rfl | rfl | rfl | rfl | rfl | rfl | rfl | rfl | rfl |
    rfl | rfl | rfl | rfl <;> exact ⟨_, fun _ => rfl⟩

/-- Check 3 comes before everything else. -/
theorem issue_illegal {s : State} {c : CoreId} {k : StrandId} {u : Uses} (ho : s.offer = some (c, k))
    (hl : u.legal (s.launchOf (s.strand c k)).nreg = false) (len : Nat) (body : Body') :
    issue len u body s = .next (s.took.raise c k { cls := 2 }) := by
  unfold issue
  rw [issuePre_next ho]
  simp only [State.issueAt, State.strand_took, State.launchOf_took, hl, Bool.not_false, if_true]
  rfl

/-- Check 5, an empty source with W = 1, comes after check 3. -/
theorem issue_emptyFault {s : State} {c : CoreId} {k : StrandId} {u : Uses} (ho : s.offer = some (c, k))
    (hl : u.legal (s.launchOf (s.strand c k)).nreg = true) (he : u.emptyFault (s.strand c k) = true) (len : Nat) (body : Body') :
    issue len u body s = .next (s.took.raise c k { cls := 4 }) := by
  unfold issue
  rw [issuePre_next ho]
  simp only [State.issueAt, State.strand_took, State.launchOf_took, hl, he, Bool.not_true, Bool.false_eq_true, if_true, if_false]
  rfl

/-- Where both checks pass, the first empty source parks the strand (R131). -/
theorem issue_parks {s : State} {c : CoreId} {k : StrandId} {u : Uses} {x : Src} (ho : s.offer = some (c, k))
    (hl : u.legal (s.launchOf (s.strand c k)).nreg = true) (he : u.emptyFault (s.strand c k) = false)
    (hf : u.srcs.find? (fun x => !(s.strand c k).full x.1) = some x) (len : Nat) (body : Body') :
    issue len u body s = .next (s.took.parkStrand c k (.reg x.1)) := by
  have hp : s.took.parks c k u = some (.reg x.1) := by
    simp only [State.parks, State.strand_took, hf]
  unfold issue
  rw [issuePre_next ho]
  simp only [State.issueAt, State.strand_took, State.launchOf_took, hl, he, hp, Bool.not_true, Bool.false_eq_true, if_false]

/-- Registers that all exist pass check 3. -/
theorem legal_of_forall {u : Uses} {n : Nat} (h : ∀ r ∈ u.names, r = 63#6 ∨ r.toNat ≤ n) : u.legal n = true := by
  simpa only [Uses.legal, List.all_eq_true, Bool.or_eq_true, beq_iff_eq, decide_eq_true_eq] using h

theorem illegalRegister : IllegalRegister := by
  rintro w u b a d s c k ho ⟨r, hr, h63, hn⟩ i hi
  obtain ⟨body, he⟩ := exec_of_mem_intInstrs hi
  refine ⟨_, (he s).trans (issue_illegal ho ?_ 4 body), takesFault_raise s c k _⟩
  simp only [Uses.legal, List.all_eq_false, Bool.or_eq_true, beq_iff_eq, decide_eq_true_eq]
  refine ⟨r, by simpa using hr, ?_⟩
  rintro (rfl | h)
  · exact h63 rfl
  · omega

theorem emptySources : EmptySources := by
  intro w u b a d s c k ho hl i hi
  obtain ⟨body, he⟩ := exec_of_mem_intInstrs hi
  have legal : (Uses.mk [a, b, d] [sx a u, sx b w] [d] [] []).legal (s.launchOf (s.strand c k)).nreg = true :=
    legal_of_forall fun r hr => hl r (by simpa using hr)
  refine ⟨fun h => ?_, fun r hr hf ⟨hw, hu⟩ => ?_⟩
  · refine ⟨_, (he s).trans (issue_emptyFault ho legal ?_ 4 body), takesFault_raise s c k _⟩
    simpa [Uses.emptyFault, sx] using h
  · have passes : (Uses.mk [a, b, d] [sx a u, sx b w] [d] [] []).emptyFault (s.strand c k) = false := by
      simpa [Uses.emptyFault, sx] using And.intro hu hw
    have first : ∃ v, [sx a u, sx b w].find? (fun x => !(s.strand c k).full x.1) = some (.x r, v) := by
      rcases hr with ⟨-, rfl⟩ | ⟨-, rfl, ha⟩
      · exact ⟨u, by simp [sx, hf]⟩
      · exact ⟨w, by simp [sx, ha, hf]⟩
    obtain ⟨v, first⟩ := first
    refine ⟨_, (he s).trans (issue_parks ho legal passes first 4 body), ?_, ?_⟩
    · exact State.strand_updStrand_same s.took c k _
    · exact elsewhere_trans (elsewhere_took s c) (elsewhere_updStrand s.took c k _)

/-- Settles O9: check 3 faults an INT instruction that names a register above NREG, check 5 faults or parks one with an empty source. -/
theorem registerChecks : Obligations.RegisterChecks := ⟨illegalRegister, emptySources⟩

end Sys2Proof

/-! ## Messages and requests that leave, and what they do not touch (spec/14_network.md R305 to R314, spec/16_consistency.md R330) -/

namespace Sys2Proof.Machine

/-- A relation between states that every step of a fold keeps holds over the fold. -/
theorem foldl_keeps {α : Type} {R : State → State → Prop} (refl : ∀ s, R s s) (trans : ∀ {s t u}, R s t → R t u → R s u) {f : State → α → State}
    (step : ∀ s x, R s (f s x)) (l : List α) : ∀ s, R s (l.foldl f s) := by
  induction l with
  | nil => exact refl
  | cons x r ih => exact fun s => trans (step s x) (ih _)

/-- Messages have been given to routers, pool entries freed and steps put on the agenda; nothing else of the machine has changed. -/
structure Sends (s t : State) : Prop where
  rest : { t with agenda := s.agenda, nextId := s.nextId, clusters := s.clusters, msgs := s.msgs } = s
  agenda : ∀ e ∈ s.agenda, e ∈ t.agenda
  cluster : ∀ cl, { t.cluster cl with inj := (s.cluster cl).inj, pools := (s.cluster cl).pools } = s.cluster cl

theorem Sends.refl (s : State) : Sends s s := ⟨rfl, fun _ h => h, fun _ => rfl⟩

theorem Sends.trans {s t u : State} (h : Sends s t) (g : Sends t u) : Sends s u where
  rest := by
    have h1 := h.rest
    have h2 := g.rest
    rw [← h1, ← h2]
  agenda e he := g.agenda e (h.agenda e he)
  cluster cl := by
    have h1 := h.cluster cl
    have h2 := g.cluster cl
    rw [← h1, ← h2]

theorem Sends.core {s t : State} (h : Sends s t) (d : CoreId) : t.core d = s.core d := by
  have r := h.rest
  rw [← r]
  rfl

theorem Sends.job {s t : State} (h : Sends s t) (j : JobId) : t.job j = s.job j := by
  have r := h.rest
  rw [← r]
  rfl

theorem Sends.mem {s t : State} (h : Sends s t) : t.mem = s.mem := (congrArg State.mem h.rest :)
theorem Sends.now {s t : State} (h : Sends s t) : t.now = s.now := (congrArg State.now h.rest :)
theorem Sends.devnum {s t : State} (h : Sends s t) : t.devnum = s.devnum := (congrArg State.devnum h.rest :)

theorem Sends.push (s : State) (n : Nat) (i : Instr) (x : StepArg) : Sends s (s.push n i x) :=
  ⟨rfl, fun _ h => State.mem_agenda_push.2 (.inr h), fun _ => rfl⟩

theorem Sends.bumpId (s : State) : Sends s s.bumpId := ⟨rfl, fun _ h => h, fun _ => rfl⟩

theorem Sends.inject (s : State) (n : Nat) (m : Msg) : Sends s (s.inject n m) := by
  unfold State.inject
  split
  · exact ⟨rfl, fun _ h => State.mem_agenda_push.2 (.inr h), fun _ => rfl⟩
  · refine ⟨rfl, fun _ h => h, fun cl => ?_⟩
    rw [State.cluster_updCluster]
    split
    · subst cl; rfl
    · rfl

theorem Sends.sendNew (s : State) (m : Msg) : Sends s (s.sendNew m) := (Sends.inject s _ _).trans (Sends.bumpId _)

theorem Sends.sendParts (s : State) (n : Nat) (m : Msg) : Sends s (s.sendParts n m) :=
  foldl_keeps Sends.refl Sends.trans (fun s _ => Sends.sendNew s _) _ s

theorem Sends.launchReq (s : State) (r : Req) : Sends s (s.launchReq r) := by
  unfold State.launchReq
  dsimp only
  split
  · exact (Sends.inject s _ _).trans (Sends.sendParts _ _ _)
  · exact Sends.inject s _ _

/-- A core has given out requests and task messages: of its own parts only its requests, its data cache and its send buffer may differ, of the rest
of the machine what `Sends` names. -/
structure SendsFrom (s t : State) (c : CoreId) : Prop where
  rest : { t with agenda := s.agenda, nextId := s.nextId, clusters := s.clusters, msgs := s.msgs, cores := s.cores } = s
  agenda : ∀ e ∈ s.agenda, e ∈ t.agenda
  cluster : ∀ cl, { t.cluster cl with inj := (s.cluster cl).inj, pools := (s.cluster cl).pools } = s.cluster cl
  core : { t.core c with reqs := (s.core c).reqs, dcache := (s.core c).dcache, sendBuf := (s.core c).sendBuf } = s.core c
  cores : ∀ d, d ≠ c → t.core d = s.core d

theorem Sends.from {s t : State} (h : Sends s t) (c : CoreId) : SendsFrom s t c where
  rest := by
    have r := h.rest
    rw [← r]
  agenda := h.agenda
  cluster := h.cluster
  core := by rw [h.core c]
  cores d _ := h.core d

theorem SendsFrom.refl (s : State) (c : CoreId) : SendsFrom s s c := (Sends.refl s).from c

theorem SendsFrom.trans {s t u : State} {c : CoreId} (h : SendsFrom s t c) (g : SendsFrom t u c) : SendsFrom s u c where
  rest := by
    have h1 := h.rest
    have h2 := g.rest
    rw [← h1, ← h2]
  agenda e he := g.agenda e (h.agenda e he)
  cluster cl := by
    have h1 := h.cluster cl
    have h2 := g.cluster cl
    rw [← h1, ← h2]
  core := by
    have h1 := h.core
    have h2 := g.core
    rw [← h1, ← h2]
  cores d hd := (g.cores d hd).trans (h.cores d hd)

theorem SendsFrom.job {s t : State} {c : CoreId} (h : SendsFrom s t c) (j : JobId) : t.job j = s.job j := by
  have r := h.rest
  rw [← r]
  rfl

theorem SendsFrom.launch {s t : State} {c : CoreId} (h : SendsFrom s t c) (j : JobId) (l : Lslot) : t.launch j l = s.launch j l :=
  congrArg (Job.launch · l) (h.job j)

theorem SendsFrom.strand {s t : State} {c : CoreId} (h : SendsFrom s t c) (d : CoreId) (n : StrandId) : t.strand d n = s.strand d n := by
  unfold State.strand
  by_cases hd : d = c
  · subst hd
    exact (congrArg (fun v : Core => v.strand n) h.core :)
  · rw [h.cores d hd]

theorem SendsFrom.mem {s t : State} {c : CoreId} (h : SendsFrom s t c) : t.mem = s.mem := (congrArg State.mem h.rest :)
theorem SendsFrom.now {s t : State} {c : CoreId} (h : SendsFrom s t c) : t.now = s.now := (congrArg State.now h.rest :)
theorem SendsFrom.devnum {s t : State} {c : CoreId} (h : SendsFrom s t c) : t.devnum = s.devnum := (congrArg State.devnum h.rest :)
theorem SendsFrom.seq {s t : State} {c : CoreId} (h : SendsFrom s t c) : (t.core c).seq = (s.core c).seq := (congrArg Core.seq h.core :)
theorem SendsFrom.rings {s t : State} {c : CoreId} (h : SendsFrom s t c) : (t.core c).rings = (s.core c).rings := (congrArg Core.rings h.core :)
theorem SendsFrom.queue {s t : State} {c : CoreId} (h : SendsFrom s t c) : (t.core c).queue = (s.core c).queue := (congrArg Core.queue h.core :)
theorem SendsFrom.spill {s t : State} {c : CoreId} (h : SendsFrom s t c) : (t.core c).spill = (s.core c).spill := (congrArg Core.spill h.core :)

/-- A change of requests, data cache and send buffer alone. -/
theorem SendsFrom.updCore (s : State) (c : CoreId) {f : Core → Core}
    (hf : ∀ v, { f v with reqs := v.reqs, dcache := v.dcache, sendBuf := v.sendBuf } = v) : SendsFrom s (s.updCore c f) c where
  rest := rfl
  agenda _ h := h
  cluster _ := rfl
  core := by rw [State.core_updCore_same]; exact hf _
  cores d hd := by rw [State.core_updCore, if_neg hd]

theorem SendsFrom.request (s : State) {r : Req} {c : CoreId} (hr : r.core = c) : SendsFrom s (s.request r) c := by
  subst hr
  have listed := ((Sends.bumpId s).from r.core).trans
    (SendsFrom.updCore s.bumpId r.core (f := fun v => { v with reqs := v.reqs ++ [{ r with id := s.nextId }] }) fun _ => rfl)
  unfold State.request
  dsimp only
  split
  · exact listed.trans ((Sends.launchReq _ _).from r.core)
  · exact listed

/-- A request stands last among those of its core. -/
theorem core_request (s : State) {r : Req} {c : CoreId} (hr : r.core = c) : (s.request r).core c =
    { s.core c with reqs := (s.core c).reqs ++ [{ r with id := s.nextId }] } := by
  subst hr
  have listed : (s.bumpId.updCore r.core fun v => { v with reqs := v.reqs ++ [{ r with id := s.nextId }] }).core r.core =
      { s.core r.core with reqs := (s.core r.core).reqs ++ [{ r with id := s.nextId }] } := State.core_updCore_same _ _ _
  unfold State.request
  dsimp only
  split
  · rw [(Sends.launchReq _ _).core]
    exact listed
  · exact listed

theorem SendsFrom.cleanLine (s : State) (c : CoreId) (k : StrandId) (kind : ReqKind) (slot : Bool) (d : DLine) :
    SendsFrom s (s.cleanLine c k kind slot d) c ∧ ((s.cleanLine c k kind slot d).core c).sendBuf = (s.core c).sendBuf := by
  have cleaned := SendsFrom.updCore s c (f := fun v => (v.dset { d with dirty := 0 }).outdate d.line) fun _ => rfl
  have buf : ((s.updCore c fun v => (v.dset { d with dirty := 0 }).outdate d.line).core c).sendBuf = (s.core c).sendBuf :=
    (congrArg Core.sendBuf (State.core_updCore_same s c _)).trans rfl
  unfold State.cleanLine
  generalize s.updCore c (fun v => (v.dset { d with dirty := 0 }).outdate d.line) = u at cleaned buf ⊢
  exact ⟨cleaned.trans (SendsFrom.request u rfl), (congrArg Core.sendBuf (core_request u rfl)).trans buf⟩

/-- The write-backs before a release leave the send buffer as it is (R330, R336). -/
theorem SendsFrom.beforeRelease (s : State) (c : CoreId) (k : StrandId) :
    SendsFrom s (s.beforeRelease c k).1 c ∧ (((s.beforeRelease c k).1).core c).sendBuf = (s.core c).sendBuf := by
  unfold State.beforeRelease
  exact foldl_keeps (R := fun s t => SendsFrom s t c ∧ (t.core c).sendBuf = (s.core c).sendBuf) (fun s => ⟨SendsFrom.refl s c, rfl⟩)
    (fun h g => ⟨h.1.trans g.1, g.2.trans h.2⟩) (fun s d => SendsFrom.cleanLine s c k _ _ d) _ s

theorem SendsFrom.enterSend (s : State) (c : CoreId) (k : StrandId) (q : QEntry) (to' : Option CoreId) (ids : List Nat) :
    SendsFrom s (s.enterSend c k q to' ids) c ∧
      ((s.enterSend c k q to' ids).core c).sendBuf = (s.core c).sendBuf ++ [{ m := s.nextId, t := q, strand := k, to' := to', after := ids }] := by
  have entered := ((Sends.bumpId s).from c).trans (SendsFrom.updCore s.bumpId c
    (f := fun v => { v with sendBuf := v.sendBuf ++ [{ m := s.nextId, t := q, strand := k, to' := to', after := ids }] }) fun _ => rfl)
  have buf := congrArg Core.sendBuf (State.core_updCore_same s.bumpId c
    fun v => { v with sendBuf := v.sendBuf ++ [{ m := s.nextId, t := q, strand := k, to' := to', after := ids }] })
  unfold State.enterSend
  dsimp only
  split
  · exact ⟨entered.trans ((Sends.push _ _ _ _).from c), buf⟩
  · exact ⟨entered, buf⟩

/-- A task message of a strand stands last in the send buffer of its core (R421). -/
theorem SendsFrom.sendTask (s : State) (c : CoreId) (k : StrandId) (q : QEntry) (to' : Option CoreId) :
    SendsFrom s (s.sendTask c k q to') c ∧ ∃ e, ((s.sendTask c k q to').core c).sendBuf = (s.core c).sendBuf ++ [e] ∧ e.t = q ∧ e.strand = k := by
  obtain ⟨released, kept⟩ := SendsFrom.beforeRelease s c k
  obtain ⟨entered, buf⟩ := SendsFrom.enterSend (s.beforeRelease c k).1 c k q to' (s.beforeRelease c k).2
  exact ⟨released.trans entered, _, buf.trans (by rw [kept]), rfl, rfl⟩

end Sys2Proof.Machine

/-! ## Instructions whose body completes, issues, waits or faults (spec/06_encoding.md R119) -/

namespace Sys2Proof

open Machine

section

variable {s t : State} {c : CoreId} {k : StrandId} {srcs dsts : List XReg} {u : Uses} {body : Body'}

theorem CanIssue.completes (h : CanIssue s c k srcs dsts) (hu : UsesAre u srcs dsts) (len : Nat) (hb : body c k s.took = .done t) :
    Machine.issue len u body s = .next (t.complete c k u len) := by rw [h.issue hu, hb]; rfl

theorem CanIssue.issues (h : CanIssue s c k srcs dsts) (hu : UsesAre u srcs dsts) (len : Nat) (hb : body c k s.took = .issued t) :
    Machine.issue len u body s = .next (t.markIssued c k u) := by rw [h.issue hu, hb]; rfl

theorem CanIssue.faults {f : Fault'} (h : CanIssue s c k srcs dsts) (hu : UsesAre u srcs dsts) (len : Nat) (hb : body c k s.took = .fault f) :
    Machine.issue len u body s = .next (s.took.raise c k f) := by rw [h.issue hu, hb]; rfl

end

/-- The parts of a core other than its strands, and the jobs, where only strands have changed. -/
theorem Elsewhere.core_eq {α : Type} {f : Core → α} (hf : ∀ v n, f { v with strands := n } = f v) {s t : State} {c : CoreId} {ks : List StrandId}
    (h : Elsewhere s t c ks) (d : CoreId) : f (t.core d) = f (s.core d) := by rw [← hf (t.core d) (s.core d).strands, h.cores d]

theorem Elsewhere.job {s t : State} {c : CoreId} {ks : List StrandId} (h : Elsewhere s t c ks) (j : JobId) : t.job j = s.job j := by
  have r := h.rest
  rw [← r]
  rfl

theorem Elsewhere.launch {s t : State} {c : CoreId} {ks : List StrandId} (h : Elsewhere s t c ks) (j : JobId) (l : Lslot) :
    t.launch j l = s.launch j l := congrArg (Job.launch · l) (h.job j)

/-- No sources and no destinations. -/
theorem usesAre_none : UsesAre {} [] [] := ⟨by simp, by simp, rfl, rfl, rfl, rfl⟩

/-- One source. -/
theorem usesAre_src (u : Bool) (a : XReg) : UsesAre { names := [a], srcs := [sx a u] } [a] [] where
  names _ hr := .inl hr
  srcs := (usesAre_r u a 0#6).srcs
  dsts := rfl
  dregs := rfl
  accs := rfl
  nf := (usesAre_r u a 0#6).nf

end Sys2Proof

/-! ## Counters of launches and jobs (spec/01_work.md R27 to R29, spec/24_retire.md R414) -/

namespace Sys2Proof.Machine

theorem State.launch_updJob {f : Job → Job} (hf : ∀ v, (f v).launches = v.launches) (s : State) (i j : JobId) (l : Lslot) :
    (s.updJob j f).launch i l = s.launch i l := by
  unfold State.launch Job.launch
  rw [State.job_updJob]
  split
  · subst i
    rw [hf]
  · rfl

theorem State.launch_updLaunch (s : State) (j : JobId) (l m : Lslot) (f : Launch → Launch) :
    (s.updLaunch j l f).launch j m = if m = l then f (s.launch j l) else s.launch j m := by
  unfold State.launch State.updLaunch Job.launch
  rw [State.job_updJob_same, Tab.get_put]
  simp only [BitVec.toNat_inj]

theorem State.launch_updLaunch_same (s : State) (j : JobId) (l : Lslot) (f : Launch → Launch) :
    (s.updLaunch j l f).launch j l = f (s.launch j l) := (s.launch_updLaunch j l l f).trans (if_pos rfl)

/-- A task that is created counts in its launch. -/
theorem State.launch_born (s : State) (j : JobId) (l : Lslot) (vt : Word) :
    (s.born j l vt).launch j l = { s.launch j l with count := (s.launch j l).count + 1 } := by
  refine (State.launch_updJob (fun v => ?_) _ j j l).trans (State.launch_updLaunch_same s j l _)
  split <;> rfl

/-- A retirement counts in its launch and in its job, and leaves the counter of live tasks. -/
theorem State.launch_countRetired (s : State) (j : JobId) (l : Lslot) (vt : Word) :
    (s.countRetired j l vt).launch j l = { s.launch j l with c := (s.launch j l).c.retire } := by
  refine (State.launch_updJob ?_ _ j j l).trans (State.launch_updLaunch_same s j l _)
  exact fun _ => rfl

@[simp] theorem State.core_countRetired (s : State) (j : JobId) (l : Lslot) (vt : Word) (c : CoreId) :
    (s.countRetired j l vt).core c = s.core c := rfl

theorem State.retired_countRetired (s : State) (j : JobId) (l : Lslot) (vt : Word) :
    ((s.countRetired j l vt).job j).c.retired = (s.job j).c.retired + 1 := by
  refine (congrArg (fun v : Job => v.c.retired) (State.job_updJob_same _ j _)).trans ?_
  exact (congrArg (fun v : Job => v.c.retired + 1) (State.job_updJob_same s j _)).trans rfl

end Sys2Proof.Machine

/-! ## The end of a run (spec/08_isa_scalar.md R161) -/

namespace Sys2Proof.Machine

/-- A strand whose run has ended: idle, with no task and no iteration state. -/
def Strand.idled (t : Strand) : Strand :=
  { t with st := .idle, park := .none, held := .none, task := none, cur := 0, endv := 0, buf := [], ann := 0, marked := [], froze := none,
           walked := none, waitTill := none, killAt := none, rollAt := none, waitNf := false }

/-- Where no stopped transposing TLOAD has left a slot FILLING, the end of a run changes the strand alone. -/
theorem State.endRun_of_none {s : State} {c : CoreId} {k : StrandId} (h : (s.core c).leftFilling k = []) :
    s.endRun c k = s.updStrand c k Strand.idled := by
  have none : s.dropTranspose c k = s := by
    simp only [State.dropTranspose, h, List.foldl_nil]
  unfold State.endRun
  rw [none]
  rfl

/-- The slots that stopped transposing TLOADs left are a matter of tiles, copies and matrix commands. -/
theorem leftFilling_congr {v w : Core} (ht : w.tiles = v.tiles) (hc : w.copies = v.copies) (hq : w.mq = v.mq) (hr : w.mrun = v.mrun)
    (k : StrandId) : w.leftFilling k = v.leftFilling k := by
  simp only [Core.leftFilling, ht, hc, hq, hr]

theorem SendsFrom.leftFilling {s t : State} {c : CoreId} (h : SendsFrom s t c) (k : StrandId) :
    (t.core c).leftFilling k = (s.core c).leftFilling k :=
  leftFilling_congr (congrArg Core.tiles h.core :) (congrArg Core.copies h.core :) (congrArg Core.mq h.core :) (congrArg Core.mrun h.core :) k

/-- Registers that hold no error are arguments that can be read (R388). -/
theorem State.badArg_of_none {s : State} {c : CoreId} {k : StrandId} (h : (s.strand c k).badX = []) : s.badArg c k = none := by
  simp [State.badArg, h]

end Sys2Proof.Machine

namespace Sys2Proof

open Machine

/-- A strand whose issue is recorded, its own slot emptied where the instruction read nf (R127, R133). -/
def Machine.Strand.marks (a : Strand) (now : Nat) (nf : Bool) : Strand :=
  let b := { a with last := now, issued := true, marked := [], walked := none, wants := 0 }
  if nf then b.setF (.x 63#6) false else b

theorem Machine.State.markIssued_eq (s : State) (c : CoreId) (k : StrandId) (u : Uses) :
    s.markIssued c k u = s.updStrand c k fun a => a.marks s.cycle u.readsNf := rfl

/-- A run has ended where its strand is idle and no other strand nor a byte of memory has changed. -/
theorem runEnded_of {s t : State} {c : CoreId} {k : StrandId} {now : Nat} {nf : Bool}
    (own : t.strand c k = (s.strand c k).idled.marks now nf) (others : ∀ e n, ¬(e = c ∧ n = k) → t.strand e n = s.strand e n)
    (mem : t.mem = s.mem) : RunEnded s t c k where
  idle := by
    rw [own]
    cases nf <;> exact ⟨rfl, rfl, rfl, rfl, rfl⟩
  regs r _ := by
    rw [own]
    cases nf <;> rfl
  others := others
  memory a := by rw [mem]

/-- The end of a run as the last thing that an instruction does. -/
theorem runEnded_endRun {s t : State} {c : CoreId} {k : StrandId} (u : Uses) (left : (t.core c).leftFilling k = [])
    (strands : ∀ d n, t.strand d n = s.strand d n) (mem : t.mem = s.mem) :
    RunEnded s ((t.endRun c k).markIssued c k u) c k ∧ Elsewhere t ((t.endRun c k).markIssued c k u) c [k] := by
  rw [State.endRun_of_none left, State.markIssued_eq, State.updStrand_updStrand]
  refine ⟨runEnded_of (now := (t.updStrand c k Strand.idled).cycle) (nf := u.readsNf) ?_ (fun d n hn => ?_) mem, elsewhere_updStrand t c k _⟩
  · rw [State.strand_updStrand_same, strands]
  · rw [State.strand_updStrand_ne t _ hn, strands]

/-- The arguments that a record takes are those of the statements (R161). -/
theorem argsOf_eq (s : State) (c : CoreId) (k : StrandId) : s.argsOf c k = argWords s c k := rfl

/-- The lowest of x1 to x6 that cannot be read is the one that the fault names (R388). -/
theorem badArg_of_first {s : State} {c : CoreId} {k : StrandId} {n : Nat} (h : FirstBadArg s c k n) :
    s.badArg c k = some { cls := 13, info := BitVec.ofNat 16 n } := by
  obtain ⟨pos, le, reg, bad, first⟩ := h
  obtain ⟨m, rfl⟩ : ∃ m, n = m + 1 := ⟨n - 1, by omega⟩
  have found : (List.range 6).find? (fun n => decide (n + 1 ≤ (s.launchOf (s.strand c k)).nreg) && (s.strand c k).badX.contains (n + 1)) =
      some m := by
    rw [List.find?_range_eq_some]
    refine ⟨by simp [reg, bad], by simp; omega, fun j hj => ?_⟩
    simp [first (j + 1) (by omega) (by omega)]
  unfold State.badArg
  dsimp only
  rw [List.head?_filter, found]
  rfl

end Sys2Proof

/-! ## Task messages that SPAWN, SPAWNA and MIGRATE send (spec/08_isa_scalar.md R158 to R160, spec/05_placement.md R421) -/

namespace Sys2Proof

open Machine

/-- SPAWN and SPAWNA name their two sources and the six argument registers. -/
theorem usesAre_spawn (w u : Bool) (b a d : XReg) :
    UsesAre { names := [a, b] ++ argRegs d, srcs := [sx a u, sx b w] ++ (argRegs d).map fun r => s0 (.x r) } ([a, b] ++ argRegs d) [] where
  names _ hr := .inl hr
  srcs x hx := by
    simp only [List.mem_append, List.mem_map] at hx
    rcases hx with hx | ⟨r, hr, rfl⟩
    · simp only [List.mem_cons, List.not_mem_nil, or_false, sx] at hx
      rcases hx with rfl | rfl
      · exact ⟨a, by simp, rfl⟩
      · exact ⟨b, by simp, rfl⟩
    · exact ⟨r, List.mem_append_right _ hr, rfl⟩
  dsts := rfl
  dregs := rfl
  accs := rfl
  nf := by
    have member : ∀ r : XReg, (RegRef.x r == RegRef.x 63#6) = decide (63#6 = r) := by
      intro r
      rw [Bool.eq_iff_iff, beq_iff_eq, decide_eq_true_eq, RegRef.x.injEq, eq_comm]
    simp only [Uses.readsNf, List.any_append, List.any_map, List.any_cons, List.any_nil, sx, s0, Function.comp_def, member, Bool.or_false]
    rw [Bool.eq_iff_iff]
    simp [or_assoc]

/-- The state in which SPAWN or SPAWNA has counted its task, with the next sequence number taken (R18, R29). -/
def Machine.State.counted (s : State) (c : CoreId) (j : JobId) (l : Lslot) (vt : Word) : State :=
  (s.born j l vt).updCore c fun v => { v with seq := v.seq + 1 }

theorem strand_counted (s : State) (c : CoreId) (j : JobId) (l : Lslot) (vt : Word) (d : CoreId) (n : StrandId) :
    (s.counted c j l vt).strand d n = s.strand d n :=
  strand_updCore_of_strands (f := fun v => { v with seq := v.seq + 1 }) (fun _ => rfl) (s.born j l vt) c d n

theorem core_counted (s : State) (c : CoreId) (j : JobId) (l : Lslot) (vt : Word) :
    (s.counted c j l vt).core c = { s.core c with seq := (s.core c).seq + 1 } := State.core_updCore_same (s.born j l vt) c _

theorem launch_counted (s : State) (c : CoreId) (j : JobId) (l : Lslot) (vt : Word) :
    (s.counted c j l vt).launch j l = { s.launch j l with count := (s.launch j l).count + 1 } := State.launch_born s j l vt

/-- The launch that a SPAWN or SPAWNA joins, and the arguments that it passes (R159). -/
def spawnLaunch (t : Strand) (a : XReg) : Lslot := if (t.rx a).getLsbD 0 then (t.rx a).extractLsb' 48 16 else t.lslot
def spawnArgs (t : Strand) (d : XReg) : List Word := if d = 0 then [0, 0, 0, 0, 0, 0] else (argRegs d).map t.rx

theorem spawnArgs_eq (t : Strand) (d : XReg) : spawnArgs t d =
    if d = 0#6 then List.replicate 6 0#64 else (List.range 6).map fun n => t.rx (d + BitVec.ofNat 6 n) := by
  unfold spawnArgs
  by_cases h0 : d = 0#6
  · exact (if_pos h0).trans (if_pos h0).symm
  · have regs : argRegs d = (List.range 6).map fun n => d + BitVec.ofNat 6 n := if_neg h0
    rw [regs, List.map_map]
    exact (if_neg h0).trans (if_neg h0).symm

/-- The record of a task that SPAWN or SPAWNA sends. -/
def spawned (s : State) (c : CoreId) (k : StrandId) (kind : BitVec 6) (b a d : XReg) : Task :=
  let t := s.strand c k
  { odev := s.devnum, origin := c, seq := (s.core c).seq, kind := kind, job := t.job, opt := (s.launch t.job (spawnLaunch t a)).opt,
    dest := if kind = 0x11#6 then vaOf ((spawnArgs t d).headD 0) else 0, lslot := spawnLaunch t a, pc := vaOf (t.rx a) &&& ~~~1#48, vt := t.rx b,
    args := spawnArgs t d }

/-- SPAWN and SPAWNA of a conservative task count and send it, and complete. -/
theorem opSpawn_conservative {w u : Bool} {b a d : XReg} {s : State} {c : CoreId} {k : StrandId} (kind : BitVec 6)
    (h : CanIssue s c k ([a, b] ++ argRegs d) []) (ho : (s.strand c k).opt = false)
    (hl : (s.job (s.strand c k).job).live (spawnLaunch (s.strand c k) a) = true)
    (hlo : (s.launch (s.strand c k).job (spawnLaunch (s.strand c k) a)).opt = false) (hvt : (s.strand c k).vt ≤ (s.strand c k).rx b)
    (hseq : s.seqFree c = true) (hroom : (s.core c).sendRoom = true) :
    ∃ t e, opSpawn kind w u b a d s = .next (t.complete c k
        { names := [a, b] ++ argRegs d, srcs := [sx a u, sx b w] ++ (argRegs d).map fun r => s0 (.x r) } 4) ∧
      SendsFrom (s.took.counted c (s.strand c k).job (spawnLaunch (s.strand c k) a) ((s.strand c k).rx b)) t c ∧
      (t.core c).sendBuf = (s.core c).sendBuf ++ [e] ∧ e.strand = k ∧ e.t = { t := spawned s c k kind b a d, pinned := kind == 0x11#6 } := by
  have live : ¬(!(s.job (s.strand c k).job).live (spawnLaunch (s.strand c k) a)) = true := by simp [hl]
  have finite : ¬((s.launch (s.strand c k).job (spawnLaunch (s.strand c k) a)).opt && (s.strand c k).rx b == 0xFFFFFFFFFFFFFFFF#64) = true := by
    simp [hlo]
  have defer : ¬((s.strand c k).opt && !(s.launch (s.strand c k).job (spawnLaunch (s.strand c k) a)).opt) = true := by simp [ho]
  have room : ¬((!((s.strand c k).opt && !(s.launch (s.strand c k).job (spawnLaunch (s.strand c k) a)).opt)) &&
      (!s.seqFree c || !(s.core c).sendRoom)) = true := by simp [hseq, hroom]
  have noRing : ∀ n, ¬((s.strand c k).opt && !s.ringRoom c k n) = true := by simp [ho]
  have kept : ¬(s.strand c k).opt = true := by simp [ho]
  obtain ⟨sent, e, buf, task, strand⟩ := SendsFrom.sendTask
    (s.took.counted c (s.strand c k).job (spawnLaunch (s.strand c k) a) ((s.strand c k).rx b)) c k
    { t := spawned s c k kind b a d, pinned := kind == 0x11#6 }
    ((s.launch (s.strand c k).job (spawnLaunch (s.strand c k) a)).destOf c (spawned s c k kind b a d))
  rw [core_counted] at buf
  refine ⟨_, e, h.completes (usesAre_spawn w u b a d) 4 ?_, sent, buf, strand, task⟩
  refine (if_neg (BitVec.not_lt.2 hvt)).trans ((if_neg live).trans ((if_neg finite).trans ((if_neg room).trans ((if_neg (noRing _)).trans
    ((if_neg defer).trans ?_)))))
  exact congrArg (fun x : State => Res.done (x.sendTask c k _ _)) (if_neg kept)

theorem spawns : Spawns := by
  intro w u b a d s c k hd t0 l args h ho hl hlo hvt hseq hroom i kind hi
  have exec_eq : exec i s = opSpawn kind w u b a d s := by
    simp only [List.mem_cons, Prod.mk.injEq, List.not_mem_nil, or_false] at hi
    rcases hi with ⟨rfl, rfl⟩ | ⟨rfl, rfl⟩ <;> rfl
  have record : spawned s c k kind b a d =
      { odev := s.devnum, origin := c, seq := (s.core c).seq, kind := kind, job := t0.job, opt := false,
        dest := if kind = 0x11#6 then (args.headD 0#64).extractLsb' 0 48 else 0, lslot := l,
        pc := (t0.rx a).extractLsb' 0 48 &&& ~~~1#48, vt := t0.rx b, args := args } := by
    have hlo : (s.launch (s.strand c k).job (spawnLaunch (s.strand c k) a)).opt = false := hlo
    have hargs : spawnArgs (s.strand c k) d = args := spawnArgs_eq _ d
    simp only [spawned, hlo, hargs]
    rfl
  obtain ⟨X, e, run, sent, buf, strand, task⟩ := opSpawn_conservative (w := w) (u := u) kind h ho hl hlo hvt hseq hroom
  obtain ⟨next, kept, others⟩ := passed_complete (s := s) (c := c) (k := k) 4 (usesAre_spawn w u b a d).nf
    fun x n => (sent.strand x n).trans (strand_counted s.took c _ _ _ x n)
  have rest := elsewhere_complete X c k { names := [a, b] ++ argRegs d, srcs := [sx a u, sx b w] ++ (argRegs d).map fun r => s0 (.x r) } 4
  refine ⟨_, e, _, exec_eq.trans run, (rest.core_eq (fun _ _ => rfl) c).trans buf, rfl, strand, ?_, ?_, ?_, ?_, next.1, kept, others, fun x => ?_⟩
  · rw [task]
  · rw [task, record]
  · exact (rest.core_eq (fun _ _ => rfl) c).trans (sent.seq.trans (congrArg Core.seq (core_counted s.took c _ _ _)))
  · exact congrArg Launch.count ((rest.launch _ _).trans ((sent.launch _ _).trans (launch_counted s.took c _ _ _)))
  · exact (rest.memory x).trans (congrArg (Memory.get · x) sent.mem)

/-- The state in which MIGRATE has taken the next sequence number and counted its retirement. -/
def Machine.State.departed (s : State) (c : CoreId) (j : JobId) (l : Lslot) (vt : Word) : State :=
  (s.updCore c fun v => { v with seq := v.seq + 1 }).countRetired j l vt

theorem strand_departed (s : State) (c : CoreId) (j : JobId) (l : Lslot) (vt : Word) (d : CoreId) (n : StrandId) :
    (s.departed c j l vt).strand d n = s.strand d n :=
  strand_updCore_of_strands (f := fun v => { v with seq := v.seq + 1 }) (fun _ => rfl) s c d n

theorem core_departed (s : State) (c : CoreId) (j : JobId) (l : Lslot) (vt : Word) :
    (s.departed c j l vt).core c = { s.core c with seq := (s.core c).seq + 1 } :=
  (State.core_countRetired _ j l vt c).trans (State.core_updCore_same s c _)

/-- The record of a continuation that MIGRATE sends (R160). -/
def migrated (s : State) (c : CoreId) (k : StrandId) (a : XReg) : Task :=
  let t := s.strand c k
  { odev := s.devnum, origin := c, seq := (s.core c).seq, kind := 0x12#6, job := t.job, opt := t.opt, dest := vaOf (t.rx a), lslot := t.lslot,
    pc := t.pc + 4, vt := t.vt, args := s.argsOf c k }

/-- MIGRATE of a conservative task that may leave sends its continuation and ends the run. -/
theorem execMigrate_conservative {u : Bool} {a : XReg} {s : State} {c : CoreId} {k : StrandId} (h : CanIssue s c k [a] [])
    (ho : (s.strand c k).opt = false) (hq : s.quiet c k = true) (hb : (s.strand c k).badX = []) (hseq : s.seqFree c = true)
    (hroom : (s.core c).sendRoom = true) :
    ∃ t e, exec (.migrate u a) s = .next ((t.endRun c k).markIssued c k { names := [a], srcs := [sx a u] }) ∧
      SendsFrom (s.took.departed c (s.strand c k).job (s.strand c k).lslot (s.strand c k).vt) t c ∧
      (t.core c).sendBuf = (s.core c).sendBuf ++ [e] ∧ e.t = { t := migrated s c k a, pinned := true } := by
  have finite : ¬((s.strand c k).opt && (s.strand c k).vt == 0xFFFFFFFFFFFFFFFF#64) = true := by simp [ho]
  have room : ¬(!s.seqFree c || !(s.core c).sendRoom) = true := by simp [hseq, hroom]
  have noRing : ¬((s.strand c k).opt && !s.ringRoom c k 1) = true := by simp [ho]
  have kept : ¬(s.strand c k).opt = true := by simp [ho]
  obtain ⟨sent, e, buf, task, -⟩ := SendsFrom.sendTask (s.took.departed c (s.strand c k).job (s.strand c k).lslot (s.strand c k).vt) c k
    { t := migrated s c k a, pinned := true } ((s.launchOf (s.strand c k)).destOf c (migrated s c k a))
  rw [core_departed] at buf
  refine ⟨_, e, h.issues (usesAre_src u a) 4 ?_, sent, buf, task⟩
  have readable : s.took.badArg c k = none := State.badArg_of_none hb
  refine (if_pos hq).trans ?_
  dsimp only
  rw [readable]
  refine (if_neg finite).trans ((if_neg room).trans ((if_neg noRing).trans ?_))
  refine congrArg (fun x : State => Res.issued (x.endRun c k)) ((if_neg kept).trans ?_)
  exact congrArg (fun x : State => x.sendTask c k _ _) (if_neg kept)

theorem migrates : Migrates := by
  intro u a s c k t0 h ho ⟨hq, hf⟩ hb hseq hroom
  obtain ⟨X, e, run, sent, buf, task⟩ := execMigrate_conservative (u := u) h ho hq hb hseq hroom
  have left : (X.core c).leftFilling k = [] := by
    rw [sent.leftFilling, core_departed]
    exact hf
  obtain ⟨ended, rest⟩ := runEnded_endRun (s := s) { names := [a], srcs := [sx a u] } left
    (fun d n => (sent.strand d n).trans (strand_departed s.took c t0.job t0.lslot t0.vt d n)) sent.mem
  have seq := (rest.core_eq (f := Core.seq) (fun _ _ => rfl) c).trans (sent.seq.trans (congrArg Core.seq (core_departed s.took c _ _ _)))
  have launch := (rest.launch _ _).trans ((sent.launch t0.job t0.lslot).trans (State.launch_countRetired _ t0.job t0.lslot t0.vt))
  have job := (rest.job t0.job).trans (sent.job t0.job)
  refine ⟨_, e, _, run, ended, (rest.core_eq (fun _ _ => rfl) c).trans buf, ?_⟩
  rw [task, job]
  exact ⟨rfl, rfl, rfl, rfl, rfl, rfl, rfl, rfl, rfl, seq, (congrArg Launch.count launch).trans rfl, State.retired_countRetired _ _ _ _⟩

theorem unreadableArguments : UnreadableArguments := by
  intro u a s c k n hq hn
  have bad : s.took.badArg c k = _ := badArg_of_first hn
  have quiet : s.took.quiet c k = true := hq
  refine ⟨fun h => ⟨_, h.faults (usesAre_src u a) 4 ?_, takesFault_raise s c k _⟩, fun h => ⟨_, h.faults usesAre_none 4 ?_, takesFault_raise s c k _⟩⟩
  · simp only [whenQuiet, quiet, if_true, bad]
  · simp only [whenWritable, whenQuiet, quiet, if_true, bad]

/-- Settles O12: SPAWN and SPAWNA send a counted task, MIGRATE its continuation, and an argument that cannot be read faults. -/
theorem tasksSent : Obligations.TasksSent := ⟨spawns, migrates, unreadableArguments⟩

end Sys2Proof

/-! ## Counts of jobs alone (spec/01_work.md R27 to R31) -/

namespace Sys2Proof.Machine

/-- The records of jobs have changed and steps have been put on the agenda; nothing else of the machine has changed. -/
structure Tallies (s t : State) : Prop where
  rest : { t with agenda := s.agenda, jobs := s.jobs } = s
  agenda : ∀ e ∈ s.agenda, e ∈ t.agenda

theorem Tallies.refl (s : State) : Tallies s s := ⟨rfl, fun _ h => h⟩

theorem Tallies.trans {s t u : State} (h : Tallies s t) (g : Tallies t u) : Tallies s u where
  rest := by
    have h1 := h.rest
    have h2 := g.rest
    rw [← h1, ← h2]
  agenda e he := g.agenda e (h.agenda e he)

theorem Tallies.core {s t : State} (h : Tallies s t) (d : CoreId) : t.core d = s.core d := by
  have r := h.rest
  rw [← r]
  rfl

theorem Tallies.strand {s t : State} (h : Tallies s t) (d : CoreId) (n : StrandId) : t.strand d n = s.strand d n :=
  congrArg (Core.strand · n) (h.core d)

theorem Tallies.mem {s t : State} (h : Tallies s t) : t.mem = s.mem := (congrArg State.mem h.rest :)
theorem Tallies.now {s t : State} (h : Tallies s t) : t.now = s.now := (congrArg State.now h.rest :)

theorem Tallies.push (s : State) (n : Nat) (i : Instr) (x : StepArg) : Tallies s (s.push n i x) :=
  ⟨rfl, fun _ h => State.mem_agenda_push.2 (.inr h)⟩

theorem Tallies.due (s : State) (i : Instr) (x : StepArg) (p : Prop) [Decidable p] : Tallies s (if p then s.soon i x else s) := by
  split
  · exact Tallies.push s 0 i x
  · exact Tallies.refl s

theorem Tallies.updJob (s : State) (j : JobId) (f : Job → Job) : Tallies s (s.updJob j f) := ⟨rfl, fun _ h => h⟩

/-- The completion of a launch or a phase becomes due at most. -/
theorem jobs_checkDone (s : State) (j : JobId) (l : Lslot) : Tallies s (s.checkDone j l) ∧ (s.checkDone j l).jobs = s.jobs := by
  have refl : ∀ s, Tallies s s ∧ s.jobs = s.jobs := fun s => ⟨Tallies.refl s, rfl⟩
  have trans : ∀ {s t u}, Tallies s t ∧ t.jobs = s.jobs → Tallies t u ∧ u.jobs = t.jobs → Tallies s u ∧ u.jobs = s.jobs :=
    fun h g => ⟨h.1.trans g.1, g.2.trans h.2⟩
  have fold := foldl_keeps (R := fun s t => Tallies s t ∧ t.jobs = s.jobs) refl trans
    (fun s (p : Phase) => ⟨Tallies.push s 0 .phaseCompletion { j := j, w0 := p.start }, rfl⟩)
  unfold State.checkDone
  refine trans ?_ (fold _ _)
  split
  · exact ⟨Tallies.push s 0 _ _, rfl⟩
  · exact refl s

theorem Tallies.checkDone (s : State) (j : JobId) (l : Lslot) : Tallies s (s.checkDone j l) := (jobs_checkDone s j l).1

theorem State.job_checkDone (s : State) (j i : JobId) (l : Lslot) : (s.checkDone j l).job i = s.job i :=
  congrArg (Tab.get ({} : Job) · i.toNat) (jobs_checkDone s j l).2

theorem Tallies.countRetired (s : State) (j : JobId) (l : Lslot) (vt : Word) : Tallies s (s.countRetired j l vt) := ⟨rfl, fun _ h => h⟩

theorem Tallies.retire (s : State) (j : JobId) (l : Lslot) (vt : Word) : Tallies s (s.retire j l vt) := by
  have counted := (Tallies.countRetired s j l vt).trans (Tallies.updJob _ j fun v => v.leavePhase vt)
  exact (counted.trans (Tallies.updJob _ j _)).trans (Tallies.checkDone _ j l)

/-- A retirement counts in its launch, whose counter of live tasks falls, and in its job. -/
theorem State.launch_retire (s : State) (j : JobId) (l : Lslot) (vt : Word) :
    (s.retire j l vt).launch j l = { s.launch j l with c := (s.launch j l).c.retire, count := (s.launch j l).count - 1 } := by
  have leave : ∀ v : Job, (v.leavePhase vt).launches = v.launches := by
    intro v
    unfold Job.leavePhase
    split <;> rfl
  have counted := (State.launch_updJob leave (s.countRetired j l vt) j j l).trans (State.launch_countRetired s j l vt)
  unfold State.retire State.launch
  rw [State.job_checkDone]
  exact (State.launch_updLaunch_same _ j l _).trans (congrArg (fun x : Launch => { x with count := x.count - 1 }) counted)

theorem State.retired_retire (s : State) (j : JobId) (l : Lslot) (vt : Word) :
    ((s.retire j l vt).job j).c.retired = (s.job j).c.retired + 1 := by
  have leave : ∀ v : Job, (v.leavePhase vt).c = v.c := by
    intro v
    unfold Job.leavePhase
    split <;> rfl
  unfold State.retire
  rw [State.job_checkDone]
  refine (congrArg (fun v : Job => v.c.retired) (State.job_updJob_same _ j _)).trans ?_
  show (((s.countRetired j l vt).updJob j fun v => v.leavePhase vt).job j).c.retired = _
  rw [State.job_updJob_same, leave, State.retired_countRetired]

end Sys2Proof.Machine

/-! ## EXIT (spec/08_isa_scalar.md R161, spec/18_optimistic.md R348) -/

namespace Sys2Proof

open Machine

theorem core_updBlock (s : State) (c : CoreId) (t : Ident) (f : Block → Block) : (s.updBlock c t f).core c =
    { s.core c with rings := (s.core c).rings.map fun b => if b.t.t.ident == t then f b else b } := State.core_updCore_same s c _

theorem strand_updBlock (s : State) (c : CoreId) (t : Ident) (f : Block → Block) (d : CoreId) (n : StrandId) :
    (s.updBlock c t f).strand d n = s.strand d n :=
  strand_updCore_of_strands (f := fun v => { v with rings := v.rings.map fun b => if b.t.t.ident == t then f b else b }) (fun _ => rfl) s c d n

/-- An issue that is recorded after the end of a run. -/
theorem runEnded_markIssued {s t : State} {c : CoreId} {k : StrandId} (u : Uses) (own : t.strand c k = (s.strand c k).idled)
    (others : ∀ e n, ¬(e = c ∧ n = k) → t.strand e n = s.strand e n) (mem : t.mem = s.mem) : RunEnded s (t.markIssued c k u) c k := by
  rw [State.markIssued_eq]
  refine runEnded_of (now := t.cycle) (nf := u.readsNf) ?_ (fun d n hn => ?_) mem
  · rw [State.strand_updStrand_same, own]
  · rw [State.strand_updStrand_ne _ _ hn, others d n hn]

/-- EXIT of a conservative task ends the run and retires the task. -/
theorem execExit_conservative {s : State} {c : CoreId} {k : StrandId} (h : CanIssue s c k [] []) (hq : s.quiet c k = true)
    (ho : (s.strand c k).opt = false) : exec .exit s =
      .next (((s.took.endRun c k).retire (s.strand c k).job (s.strand c k).lslot (s.strand c k).vt).markIssued c k {}) := by
  have kept : ¬(s.strand c k).opt = true := by simp [ho]
  exact h.issues usesAre_none 4 ((if_pos hq).trans (if_neg kept))

/-- EXIT of an optimistic task ends the run and marks its block DONE; its commit may be due. -/
theorem execExit_optimistic {s : State} {c : CoreId} {k : StrandId} (h : CanIssue s c k [] []) (hq : s.quiet c k = true)
    (ho : (s.strand c k).opt = true) :
    ∃ x, exec .exit s = .next (x.markIssued c k {}) ∧
      Tallies ((s.took.updBlock c (s.strand c k).ident fun b => { b with ts := .done, strand := none }).endRun c k) x := by
  exact ⟨_, h.issues usesAre_none 4 ((if_pos hq).trans (if_pos ho)), Tallies.due _ _ _ _⟩

theorem exits : Exits := by
  intro s c k h ⟨hq, hf⟩ t0
  refine ⟨fun ho => ?_, fun ho => ?_⟩
  · have run := execExit_conservative h hq ho
    rw [State.endRun_of_none (s := s.took) hf] at run
    have retired := Tallies.retire (s.took.updStrand c k Strand.idled) t0.job t0.lslot t0.vt
    have launch := State.launch_retire (s.took.updStrand c k Strand.idled) t0.job t0.lslot t0.vt
    have job := State.retired_retire (s.took.updStrand c k Strand.idled) t0.job t0.lslot t0.vt
    generalize (s.took.updStrand c k Strand.idled).retire t0.job t0.lslot t0.vt = x at run retired launch job
    have rest := elsewhere_updStrand x c k fun a => a.marks x.cycle (Uses.readsNf {})
    refine ⟨_, run, runEnded_markIssued {} ?_ (fun d n hn => ?_) retired.mem, ?_, ?_, ?_⟩
    · exact (retired.strand c k).trans (State.strand_updStrand_same s.took c k _)
    · exact (retired.strand d n).trans (State.strand_updStrand_ne s.took _ hn)
    · exact (congrArg Launch.count ((rest.launch t0.job t0.lslot).trans launch)).trans rfl
    · exact (congrArg (fun x : Launch => x.c.retired) ((rest.launch t0.job t0.lslot).trans launch)).trans rfl
    · exact (congrArg (fun v : Job => v.c.retired) (rest.job t0.job)).trans job
  · obtain ⟨x, run, due⟩ := execExit_optimistic h hq ho
    have left : ((s.took.updBlock c t0.ident fun b => { b with ts := .done, strand := none }).core c).leftFilling k = [] := by
      rw [core_updBlock]
      exact hf
    rw [State.endRun_of_none left] at due
    have rest := elsewhere_updStrand x c k fun a => a.marks x.cycle (Uses.readsNf {})
    refine ⟨_, run, runEnded_markIssued {} ?_ (fun d n hn => ?_) due.mem, ?_⟩
    · rw [due.strand, State.strand_updStrand_same, strand_updBlock]
      rfl
    · rw [due.strand, State.strand_updStrand_ne _ _ hn, strand_updBlock]
      rfl
    · have rings := (rest.core_eq (f := Core.rings) (fun _ _ => rfl) c).trans ((congrArg Core.rings (due.core c)).trans
        ((elsewhere_updStrand _ c k _).core_eq (f := Core.rings) (fun _ _ => rfl) c))
      refine rings.trans ((congrArg Core.rings (core_updBlock s.took c t0.ident _)).trans ?_)
      simp only [beq_iff_eq]
      rfl

end Sys2Proof

/-! ## Tasks set aside (spec/08_isa_scalar.md R161 to R164, spec/05_placement.md R81) -/

namespace Sys2Proof

open Machine

theorem clusterOf_toNat (c : CoreId) : (clusterOf c).toNat = c.toNat / 64 := by
  have := c.isLt
  simp only [clusterOf, BitVec.extractLsb'_toNat, Nat.shiftRight_eq_div_pow]
  omega

theorem leaf_dispenser (v : Job) (c : CoreId) :
    v.leaf (.dispenser (clusterOf c)) = Tab.get v.idleLeaf v.leaves (4096 + c.toNat / 64) :=
  congrArg (fun n => Tab.get v.idleLeaf v.leaves (4096 + n)) (clusterOf_toNat c)

/-- Where the queue takes an entry, R81 places it there. -/
theorem placeIn_queue {s : State} {c : CoreId} {e : QEntry} (h : QueueTakes s c e.t.job) : s.placeIn c e = .queue ((s.core c).putQueue e) := by
  obtain ⟨room, spilled, running⟩ := h
  have cut : s.cutAt c e.t.job = false := by
    unfold State.cutAt
    rw [leaf_dispenser]
    exact running
  simp only [State.placeIn, cut, Core.place, Core.spmin, spilled, List.map_nil, List.min?_nil, room]
  rfl

theorem mayWriteBack_of {s : State} {c : CoreId} {k : StrandId} {q : QEntry} (hq : (s.strand c k).task = some q)
    (h : QueueTakes s c q.t.job) : s.mayWriteBack c k = true := by
  unfold State.mayWriteBack State.roomFor
  rw [hq]
  dsimp only
  rw [placeIn_queue h]
  simp

/-- A task has been written back into the queue of its core: its strand is idle, and the other strands, memory and the requests of the core are as
they were. -/
structure WrittenBack (s t : State) (c : CoreId) (k : StrandId) (q : QEntry) (hold : Hold) : Prop where
  own : t.strand c k = (s.strand c k).idled
  others : ∀ e n, ¬(e = c ∧ n = k) → t.strand e n = s.strand e n
  mem : t.mem = s.mem
  reqs : (t.core c).reqs = (s.core c).reqs
  queue : (t.core c).queue = insertQ (s.core c).queue
    { q with t := { q.t with pc := (s.strand c k).pc + 4, args := s.argsOf c k }, hold := hold, block := (s.strand c k).opt }
  rings : (t.core c).rings = if (s.strand c k).opt then
      (s.core c).rings.map fun b => if b.t.t.ident = q.t.ident then { b with ts := .writtenBack, strand := none } else b
    else (s.core c).rings

theorem writtenBack {s : State} {c : CoreId} {k : StrandId} {q : QEntry} (hold : Hold) (hq : (s.strand c k).task = some q)
    (left : (s.core c).leftFilling k = []) (h : QueueTakes s c q.t.job) : WrittenBack s (s.writeBack c k hold) c k q hold := by
  let e : QEntry :=
    { q with t := { q.t with pc := (s.strand c k).pc + 4, args := s.argsOf c k }, hold := hold, block := (s.strand c k).opt }
  have rest := elsewhere_updStrand s c k Strand.idled
  have takes : QueueTakes (s.updStrand c k Strand.idled) c e.t.job := by
    unfold QueueTakes
    rw [rest.core_eq (f := Core.queue) (fun _ _ => rfl) c, rest.core_eq (f := Core.spill) (fun _ _ => rfl) c, rest.job]
    exact h
  have run : s.writeBack c k hold = if (s.strand c k).opt then
      ((s.updStrand c k Strand.idled).updCore c (Core.putQueue · e)).updBlock c q.t.ident fun b => { b with ts := .writtenBack, strand := none }
      else (s.updStrand c k Strand.idled).updCore c (Core.putQueue · e) := by
    have requeued : (s.updStrand c k Strand.idled).requeue c e = (s.updStrand c k Strand.idled).updCore c (Core.putQueue · e) := by
      unfold State.requeue
      rw [placeIn_queue takes]
      rfl
    unfold State.writeBack
    dsimp only
    rw [hq, State.endRun_of_none left]
    exact congrArg (fun x : State => if (s.strand c k).opt then x.updBlock c q.t.ident fun b => { b with ts := .writtenBack, strand := none } else x)
      requeued
  have strands : ∀ d n, (s.writeBack c k hold).strand d n = (s.updStrand c k Strand.idled).strand d n := by
    intro d n
    rw [run]
    split
    · rw [strand_updBlock]
      exact strand_updCore_of_strands (f := (Core.putQueue · e)) (fun _ => rfl) _ c d n
    · exact strand_updCore_of_strands (f := (Core.putQueue · e)) (fun _ => rfl) _ c d n
  have queue := rest.core_eq (f := Core.queue) (fun _ _ => rfl) c
  have rings := rest.core_eq (f := Core.rings) (fun _ _ => rfl) c
  have reqs := rest.core_eq (f := Core.reqs) (fun _ _ => rfl) c
  refine ⟨(strands c k).trans (State.strand_updStrand_same s c k _), fun d n hn => (strands d n).trans (State.strand_updStrand_ne s _ hn), ?_, ?_, ?_, ?_⟩
  · rw [run]
    split <;> rfl
  · rw [run]
    split
    · rw [core_updBlock, State.core_updCore_same]
      exact reqs
    · rw [State.core_updCore_same]
      exact reqs
  · rw [run]
    split
    · rw [core_updBlock, State.core_updCore_same]
      exact congrArg (insertQ · e) queue
    · rw [State.core_updCore_same]
      exact congrArg (insertQ · e) queue
  · rw [run]
    split
    · rw [core_updBlock, State.core_updCore_same]
      simp only [beq_iff_eq]
      exact congrArg (List.map _) rings
    · rw [State.core_updCore_same]
      exact rings

/-- A task that has been written back at the end of an instruction is set aside. -/
theorem WrittenBack.ended {s t u : State} {c : CoreId} {k : StrandId} {q : QEntry} {hold : Hold} (us : Uses) (h : WrittenBack t u c k q hold)
    (sent : SendsFrom s.took t c) : RunEnded s (u.markIssued c k us) c k ∧ SetAside s (u.markIssued c k us) c k q hold ∧
      ((u.markIssued c k us).core c).rings = (u.core c).rings ∧ ((u.markIssued c k us).core c).reqs = (t.core c).reqs := by
  have rest := elsewhere_updStrand u c k fun a => a.marks u.cycle us.readsNf
  have strand : ∀ d n, t.strand d n = s.strand d n := sent.strand
  have args : t.argsOf c k = s.argsOf c k := by
    simp only [State.argsOf, State.launchOf, strand, sent.launch]
    rfl
  refine ⟨runEnded_markIssued us ?_ (fun d n hn => (h.others d n hn).trans (strand d n)) (h.mem.trans sent.mem), ?_,
    rest.core_eq (f := Core.rings) (fun _ _ => rfl) c, (rest.core_eq (f := Core.reqs) (fun _ _ => rfl) c).trans h.reqs⟩
  · rw [h.own, strand]
  · have queue := (rest.core_eq (f := Core.queue) (fun _ _ => rfl) c).trans h.queue
    rw [strand, args, sent.queue] at queue
    exact queue

/-- A body that writes its task back runs where the run may end and the arguments can be read. -/
theorem whenWritable_of {s : State} {c : CoreId} {k : StrandId} (hq : s.quiet c k = true) (hb : (s.strand c k).badX = []) (body : Body') :
    whenWritable body c k s = body c k s := by
  refine (if_pos hq).trans ?_
  rw [State.badArg_of_none hb]

theorem execYield_of {s : State} {c : CoreId} {k : StrandId} {q : QEntry} (h : CanIssue s c k [] []) (hq : s.quiet c k = true)
    (hb : (s.strand c k).badX = []) (ht : (s.strand c k).task = some q) (takes : QueueTakes s c q.t.job) :
    exec .yield s = .next ((s.took.writeBack c k .none).markIssued c k {}) :=
  h.issues usesAre_none 4 ((whenWritable_of (s := s.took) hq hb _).trans (if_pos (mayWriteBack_of (s := s.took) ht takes)))

/-- An access that reaches its target does so whether or not the issue slot is taken. -/
theorem reach_took {s : State} {c : CoreId} {k : StrandId} {va : BitVec 48} {n : Nat} {need : Need} {x : Target} {leaf : Word}
    (h : s.reach c k va n need = .at' x leaf) : s.took.reach c k va n need = .at' x leaf := by
  have missed : ∀ (w : Option (BitVec 48 × Nat × Fault')) (t : State),
      (match w with
        | some (va', n', f) => if va' = va && n' = need.num then Reach.bad f.cls else .walk t
        | none => .walk t) ≠ .at' x leaf := by
    intro w t
    rcases w with - | ⟨va', n', f⟩
    · exact Reach.noConfusion
    · dsimp only
      split <;> exact Reach.noConfusion
  unfold State.reach at h ⊢
  dsimp only at h ⊢
  cases hw : windowOf c va with
  | some w => rw [hw] at h; exact h
  | none =>
    rw [hw] at h
    dsimp only at h ⊢
    change (match lookup (s.core c).dtlb (s.strand c k).job va need with | .ok _ _ => _ | _ => _) = _
    cases hl : lookup (s.core c).dtlb (s.strand c k).job va need with
    | ok pa l => rw [hl] at h; exact h
    | _ => rw [hl] at h; exact absurd h (missed _ _)

theorem mem_core_request (s : State) {r : Req} {c : CoreId} (hr : r.core = c) : { r with id := s.nextId } ∈ ((s.request r).core c).reqs := by
  rw [core_request s hr]
  exact List.mem_append_right _ (List.mem_singleton.2 rfl)

/-- SUSPEND of a conservative task sends the handle and writes the task back. -/
theorem execSuspend_of {u : Bool} {a : XReg} {s : State} {c : CoreId} {k : StrandId} {q : QEntry} {pa : BitVec 52} {leaf : Word}
    (h : CanIssue s c k [a] []) (ho : (s.strand c k).opt = false) (hq : s.quiet c k = true) (hb : (s.strand c k).badX = [])
    (ht : (s.strand c k).task = some q) (takes : QueueTakes s c q.t.job)
    (hr : ReachesHome s c k (vaOf ((s.strand c k).rx a)) 8 .w pa leaf) :
    ∃ t r, exec (.suspend u a) s = .next ((t.writeBack c k .suspend).markIssued c k { names := [a], srcs := [sx a u] }) ∧
      SendsFrom s.took t c ∧ r ∈ (t.core c).reqs ∧ r.kind = .stff ∧ r.va = vaOf ((s.strand c k).rx a) ∧ r.pa = pa ∧
      r.w0 = handleOf s.devnum c (s.strand c k).ident (s.strand c k).job := by
  obtain ⟨aligned, reach, coherent, -, -⟩ := hr
  have kept : ¬(s.strand c k).opt = true := by simp [ho]
  have reach : s.took.reach c k (vaOf ((s.took.strand c k).rx a)) 8 .w = .at' (.own pa) leaf := reach_took reach
  have coherent : s.took.nonCoherent (s.took.strand c k).job (vaOf ((s.took.strand c k).rx a)) leaf = false := coherent
  obtain ⟨released, -⟩ := SendsFrom.beforeRelease s.took c k
  let r : Req := { s.took.newReq c k .stff (vaOf ((s.strand c k).rx a)) pa with
    size := 8, w0 := handleOf s.devnum c (s.strand c k).ident (s.strand c k).job, w2 := 1, nc := false, isStore := true,
    after := (s.took.beforeRelease c k).2 }
  refine ⟨(s.took.beforeRelease c k).1.request (r.by leaf), { r.by leaf with id := (s.took.beforeRelease c k).1.nextId },
    h.issues (usesAre_src u a) 4 ?_, released.trans (SendsFrom.request _ rfl), ?_, rfl, rfl, rfl, rfl⟩
  · refine (if_neg kept).trans ((if_neg (not_not_intro aligned)).trans ?_)
    dsimp only
    rw [reach]
    dsimp only
    rw [coherent]
    exact (whenWritable_of (s := s.took) hq hb _).trans (if_neg (by rw [mayWriteBack_of (s := s.took) ht takes]; decide))
  · exact mem_core_request _ rfl

/-- WAITW of a conservative task registers at the home of the word and writes the task back. -/
theorem execWaitw_of {u : Bool} {a : XReg} {s : State} {c : CoreId} {k : StrandId} {q : QEntry} {pa : BitVec 52} {leaf : Word}
    (h : CanIssue s c k [a] []) (ho : (s.strand c k).opt = false) (hq : s.quiet c k = true) (hb : (s.strand c k).badX = [])
    (ht : (s.strand c k).task = some q) (takes : QueueTakes s c q.t.job)
    (hr : ReachesHome s c k (vaOf ((s.strand c k).rx a)) 8 .r pa leaf) :
    ∃ t r, exec (.waitw u a) s = .next ((t.writeBack c k .waitw).markIssued c k { names := [a], srcs := [sx a u] }) ∧
      SendsFrom s.took t c ∧ r ∈ (t.core c).reqs ∧ r.kind = .waitw ∧ r.va = vaOf ((s.strand c k).rx a) ∧ r.pa = pa := by
  obtain ⟨aligned, reach, -, -, -⟩ := hr
  have reach : s.took.reach c k (vaOf ((s.took.strand c k).rx a)) 8 .r = .at' (.own pa) leaf := reach_took reach
  have kept : ¬(s.strand c k).opt = true := by simp [ho]
  let r : Req := { s.took.newReq c k .waitw (vaOf ((s.strand c k).rx a)) pa with size := 8, after := [] }
  refine ⟨s.took.request (r.by leaf), { r.by leaf with id := s.took.nextId },
    h.issues (usesAre_src u a) 4 ?_, SendsFrom.request _ rfl, ?_, rfl, rfl, rfl⟩
  · refine (if_neg kept).trans ((if_neg (not_not_intro aligned)).trans ?_)
    dsimp only
    rw [reach]
    exact (whenWritable_of (s := s.took) hq hb _).trans (if_neg (by rw [mayWriteBack_of (s := s.took) ht takes]; decide))
  · exact mem_core_request _ rfl

/-- The state in which a task that may end has sent what it sends is one in which it can be written back. -/
theorem sent_writtenBack {s t : State} {c : CoreId} {k : StrandId} {q : QEntry} (hold : Hold) (sent : SendsFrom s.took t c)
    (left : (s.core c).leftFilling k = []) (ht : (s.strand c k).task = some q) (takes : QueueTakes s c q.t.job) :
    WrittenBack t (t.writeBack c k hold) c k q hold := by
  refine writtenBack hold ((congrArg Strand.task (sent.strand c k)).trans ht) ((sent.leftFilling k).trans left) ?_
  unfold QueueTakes
  rw [sent.queue, sent.spill, sent.job]
  exact takes

theorem setsAside : SetsAside := by
  intro u a s c k q pa leaf t0 va ⟨hq, hf⟩ ht hb takes
  have ident : t0.ident = q.t.ident := by
    unfold Strand.ident
    rw [ht]
  refine ⟨fun h => ?_, fun h ho hr => ?_, fun h ho hr => ?_⟩
  · have back := sent_writtenBack .none (SendsFrom.refl s.took c) hf ht takes
    obtain ⟨ended, aside, rings, -⟩ := back.ended {} (SendsFrom.refl s.took c)
    exact ⟨_, execYield_of h hq hb ht takes, ended, aside, rings.trans back.rings⟩
  · obtain ⟨t, r, run, sent, listed, kind, rva, rpa, word⟩ := execSuspend_of (u := u) h ho hq hb ht takes hr
    obtain ⟨ended, aside, -, reqs⟩ := (sent_writtenBack .suspend sent hf ht takes).ended { names := [a], srcs := [sx a u] } sent
    rw [ident] at word
    exact ⟨_, r, run, ended, aside, reqs ▸ listed, kind, rva, rpa, word⟩
  · obtain ⟨t, r, run, sent, listed, kind, rva, rpa⟩ := execWaitw_of (u := u) h ho hq hb ht takes hr
    obtain ⟨ended, aside, -, reqs⟩ := (sent_writtenBack .waitw sent hf ht takes).ended { names := [a], srcs := [sx a u] } sent
    exact ⟨_, r, run, ended, aside, reqs ▸ listed, kind, rva, rpa⟩

end Sys2Proof

/-! ## ITER and ITERN (spec/08_isa_scalar.md R168, R169, spec/05_placement.md R92, R93) -/

namespace Sys2Proof

open Machine

theorem ReachesHome.took {s : State} {c : CoreId} {k : StrandId} {va : BitVec 48} {n : Nat} {need : Need} {pa : BitVec 52} {leaf : Word}
    (h : ReachesHome s c k va n need pa leaf) : ReachesHome s.took c k va n need pa leaf := by
  obtain ⟨aligned, reach, coherent, overlap, page⟩ := h
  exact ⟨aligned, reach_took reach, coherent, overlap, page⟩

/-- An operation without a side-log form that reaches its home is sent there (R203, R206). -/
theorem homeOp_of {s : State} {c : CoreId} {k : StrandId} {x : Machine.AtHome} {va : BitVec 48} {pa : BitVec 52} {leaf : Word} (hx : x.log = none)
    (h : ReachesHome s c k va 8 x.need pa leaf) : homeOp x va c k s = x.send s pa false leaf := by
  obtain ⟨aligned, reach, coherent, overlap, page⟩ := h
  unfold homeOp
  rw [if_neg (not_not_intro aligned), hx, page, overlap, reach]
  dsimp only
  rw [coherent]
  rfl

/-- The request of a claim (R168, R169). -/
def claimReq (s : State) (c : CoreId) (k : StrandId) (iter : Bool) (xa w2 : Word) (d : XReg) (pa : BitVec 52) (leaf : Word) : Req :=
  { s.newReq c k (.claim iter) (vaOf xa) pa with
    size := 64, w0 := xa, w2 := w2, dest := .x d, nc := false, slot := true, parks := !iter, isLoad := true }.by leaf

/-- What ITERN leaves that claims a chunk. -/
def claimsChunk (s : State) (c : CoreId) (k : StrandId) (d : XReg) : State := (s.emptyX c k d).updStrand c k fun t => { t with iF := 0 }

theorem claimBody_of {s : State} {c : CoreId} {k : StrandId} (iter : Bool) {xa : Word} (w2 : Word) (d : XReg) {pa : BitVec 52} {leaf : Word}
    (aligned : (vaOf xa).toNat % 64 = 0) (h : ReachesHome s c k (vaOf xa) 8 .w pa leaf) (free : s.slotFree c k = true) :
    claimBody iter xa w2 d c k s =
      if iter then .done ((s.emptyX c k d).request (claimReq s c k iter xa w2 d pa leaf))
      else .waits (.reply s.nextId 1) ((claimsChunk s c k d).request (claimReq s c k iter xa w2 d pa leaf)) := by
  unfold claimBody
  refine (if_neg (not_not_intro aligned)).trans ((homeOp_of rfl h).trans ?_)
  refine (if_neg (by simp [free])).trans ?_
  cases iter <;> rfl

theorem Kept.refl (a : Strand) : Kept a a [] := ⟨fun _ _ => rfl, fun _ _ => rfl, rfl⟩

/-- The issuing strand of a producer whose result comes later: its destination is empty, unless that lies in the successor (R130, R133). -/
def Machine.Strand.emptied (a : Strand) (d : XReg) : Strand := if d = 63#6 then a else a.setF (.x d) false

theorem strand_emptyX_own (s : State) (c : CoreId) (k : StrandId) (d : XReg) : (s.emptyX c k d).strand c k = (s.strand c k).emptied d := by
  rw [State.strand_emptyX]
  unfold Strand.emptied destStrand
  by_cases h : d = 63#6
  · simp [h]
  · simp [h]

theorem full_emptyX (s : State) (c : CoreId) (k : StrandId) {d : XReg} (h0 : d ≠ 0#6) :
    ((s.emptyX c k d).strand c (destStrand k d)).full (.x d) = false := by
  rw [State.strand_emptyX, if_pos ⟨rfl, rfl⟩]
  exact Strand.full_setF_same _ _ _ (by simpa using h0) (by simp)

theorem kept_emptied (a : Strand) (d : XReg) : Kept a (a.emptied d) (if d = 63#6 then [] else [d]) := by
  unfold Strand.emptied
  split
  · exact Kept.refl a
  · by_cases h0 : d = 0#6
    · rw [show a.setF (.x d) false = a from if_pos h0]
      exact ⟨fun _ _ => rfl, fun _ _ => rfl, rfl⟩
    · refine ⟨fun r _ => Strand.rx_setF a _ _ r, fun r hr => ?_, ?_⟩
      · rw [Strand.full_setF _ _ _ _ (by simpa using h0) (by simp), if_neg (by simpa using hr)]
      · rw [Strand.setF_x false h0]

/-- The strands other than those that a producer touches are as they were. -/
theorem strand_emptyX_of_not_touched {s : State} {c e : CoreId} {k n : StrandId} {d : XReg} (h : ¬(e = c ∧ n = destStrand k d)) :
    (s.emptyX c k d).strand e n = s.strand e n := (State.strand_emptyX s c e k n d).trans (if_neg h)

/-- The destination of a producer lies in its strand or in the successor. -/
theorem destStrand_cases (k : StrandId) (d : XReg) : destStrand k d = k ∨ destStrand k d = k + 1 := by
  unfold destStrand
  split
  · exact .inr rfl
  · exact .inl rfl

theorem destStrand_succ {k : StrandId} {d : XReg} (h : destStrand k d ≠ k) : d = 63#6 := by
  by_contra hd
  exact h (if_neg hd)

theorem next_emptied (a : Strand) (d : XReg) : (a.emptied d).pc = a.pc ∧ (a.emptied d).buf = a.buf := by
  unfold Strand.emptied Strand.setF
  split
  · exact ⟨rfl, rfl⟩
  · dsimp only
    split <;> exact ⟨rfl, rfl⟩

/-- A producer whose result comes with a reply goes on where its body has emptied the destination and changed no other strand. -/
theorem goesOn_complete {s t : State} {c : CoreId} {k : StrandId} {srcs : List XReg} {d : XReg} {u : Uses}
    (hn : u.readsNf = decide (63#6 ∈ srcs)) (strands : ∀ e n, t.strand e n = (s.took.emptyX c k d).strand e n) :
    GoesOn s (t.complete c k u 4) c k srcs d := by
  have own : (t.complete c k u 4).strand c k = ((s.strand c k).emptied d).ended t.cycle 4 (decide (63#6 ∈ srcs)) := by
    rw [State.complete_eq, hn, State.strand_updStrand_same, strands, strand_emptyX_own]
    rfl
  have others : ∀ n, n ≠ k → (t.complete c k u 4).strand c n = (s.took.emptyX c k d).strand c n := by
    intro n h
    rw [State.complete_eq, State.strand_updStrand_ne _ _ (fun e => h e.2), strands]
  have kept := (kept_emptied (s.strand c k) d).trans (kept_ended ((s.strand c k).emptied d) t.cycle 4 srcs)
  have next := next_emptied (s.strand c k) d
  refine ⟨fun h0 => ?_, ?_, own ▸ kept, fun h63 => ?_⟩
  · by_cases hd : destStrand k d = k
    · have empty := full_emptyX s.took c k h0
      rw [hd, strand_emptyX_own] at empty
      rw [hd, own, Strand.full_ended]
      split
      · rfl
      · exact empty
    · rw [others _ hd]
      exact full_emptyX s.took c k h0
  · rw [own]
    exact ⟨congrArg (· + BitVec.ofNat 48 4) next.1, next.2⟩
  · rw [others _ (by bv_omega)]
    exact strand_emptyX_of_not_touched (by rintro ⟨-, e⟩; rw [destStrand, if_neg h63] at e; bv_omega)

/-- A request has been made where it stands last in its core, and memory and the other strands are as they were. -/
theorem requested_of {s t : State} {c : CoreId} {k : StrandId} {r : Req} (reqs : (t.core c).reqs = (s.core c).reqs ++ [r])
    (who : r.core = c ∧ r.strand = k ∧ r.job = (s.strand c k).job ∧ r.lslot = (s.strand c k).lslot ∧ r.vt = (s.strand c k).vt ∧
      r.pc = (s.strand c k).pc) (mem : t.mem = s.mem) (others : ∀ e n, ¬(e = c ∧ (n = k ∨ n = k + 1)) → t.strand e n = s.strand e n) :
    Requested s t c k r where
  last := ⟨_, reqs, fun q hq => ⟨q, hq, by split <;> rfl⟩⟩
  who := who
  memory a := by rw [mem]
  others := others

theorem nextId_emptyX (s : State) (c : CoreId) (k : StrandId) (d : XReg) : (s.emptyX c k d).nextId = s.nextId :=
  (congrArg State.nextId (elsewhere_emptyX s c k d).rest :)

theorem mem_emptyX (s : State) (c : CoreId) (k : StrandId) (d : XReg) : (s.emptyX c k d).mem = s.mem :=
  (congrArg State.mem (elsewhere_emptyX s c k d).rest :)

theorem reqs_emptyX (s : State) (c : CoreId) (k : StrandId) (d : XReg) (e : CoreId) : ((s.emptyX c k d).core e).reqs = (s.core e).reqs :=
  (elsewhere_emptyX s c k d).core_eq (fun _ _ => rfl) e

/-- The strands that a request and its destination leave. -/
theorem not_destStrand {c e : CoreId} {k n : StrandId} {d : XReg} (h : ¬(e = c ∧ (n = k ∨ n = k + 1))) : ¬(e = c ∧ n = destStrand k d) := by
  rintro ⟨rfl, rfl⟩
  exact h ⟨rfl, destStrand_cases k d⟩

/-- A claim that a strand has sent stands last among the requests of its core. -/
structure Claimed (s y x : State) (c : CoreId) (k : StrandId) (iter : Bool) (xa w2 : Word) (d : XReg) (pa : BitVec 52) (r : Req) : Prop where
  sent : SendsFrom y x c
  reqs : (x.core c).reqs = (y.core c).reqs ++ [r]
  id : r.id = y.nextId
  who : r.core = c ∧ r.strand = k ∧ r.job = (s.strand c k).job ∧ r.lslot = (s.strand c k).lslot ∧ r.vt = (s.strand c k).vt ∧
    r.pc = (s.strand c k).pc
  kind : r.kind = .claim iter
  operands : r.w0 = xa ∧ r.w2 = w2 ∧ r.pa = pa ∧ r.dest = .x d

theorem claimed_request (s y : State) (c : CoreId) (k : StrandId) (iter : Bool) (xa w2 : Word) (d : XReg) (pa : BitVec 52) (leaf : Word) :
    ∃ r, Claimed s y (y.request (claimReq s c k iter xa w2 d pa leaf)) c k iter xa w2 d pa r :=
  ⟨{ claimReq s c k iter xa w2 d pa leaf with id := y.nextId }, SendsFrom.request _ rfl, congrArg Core.reqs (core_request y rfl), rfl,
    ⟨rfl, rfl, rfl, rfl, rfl, rfl⟩, rfl, ⟨rfl, rfl, rfl, rfl⟩⟩

/-- ITER of a conservative task whose nest reaches its home sends the claim and goes on. -/
theorem execIter_of {u : Bool} {a d : XReg} {s : State} {c : CoreId} {k : StrandId} {pa : BitVec 52} {leaf : Word}
    (h : CanIssue s c k [a] [d]) (hc : s.claiming c k = false) (ho : (s.strand c k).opt = false)
    (aligned : (vaOf ((s.strand c k).rx a)).toNat % 64 = 0) (hr : ReachesHome s c k (vaOf ((s.strand c k).rx a)) 8 .w pa leaf)
    (free : s.slotFree c k = true) :
    exec (.iter u a d) s = .next (((s.took.emptyX c k d).request (claimReq s.took c k true ((s.strand c k).rx a) 0 d pa leaf)).complete c k
      { names := [a, d], srcs := [sx a u], dsts := [d] } 4) := by
  have kept : ¬(s.strand c k).opt = true := by simp [ho]
  have idle : ¬s.claiming c k = true := by simp [hc]
  exact h.completes (usesAre_r u a d) 4
    ((if_neg kept).trans ((if_neg idle).trans ((claimBody_of (s := s.took) true 0 d aligned hr.took free).trans (if_pos rfl))))

theorem iter_claims {u : Bool} {a d : XReg} {s : State} {c : CoreId} {k : StrandId} {pa : BitVec 52} {leaf : Word}
    (h : CanIssue s c k [a] [d]) (hc : s.claiming c k = false) (ho : (s.strand c k).opt = false)
    (aligned : (vaOf ((s.strand c k).rx a)).toNat % 64 = 0) (hr : ReachesHome s c k (vaOf ((s.strand c k).rx a)) 8 .w pa leaf)
    (free : s.slotFree c k = true) :
    ∃ t r, exec (.iter u a d) s = .next t ∧ Requested s t c k r ∧ GoesOn s t c k [a] d ∧ r.kind = .claim true ∧ r.w0 = (s.strand c k).rx a ∧
      r.dest = .x d := by
  obtain ⟨r, claim⟩ := claimed_request s.took (s.took.emptyX c k d) c k true ((s.strand c k).rx a) 0 d pa leaf
  have run := execIter_of (u := u) h hc ho aligned hr free
  generalize (s.took.emptyX c k d).request _ = x at run claim
  have rest := elsewhere_complete x c k { names := [a, d], srcs := [sx a u], dsts := [d] } 4
  refine ⟨_, r, run, requested_of ?_ claim.who (claim.sent.mem.trans (mem_emptyX s.took c k d)) (fun e n hn => ?_),
    goesOn_complete (usesAre_r u a d).nf claim.sent.strand, claim.kind, claim.operands.1, claim.operands.2.2.2⟩
  · refine (rest.core_eq (f := Core.reqs) (fun _ _ => rfl) c).trans (claim.reqs.trans ?_)
    exact congrArg (· ++ [r]) (reqs_emptyX s.took c k d c)
  · rw [rest.strands e n (by rintro ⟨rfl, hm⟩; exact hn ⟨rfl, .inl (List.mem_singleton.1 hm)⟩), claim.sent.strand]
    exact strand_emptyX_of_not_touched (not_destStrand hn)

/-- A strand that has issued and waits for a reply. -/
def Machine.Strand.waits (a : Strand) (p : Park) (now : Nat) (nf : Bool) : Strand :=
  { a with st := .parked, park := p, last := now, issued := true, waitNf := nf, walked := none }

/-- A strand whose instruction has issued and that waits for its reply, its index registers empty (R169). -/
def Machine.Strand.awaitsChunk (a : Strand) (d : XReg) (id now : Nat) (nf : Bool) : Strand :=
  { a.emptied d with iF := 0 : Strand }.waits (.reply id 1) now nf

/-- A strand that waits for its chunk is otherwise as it was. -/
theorem kept_awaitsChunk (a : Strand) (d : XReg) (id now : Nat) (nf : Bool) :
    Kept a { a.awaitsChunk d id now nf with st := a.st, park := a.park, waitNf := a.waitNf, waitTill := a.waitTill, iF := a.iF }
      (if d = 63#6 then [] else [d]) := by
  have kept := kept_emptied a d
  exact ⟨kept.regs, kept.fulls, (congrArg (fun b : Strand =>
    { b with st := a.st, park := a.park, waitNf := a.waitNf, waitTill := a.waitTill, iF := a.iF }) kept.rest :)⟩

/-- An instruction that issues and parks its strand on a reply. -/
theorem issue_waits {s t : State} {c : CoreId} {k : StrandId} {srcs dsts : List XReg} {u : Uses} {body : Body'} (h : CanIssue s c k srcs dsts)
    (hu : UsesAre u srcs dsts) (len : Nat) {p : Park} (hb : body c k s.took = .waits p t) :
    Machine.issue len u body s = .next (t.updStrand c k fun a => a.waits p s.cycle u.readsNf) := by
  rw [h.issue hu, hb]
  rfl

/-- ITERN of a conservative task that needs a chunk sends the claim and parks. -/
theorem execItern_claims {m : BitVec 12} {u : Bool} {a d : XReg} {s : State} {c : CoreId} {k : StrandId} {pa : BitVec 52} {leaf : Word}
    (h : CanIssue s c k [a] [d]) (hc : s.claiming c k = false) (ho : (s.strand c k).opt = false)
    (used : (s.strand c k).rx a ≠ (s.strand c k).desc ∨ (s.strand c k).endv ≤ (s.strand c k).cur)
    (aligned : (vaOf ((s.strand c k).rx a)).toNat % 64 = 0) (hr : ReachesHome s c k (vaOf ((s.strand c k).rx a)) 8 .w pa leaf)
    (free : s.slotFree c k = true) :
    exec (.itern m u a d) s =
      .next (((claimsChunk s.took c k d).request (claimReq s.took c k false ((s.strand c k).rx a) (simm m) d pa leaf)).updStrand c k fun t =>
        t.waits (.reply s.nextId 1) s.cycle (Uses.readsNf { names := [a, d], srcs := [sx a u], dsts := [d] })) := by
  have kept : ¬(s.strand c k).opt = true := by simp [ho]
  have idle : ¬s.claiming c k = true := by simp [hc]
  exact issue_waits h (usesAre_r u a d) 4
    ((if_neg idle).trans ((if_pos used).trans ((if_neg kept).trans
      ((claimBody_of (s := s.took) false (simm m) d aligned hr.took free).trans (if_neg (by decide))))))

theorem itern_claims {m : BitVec 12} {u : Bool} {a d : XReg} {s : State} {c : CoreId} {k : StrandId} {pa : BitVec 52} {leaf : Word}
    (h : CanIssue s c k [a] [d]) (hc : s.claiming c k = false) (ho : (s.strand c k).opt = false)
    (used : (s.strand c k).rx a ≠ (s.strand c k).desc ∨ (s.strand c k).endv ≤ (s.strand c k).cur)
    (aligned : (vaOf ((s.strand c k).rx a)).toNat % 64 = 0) (hr : ReachesHome s c k (vaOf ((s.strand c k).rx a)) 8 .w pa leaf)
    (free : s.slotFree c k = true) :
    ∃ t r, exec (.itern m u a d) s = .next t ∧ Requested s t c k r ∧ (t.strand c k).iF = 0#4 ∧
      WaitsOn s (t.updStrand c k fun b => { b with iF := (s.strand c k).iF }) c k d r.id 1 ∧ r.kind = .claim false ∧
      r.w0 = (s.strand c k).rx a ∧ r.w2 = m.signExtend 64 ∧ r.pa = pa ∧ r.dest = .x d := by
  obtain ⟨r, claim⟩ := claimed_request s.took (claimsChunk s.took c k d) c k false ((s.strand c k).rx a) (simm m) d pa leaf
  have run := execItern_claims (m := m) (u := u) h hc ho used aligned hr free
  generalize (claimsChunk s.took c k d).request _ = x at run claim
  generalize Uses.readsNf _ = nf at run
  have rest := elsewhere_updStrand x c k (·.waits (.reply s.nextId 1) s.cycle nf)
  have own : (x.updStrand c k (·.waits (.reply s.nextId 1) s.cycle nf)).strand c k = (s.strand c k).awaitsChunk d s.nextId s.cycle nf := by
    rw [State.strand_updStrand_same, claim.sent.strand, claimsChunk, State.strand_updStrand_same, strand_emptyX_own]
    rfl
  have others : ∀ e n, ¬(e = c ∧ n = k) →
      (x.updStrand c k (·.waits (.reply s.nextId 1) s.cycle nf)).strand e n = (s.took.emptyX c k d).strand e n := by
    intro e n hn
    rw [State.strand_updStrand_ne _ _ hn, claim.sent.strand, claimsChunk, State.strand_updStrand_ne _ _ hn]
  have id : r.id = s.nextId := claim.id.trans (nextId_emptyX s.took c k d)
  have reqs := (rest.core_eq (f := Core.reqs) (fun _ _ => rfl) c).trans (claim.reqs.trans (congrArg (· ++ [r])
    (((elsewhere_updStrand _ c k _).core_eq (f := Core.reqs) (fun _ _ => rfl) c).trans (reqs_emptyX s.took c k d c))))
  have mem : (x.updStrand c k (·.waits (.reply s.nextId 1) s.cycle nf)).mem = s.mem := claim.sent.mem.trans (mem_emptyX s.took c k d)
  generalize x.updStrand c k (·.waits (.reply s.nextId 1) s.cycle nf) = y at run own others reqs mem
  refine ⟨y, r, run, requested_of reqs claim.who mem (fun e n hn => ?_), own ▸ rfl, ⟨fun h0 => ?_, ?_, ?_, fun h63 => ?_⟩, claim.kind,
    claim.operands.1, claim.operands.2.1, claim.operands.2.2.1, claim.operands.2.2.2⟩
  · rw [others e n (by rintro ⟨rfl, rfl⟩; exact hn ⟨rfl, .inl rfl⟩)]
    exact strand_emptyX_of_not_touched (not_destStrand hn)
  · have empty := full_emptyX s.took c k h0
    by_cases hd : destStrand k d = k
    · rw [hd, strand_emptyX_own] at empty
      rw [hd, State.strand_updStrand_same, own]
      exact empty
    · rw [State.strand_updStrand_ne _ _ (fun e => hd e.2), others _ _ (fun e => hd e.2)]
      exact empty
  · rw [State.strand_updStrand_same, own, id]
    exact ⟨rfl, rfl, (next_emptied _ _).1⟩
  · rw [State.strand_updStrand_same, own]
    exact kept_awaitsChunk (s.strand c k) d s.nextId s.cycle nf
  · rw [State.strand_updStrand_ne _ _ (fun e => succ_ne k e.2), others _ _ (fun e => succ_ne k e.2)]
    exact strand_emptyX_of_not_touched (by rintro ⟨-, e⟩; rw [destStrand, if_neg h63] at e; exact succ_ne k e)

theorem ri_putI (t : Strand) (m n : BitVec 2) (v : Word) : (t.putI m v).ri n = if n = m then v else t.ri n := by
  unfold Strand.ri Strand.putI
  rw [Tab.get_put]
  simp only [BitVec.toNat_inj]

/-- The index registers of a strand that takes an index are full and hold the digits of the index (R93). -/
theorem takeIndex_digits (t : Strand) : (∀ n : BitVec 2, t.takeIndex.full (.i n) = true) ∧
    (t.takeIndex.ri 0).toNat = t.cur.toNat % extent t.ext 0 ∧ (t.takeIndex.ri 1).toNat = t.cur.toNat / extent t.ext 0 % extent t.ext 1 ∧
    (t.takeIndex.ri 2).toNat = t.cur.toNat / (extent t.ext 0 * extent t.ext 1) % extent t.ext 2 ∧
    (t.takeIndex.ri 3).toNat = t.cur.toNat / (extent t.ext 0 * extent t.ext 1 * extent t.ext 2) % extent t.ext 3 := by
  have word : ∀ n m : Nat, (BitVec.ofNat 64 (t.cur.toNat / n % m)).toNat = t.cur.toNat / n % m := fun n m => by
    rw [BitVec.toNat_ofNat, Nat.mod_eq_of_lt]
    exact lt_of_le_of_lt ((Nat.mod_le _ _).trans (Nat.div_le_self _ _)) t.cur.isLt
  have digit : ∀ n, t.takeIndex.ri n = ((((t.putI 0 (BitVec.ofNat 64 (t.cur.toNat % extent t.ext 0))).putI 1
      (BitVec.ofNat 64 (t.cur.toNat / extent t.ext 0 % extent t.ext 1))).putI 2
      (BitVec.ofNat 64 (t.cur.toNat / (extent t.ext 0 * extent t.ext 1) % extent t.ext 2))).putI 3
      (BitVec.ofNat 64 (t.cur.toNat / (extent t.ext 0 * extent t.ext 1 * extent t.ext 2) % extent t.ext 3))).ri n := fun _ => rfl
  refine ⟨?_, ?_, ?_, ?_, ?_⟩
  · have all : ∀ n : BitVec 2, (0xF#4).getLsbD n.toNat = true := by decide
    exact all
  · rw [digit]
    simp only [ri_putI]
    have := word 1 (extent t.ext 0)
    rw [Nat.div_one] at this
    exact this
  · rw [digit]
    simp only [ri_putI]
    exact word _ _
  · rw [digit]
    simp only [ri_putI]
    exact word _ _
  · rw [digit]
    simp only [ri_putI]
    exact word _ _

/-- ITERN hands out the next index of the strand's chunk. -/
theorem execItern_handOut {m : BitVec 12} {u : Bool} {a d : XReg} {s : State} {c : CoreId} {k : StrandId} (h : CanIssue s c k [a] [d])
    (hc : s.claiming c k = false) (nest : (s.strand c k).rx a = (s.strand c k).desc) (left : (s.strand c k).cur < (s.strand c k).endv) :
    exec (.itern m u a d) s = .next ((s.took.handOut c k d).complete c k { names := [a, d], srcs := [sx a u], dsts := [d] } 4) := by
  have idle : ¬s.claiming c k = true := by simp [hc]
  have chunk : ¬((s.strand c k).rx a ≠ (s.strand c k).desc ∨ (s.strand c k).endv ≤ (s.strand c k).cur) := by
    rw [not_or, not_not, BitVec.not_le]
    exact ⟨nest, left⟩
  exact h.completes (usesAre_r u a d) 4 ((if_neg idle).trans (if_neg chunk))

/-- The issuing strand of a producer whose result is in its destination at once. -/
theorem strand_writeX_own (s : State) (c : CoreId) (k : StrandId) (d : XReg) (v : Word) : (s.writeX c k d v).strand c k =
    if d = 63#6 then s.strand c k else ((s.strand c k).putX d v).setF (.x d) true := by
  rw [State.strand_writeX]
  unfold destStrand
  by_cases h : d = 63#6
  · simp [h]
  · simp [h]

/-- The issuing strand after ITERN has handed out an index to it (R169). -/
def Machine.Strand.handed (a : Strand) (d : XReg) : Strand := (if d = 63#6 then a else (a.putX d a.cur).setF (.x d) true).takeIndex

theorem strand_handOut_own (s : State) (c : CoreId) (k : StrandId) (d : XReg) : (s.handOut c k d).strand c k = (s.strand c k).handed d := by
  rw [State.handOut, State.strand_updStrand_same, strand_writeX_own]
  rfl

theorem strand_handOut_ne {s : State} {c e : CoreId} {k n : StrandId} (d : XReg) (h : ¬(e = c ∧ n = k)) :
    (s.handOut c k d).strand e n = (s.writeX c k d (s.strand c k).cur).strand e n := State.strand_updStrand_ne _ _ h

theorem mem_handOut (s : State) (c : CoreId) (k : StrandId) (d : XReg) : (s.handOut c k d).mem = s.mem :=
  (congrArg State.mem (elsewhere_writeX s c k d (s.strand c k).cur).rest :)

/-- What taking an index leaves of a strand (R93). -/
theorem takeIndex_cur (t : Strand) : t.takeIndex.cur = t.cur + 1 := by simp only [Strand.takeIndex]
theorem takeIndex_ext (t : Strand) : t.takeIndex.ext = t.ext := by simp only [Strand.takeIndex, Strand.putI_ext]
theorem takeIndex_pc (t : Strand) : t.takeIndex.pc = t.pc := by simp only [Strand.takeIndex, Strand.putI_pc]
theorem takeIndex_rx (t : Strand) (r : XReg) : t.takeIndex.rx r = t.rx r := by
  simp only [Strand.takeIndex, Strand.rx, Strand.putI_x]

/-- A register written and marked full leaves the iteration state and the pc. -/
theorem fields_putX_setF (a : Strand) (d : XReg) (v : Word) : ((a.putX d v).setF (.x d) true).cur = a.cur ∧
    ((a.putX d v).setF (.x d) true).ext = a.ext ∧ ((a.putX d v).setF (.x d) true).pc = a.pc := by
  by_cases h0 : d = 0#6
  · subst h0
    exact ⟨rfl, rfl, rfl⟩
  · rw [putX_setF a v h0]
    exact ⟨rfl, rfl, rfl⟩

theorem rx_putX_setF {a : Strand} {d r : XReg} (v : Word) (h : r ≠ d) : ((a.putX d v).setF (.x d) true).rx r = a.rx r := by
  rw [Strand.rx_setF]
  by_cases h0 : d = 0#6
  · subst h0
    rfl
  · rw [Strand.rx_putX a d r v h0, if_neg h]

theorem rx_putX_setF_same {a : Strand} {d : XReg} (v : Word) (h0 : d ≠ 0#6) : ((a.putX d v).setF (.x d) true).rx d = v := by
  rw [Strand.rx_setF, Strand.rx_putX a d d v h0, if_pos rfl]

/-- The digits, the next index and the other registers of a strand that ITERN has handed an index to. -/
theorem handed_fields (a : Strand) (d : XReg) : (a.handed d).cur = a.cur + 1 ∧ (a.handed d).pc = a.pc ∧
    (∀ r, r ≠ d → (a.handed d).rx r = a.rx r) ∧ (d ≠ 63#6 → d ≠ 0#6 → (a.handed d).rx d = a.cur) := by
  unfold Strand.handed
  rw [takeIndex_cur, takeIndex_pc]
  by_cases h63 : d = 63#6
  · rw [if_pos h63]
    exact ⟨rfl, rfl, fun r _ => takeIndex_rx a r, fun h => absurd h63 h⟩
  · rw [if_neg h63]
    obtain ⟨cur, -, pc⟩ := fields_putX_setF a d a.cur
    exact ⟨congrArg (· + 1) cur, pc, fun r hr => (takeIndex_rx _ r).trans (rx_putX_setF a.cur hr),
      fun _ h0 => (takeIndex_rx _ d).trans (rx_putX_setF_same a.cur h0)⟩

theorem handed_digits (a : Strand) (d : XReg) : (∀ n : BitVec 2, (a.handed d).full (.i n) = true) ∧
    ((a.handed d).ri 0).toNat = a.cur.toNat % extent a.ext 0 ∧
    ((a.handed d).ri 1).toNat = a.cur.toNat / extent a.ext 0 % extent a.ext 1 ∧
    ((a.handed d).ri 2).toNat = a.cur.toNat / (extent a.ext 0 * extent a.ext 1) % extent a.ext 2 ∧
    ((a.handed d).ri 3).toNat = a.cur.toNat / (extent a.ext 0 * extent a.ext 1 * extent a.ext 2) % extent a.ext 3 := by
  have digits := takeIndex_digits (if d = 63#6 then a else (a.putX d a.cur).setF (.x d) true)
  have iteration : (if d = 63#6 then a else (a.putX d a.cur).setF (.x d) true).cur = a.cur ∧
      (if d = 63#6 then a else (a.putX d a.cur).setF (.x d) true).ext = a.ext := by
    split
    · exact ⟨rfl, rfl⟩
    · exact ⟨(fields_putX_setF a d a.cur).1, (fields_putX_setF a d a.cur).2.1⟩
  rw [iteration.1, iteration.2] at digits
  exact digits

theorem iterates : Iterates := by
  intro m u a d s c k pa leaf t0 va e h hc
  refine ⟨fun ho aligned hr free => iter_claims h hc ho aligned hr free,
    fun ho used aligned hr free => itern_claims h hc ho used aligned hr free, fun nest left => ?_⟩
  have own : ((s.took.handOut c k d).complete c k { names := [a, d], srcs := [sx a u], dsts := [d] } 4).strand c k =
      (t0.handed d).ended (s.took.handOut c k d).cycle 4 (Uses.readsNf { names := [a, d], srcs := [sx a u], dsts := [d] }) := by
    rw [State.complete_eq, State.strand_updStrand_same, strand_handOut_own]
    rfl
  have others : ∀ f n, ¬(f = c ∧ n = k) → ((s.took.handOut c k d).complete c k { names := [a, d], srcs := [sx a u], dsts := [d] } 4).strand f n =
      (s.took.writeX c k d t0.cur).strand f n := by
    intro f n hn
    rw [State.complete_eq, State.strand_updStrand_ne _ _ hn, strand_handOut_ne d hn]
    rfl
  have mem : ((s.took.handOut c k d).complete c k { names := [a, d], srcs := [sx a u], dsts := [d] } 4).mem = s.mem := mem_handOut s.took c k d
  refine ⟨_, execItern_handOut h hc nest left, ?_⟩
  generalize (s.took.handOut c k d).complete c k _ 4 = x at own others mem
  obtain ⟨cur, pc, regs, dest⟩ := handed_fields t0 d
  obtain ⟨full, d0, d1, d2, d3⟩ := handed_digits t0 d
  refine ⟨fun h0 => ?_, ?_, ?_, ?_, ?_, ?_, ?_, ?_, ?_, fun _ => by rw [mem], fun f n hn => ?_⟩
  · by_cases hd : destStrand k d = k
    · rw [hd, own]
      exact dest (fun h63 => by rw [h63] at hd; exact succ_ne k hd) h0
    · rw [others c _ (fun e => hd e.2), State.strand_writeX, if_pos ⟨rfl, rfl⟩]
      exact rx_putX_setF_same t0.cur h0
  · rw [own]; exact full
  · rw [own]; exact d0
  · rw [own]; exact d1
  · rw [own]; exact d2
  · rw [own]; exact d3
  · rw [own]; exact cur
  · rw [own]; exact congrArg (· + 4#48) pc
  · rw [own]; exact regs
  · rw [others f n (by rintro ⟨rfl, rfl⟩; exact hn ⟨rfl, mem_touched n d⟩), State.strand_writeX,
      if_neg (by rintro ⟨rfl, rfl⟩; exact hn ⟨rfl, destStrand_mem_touched k d⟩)]
    rfl

/-- Settles O13: what EXIT, YIELD, SUSPEND and WAITW leave of a run, and the claims and indices of ITER and ITERN. -/
theorem runsEndAndIterate : Obligations.RunsEndAndIterate := ⟨exits, setsAside, iterates⟩

end Sys2Proof

/-! ## Blocks of the retention rings, and entries of cores (spec/18_optimistic.md R345, spec/01_work.md R18) -/

namespace Sys2Proof.Machine

/-- The block of a task bears its identity. -/
theorem Core.ident_of_blockOf {v : Core} {i : Ident} {b : Block} (h : v.blockOf i = some b) : b.t.t.ident = i := by
  simpa using List.find?_some h

theorem Core.mem_of_blockOf {v : Core} {i : Ident} {b : Block} (h : v.blockOf i = some b) : b ∈ v.rings := List.mem_of_find?_eq_some h

/-- A core with other rings of the same length and identities. -/
theorem blockOf_updBlock {s : State} {c : CoreId} {i : Ident} {f : Block → Block} (hf : ∀ b, (f b).t.t.ident = b.t.t.ident) :
    ((s.updBlock c i f).core c).blockOf i = ((s.core c).blockOf i).map f := by
  have keep : ((fun b : Block => b.t.t.ident == i) ∘ fun b => if (b.t.t.ident == i) = true then f b else b) = fun b => b.t.t.ident == i := by
    funext b
    dsimp only [Function.comp]
    split
    · rw [hf]
    · rfl
  unfold Core.blockOf
  rw [core_updBlock]
  dsimp only
  rw [List.find?_map, keep]
  cases h : List.find? (fun b : Block => b.t.t.ident == i) (s.core c).rings with
  | none => rfl
  | some b =>
    have found := List.find?_some h
    rw [Option.map_some, Option.map_some, if_pos found]

/-- The value at an index meets a test only where a listed one does, or the default. -/
theorem Tab.any_of_get {α : Type} {p : α → Bool} {d : α} (hd : p d = false) {t : Tab α} {k : Nat} (h : p (Tab.get d t k) = true) :
    (t.any fun e => p e.2) = true := by
  induction t with
  | nil => rw [Tab.get, hd] at h; cases h
  | cons e r ih =>
    obtain ⟨m, v⟩ := e
    rw [List.any_cons, Bool.or_eq_true]
    unfold Tab.get at h
    split at h
    · exact .inl h
    · exact .inr (ih h)

/-- A value that meets a test as the one before it did leaves what any value of the table meets. -/
theorem Tab.any_put {α : Type} {p : α → Bool} {d : α} (hd : p d = false) {t : Tab α} {k : Nat} {v : α} (h : p v = p (Tab.get d t k)) :
    ((Tab.put t k v).any fun e => p e.2) = t.any fun e => p e.2 := by
  induction t with
  | nil => simpa [Tab.put, Tab.get, hd] using h
  | cons e r ih =>
    obtain ⟨m, w⟩ := e
    unfold Tab.put
    by_cases hm : m = k
    · rw [Tab.get, if_pos hm] at h
      rw [if_pos hm, List.any_cons, List.any_cons, h]
    · by_cases hlt : k < m
      · rw [if_neg hm, if_pos hlt, List.any_cons]
        cases hp : p v with
        | false => rfl
        | true => rw [Tab.any_of_get hd (h ▸ hp)]; rfl
      · rw [Tab.get, if_neg hm] at h
        rw [if_neg hm, if_neg hlt, List.any_cons, List.any_cons, ih h]

/-- A change of a core that keeps its entries keeps the live identities (R18). -/
theorem identLive_updCore {s : State} {c : CoreId} {f : Core → Core} (hf : (f (s.core c)).tasks = (s.core c).tasks) (i : Ident) :
    (s.updCore c f).identLive i = s.identLive i := by
  have cores := Tab.any_put (p := fun v : Core => v.tasks.any fun q => q.t.ident == i) (d := { pts := s.ptsIdle }) rfl (t := s.cores)
    (k := c.toNat) (v := f (s.core c)) (congrArg (List.any · fun q => q.t.ident == i) hf)
  have split : ∀ (x y z : List QEntry) (p : QEntry → Bool), (x ++ y ++ z).any p = (x.any p || (y ++ z).any p) := fun x y z p => by
    rw [List.append_assoc, List.any_append]
  refine (split _ _ _ _).trans (Eq.trans ?_ (split _ _ _ _).symm)
  refine congrArg₂ (· || ·) ?_ rfl
  rw [List.any_flatMap, List.any_flatMap]
  exact cores

theorem seqFree_updCore {s : State} {c : CoreId} {f : Core → Core} (ht : (f (s.core c)).tasks = (s.core c).tasks)
    (hs : (f (s.core c)).seq = (s.core c).seq) : (s.updCore c f).seqFree c = s.seqFree c := by
  unfold State.seqFree
  rw [identLive_updCore ht, State.core_updCore_same, hs]
  rfl

end Sys2Proof.Machine

/-! ## The steps of a commit (spec/18_optimistic.md R363, spec/10_isa_memory.md R221) -/

namespace Sys2Proof

open Machine

/-- A block whose commit is under way and waits for nothing. -/
def Machine.Block.commits (b : Block) : Block := { b with ts := .committing, wait := none }

/-- The state in which the next entry of a commit is performed. -/
def Machine.State.enterCommit (s : State) (c : CoreId) (i : Ident) : State := s.updBlock c i Block.commits

theorem blockOf_enterCommit {s : State} {c : CoreId} {i : Ident} {b : Block} (h : (s.core c).blockOf i = some b) :
    ((s.enterCommit c i).core c).blockOf i = some b.commits := by
  rw [State.enterCommit, blockOf_updBlock (f := Block.commits) (fun _ => rfl), h]
  rfl

theorem core_enterCommit (s : State) (c : CoreId) (i : Ident) : (s.enterCommit c i).core c =
    { s.core c with rings := (s.core c).rings.map fun b => if b.t.t.ident == i then b.commits else b } := core_updBlock s c i _

theorem seqFree_enterCommit (s : State) (c : CoreId) (i : Ident) : (s.enterCommit c i).seqFree c = s.seqFree c := by
  refine seqFree_updCore (f := fun v => { v with rings := v.rings.map fun b => if b.t.t.ident == i then b.commits else b }) ?_ rfl
  have rings : ((s.core c).rings.map fun b => if b.t.t.ident == i then b.commits else b).map (·.t) = (s.core c).rings.map (·.t) := by
    rw [List.map_map]
    refine List.map_congr_left fun b _ => ?_
    dsimp only [Function.comp]
    split <;> rfl
  unfold Core.tasks
  dsimp only
  rw [rings]

/-- A commit that may go on performs the entries of its plan. -/
theorem commit_of_ready {s : State} {c : CoreId} {i : Ident} {b : Block} (h : (s.core c).blockOf i = some b) (hw : b.wait = none)
    (hr : b.ts = .committing ∨ (b.ts = .done ∧ b.t.t.vt < ((s.job b.job).leaf (.core c)).gvt)) :
    s.commit c i = (s.enterCommit c i).commitRun c i (b.log.length + 1) := by
  have goes : ¬(false || (b.ts != .done && b.ts != .committing)) = true := by rcases hr with hr | ⟨hr, -⟩ <;> simp [hr]
  have below : ¬(b.ts == .done && !decide (b.t.t.vt < ((s.job b.job).leaf (.core c)).gvt)) = true := by
    rcases hr with hr | ⟨hr, hv⟩
    · simp [hr]
    · simp [hv]
  unfold State.commit
  rw [h]
  dsimp only
  rw [hw]
  exact (if_neg goes).trans (if_neg below)

section

variable {s : State} {c : CoreId} {i : Ident} {b : Block} (h : (s.core c).blockOf i = some b) (n : Nat)

include h

theorem commitRun_end (he : b.plan[b.next]? = none) : s.commitRun c i (n + 1) = s.endCommit c b := by
  unfold State.commitRun
  rw [h]
  dsimp only
  rw [he]

theorem commitRun_held {e : LogEntry} (he : b.plan[b.next]? = some e) (ha : e.isAction = true) (hb : s.actsBefore c b = true) :
    s.commitRun c i (n + 1) = s.push 8 .commitStep { c := c, t := i } := by
  unfold State.commitRun
  rw [h]
  dsimp only
  rw [he]
  exact if_pos (by rw [ha, hb]; rfl)

theorem commitRun_wait {e : LogEntry} (he : b.plan[b.next]? = some e) (hb : ¬(e.isAction && s.actsBefore c b) = true) {t : State} {id : Nat}
    (ht : s.commitEntry c b e = .wait t id) :
    s.commitRun c i (n + 1) = t.updBlock c i fun b => { b with next := b.next + 1, wait := some id } := by
  unfold State.commitRun
  rw [h]
  dsimp only
  rw [he]
  refine (if_neg hb).trans ?_
  rw [ht]

theorem commitRun_done {e : LogEntry} (he : b.plan[b.next]? = some e) (hb : ¬(e.isAction && s.actsBefore c b) = true) {t : State}
    (ht : s.commitEntry c b e = .done t) :
    s.commitRun c i (n + 1) = (t.updBlock c i fun b => { b with next := b.next + 1, wait := none }).commitRun c i n := by
  conv_lhs => unfold State.commitRun
  rw [h]
  dsimp only
  rw [he]
  refine (if_neg hb).trans ?_
  rw [ht]

theorem commitRun_again {e : LogEntry} (he : b.plan[b.next]? = some e) (hb : ¬(e.isAction && s.actsBefore c b) = true)
    (ht : s.commitEntry c b e = .again) : s.commitRun c i (n + 1) = s.push 64 .commitStep { c := c, t := i } := by
  unfold State.commitRun
  rw [h]
  dsimp only
  rw [he]
  refine (if_neg hb).trans ?_
  rw [ht]

end

/-- Blocks are found in the rings of a core alone. -/
theorem blockOf_congr {v w : Core} (h : w.rings = v.rings) (i : Ident) : w.blockOf i = v.blockOf i := congrArg (List.find? fun b : Block => b.t.t.ident == i) h

/-- The block of a commit that has taken a step. -/
theorem blockOf_stepped {s t : State} {c : CoreId} {i : Ident} {b : Block} (h : (s.core c).blockOf i = some b)
    (rings : (t.core c).rings = (s.core c).rings) (w : Option Nat) :
    ((t.updBlock c i fun b => { b with next := b.next + 1, wait := w }).core c).blockOf i = some { b with next := b.next + 1, wait := w } := by
  rw [blockOf_updBlock (f := fun b => { b with next := b.next + 1, wait := w }) (fun _ => rfl), blockOf_congr rings, h]
  rfl

/-- The message of a request that waits for nothing is under way (R310). -/
theorem find_inject (s : State) (n : Nat) (m : Msg) :
    Tab.find (s.inject n m).msgs n = some { m with due := List.range m.fcnt, got := [], refused := false } := by
  have msgs : (s.inject n m).msgs = Tab.put s.msgs n { m with due := List.range m.fcnt, got := [], refused := false } := by
    unfold State.inject
    split <;> rfl
  rw [msgs, Tab.find_put_same]

theorem sentMsg_request {s : State} {r : Req} (hk : (r.kind == .verst) = false) (ha : r.after = []) : sentMsg (s.request r) s.nextId ≠ none := by
  unfold State.request State.launchReq sentMsg
  dsimp only
  rw [if_pos ha, hk, if_neg (by decide), find_inject]
  exact Option.some_ne_none _

/-- A step of a commit that sends a request waits for its acknowledgement. -/
theorem commitRun_request {s : State} {c : CoreId} {i : Ident} {b : Block} {e : LogEntry} {r : Req} (n : Nat) (h : (s.core c).blockOf i = some b)
    (he : b.plan[b.next]? = some e) (ha : e.isAction = false) (hc : s.commitEntry c b e = .wait (s.request r) s.nextId) (hr : r.core = c)
    (hk : (r.kind == .verst) = false) (hf : r.after = []) :
    ∃ t, s.commitRun c i (n + 1) = t ∧ (t.core c).reqs = (s.core c).reqs ++ [{ r with id := s.nextId }] ∧ sentMsg t s.nextId ≠ none ∧
      (t.core c).blockOf i = some { b with next := b.next + 1, wait := some s.nextId } ∧ t.mem = s.mem := by
  have sent := SendsFrom.request s hr
  refine ⟨_, commitRun_wait h n he (by rw [ha]; simp) hc, ?_, sentMsg_request hk hf, blockOf_stepped h sent.rings _, sent.mem⟩
  rw [core_updBlock, core_request s hr]

/-- A task that precedes a committing one holds its actions up. -/
theorem actsBefore_enterCommit {s : State} {c : CoreId} {i : Ident} {b x : Block} (hx : x ∈ (s.core c).rings) (hi : x.t.t.ident ≠ i)
    (hj : x.job = b.job) (hk : x.t.key < b.t.key) (ht : x.ts = .committing) (ha : ∃ e ∈ x.plan.drop x.next, e.isAction = true) :
    (s.enterCommit c i).actsBefore c b.commits = true := by
  have stays : x ∈ ((s.enterCommit c i).core c).rings := by
    rw [core_enterCommit]
    exact List.mem_map.2 ⟨x, hx, if_neg (by simpa using hi)⟩
  unfold State.actsBefore
  rw [List.any_eq_true]
  refine ⟨x, stays, ?_⟩
  simp only [Bool.and_eq_true, beq_iff_eq, decide_eq_true_eq, List.any_eq_true]
  exact ⟨⟨⟨hj, ht⟩, hk⟩, ha⟩

theorem actsBefore_enterCommit_of_first {s : State} {c : CoreId} {i : Ident} {b : Block}
    (hf : ∀ x ∈ (s.core c).rings, x.job = b.job → x.t.key < b.t.key → x.ts = .committing → ¬∃ e ∈ x.plan.drop x.next, e.isAction = true)
    (hi : ∀ x ∈ (s.core c).rings, x.t.key < b.t.key → x.t.t.ident ≠ i) : (s.enterCommit c i).actsBefore c b.commits = false := by
  unfold State.actsBefore
  rw [core_enterCommit, List.any_eq_false]
  intro y hy
  obtain ⟨x, hx, rfl⟩ := List.mem_map.1 hy
  by_cases same : x.t.t.ident = i
  · rw [if_pos (by simpa using same)]
    have later : ¬x.t.key < b.t.key := fun hk => hi x hx hk same
    have later : decide (x.commits.t.key < b.commits.t.key) = false := decide_eq_false later
    simp [later]
  · rw [if_neg (by simpa using same)]
    simp only [Bool.and_eq_true, beq_iff_eq, decide_eq_true_eq, List.any_eq_true]
    rintro ⟨⟨⟨hj, ht⟩, hk⟩, ha⟩
    exact hf x hx hj hk ht ha

/-- A deferred spawn enters the send buffer with the next sequence value (R421). -/
theorem commitEntry_spawn {s : State} {c : CoreId} {b : Block} {u : Task} (hs : s.seqFree c = true) (hr : (s.core c).sendRoom = true) :
    ∃ t e, s.commitEntry c b (.spawn u) = .wait t s.nextId ∧ SendsFrom (s.updCore c fun v => { v with seq := v.seq + 1 }) t c ∧
      (t.core c).sendBuf = (s.core c).sendBuf ++ [e] ∧ e.m = s.nextId ∧
      e.t = { t := { u with odev := s.devnum, origin := c, seq := (s.core c).seq }, pinned := u.kind == 0x11#6 } ∧
      (s.now, Instr.sendBufferDeparture, ({ c := c, n := s.nextId } : StepArg)) ∈ t.agenda := by
  have room : ¬(!s.seqFree c || !(s.core c).sendRoom) = true := by simp [hs, hr]
  obtain ⟨entered, buf⟩ := SendsFrom.enterSend (s.updCore c fun v => { v with seq := v.seq + 1 }) c 0
    { t := { u with odev := s.devnum, origin := c, seq := (s.core c).seq }, pinned := u.kind == 0x11#6 }
    ((s.launch b.job u.lslot).destOf c { u with odev := s.devnum, origin := c, seq := (s.core c).seq }) []
  rw [State.core_updCore_same] at buf
  exact ⟨_, _, if_neg room, entered, buf, rfl, rfl, State.mem_agenda_push.2 (.inl rfl)⟩

theorem commitEntry_spawn_again {s : State} {c : CoreId} {b : Block} {u : Task} (h : s.seqFree c = false ∨ (s.core c).sendRoom = false) :
    s.commitEntry c b (.spawn u) = .again := by
  have full : (!s.seqFree c || !(s.core c).sendRoom) = true := by rcases h with h | h <;> simp [h]
  exact if_pos full

/-- The request of a deferred action. -/
def deferredReq (s : State) (c : CoreId) (b : Block) (sig : Bool) (v : Word) (va : BitVec 48) (pc : BitVec 48) (insn : BitVec 32) : Req :=
  { id := s.nextId, kind := if sig then .stff else .store, core := c, job := b.job, lslot := b.lslot, va := va, size := 8, w0 := v,
    mask := BitVec.allOnes 128, pc := pc, insn := insn, vt := b.t.t.vt, ident := b.t.t.ident, isStore := true }

/-- A request with its number, of a core. -/
theorem core_requestAs (s : State) {r : Req} {c : CoreId} (hr : r.core = c) :
    SendsFrom s (s.requestAs r) c ∧ ((s.requestAs r).core c).reqs = (s.core c).reqs ++ [r] := by
  subst hr
  have listed := SendsFrom.updCore s r.core (f := fun v => { v with reqs := v.reqs ++ [r] }) fun _ => rfl
  have reqs : ((s.updCore r.core fun v => { v with reqs := v.reqs ++ [r] }).core r.core).reqs = (s.core r.core).reqs ++ [r] :=
    congrArg Core.reqs (State.core_updCore_same s _ _)
  unfold State.requestAs
  dsimp only
  split
  · exact ⟨listed.trans ((Sends.launchReq _ _).from r.core), (congrArg Core.reqs ((Sends.launchReq _ _).core r.core)).trans reqs⟩
  · exact ⟨listed, reqs⟩

/-- The place of an access in a local window, by the checks of R170 and R171. -/
theorem placeOf_window {s : State} {c d : CoreId} {j : JobId} {va : BitVec 48} {n off : Nat} (need : Need) (hw : windowOf c va = some (d, off)) :
    s.placeOf c j va n need =
      (s, match s.localCheck d j off n with | some cls => .inr cls | none => .inl (.loc d off, 0, false)) := by
  unfold State.placeOf
  dsimp only
  rw [hw]
  dsimp only
  cases s.localCheck d j off n <;> rfl

section

variable {s : State} {r : Req} {d : CoreId} {off : Nat} (hw : windowOf r.core r.va = some (d, off))

include hw

/-- An access in a local window that the checks refuse faults. -/
theorem perform_fault {cls : Nat} (hl : s.localCheck d r.job off r.size = some cls) : s.perform r = .fault cls s := by
  unfold State.perform
  dsimp only
  rw [placeOf_window .w hw, hl]

/-- A store in the own bank is performed at once. -/
theorem perform_own (hl : s.localCheck d r.job off r.size = none) (hd : d = r.core) (hk : r.kind = .store) :
    s.perform r = .done (s.localWrite r.core off r.bytes) := by
  unfold State.perform
  dsimp only
  rw [placeOf_window .w hw, hl]
  refine (if_pos ⟨hd, by rw [hk]; decide⟩).trans ?_
  rw [hk]

/-- A store elsewhere, or with a signal, is sent as a request. -/
theorem perform_sent (hl : s.localCheck d r.job off r.size = none) (hd : d ≠ r.core ∨ r.kind = .stff) :
    ∃ q : Req, s.perform r = .sent (s.requestAs q) ∧ q.core = r.core ∧ q.id = r.id ∧ q.kind = r.kind ∧ q.w0 = r.w0 ∧ q.job = r.job ∧
      q.pa = s.devnum ++ BitVec.ofNat 46 (localBase d + off) := by
  have elsewhere : ¬(d = r.core ∧ (!(r.kind == .stff || r.kind == .fepurge)) = true) := by
    rintro ⟨same, none⟩
    rcases hd with hd | hd
    · exact hd same
    · rw [hd] at none
      exact absurd none (by decide)
  unfold State.perform
  dsimp only
  rw [placeOf_window .w hw, hl]
  exact ⟨_, if_neg elsewhere, rfl, rfl, rfl, rfl, rfl, rfl⟩

end

/-- Bytes written to slots of a local memory that no engine holds. -/
theorem mem_localWrite_of_idle {s : State} {c : CoreId} {off : Nat} {bs : List Byte} (h : ∀ n ∈ slotsOf off bs.length, (s.slot c n).busy = false) :
    (s.localWrite c off bs).mem = Memory.write s.mem (localBase c + off) bs := by
  have idle : ((slotsOf off bs.length).any fun t => (s.slot c t).busy) = false := by
    rw [List.any_eq_false]
    intro n hn
    simp [h n hn]
  simp only [State.localWrite, idle, Bool.false_eq_true, if_false]

theorem core_clearPoison (s : State) (a n : Nat) (c : CoreId) : (s.clearPoison a n).core c = s.core c := by
  unfold State.clearPoison State.setPoison
  split
  · rfl
  · rfl

theorem rings_localWrite (s : State) (c : CoreId) (off : Nat) (bs : List Byte) : ((s.localWrite c off bs).core c).rings = (s.core c).rings := by
  show ((State.clearPoison (if (s.core c).wb = [] then s else _) _ _).core c).rings = _
  rw [core_clearPoison]
  split
  · rfl
  · rw [State.core_updCore_same]
    unfold Core.dropWb
    split <;> rfl

/-- A packet stands last among those of its core. -/
theorem core_sendPacket (s : State) (p : Packet) : (s.sendPacket p).core p.core = { s.core p.core with pktq := (s.core p.core).pktq ++ [p] } :=
  State.core_updCore_same s p.core fun v => { v with pktq := v.pktq ++ [p] }

/-- The entry that an access leaves in the side log (R383). -/
def logged (s : State) (r : Req) (kind cls : Nat) : SlEntry :=
  { kind := kind, strand := if kind = 10 then r.strand else 0, st := 1, sz := 3, va := r.va, cls := cls, job := r.job, pc := r.pc,
    data := r.w0.setWidth 128, ord := s.nextId, lslot := r.lslot, vt := r.vt, insn := r.insn, ident := r.ident }

/-- A deferred action that faults enters the side log with its packet (R383). -/
theorem enterLog_deferred {s : State} {r : Req} {kind cls i : Nat} (hk : kind = 8 ∨ kind = 9) (ha : s.autokill r.job cls = false) :
    ∃ e p, ((s.enterLog r kind cls i).core r.core) =
        { s.core r.core with slog := Tab.put (s.core r.core).slog i e, pktq := (s.core r.core).pktq ++ [p] } ∧
      (s.enterLog r kind cls i).mem = s.mem ∧ (e.kind = kind ∧ e.strand = 0 ∧ e.st = 1 ∧ e.va = r.va ∧ e.cls = cls ∧ e.job = r.job ∧
        e.pc = r.pc ∧ e.data = r.w0.setWidth 128 ∧ e.ident = r.ident) ∧
      p.cls = cls ∧ p.defer = true ∧ p.slog = true ∧ p.pc = r.pc ∧ p.addr = r.va.setWidth 64 := by
  have entered : (s.enterLog r kind cls i) = ((s.bumpId.updCore r.core fun x => { x with slog := Tab.put x.slog i (logged s r kind cls) }).countFault
      r.job r.lslot r.vt cls (firstWord r.core (logged s r kind cls).strand r.pc)).sendPacket (s.slogPacket r.core i (logged s r kind cls)) := by
    have lives : ¬(s.slogPacket r.core i (logged s r kind cls)).autok = true := by
      show ¬s.autokill r.job cls = true
      simp [ha]
    exact if_neg lives
  have deferred : (kind == 8 || kind == 9) = true := by simpa using hk
  refine ⟨logged s r kind cls, s.slogPacket r.core i (logged s r kind cls), ?_, by rw [entered]; rfl,
    ⟨rfl, if_neg (by omega), rfl, rfl, rfl, rfl, rfl, rfl, rfl⟩, rfl, deferred, rfl, rfl, rfl⟩
  rw [entered]
  refine (core_sendPacket _ _).trans ?_
  exact congrArg (fun v : Core => { v with pktq := v.pktq ++ [s.slogPacket r.core i (logged s r kind cls)] })
    (State.core_updCore_same s.bumpId r.core fun x => { x with slog := Tab.put x.slog i (logged s r kind cls) })

/-- The end of a commit frees the block and changes nothing else but the counts of its job. -/
theorem endCommit_tallies (s : State) (c : CoreId) (b : Block) :
    Tallies (s.updCore c fun v => { v with rings := v.rings.filter fun x => !(x.t.t.ident == b.t.t.ident) }) (s.endCommit c b) := by
  unfold State.endCommit
  dsimp only
  split
  · exact (Tallies.countRetired _ _ _ _).trans (Tallies.checkDone _ _ _)
  · exact Tallies.retire _ _ _ _

theorem core_endCommit (s : State) (c : CoreId) (b : Block) : (s.endCommit c b).core c =
    { s.core c with rings := (s.core c).rings.filter fun x => !(x.t.t.ident == b.t.t.ident) } :=
  ((endCommit_tallies s c b).core c).trans (State.core_updCore_same s c _)

theorem blockOf_endCommit (s : State) (c : CoreId) (b : Block) : ((s.endCommit c b).core c).blockOf b.t.t.ident = none := by
  unfold Core.blockOf
  rw [core_endCommit, List.find?_eq_none]
  intro x hx
  simpa using (List.mem_filter.1 hx).2

theorem commitEntry_deferred_again {s : State} {c : CoreId} {b : Block} (sig : Bool) (v : Word) (va pc : BitVec 48) (insn : BitVec 32)
    (h : (s.core c).slFree = none) : s.commitEntry c b (.deferred sig v va pc insn) = .again := by
  unfold State.commitEntry
  dsimp only
  rw [h]

theorem commitEntry_deferred {s : State} {c : CoreId} {b : Block} (sig : Bool) (v : Word) (va pc : BitVec 48) (insn : BitVec 32) {i : Nat}
    (h : (s.core c).slFree = some i) : s.commitEntry c b (.deferred sig v va pc insn) =
      match s.bumpId.perform (deferredReq s c b sig v va pc insn) with
      | .fault cls s' => .done (s'.enterLog (deferredReq s c b sig v va pc insn) (if sig then 9 else 8) cls i)
      | .done s' => .done s'
      | .sent s' => .wait s' s.nextId := by
  unfold State.commitEntry
  dsimp only
  rw [h]
  rfl

theorem bytes_deferredReq (s : State) (c : CoreId) (b : Block) (v : Word) (va pc : BitVec 48) (insn : BitVec 32) :
    (deferredReq s c b false v va pc insn).bytes = leBytes 8 v.toNat := by
  have word : ((0#64 : Word) ++ v).toNat = v.toNat := by
    rw [BitVec.toNat_append]
    simp
  exact (congrArg (toBytes 8) word).trans (toBytes_eq_leBytes 8 v.toNat)

/-- The last entry of a plan, performed at once, ends the commit. -/
theorem commitRun_last {s : State} {c : CoreId} {i : Ident} {b : Block} {e : LogEntry} {t : State} (n : Nat) (h : (s.core c).blockOf i = some b)
    (he : b.plan[b.next]? = some e) (hb : ¬(e.isAction && s.actsBefore c b) = true) (hc : s.commitEntry c b e = .done t)
    (rings : (t.core c).rings = (s.core c).rings) (last : b.plan[b.next + 1]? = none) :
    s.commitRun c i (n + 2) = (t.updBlock c i fun b => { b with next := b.next + 1, wait := none }).endCommit c { b with next := b.next + 1, wait := none } :=
  (commitRun_done h (n + 1) he hb hc).trans (commitRun_end (blockOf_stepped h rings none) n last)

/-- What the last step of a commit leaves. -/
theorem ended_commit {t : State} {c : CoreId} {i : Ident} {b : Block} (hi : b.t.t.ident = i) :
    (((t.updBlock c i fun b => { b with next := b.next + 1, wait := none }).endCommit c { b with next := b.next + 1, wait := none }).core c).blockOf i =
      none ∧
    ((t.updBlock c i fun b => { b with next := b.next + 1, wait := none }).endCommit c { b with next := b.next + 1, wait := none }).mem = t.mem ∧
    { ((t.updBlock c i fun b => { b with next := b.next + 1, wait := none }).endCommit c { b with next := b.next + 1, wait := none }).core c with
      rings := (t.core c).rings } = t.core c := by
  refine ⟨hi ▸ blockOf_endCommit _ c _, (endCommit_tallies _ c _).mem, ?_⟩
  rw [core_endCommit, core_updBlock]

/-- A deferred action to another core, or with a signal, is sent as a request (R221). -/
theorem commitEntry_deferred_sent {s : State} {c d : CoreId} {b : Block} {sig : Bool} (v : Word) {va : BitVec 48} (pc : BitVec 48) (insn : BitVec 32)
    {i off : Nat} (hf : (s.core c).slFree = some i) (hw : windowOf c va = some (d, off)) (hl : s.localCheck d b.job off 8 = none)
    (hd : d ≠ c ∨ sig = true) :
    ∃ t r, s.commitEntry c b (.deferred sig v va pc insn) = .wait t s.nextId ∧ SendsFrom s t c ∧ (t.core c).reqs = (s.core c).reqs ++ [r] ∧
      r.id = s.nextId ∧ r.kind = (if sig = true then .stff else .store) ∧ r.w0 = v ∧
      r.pa = s.devnum ++ BitVec.ofNat 46 (localBase d + off) ∧ r.job = b.job := by
  obtain ⟨q, run, core, id, kind, word, job, pa⟩ := perform_sent (s := s.bumpId) (r := deferredReq s c b sig v va pc insn) hw hl
    (hd.imp_right fun hs => by subst hs; rfl)
  obtain ⟨sent, reqs⟩ := core_requestAs s.bumpId (r := q) core
  refine ⟨s.bumpId.requestAs q, q, ?_, ((Sends.bumpId s).from c).trans sent, reqs, id, kind, word, pa, job⟩
  rw [commitEntry_deferred sig v va pc insn hf, run]

/-- A deferred action to the own bank is performed at once (R221). -/
theorem commitEntry_deferred_own {s : State} {c : CoreId} {b : Block} (v : Word) {va : BitVec 48} (pc : BitVec 48) (insn : BitVec 32)
    {i off : Nat} (hf : (s.core c).slFree = some i) (hw : windowOf c va = some (c, off)) (hl : s.localCheck c b.job off 8 = none)
    (hi : ∀ n ∈ slotsOf off 8, (s.slot c n).busy = false) :
    ∃ t, s.commitEntry c b (.deferred false v va pc insn) = .done t ∧ (t.core c).rings = (s.core c).rings ∧
      t.mem = Memory.write s.mem (localBase c + off) (leBytes 8 v.toNat) := by
  have run := perform_own (s := s.bumpId) (r := deferredReq s c b false v va pc insn) hw hl rfl rfl
  rw [bytes_deferredReq] at run
  refine ⟨s.bumpId.localWrite c off (leBytes 8 v.toNat), ?_, rings_localWrite s.bumpId c off _, mem_localWrite_of_idle (s := s.bumpId) hi⟩
  rw [commitEntry_deferred false v va pc insn hf, run]
  rfl

/-- A deferred action that faults is in the side log (R221, R383). -/
theorem commitEntry_deferred_fault {s : State} {c d : CoreId} {b : Block} (sig : Bool) (v : Word) {va : BitVec 48} (pc : BitVec 48)
    (insn : BitVec 32) {i off cls : Nat} (hf : (s.core c).slFree = some i) (hw : windowOf c va = some (d, off))
    (hl : s.localCheck d b.job off 8 = some cls) :
    s.commitEntry c b (.deferred sig v va pc insn) =
      .done (s.bumpId.enterLog (deferredReq s c b sig v va pc insn) (if sig then 9 else 8) cls i) := by
  rw [commitEntry_deferred sig v va pc insn hf, perform_fault (s := s.bumpId) (r := deferredReq s c b sig v va pc insn) hw hl]

/-- An entry of a plan stands in the log, so that the steps of a commit have fuel for the one behind it. -/
theorem length_of_plan {b : Block} {n : Nat} {e : LogEntry} (h : b.plan[n]? = some e) : ∃ m, b.log.length = m + 1 := by
  have member := List.mem_of_getElem? h
  have logged : e ∈ b.log := by
    rcases List.mem_append.1 member with h | h <;> exact (List.mem_filter.1 h).1
  exact Nat.exists_eq_succ_of_ne_zero fun zero => by
    rw [List.length_eq_zero_iff.1 zero] at logged
    cases logged

/-- Slots and their checks are as they were. -/
theorem slot_enterCommit (s : State) (c : CoreId) (i : Ident) (d : CoreId) (n : Nat) : (s.enterCommit c i).slot d n = s.slot d n := by
  have tiles : ((s.enterCommit c i).core d).tiles = (s.core d).tiles := by
    unfold State.enterCommit State.updBlock
    rw [State.core_updCore]
    split
    · subst d; rfl
    · rfl
  exact congrArg (Tab.get {} · n) tiles

theorem localCheck_enterCommit (s : State) (c : CoreId) (i : Ident) (d : CoreId) (j : JobId) (off n : Nat) :
    (s.enterCommit c i).localCheck d j off n = s.localCheck d j off n := by
  unfold State.localCheck
  simp only [slot_enterCommit]

theorem commit_waits {s : State} {c : CoreId} {i : Ident} {b : Block} (h : (s.core c).blockOf i = some b) {id : Nat} (hw : b.wait = some id)
    (ho : (∃ r ∈ (s.core c).reqs, r.id = id) ∨ ∃ e ∈ (s.core c).sendBuf, e.m = id) : s.commit c i = s := by
  have waits : (((s.core c).reqs.any fun r => r.id == id) || (s.core c).sendBuf.any fun e => e.m == id) = true := by
    simpa only [Bool.or_eq_true, List.any_eq_true, beq_iff_eq] using ho
  unfold State.commit
  rw [h]
  dsimp only
  rw [hw]
  refine if_pos ?_
  dsimp only
  rw [waits]
  rfl

theorem commit_early {s : State} {c : CoreId} {i : Ident} {b : Block} (h : (s.core c).blockOf i = some b)
    (hb : (b.ts ≠ .done ∧ b.ts ≠ .committing) ∨ (b.ts = .done ∧ ((s.job b.job).leaf (.core c)).gvt ≤ b.t.t.vt)) : s.commit c i = s := by
  unfold State.commit
  rw [h]
  dsimp only
  refine ite_eq_left_iff.2 fun goes => ?_
  rcases hb with ⟨done, committing⟩ | ⟨done, above⟩
  · exact absurd (by simp [done, committing]) goes
  · exact if_pos (by simp [done, BitVec.not_lt.2 above])

theorem commitSteps : CommitSteps := by
  intro s c i b hc hi hb act steps order before first sends ready
  have isAction : act = LogEntry.isAction := by funext e; cases e <;> rfl
  have isVersion : (fun e : LogEntry => match e with | .created .. => true | .exact .. => true | .asof .. => true | _ => false) = LogEntry.isVersion := by
    funext e
    cases e <;> rfl
  have plan : ∀ x : Block, steps x = x.plan := by
    intro x
    exact congrArg₂ (· ++ ·) (congrArg (List.filter · x.log) isVersion) (congrArg (List.filter · x.log) isAction)
  have inOrder : order = b.commits.plan := plan b
  have run : exec .commitStep s = .next (s.commit c i) := by
    rw [← hc, ← hi]
    rfl
  have ident := Core.ident_of_blockOf hb
  have hb1 := blockOf_enterCommit hb
  have core := core_enterCommit s c i
  have reqs0 : ((s.enterCommit c i).core c).reqs = (s.core c).reqs := (congrArg Core.reqs core :)
  have seq0 : ((s.enterCommit c i).core c).seq = (s.core c).seq := (congrArg Core.seq core :)
  have buf0 : ((s.enterCommit c i).core c).sendBuf = (s.core c).sendBuf := (congrArg Core.sendBuf core :)
  have precedes : ∀ x, before x → x.t.t.ident ≠ i → (s.enterCommit c i).actsBefore c b.commits = true := by
    rintro x ⟨member, job, key, ts, e, he, ha⟩ other
    rw [plan] at he
    rw [isAction] at ha
    exact actsBefore_enterCommit member other job key ts ⟨e, he, ha⟩
  have firstAct : first → ∀ e : LogEntry, ¬(e.isAction && (s.enterCommit c i).actsBefore c b.commits) = true := by
    rintro ⟨none, others⟩ e
    have free := actsBefore_enterCommit_of_first (s := s) (c := c) (i := i) (b := b) (fun x hx hj hk ht ⟨e, he, ha⟩ => none x
      ⟨hx, hj, hk, ht, e, by rw [plan]; exact he, by rw [isAction]; exact ha⟩) others
    rw [free]
    simp
  refine ⟨fun h1 h2 => ?_, fun h1 h2 => ?_, fun id hw ho => ?_, fun ⟨hw, hr⟩ => ?_⟩
  · rw [run, commit_early hb (.inl ⟨h1, h2⟩)]
  · rw [run, commit_early hb (.inr ⟨h1, h2⟩)]
  · rw [run, commit_waits hb hw ho]
  rw [commit_of_ready hb hw hr] at run
  rw [inOrder]
  have nextId : (s.enterCommit c i).nextId = s.nextId := rfl
  have request : ∀ (e : LogEntry) (k : ReqKind) (nm ver w : Word) (r : Req), b.commits.plan[b.commits.next]? = some e → e.isAction = false →
      (s.enterCommit c i).commitEntry c b.commits e = .wait ((s.enterCommit c i).request r) s.nextId →
      r.core = c → (r.kind == .verst) = false → r.after = [] → r.kind = k ∧ r.w0 = nm ∧ r.w1 = ver ∧ r.w2 = w ∧ r.job = b.job ∧ r.ident = b.t.t.ident →
      sends k nm ver w := by
    rintro e k nm ver w r he ha hce hrc hrk hra ⟨rk, rn, rv, rw', rj, ri⟩
    obtain ⟨t, ran, reqs, msg, block, mem⟩ := commitRun_request b.log.length hb1 he ha hce hrc hrk hra
    exact ⟨t, _, run.trans (congrArg _ ran), reqs.trans (congrArg (· ++ _) reqs0), rk, rn, rv, rw', rfl, rj, ri.trans ident, msg, block, mem⟩
  refine ⟨fun nm ver he => ?_, fun nm ver he => ?_, fun u nm ver he => ?_, fun e x he ha hx hxi => ?_, fun u he hf hs hr => ?_,
    fun sig v va pc insn d off n he hf hsl hwin => ⟨fun hl => ⟨fun hd hsig last idle => ?_, fun hd => ?_⟩, fun cls hl last hk => ?_⟩, fun u he hf hfull => ?_,
    fun sig v va pc insn he hf hsl => ?_, fun he => ?_⟩
  · exact request _ _ nm ver _ _ he rfl rfl rfl rfl rfl ⟨rfl, rfl, rfl, rfl, rfl, rfl⟩
  · exact request _ _ nm ver _ _ he rfl rfl rfl rfl rfl ⟨rfl, rfl, rfl, rfl, rfl, rfl⟩
  · exact request _ _ nm ver _ _ he rfl rfl rfl rfl rfl ⟨rfl, rfl, rfl, rfl, rfl, rfl⟩
  · rw [isAction] at ha
    rw [commitRun_held hb1 _ he ha (precedes x hx hxi)] at run
    exact ⟨_, run, rfl, hb1, State.mem_agenda_push.2 (.inl rfl)⟩
  · obtain ⟨t, e, entry, sent, buf, em, et, departs⟩ := commitEntry_spawn (s := s.enterCommit c i) (c := c) (b := b.commits) (u := u)
      ((seqFree_enterCommit s c i).trans hs) (by rw [core]; exact hr)
    rw [commitRun_wait hb1 _ he (firstAct hf _) entry] at run
    have seq := congrArg Core.seq (State.core_updCore_same (s.enterCommit c i) c fun v => { v with seq := v.seq + 1 })
    have rings := congrArg Core.rings (State.core_updCore_same (s.enterCommit c i) c fun v => { v with seq := v.seq + 1 })
    refine ⟨_, e, run, ?_, em, ?_, ?_, ?_, sent.mem, blockOf_stepped hb1 (sent.rings.trans rings) _, departs⟩
    · rw [core_updBlock]
      exact buf.trans (congrArg (· ++ [e]) buf0)
    · rw [et, seq0]
      rfl
    · rw [et]
      rfl
    · rw [core_updBlock]
      exact sent.seq.trans (seq.trans (congrArg (· + 1) seq0))
  · rw [hsig] at he
    rw [hd] at hwin hl
    obtain ⟨t, entry, rings, mem⟩ := commitEntry_deferred_own (s := s.enterCommit c i) (c := c) (b := b.commits) v pc insn
      (by rw [core]; exact hsl) hwin ((localCheck_enterCommit s c i c b.job off 8).trans hl) (fun m hm => by rw [slot_enterCommit]; exact idle m hm)
    obtain ⟨m, fuel⟩ := length_of_plan he
    rw [show b.log.length = m + 1 from fuel, commitRun_last m hb1 he (firstAct hf _) entry rings last] at run
    obtain ⟨gone, memory, -⟩ := ended_commit (t := t) (c := c) (b := b.commits) ident
    refine ⟨_, run, ⟨fun n hn => ?_, fun x hx => ?_⟩, gone⟩
    · rw [memory, mem]
      exact Memory.get_write_inside _ n hn
    · rw [memory, mem]
      exact Memory.get_write_outside _ hx
  · obtain ⟨t, r, entry, sent, reqs, id, kind, word, pa, job⟩ := commitEntry_deferred_sent (s := s.enterCommit c i) (c := c) (b := b.commits) v pc insn
      (by rw [core]; exact hsl) hwin ((localCheck_enterCommit s c i d b.job off 8).trans hl) hd
    rw [commitRun_wait hb1 _ he (firstAct hf _) entry] at run
    refine ⟨_, r, run, ?_, id, kind, word, pa, job, blockOf_stepped hb1 sent.rings _, sent.mem⟩
    rw [core_updBlock]
    exact reqs.trans (congrArg (· ++ [r]) reqs0)
  · have entry := commitEntry_deferred_fault (s := s.enterCommit c i) (c := c) (b := b.commits) sig v pc insn
      (by rw [core]; exact hsl) hwin ((localCheck_enterCommit s c i d b.job off 8).trans hl)
    obtain ⟨e, p, logged, mem, ⟨ek, es, est, eva, ecls, ej, epc, ed, ei⟩, pcls, pd, ps, ppc, pa⟩ := enterLog_deferred (s := (s.enterCommit c i).bumpId)
      (r := deferredReq (s.enterCommit c i) c b.commits sig v va pc insn) (kind := if sig then 9 else 8) (cls := cls) (i := n)
      (by cases sig <;> simp) hk
    obtain ⟨m, fuel⟩ := length_of_plan he
    rw [show b.log.length = m + 1 from fuel, commitRun_last m hb1 he (firstAct hf _) entry (congrArg Core.rings logged :) last] at run
    generalize (s.enterCommit c i).bumpId.enterLog _ _ cls n = t at run logged mem
    obtain ⟨gone, memory, others⟩ := ended_commit (t := t) (c := c) (b := b.commits) ident
    have slog : (((t.updBlock c i fun b => { b with next := b.next + 1, wait := none }).endCommit c
        { b.commits with next := b.commits.next + 1, wait := none }).core c).slog = Tab.put (s.core c).slog n e :=
      (congrArg Core.slog others :).trans ((congrArg Core.slog logged :).trans (congrArg (Tab.put · n e) (congrArg Core.slog core :)))
    have pktq : (((t.updBlock c i fun b => { b with next := b.next + 1, wait := none }).endCommit c
        { b.commits with next := b.commits.next + 1, wait := none }).core c).pktq = (s.core c).pktq ++ [p] :=
      (congrArg Core.pktq others :).trans ((congrArg Core.pktq logged :).trans (congrArg (· ++ [p]) (congrArg Core.pktq core :)))
    refine ⟨_, e, p, run, ?_, ?_, es, est, eva, ecls, ej, epc, ed, ei, pktq, pcls, pd, ps, ppc, pa, gone, memory.trans mem⟩
    · rw [slog, Tab.find_put_same]
    · rw [ek]
  · rw [commitRun_again hb1 _ he (firstAct hf _) (commitEntry_spawn_again (hfull.imp (seqFree_enterCommit s c i).trans fun h => by rw [core]; exact h))] at run
    exact ⟨_, run, hb1, State.mem_agenda_push.2 (.inl rfl)⟩
  · rw [commitRun_again hb1 _ he (firstAct hf _) (commitEntry_deferred_again sig v va pc insn (by rw [core]; exact hsl))] at run
    exact ⟨_, run, hb1, State.mem_agenda_push.2 (.inl rfl)⟩
  · rw [commitRun_end hb1 _ he] at run
    exact run

/-- Settles O49: each step of a commit by the entry of the plan that is next. -/
theorem commits : Obligations.Commits := commitSteps

end Sys2Proof

/-! ## How rollbacks begin (spec/18_optimistic.md R347, R349, R352, R353) -/

namespace Sys2Proof

open Machine

/-- A change of the blocks of one core leaves the others. -/
theorem core_updBlock_ne (s : State) {c d : CoreId} (h : d ≠ c) (i : Ident) (f : Block → Block) : (s.updBlock c i f).core d = s.core d :=
  (State.core_updCore s c d _).trans (if_neg h)

theorem core_updStrand_ne (s : State) {c d : CoreId} (h : d ≠ c) (k : StrandId) (f : Strand → Strand) : (s.updStrand c k f).core d = s.core d :=
  State.core_setCore_ne s _ h

theorem strandOf_updBlock (s : State) (c : CoreId) (i : Ident) (f : Block → Block) :
    ((s.updBlock c i f).core c).strandOf i = (s.core c).strandOf i := by
  rw [core_updBlock]
  rfl

section

variable {s : State} {c : CoreId} {i : Ident} {b : Block} (h : (s.core c).blockOf i = some b) (ok : Bool)

include h

/-- A COMMITTING task is never rolled back (R352). -/
theorem askRollback_committing (hb : b.ts = .committing) : s.askRollback c i ok = s := by
  unfold State.askRollback
  rw [h]
  dsimp only
  rw [hb]

/-- A cause merges into the rollback under way (R352). -/
theorem askRollback_rolling (hb : b.ts = .rolling) :
    s.askRollback c i ok = s.updBlock c i fun b => { b with requeue := b.requeue && ok } := by
  unfold State.askRollback
  rw [h]
  dsimp only
  rw [hb]

/-- The block of a task of which a rollback begins. -/
def Machine.Block.rolls (b : Block) (ok : Bool) : Block := { b with ts := .rolling, requeue := ok }

/-- The strand that runs a task is to stop. -/
def Machine.State.halts (s : State) (c : CoreId) (ok : Bool) : Option StrandId → State
  | some k => (s.updStrand c k fun x => { x with rollAt := some ok }).soon .waiterWithdrawal { c := c, k := k }
  | none => s

/-- A rollback begins: the block is ROLLING, the strand is to stop, and the undo is due. -/
theorem askRollback_begins (hc : b.ts ≠ .committing) (hr : b.ts ≠ .rolling) : s.askRollback c i ok =
    ((s.updBlock c i (Block.rolls · ok)).halts c ok ((s.core c).strandOf i)).soon .rollback { c := c, t := i } := by
  have strand := strandOf_updBlock s c i (Block.rolls · ok)
  unfold State.askRollback
  rw [h]
  dsimp only
  split
  · exact absurd ‹b.ts = .committing› hc
  · exact absurd ‹b.ts = .rolling› hr
  · exact congrArg (fun o => ((s.updBlock c i (Block.rolls · ok)).halts c ok o).soon .rollback { c := c, t := i }) strand

/-- What a rollback that begins leaves. -/
theorem rollback_begun (hc : b.ts ≠ .committing) (hr : b.ts ≠ .rolling) :
    ((s.askRollback c i ok).core c).blockOf i = some { b with ts := .rolling, requeue := ok } ∧ (s.askRollback c i ok).mem = s.mem ∧
      (∀ d, d ≠ c → (s.askRollback c i ok).core d = s.core d) ∧
      (s.now, Instr.rollback, ({ c := c, t := i } : StepArg)) ∈ (s.askRollback c i ok).agenda ∧
      ∀ k, (s.core c).strandOf i = some k → ((s.askRollback c i ok).strand c k).rollAt = some ok ∧
        ((s.askRollback c i ok).strand c k).pc = (s.strand c k).pc ∧
        (s.now, Instr.waiterWithdrawal, ({ c := c, k := k } : StepArg)) ∈ (s.askRollback c i ok).agenda := by
  rw [askRollback_begins h ok hc hr]
  have block : ((s.updBlock c i (Block.rolls · ok)).core c).blockOf i = some { b with ts := .rolling, requeue := ok } := by
    rw [blockOf_updBlock (f := (Block.rolls · ok)) (fun _ => rfl), h]
    rfl
  cases ho : (s.core c).strandOf i with
  | none => exact ⟨block, rfl, fun d hd => core_updBlock_ne s hd i _, State.mem_agenda_push.2 (.inl rfl), fun k hk => by cases hk⟩
  | some k =>
    have rest := elsewhere_updStrand (s.updBlock c i (Block.rolls · ok)) c k fun x => { x with rollAt := some ok }
    have own := State.strand_updStrand_same (s.updBlock c i (Block.rolls · ok)) c k fun x => { x with rollAt := some ok }
    rw [strand_updBlock] at own
    refine ⟨?_, rfl, fun d hd => ?_, State.mem_agenda_push.2 (.inl rfl), fun n hn => ?_⟩
    · exact (blockOf_congr (rest.core_eq (f := Core.rings) (fun _ _ => rfl) c) i).trans block
    · exact (core_updStrand_ne (s.updBlock c i (Block.rolls · ok)) hd k fun x => { x with rollAt := some ok }).trans (core_updBlock_ne s hd i _)
    · obtain rfl : k = n := Option.some.inj hn
      exact ⟨(congrArg Strand.rollAt own :), (congrArg Strand.pc own :), State.mem_agenda_push.2 (.inr (State.mem_agenda_push.2 (.inl rfl)))⟩

end

/-- ROLLBACK of a task that has a block, before the undo begins (R349). -/
theorem rollback_asks {s : State} {c : CoreId} {i : Ident} {b : Block} (h : (s.core c).blockOf i = some b) (hr : b.ts ≠ .rolling) (ok : Bool) :
    s.rollback c i ok = s.askRollback c i ok := by
  unfold State.rollback
  rw [h]
  exact if_pos hr

/-- A rollback waits for its strand to stand at a boundary (R350). -/
theorem rollback_waits {s : State} {c : CoreId} {i : Ident} {b : Block} {k : StrandId} (h : (s.core c).blockOf i = some b) (hr : b.ts = .rolling)
    (hs : (s.core c).strandOf i = some k) (held : (s.strand c k).held ≠ .none) (ok : Bool) :
    s.rollback c i ok = (s.push 8 .rollback { c := c, t := i }).soon .waiterWithdrawal { c := c, k := k } := by
  have moving : (s.strand c k).atBoundary = false := by simpa [Strand.atBoundary] using held
  unfold State.rollback
  rw [h]
  refine (if_neg (not_not_intro hr)).trans ?_
  dsimp only
  rw [hs]
  dsimp only
  simp only [moving, Bool.false_eq_true, if_false, Bool.false_and]

theorem rollbackBegins : RollbackBegins := by
  intro s c i b hc hi h
  have run : exec .rollback s = .next (s.rollback c i s.arg.ok) := by
    rw [← hc, ← hi]
    rfl
  refine ⟨fun hb => ?_, fun h1 h2 => ?_, fun k hb hs held => ?_⟩
  · rw [run, rollback_asks h (by rw [hb]; decide), askRollback_committing h _ hb]
  · rw [rollback_asks h h2] at run
    obtain ⟨block, mem, others, due, stops⟩ := rollback_begun h s.arg.ok h1 h2
    exact ⟨_, run, block, mem, others, due, stops⟩
  · rw [rollback_waits h hb hs held] at run
    exact ⟨_, run, rfl, rfl, State.mem_agenda_push.2 (.inr (State.mem_agenda_push.2 (.inl rfl)))⟩

theorem msgs_askRollback (s : State) (c : CoreId) (i : Ident) (ok : Bool) : (s.askRollback c i ok).msgs = s.msgs := by
  unfold State.askRollback
  split
  · rfl
  · split
    · rfl
    · rfl
    · dsimp only
      split <;> rfl

/-! ### Notices and ring pressure -/

/-- Dropping a message leaves the cores and the memory, the message apart. -/
theorem dropMsg_keeps (s : State) (n : Nat) : (s.dropMsg n).cores = s.cores ∧ (s.dropMsg n).ptsIdle = s.ptsIdle ∧ (s.dropMsg n).mem = s.mem ∧
    (s.dropMsg n).agenda = s.agenda ∧ (s.dropMsg n).now = s.now := by
  unfold State.dropMsg State.freePool
  split
  · dsimp only
    split <;> exact ⟨rfl, rfl, rfl, rfl, rfl⟩
  · exact ⟨rfl, rfl, rfl, rfl, rfl⟩

theorem core_dropMsg (s : State) (n : Nat) (c : CoreId) : (s.dropMsg n).core c = s.core c := by
  obtain ⟨cores, idle, -⟩ := dropMsg_keeps s n
  unfold State.core
  rw [cores, idle]

theorem find_del {α : Type} (t : Tab α) (k : Nat) : Tab.find (Tab.del t k) k = none := by
  induction t with
  | nil => rfl
  | cons e r ih =>
    unfold Tab.del at ih ⊢
    by_cases h : e.1 = k
    · rw [List.filter_cons_of_neg (by simpa using h)]
      exact ih
    · rw [List.filter_cons_of_pos (by simpa using h)]
      exact (if_neg h).trans ih

theorem sentMsg_dropMsg {s : State} {n : Nat} {m : Msg} (h : sentMsg s n = some m) : sentMsg (s.dropMsg n) n = none := by
  have h : Tab.find s.msgs n = some m := h
  unfold sentMsg State.dropMsg State.freePool
  rw [h]
  dsimp only
  split <;> exact find_del s.msgs n

/-- A notice matches the log of a run where it names a version that the run read by time or exactly (R349). -/
theorem matches_iff (b : Block) (v : Notice) : b.matches v = true ↔
    (∃ u ver, LogEntry.asof u v.name ver ∈ b.log ∧ if v.straggler = true then ver < v.ver else ver = v.ver) ∨
      (v.straggler = false ∧ LogEntry.exact v.name v.ver ∈ b.log) := by
  unfold Block.matches
  rw [List.any_eq_true]
  constructor
  · rintro ⟨e, he, hm⟩
    cases e with
    | asof u nm ver =>
      simp only [Bool.and_eq_true, beq_iff_eq] at hm
      obtain ⟨rfl, hm⟩ := hm
      refine .inl ⟨u, ver, he, ?_⟩
      split
      · rename_i hs; simpa [hs] using hm
      · rename_i hs; simpa [hs] using hm
    | exact nm ver =>
      simp only [Bool.and_eq_true, Bool.not_eq_true', beq_iff_eq] at hm
      obtain ⟨⟨hs, rfl⟩, rfl⟩ := hm
      exact .inr ⟨hs, he⟩
    | _ => cases hm
  · rintro (⟨u, ver, he, hm⟩ | ⟨hs, he⟩)
    · refine ⟨_, he, ?_⟩
      cases hs : v.straggler <;> simpa [hs] using hm
    · exact ⟨_, he, by simp [hs]⟩

section

variable {s : State} {n : Nat} {m : Msg} {c : CoreId} {v : Notice} (hm : sentMsg s n = some m) (hb : m.body = .notice c v)

include hm hb

/-- A notice for a task that has no block is ignored. -/
theorem noticeArrives_of_none (h : (s.core c).blockOf v.t = none) : s.noticeArrives n = s.dropMsg n := by
  have hm : Tab.find s.msgs n = some m := hm
  unfold State.noticeArrives
  rw [hm]
  dsimp only
  rw [hb]
  dsimp only
  rw [core_dropMsg, h]

/-- A notice for a task that has a block asks for its rollback where it matches. -/
theorem noticeArrives_of_some {b : Block} (h : (s.core c).blockOf v.t = some b) :
    s.noticeArrives n = if b.matches v then (s.dropMsg n).askRollback c v.t true else s.dropMsg n := by
  have hm : Tab.find s.msgs n = some m := hm
  unfold State.noticeArrives
  rw [hm]
  dsimp only
  rw [hb]
  dsimp only
  rw [core_dropMsg, h]

end

theorem notices : Notices := by
  intro s n m c v hn hm hbody
  have run : exec .versionArrivalNotice s = .next (s.noticeArrives n) := by
    rw [← hn]
    rfl
  refine ⟨fun h => ?_, ?_⟩
  · rw [run, noticeArrives_of_none hm hbody h]
  intro b h hit
  rw [noticeArrives_of_some hm hbody h] at run
  refine ⟨fun miss => ?_, fun hm2 hc => ?_, fun hm2 hc => ?_⟩
  · rw [run]
    exact congrArg _ (if_neg fun found => miss ((matches_iff b v).1 found))
  · have h' : ((s.dropMsg n).core c).blockOf v.t = some b := by rw [core_dropMsg]; exact h
    rw [run, askRollback_committing h' _ hc]
    exact congrArg _ (ite_self _)
  · have h' : ((s.dropMsg n).core c).blockOf v.t = some b := by rw [core_dropMsg]; exact h
    obtain ⟨-, -, mem, agenda, now⟩ := dropMsg_keeps s n
    have gone := sentMsg_dropMsg hm
    have run := run.trans (congrArg _ (if_pos ((matches_iff b v).2 hm2)))
    by_cases hr : b.ts = .rolling
    · rw [askRollback_rolling h' _ hr] at run
      refine ⟨_, run, gone, mem, fun d hd => (core_updBlock_ne _ hd _ _).trans (core_dropMsg s n d), ?_, fun _ => agenda, fun h => absurd hr h⟩
      rw [blockOf_updBlock (f := fun b => { b with requeue := b.requeue && true }) (fun _ => rfl), h', if_pos hr]
      simp only [Option.map_some, Bool.and_true, hr]
    · obtain ⟨block, mem', others, due, -⟩ := rollback_begun h' true hc hr
      rw [now] at due
      refine ⟨_, run, ?_, mem'.trans mem, fun d hd => (others d hd).trans (core_dropMsg s n d), ?_, fun h => absurd h hr, fun _ => due⟩
      · exact (congrArg (Tab.find · n) (msgs_askRollback (s.dropMsg n) c v.t true)).trans gone
      · rw [if_neg hr]
        exact block

/-- The later of two blocks, the first where they order alike. -/
def laterBlock (m : Option Block) (b : Block) : Option Block :=
  match m with
  | some x => if x.t.key < b.t.key then some b else some x
  | none => some b

/-- The greatest of a list by a strict key, as the pressure of a ring chooses it (R347). -/
theorem foldl_laterBlock {bs : List Block} {b : Block} (hb : ∀ x ∈ bs, x = b ∨ x.t.key < b.t.key) (m : Option Block)
    (hm : (m = none ∧ b ∈ bs) ∨ m = some b ∨ (∃ x, m = some x ∧ x.t.key < b.t.key ∧ b ∈ bs)) : bs.foldl laterBlock m = some b := by
  induction bs generalizing m with
  | nil => rcases hm with ⟨-, h⟩ | h | ⟨x, -, -, h⟩ <;> simp_all
  | cons y r ih =>
    have hr : ∀ x ∈ r, x = b ∨ x.t.key < b.t.key := fun x hx => hb x (List.mem_cons_of_mem y hx)
    rw [List.foldl_cons]
    refine ih hr _ ?_
    rcases hb y List.mem_cons_self with rfl | low
    · rcases hm with ⟨rfl, -⟩ | rfl | ⟨x, rfl, hx, -⟩
      · exact .inr (.inl rfl)
      · exact .inr (.inl (if_neg (lt_irrefl _)))
      · exact .inr (.inl (if_pos hx))
    · have later : b ∈ y :: r → b ∈ r := fun h => (List.mem_cons.1 h).resolve_left fun e => by rw [e] at low; exact lt_irrefl _ low
      rcases hm with ⟨rfl, hm⟩ | rfl | ⟨x, rfl, hx, hm⟩
      · exact .inr (.inr ⟨y, rfl, low, later hm⟩)
      · exact .inr (.inl (if_neg (by omega)))
      · by_cases h : x.t.key < y.t.key
        · exact .inr (.inr ⟨y, if_pos h, low, later hm⟩)
        · exact .inr (.inr ⟨x, if_neg h, hx, later hm⟩)

theorem ringPressure : RingPressure := by
  intro s c j l hc hj hl
  have run : exec .ringPressureRollback s = .next (match s.pressed c j l with | some t => s.askRollback c t true | none => s) := by
    rw [← hc, ← hj, ← hl]
    rfl
  refine ⟨fun h => ?_, ?_⟩
  · rw [run]
    unfold State.pressed
    rw [h]
  intro w hw later
  let bs := (s.core c).rings.filter fun b => b.job == j && b.lslot == l && decide (w.key < b.t.key) && b.ts != .committing
  have member : ∀ b, b ∈ bs ↔ later b := by
    intro b
    simp only [bs, List.mem_filter, Bool.and_eq_true, beq_iff_eq, decide_eq_true_eq, bne_iff_ne, later]
    tauto
  have pressed : s.pressed c j l =
      if bs.any fun b => b.ts == .rolling then none else (bs.foldl laterBlock none).map fun b => b.t.t.ident := by
    unfold State.pressed
    rw [hw]
    exact rfl
  refine ⟨fun h => ?_, fun b hb high found hr none => ?_⟩
  · have idle : s.pressed c j l = none := by
      rw [pressed]
      rcases h with ⟨b, hb, hr⟩ | none
      · exact if_pos (List.any_eq_true.2 ⟨b, (member b).2 hb, by rw [hr]; rfl⟩)
      · have empty : bs = [] := List.eq_nil_iff_forall_not_mem.2 fun b hb => none b ((member b).1 hb)
        rw [empty]
        rfl
    rw [run, idle]
  · have chosen : s.pressed c j l = some b.t.t.ident := by
      have quiet : ¬(bs.any fun b => b.ts == .rolling) = true := by
        rw [List.any_eq_true]
        rintro ⟨x, hx, hxr⟩
        exact none x ((member x).1 hx) (by simpa using hxr)
      rw [pressed, if_neg quiet, foldl_laterBlock (fun x hx => high x ((member x).1 hx)) _ (.inl ⟨rfl, (member b).2 hb⟩)]
      rfl
    rw [chosen] at run
    obtain ⟨block, mem, -, due, -⟩ := rollback_begun found true hb.2.2.2.2 hr
    exact ⟨_, run, mem, block, due⟩

end Sys2Proof

/-! ## What a rollback undoes (spec/18_optimistic.md R350, R351, R354) -/

namespace Sys2Proof

open Machine

/-- A core has sent requests and messages for a task that no strand runs: new messages and requests, counters of leaves and jobs; the rest is as it
was, and so are the messages under way. -/
structure Undoes (s t : State) (c : CoreId) : Prop where
  rest : { t with agenda := s.agenda, nextId := s.nextId, clusters := s.clusters, msgs := s.msgs, cores := s.cores, jobs := s.jobs } = s
  cluster : ∀ cl, { t.cluster cl with inj := (s.cluster cl).inj, pools := (s.cluster cl).pools } = s.cluster cl
  core : { t.core c with reqs := (s.core c).reqs } = s.core c
  reqs : ∃ l, (t.core c).reqs = (s.core c).reqs ++ l
  cores : ∀ d, d ≠ c → t.core d = s.core d
  job : ∀ j, (t.job j).ptroot = (s.job j).ptroot ∧ (t.job j).jspill = (s.job j).jspill ∧
    ∀ cl, (t.job j).leaf (.dispenser cl) = (s.job j).leaf (.dispenser cl)
  nextId : s.nextId ≤ t.nextId
  msgs : ∀ n, n < s.nextId → Tab.find t.msgs n = Tab.find s.msgs n

theorem Undoes.refl (s : State) (c : CoreId) : Undoes s s c :=
  ⟨rfl, fun _ => rfl, rfl, ⟨[], (List.append_nil _).symm⟩, fun _ _ => rfl, fun _ => ⟨rfl, rfl, fun _ => rfl⟩, le_rfl, fun _ _ => rfl⟩

theorem Undoes.trans {s t u : State} {c : CoreId} (h : Undoes s t c) (g : Undoes t u c) : Undoes s u c where
  rest := by
    have h1 := h.rest
    have h2 := g.rest
    rw [← h1, ← h2]
  cluster cl := by
    have h1 := h.cluster cl
    have h2 := g.cluster cl
    rw [← h1, ← h2]
  core := by
    have h1 := h.core
    have h2 := g.core
    rw [← h1, ← h2]
  reqs := by
    obtain ⟨l, hl⟩ := h.reqs
    obtain ⟨m, hm⟩ := g.reqs
    exact ⟨l ++ m, by rw [hm, hl, List.append_assoc]⟩
  cores d hd := (g.cores d hd).trans (h.cores d hd)
  job j := by
    obtain ⟨h1, h2, h3⟩ := h.job j
    obtain ⟨g1, g2, g3⟩ := g.job j
    exact ⟨g1.trans h1, g2.trans h2, fun cl => (g3 cl).trans (h3 cl)⟩
  nextId := h.nextId.trans g.nextId
  msgs n hn := (g.msgs n (hn.trans_le h.nextId)).trans (h.msgs n hn)

/-- Messages and requests of a core that leave the other messages. -/
theorem Machine.SendsFrom.undoes {s t : State} {c : CoreId} (h : SendsFrom s t c) (core : { t.core c with reqs := (s.core c).reqs } = s.core c)
    (reqs : ∃ l, (t.core c).reqs = (s.core c).reqs ++ l) (nextId : s.nextId ≤ t.nextId)
    (msgs : ∀ n, n < s.nextId → Tab.find t.msgs n = Tab.find s.msgs n) : Undoes s t c where
  rest := by
    have r := h.rest
    rw [← r]
  cluster := h.cluster
  core := core
  reqs := reqs
  cores := h.cores
  job j := by
    rw [h.job]
    exact ⟨rfl, rfl, fun _ => rfl⟩
  nextId := nextId
  msgs := msgs

theorem nextId_inject (s : State) (n : Nat) (m : Msg) : (s.inject n m).nextId = s.nextId := by
  unfold State.inject
  split <;> rfl

theorem msgs_inject (s : State) (n : Nat) (m : Msg) :
    (s.inject n m).msgs = Tab.put s.msgs n { m with due := List.range m.fcnt, got := [], refused := false } := by
  unfold State.inject
  split <;> rfl

theorem Machine.Tab.find_put_ne {α : Type} (t : Tab α) {k n : Nat} (v : α) (h : n ≠ k) : Tab.find (Tab.put t k v) n = Tab.find t n := by
  induction t with
  | nil => exact if_neg (Ne.symm h)
  | cons e r ih =>
    obtain ⟨m, w⟩ := e
    unfold Tab.put
    by_cases hm : m = k
    · rw [if_pos hm, Tab.find, Tab.find, if_neg (Ne.symm h), if_neg (by rw [hm]; exact Ne.symm h)]
    · rw [if_neg hm]
      split
      · rw [Tab.find, if_neg (Ne.symm h)]
      · rw [Tab.find, Tab.find, ih]

theorem find_inject_ne (s : State) {n k : Nat} (h : k ≠ n) (m : Msg) : Tab.find (s.inject n m).msgs k = Tab.find s.msgs k := by
  rw [msgs_inject, Tab.find_put_ne _ _ h]

theorem Undoes.sendNew (s : State) (c : CoreId) (m : Msg) : Undoes s (s.sendNew m) c := by
  have sent := Sends.sendNew s m
  refine SendsFrom.undoes (sent.from c) (by rw [sent.core]) ⟨[], by rw [sent.core, List.append_nil]⟩ ?_ fun n hn => find_inject_ne s (by omega) _
  exact (nextId_inject s _ _).symm ▸ Nat.le_succ _

/-- A request that waits for nothing and carries no tile leaves with one message of its own number. -/
theorem Undoes.request (s : State) {r : Req} {c : CoreId} (hr : r.core = c) (hk : (r.kind == .verst) = false) (ha : r.after = []) :
    Undoes s (s.request r) c := by
  have core := core_request s hr
  have msg : ∃ m, (s.request r).nextId = s.nextId + 1 ∧ (s.request r).msgs = Tab.put s.msgs s.nextId m := by
    unfold State.request State.launchReq
    dsimp only
    rw [if_pos ha, hk, if_neg (by decide), msgs_inject, nextId_inject]
    exact ⟨_, rfl, rfl⟩
  obtain ⟨m, nextId, msgs⟩ := msg
  refine (SendsFrom.request s hr).undoes (by rw [core]) ⟨_, congrArg Core.reqs core⟩ (by omega) fun n hn => ?_
  rw [msgs, Tab.find_put_ne _ _ (by omega)]

theorem Undoes.blockReq (s : State) (c : CoreId) (b : Block) {kind : ReqKind} (hk : (kind == .verst) = false) (nm ver : Word) :
    Undoes s (s.blockReq c b kind nm ver) c := Undoes.request s rfl hk rfl

/-- A change of a job that keeps its tables, its areas and its dispensers. -/
theorem Undoes.updJob (s : State) (c : CoreId) (j : JobId) {f : Job → Job}
    (hf : ∀ v, (f v).ptroot = v.ptroot ∧ (f v).jspill = v.jspill ∧ ∀ cl, (f v).leaf (.dispenser cl) = v.leaf (.dispenser cl)) :
    Undoes s (s.updJob j f) c where
  rest := rfl
  cluster _ := rfl
  core := rfl
  reqs := ⟨[], (List.append_nil _).symm⟩
  cores _ _ := rfl
  job i := by
    rw [State.job_updJob]
    split
    · subst i
      exact hf _
    · exact ⟨rfl, rfl, fun _ => rfl⟩
  nextId := le_rfl
  msgs _ _ := rfl

/-- The leaf of a core changes, that of no dispenser. -/
theorem Undoes.updLeaf (s : State) (c : CoreId) (j : JobId) (f : LeafSt → LeafSt) : Undoes s (s.updLeaf j (.core c) f) c := by
  refine Undoes.updJob s c j fun v => ⟨rfl, rfl, fun cl => ?_⟩
  have other : leafNum (.dispenser cl) ≠ leafNum (.core c) := by
    have := c.isLt
    simp only [leafNum]
    omega
  exact Tab.get_put_ne _ _ _ other

theorem Machine.Tallies.undoes {s t : State} (h : Tallies s t) (c : CoreId) (jobs : t.jobs = s.jobs) : Undoes s t c where
  rest := by
    have r := h.rest
    rw [← r]
  cluster cl := by
    have r := h.rest
    rw [← r]
    rfl
  core := by rw [h.core]
  reqs := ⟨[], by rw [h.core, List.append_nil]⟩
  cores d _ := h.core d
  job j := by
    have same : t.job j = s.job j := congrArg (Tab.get ({} : Job) · j.toNat) jobs
    rw [same]
    exact ⟨rfl, rfl, fun _ => rfl⟩
  nextId := by
    have r := h.rest
    rw [← r]
  msgs n _ := by
    have r := h.rest
    rw [← r]

theorem Undoes.uncount (s : State) (c : CoreId) (j : JobId) (l : Lslot) : Undoes s (s.uncount j l) c := by
  obtain ⟨tallies, jobs⟩ := jobs_checkDone (s.updLaunch j l fun x => { x with count := x.count - 1 }) j l
  refine Undoes.trans (Undoes.updJob s c j ?_) (tallies.undoes c jobs)
  exact fun _ => ⟨rfl, rfl, fun _ => rfl⟩

theorem leavePhase_keeps (v : Job) (vt : Word) : (v.leavePhase vt).ptroot = v.ptroot ∧ (v.leavePhase vt).jspill = v.jspill ∧
    ∀ cl, (v.leavePhase vt).leaf (.dispenser cl) = v.leaf (.dispenser cl) := by
  unfold Job.leavePhase
  split <;> exact ⟨rfl, rfl, fun _ => rfl⟩

/-- What one entry of the log undoes. -/
theorem Undoes.undo (s : State) (c : CoreId) (b : Block) (e : LogEntry) : Undoes s (s.undo c b e) c := by
  cases e with
  | sent vt d dv kind seq mg l => exact (Undoes.updLeaf s c b.job fun v => v.send vt).trans (Undoes.sendNew _ c _)
  | created nm ver => exact (Undoes.updLeaf s c b.job fun v => v.send ver).trans (Undoes.blockReq _ c b rfl nm ver)
  | exact nm ver => exact Undoes.blockReq s c b rfl nm ver
  | asof u nm ver => exact Undoes.blockReq s c b rfl nm ver
  | deferred sig v va pc insn => exact Undoes.refl s c
  | spawn t => exact (Undoes.updJob s c b.job fun v => leavePhase_keeps v t.vt).trans (Undoes.uncount _ c b.job t.lslot)

/-- The requests that undo an entry of the log. -/
theorem mem_undo_reqs (s : State) (c : CoreId) (b : Block) {e : LogEntry} {k : ReqKind} {nm ver : Word}
    (he : (e = .created nm ver ∧ k = .retract) ∨ (e = .exact nm ver ∧ k = .readRelease) ∨ ((∃ u, e = .asof u nm ver) ∧ k = .markRemoval)) :
    ∃ r ∈ ((s.undo c b e).core c).reqs, r.kind = k ∧ r.w0 = nm ∧ r.w1 = ver ∧ r.ident = b.t.t.ident ∧ r.id = s.nextId := by
  rcases he with ⟨rfl, rfl⟩ | ⟨rfl, rfl⟩ | ⟨⟨u, rfl⟩, rfl⟩
  · exact ⟨_, mem_core_request (s.updLeaf b.job (.core c) fun v => v.send ver) rfl, rfl, rfl, rfl, rfl, rfl⟩
  · exact ⟨_, mem_core_request s rfl, rfl, rfl, rfl, rfl, rfl⟩
  · exact ⟨_, mem_core_request s rfl, rfl, rfl, rfl, rfl, rfl⟩

/-- A core's own endpoint has its leaf and its colour (R306, R358). -/
theorem colourOf_epCore (s : State) (c : CoreId) (j : JobId) : s.colourOf (s.epCore c) j = ((s.job j).leaf (.core c)).colour := by
  have index : coreIn (clusterOf c) (c.toNat % 64) = c := by
    refine BitVec.eq_of_toNat_eq ?_
    have := c.isLt
    simp only [coreIn, BitVec.toNat_ofNat, clusterOf_toNat]
    omega
  have leaf : s.leafAt (s.epCore c) = some (.core c) := by
    have low : c.toNat % 64 < 64 := Nat.mod_lt _ (by decide)
    exact (if_pos low).trans (congrArg (fun x => some (Leaf.core x)) index)
  unfold State.colourOf
  rw [leaf]

/-- The anti-message that undoes a message sent (R18, R354). -/
theorem sentMsg_undo_sent (s : State) (c : CoreId) (b : Block) (vt : Word) (d : CoreId) (dv : BitVec 6) (kind : BitVec 6) (seq : BitVec 20) (mg : Bool)
    (l : Lslot) : ∃ m q, sentMsg (s.undo c b (.sent vt d dv kind seq mg l)) s.nextId = some m ∧ m.body = .task q d ∧ q.t.anti = true ∧
      q.t.origin = c ∧ q.t.odev = s.devnum ∧ q.t.seq = seq ∧ q.t.kind = kind ∧ q.t.vt = vt ∧ q.t.lslot = l ∧
      m.colour = ((s.job b.job).leaf (.core c)).colour ∧ m.dst = if mg = true then s.epMgmt else s.epDispenser (clusterOf d) := by
  have colour : (s.updLeaf b.job (.core c) fun v => v.send vt).colourOf (s.epCore c) b.job = ((s.job b.job).leaf (.core c)).colour := by
    refine (colourOf_epCore (s.updLeaf b.job (.core c) fun v => v.send vt) c b.job).trans ?_
    unfold State.updLeaf
    rw [State.job_updJob_same]
    exact (congrArg LeafSt.colour (Tab.get_put_same (s.job b.job).idleLeaf (s.job b.job).leaves (leafNum (.core c))
      (((s.job b.job).leaf (.core c)).send vt)) :)
  exact ⟨_, _, find_inject _ _ _, rfl, rfl, rfl, rfl, rfl, rfl, rfl, rfl, colour, rfl⟩

/-! ### A task that waits again -/

theorem mem_insertQ {q : List QEntry} {e x : QEntry} : x ∈ insertQ q e ↔ x = e ∨ x ∈ q := by
  induction q with
  | nil => rw [insertQ, List.mem_singleton, or_iff_left List.not_mem_nil]
  | cons y r ih =>
    rw [insertQ]
    by_cases h : y.key ≤ e.key
    · rw [if_pos h, List.mem_cons, ih, List.mem_cons]
      exact or_left_comm
    · rw [if_neg h, List.mem_cons]

theorem mem_put {α : Type} (t : Tab α) (k : Nat) (v : α) : (k, v) ∈ Tab.put t k v := by
  induction t with
  | nil => exact List.mem_singleton.2 rfl
  | cons e r ih =>
    obtain ⟨m, w⟩ := e
    unfold Tab.put
    split
    · exact List.mem_cons_self
    · split
      · exact List.mem_cons_self
      · exact List.mem_cons_of_mem _ ih

/-- A core holds an entry; its blocks and requests are those of another. -/
structure TakesIn (v w : Core) (e : QEntry) : Prop where
  entry : e ∈ w.entries
  rings : w.rings = v.rings
  reqs : w.reqs = v.reqs

theorem takesIn_putQueue (v : Core) (e : QEntry) : TakesIn v (v.putQueue e) e :=
  ⟨List.mem_append_left _ (mem_insertQ.2 (.inl rfl)), rfl, rfl⟩

theorem takesIn_putSpill (v : Core) (j : JobId) (e : QEntry) : TakesIn v (v.putSpill j e) e :=
  ⟨List.mem_append_right _ (List.mem_flatMap.2 ⟨_, mem_put _ _ _, mem_insertQ.2 (.inl rfl)⟩), rfl, rfl⟩

/-- An entry orders after the lowest spilled entry of its job (R81). -/
def Machine.Core.ordersAfter (v : Core) (j : JobId) (e : QEntry) : Bool := match v.spmin j with | some m => decide (m < e.key) | none => false

/-- R81 finds no place for an entry: its spill area is full, and it orders behind a spilled entry or the queue is full. -/
def Machine.Core.noPlace (v : Core) (j : JobId) (e : QEntry) : Bool := !v.spillRoom j false && (v.ordersAfter j e || !decide (v.queue.length < 56))

/-- Where an entry goes that meets a full queue: the highest positive of its job leaves for the spill area, or the entry does (R81). -/
def Machine.Core.crowded (v : Core) (j : JobId) (e : QEntry) : Placed :=
  match (v.queue.filter fun x => x.t.job == j && !x.t.anti).getLast? with
  | some hi =>
    if e.key < hi.key then .spill ((({ v with queue := v.queue.filter fun x => x != hi } : Core).putQueue e).putSpill j hi)
    else .spill (v.putSpill j e)
  | none => .spill (v.putSpill j e)

theorem crowded_spills (v : Core) (j : JobId) (e : QEntry) : ∃ w, v.crowded j e = .spill w ∧ TakesIn v w e := by
  unfold Core.crowded
  cases (v.queue.filter fun x => x.t.job == j && !x.t.anti).getLast? with
  | none => exact ⟨_, rfl, takesIn_putSpill v j e⟩
  | some hi =>
    by_cases h : e.key < hi.key
    · exact ⟨_, if_pos h, List.mem_append_left _ (mem_insertQ.2 (.inl rfl)), rfl, rfl⟩
    · exact ⟨_, if_neg h, takesIn_putSpill v j e⟩

/-- The queue or the spill area takes an entry that R81 places. -/
theorem place_cases (v : Core) (j : JobId) (e : QEntry) :
    (v.noPlace j e = false ∧ ((∃ w, v.place j e = .queue w ∧ TakesIn v w e) ∨ ∃ w, v.place j e = .spill w ∧ TakesIn v w e)) ∨
      (v.noPlace j e = true ∧ v.place j e = .full) := by
  unfold Core.noPlace
  by_cases h1 : v.ordersAfter j e = true
  · by_cases h2 : v.spillRoom j false = true
    · exact .inl ⟨by simp [h2], .inr ⟨_, (if_pos h1).trans (if_pos h2), takesIn_putSpill v j e⟩⟩
    · exact .inr ⟨by simp [h1, h2], (if_pos h1).trans (if_neg h2)⟩
  · by_cases h3 : v.queue.length < 56
    · exact .inl ⟨by simp [h1, h3], .inl ⟨_, (if_neg h1).trans (if_pos h3), takesIn_putQueue v e⟩⟩
    · by_cases h4 : (!v.spillRoom j false) = true
      · exact .inr ⟨by simp [h3, h4], (if_neg h1).trans ((if_neg h3).trans (if_pos h4))⟩
      · refine .inl ⟨by simp [h4], .inr ?_⟩
        obtain ⟨w, run, takes⟩ := crowded_spills v j e
        exact ⟨w, ((if_neg h1).trans ((if_neg h3).trans (if_neg h4))).trans run, takes⟩

/-! ### Walks depend on the tables, the TLBs and the memory alone (spec/09_memory.md R174 to R178) -/

section

variable {s t : State} (mem : t.mem = s.mem) (devnum : t.devnum = s.devnum) (trained : t.trained = s.trained)

include mem devnum trained

theorem walkLeaf_congr (j : JobId) (va : BitVec 48) (e : Word) (at' : BitVec 52) (lvl : Nat) (lines : List Nat) :
    t.walkLeaf j va e at' lvl lines = s.walkLeaf j va e at' lvl lines := by
  have pte : ∀ pa, t.pte pa = s.pte pa := fun pa => by
    unfold State.pte State.tierRead
    rw [mem]
  have group : ∀ page, t.groupOk at' page = s.groupOk at' page := fun page => by
    unfold State.groupOk
    simp only [pte]
  have check : ∀ group, t.leafCheck e lvl group = s.leafCheck e lvl group := fun group => by
    unfold State.leafCheck State.stackOk
    rw [devnum, trained]
  unfold State.walkLeaf
  simp only [group, check]

theorem walkFrom_congr (j : JobId) (va : BitVec 48) (fuel : Nat) :
    ∀ table lines, t.walkFrom j va fuel table lines = s.walkFrom j va fuel table lines := by
  have pte : ∀ pa, t.pte pa = s.pte pa := fun pa => by
    unfold State.pte State.tierRead
    rw [mem]
  have tier : ∀ pa, t.ownTier pa = s.ownTier pa := fun pa => by
    unfold State.ownTier
    rw [devnum]
  induction fuel with
  | zero => exact fun _ _ => rfl
  | succ n ih =>
    intro table lines
    unfold State.walkFrom
    simp only [pte, tier, ih, walkLeaf_congr mem devnum trained]

/-- A translation depends on the TLBs of the core and its cluster, the root of the job's tables, and the memory. -/
theorem translateNow_congr {c : CoreId} {j : JobId} (dtlb : (t.core c).dtlb = (s.core c).dtlb)
    (l2 : (t.cluster (clusterOf c)).l2 = (s.cluster (clusterOf c)).l2) (ptroot : (t.job j).ptroot = (s.job j).ptroot) (va : BitVec 48) (need : Need) :
    (t.translateNow c false j va need).1 = (s.translateNow c false j va need).1 := by
  have walk : t.walk j va = s.walk j va := by
    unfold State.walk
    rw [walkFrom_congr mem devnum trained, ptroot]
  have fill : (t.fill c false j va need).1 = (s.fill c false j va need).1 := by
    unfold State.fill
    dsimp only
    rw [l2, walk]
    cases (s.cluster (clusterOf c)).l2.find? fun e => e.hits j va && need.ok e.leaf with
    | some e => rfl
    | none =>
      cases s.walk j va with
      | fault cls lines => rfl
      | leaf e =>
        dsimp only
        split <;> rfl
  unfold State.translateNow
  simp only [Bool.false_eq_true, if_false]
  rw [dtlb]
  cases lookup (s.core c).dtlb j va need with
  | ok pa leaf => rfl
  | _ => exact fill

end

/-! ### A task that enters its core again (spec/05_placement.md R80, R81) -/

/-- The address of the next entry of a spill area (R80). -/
def spillAddr (s : State) (c : CoreId) (j : JobId) : BitVec 48 :=
  (s.job j).jspill + BitVec.ofNat 48 (0x80000 * c.toNat + 128 * (Tab.get [] (s.core c).spill j.toNat).length)

/-- A core has taken an entry in: the other cores and the messages are as they were, and so is memory, but for an entry of the spill area. -/
structure TookIn (s t : State) (c : CoreId) (j : JobId) (e : QEntry) : Prop where
  core : TakesIn (s.core c) (t.core c) e
  cores : ∀ d, d ≠ c → t.core d = s.core d
  msgs : t.msgs = s.msgs
  mem : t.mem = s.mem ∨ ∃ pa leaf bs, (s.translateNow c false j (spillAddr s c j) .w).1 = .ok pa leaf ∧ bs.length = 128 ∧
    t.mem = Memory.write s.mem (offOf pa) bs

theorem tookIn_setCore {s : State} {c : CoreId} (j : JobId) {e : QEntry} {v : Core} (h : TakesIn (s.core c) v e) : TookIn s (s.setCore c v) c j e where
  core := by rw [State.core_setCore_same]; exact h
  cores d hd := State.core_setCore_ne s v hd
  msgs := rfl
  mem := .inl rfl

theorem tookIn_soon {s t : State} {c : CoreId} {j : JobId} {e : QEntry} (h : TookIn s t c j e) (i : Instr) (x : StepArg) :
    TookIn s (t.soon i x) c j e := ⟨h.core, h.cores, h.msgs, h.mem⟩

theorem tookIn_spillWrite {s : State} {c : CoreId} (j : JobId) {e : QEntry} {v : Core} (h : TakesIn (s.core c) v e) :
    TookIn s (s.spillWrite c j v) c j e := by
  have placed := tookIn_setCore j h
  unfold State.spillWrite
  dsimp only
  split
  · rename_i pa leaf u found
    split
    · have core : ∀ d, ({ (s.setCore c v).clearPoison (offOf pa) 128 with
          mem := Memory.write s.mem (offOf pa) ((List.range 128).map fun i => s.freeByte (offOf pa + i)) } : State).core d = (s.setCore c v).core d :=
        core_clearPoison (s.setCore c v) (offOf pa) 128
      refine ⟨by rw [core]; exact placed.core, fun d hd => (core d).trans (placed.cores d hd), ?_, .inr ⟨pa, leaf, _, congrArg Prod.fst found, by simp, rfl⟩⟩
      show ((s.setCore c v).clearPoison (offOf pa) 128).msgs = s.msgs
      unfold State.clearPoison State.setPoison
      split
      · rfl
      · rfl
    · exact placed
  · exact placed

theorem tookIn_requeue {s : State} {c : CoreId} {e : QEntry} (h : s.roomFor c e = true) : TookIn s (s.requeue c e) c e.t.job e := by
  have spilled : ∀ w, TakesIn (s.core c) w e → s.placeIn c e = .spill w → TookIn s (s.requeue c e) c e.t.job e := by
    intro w takes placed
    unfold State.requeue
    rw [placed]
    dsimp only
    split
    · exact tookIn_soon (tookIn_setCore _ takes) _ _
    · exact tookIn_spillWrite _ takes
  unfold State.roomFor at h
  cases hc : s.cutAt c e.t.job with
  | false =>
    have place : s.placeIn c e = (s.core c).place e.t.job e := by
      unfold State.placeIn
      rw [hc]
      rfl
    rcases place_cases (s.core c) e.t.job e with ⟨-, ⟨w, run, takes⟩ | ⟨w, run, takes⟩⟩ | ⟨-, full⟩
    · unfold State.requeue
      rw [place, run]
      exact tookIn_setCore _ takes
    · exact spilled w takes (place.trans run)
    · rw [hc, place, full] at h
      cases h
  | true =>
    by_cases room : (s.core c).spillRoom e.t.job false = true
    · refine spilled _ (takesIn_putSpill (s.core c) e.t.job e) ?_
      unfold State.placeIn
      rw [hc]
      exact if_pos room
    · have full : s.placeIn c e = .full := by
        unfold State.placeIn
        rw [hc]
        exact if_neg room
      unfold State.requeue
      rw [full]
      dsimp only
      rw [if_pos hc]
      exact tookIn_soon (tookIn_setCore _ (takesIn_putQueue (s.core c) e)) _ _

/-- Whether a core has room for an entry depends on its queue, its spill area and the dispenser. -/
theorem roomFor_congr {s t : State} {c : CoreId} {e f : QEntry} (queue : (t.core c).queue = (s.core c).queue)
    (spill : (t.core c).spill = (s.core c).spill) (job : f.t.job = e.t.job) (key : f.key = e.key) (cut : t.cutAt c e.t.job = s.cutAt c e.t.job) :
    t.roomFor c f = s.roomFor c e := by
  have full : ∀ (x : State) (g : QEntry), x.roomFor c g = (x.cutAt c g.t.job || !(x.core c).noPlace g.t.job g) := by
    intro x g
    unfold State.roomFor
    cases hc : x.cutAt c g.t.job with
    | true => rfl
    | false =>
      have place : x.placeIn c g = (x.core c).place g.t.job g := by
        unfold State.placeIn
        rw [hc]
        rfl
      rw [place]
      rcases place_cases (x.core c) g.t.job g with ⟨no, ⟨w, run, -⟩ | ⟨w, run, -⟩⟩ | ⟨no, run⟩ <;> rw [run, no] <;> rfl
  have no : (t.core c).noPlace e.t.job f = (s.core c).noPlace e.t.job e := by
    unfold Core.noPlace Core.ordersAfter Core.spillRoom Core.spmin
    rw [queue, spill, key]
  rw [full, full, job, cut, no]

end Sys2Proof

/-! ## The end of a rollback (spec/18_optimistic.md R350, R351) -/

namespace Sys2Proof

open Machine

/-- The state in which a rollback has undone the log and freed the block (R350). -/
def Machine.State.undone (s : State) (c : CoreId) (b : Block) : State :=
  (b.log.foldl (fun s e => s.undo c b e) s).updCore c fun v =>
    { v.dropEntry b.t.t.ident with rings := v.rings.filter fun x => !(x.t.t.ident == b.t.t.ident) }

/-- The entry under which a rolled-back task waits again. -/
def Machine.Block.again (b : Block) : QEntry := { b.t with block := false, hold := .none }

/-- A rollback that no strand and no request hold up undoes, once the task has room to wait again. -/
theorem rollback_undoes {s : State} {c : CoreId} {i : Ident} {b : Block} (h : (s.core c).blockOf i = some b) (hr : b.ts = .rolling)
    (hs : (s.core c).strandOf i = none) (hw : b.wait = none) (hq : b.requeue = true) (hm : b.migrated = false) (ok : Bool) :
    s.rollback c i ok = if !s.mayRequeue c b then s.push 8 .rollback { c := c, t := i } else (s.undone c b).requeue c b.again := by
  have stays : ¬b.migrated = true := by simp [hm]
  have finish : s.finishRollback c b none = (s.undone c b).requeue c b.again :=
    (if_pos hq).trans (congrArg (fun x : State => x.requeue c b.again) (if_neg stays))
  unfold State.rollback
  rw [h]
  refine (if_neg (not_not_intro hr)).trans ?_
  dsimp only
  rw [hs]
  dsimp only
  rw [hw, finish]
  rfl

theorem core_undone (s : State) (c : CoreId) (b : Block) : (s.undone c b).core c =
    { ((b.log.foldl (fun s e => s.undo c b e) s).core c).dropEntry b.t.t.ident with
      rings := ((b.log.foldl (fun s e => s.undo c b e) s).core c).rings.filter fun x => !(x.t.t.ident == b.t.t.ident) } :=
  State.core_updCore_same _ c _

theorem undoes_log (s : State) (c : CoreId) (b : Block) (l : List LogEntry) : Undoes s (l.foldl (fun s e => s.undo c b e) s) c :=
  foldl_keeps (R := fun s t => Undoes s t c) (fun s => Undoes.refl s c) Undoes.trans (fun s e => Undoes.undo s c b e) l s

/-- A task that is rolled back has room to wait again where its queue or spill area had room without its entry. -/
theorem roomFor_undone {s : State} {c : CoreId} {b : Block} (hq : b.requeue = true) (h : s.mayRequeue c b = true) :
    (s.undone c b).roomFor c b.again = true := by
  have undoes := undoes_log s c b b.log
  have room : (s.updCore c fun v => v.dropEntry b.t.t.ident).roomFor c b.t = true := by
    unfold State.mayRequeue at h
    rw [hq] at h
    exact h
  have core := core_undone s c b
  have dropped := State.core_updCore_same s c fun v => v.dropEntry b.t.t.ident
  have queue : ((b.log.foldl (fun s e => s.undo c b e) s).core c).queue = (s.core c).queue := (congrArg Core.queue undoes.core :)
  have spill : ((b.log.foldl (fun s e => s.undo c b e) s).core c).spill = (s.core c).spill := (congrArg Core.spill undoes.core :)
  rw [← room]
  refine roomFor_congr ?_ ?_ rfl rfl ?_
  · rw [core, dropped]
    exact congrArg (List.filter _) queue
  · rw [core, dropped]
    exact congrArg (List.map _) spill
  · exact congrArg LeafSt.stopped ((undoes.job b.t.t.job).2.2 (clusterOf c))

theorem get_map_filter {α : Type} (p : α → Bool) (t : Tab (List α)) (k : Nat) :
    Tab.get [] (t.map fun e => (e.1, e.2.filter p)) k = (Tab.get [] t k).filter p := by
  induction t with
  | nil => rfl
  | cons e r ih =>
    obtain ⟨m, l⟩ := e
    rw [List.map_cons, Tab.get, Tab.get]
    split
    · rfl
    · exact ih

/-- Memory after a rolled-back task has entered its core again (R80). -/
theorem spillsTo_undone {s t : State} {c : CoreId} {b : Block} (h : TookIn (s.undone c b) t c b.t.t.job b.again)
    (none : ∀ q ∈ Tab.get [] (s.core c).spill b.t.t.job.toNat, q.t.ident ≠ b.t.t.ident) : SpillsTo s t c b.t.t.job := by
  have undoes := undoes_log s c b b.log
  have core := core_undone s c b
  have mem : (s.undone c b).mem = s.mem := (congrArg State.mem undoes.rest :)
  have spill : ((b.log.foldl (fun s e => s.undo c b e) s).core c).spill = (s.core c).spill := (congrArg Core.spill undoes.core :)
  have dtlb : ((s.undone c b).core c).dtlb = (s.core c).dtlb := (congrArg Core.dtlb core).trans (congrArg Core.dtlb undoes.core :)
  have l2 : ((s.undone c b).cluster (clusterOf c)).l2 = (s.cluster (clusterOf c)).l2 := (congrArg Cluster.l2 (undoes.cluster (clusterOf c)) :)
  have addr : spillAddr (s.undone c b) c b.t.t.job = spillAddr s c b.t.t.job := by
    have area : Tab.get [] ((s.undone c b).core c).spill b.t.t.job.toNat = Tab.get [] (s.core c).spill b.t.t.job.toNat := by
      rw [core]
      dsimp only [Core.dropEntry]
      rw [spill, get_map_filter, List.filter_eq_self]
      intro q hq
      simp [none q hq]
    unfold spillAddr
    rw [area]
    exact congrArg (· + _) (undoes.job b.t.t.job).2.1
  intro y outside
  rcases h.mem with same | ⟨pa, leaf, bs, found, length, written⟩
  · rw [same, mem]
  · have first := translateNow_congr mem (congrArg State.devnum undoes.rest :) (congrArg State.trained undoes.rest :) (c := c) (j := b.t.t.job) dtlb l2
      (undoes.job b.t.t.job).1 (spillAddr s c b.t.t.job) .w
    rw [addr] at found
    have away := outside pa leaf _ (Prod.ext (first.symm.trans found) rfl)
    rw [written, Memory.get_write_outside _ (by rw [length]; exact away), mem]

theorem nextId_sendNew (s : State) (m : Msg) : (s.sendNew m).nextId = s.nextId + 1 := congrArg (· + 1) (nextId_inject s _ _)

theorem rollbackEnds : RollbackEnds := by
  intro s c i b e rest hc hi h hr hs hw hlog hq hm
  have run : exec .rollback s = .next (s.rollback c i s.arg.ok) := by
    rw [← hc, ← hi]
    rfl
  rw [rollback_undoes h hr hs hw hq hm] at run
  have ident := Core.ident_of_blockOf h
  refine ⟨fun room => ?_, fun room => ?_⟩
  · rw [run, room]
    rfl
  rw [room] at run
  have took := tookIn_requeue (roomFor_undone hq room)
  have run : exec .rollback s = .next ((s.undone c b).requeue c b.again) := run
  generalize (s.undone c b).requeue c b.again = t at run took
  have undoes := undoes_log s c b b.log
  have first : b.log.foldl (fun s e => s.undo c b e) s = rest.foldl (fun s e => s.undo c b e) (s.undo c b e) := by
    rw [hlog]
    rfl
  have later := undoes_log (s.undo c b e) c b rest
  rw [← first] at later
  have core := core_undone s c b
  have msgs : t.msgs = (b.log.foldl (fun s e => s.undo c b e) s).msgs := took.msgs
  have reqs : (t.core c).reqs = ((b.log.foldl (fun s e => s.undo c b e) s).core c).reqs := took.core.reqs.trans (congrArg Core.reqs core :)
  have asks : ∀ k nm ver, ((e = .created nm ver ∧ k = .retract) ∨ (e = .exact nm ver ∧ k = .readRelease) ∨ ((∃ u, e = .asof u nm ver) ∧ k = .markRemoval)) →
      ∃ r ∈ (t.core c).reqs, r.kind = k ∧ r.w0 = nm ∧ r.w1 = ver ∧ r.ident = b.t.t.ident ∧ r.id = s.nextId := by
    intro k nm ver he
    obtain ⟨r, listed, facts⟩ := mem_undo_reqs s c b he
    obtain ⟨l, more⟩ := later.reqs
    refine ⟨r, ?_, facts⟩
    rw [reqs, more]
    exact List.mem_append_left l listed
  refine ⟨t, run, ?_, fun d hd => ?_, fun none => spillsTo_undone took (ident ▸ none), ⟨b.again, took.core.entry, rfl, rfl⟩, ?_, ?_⟩
  · unfold Core.blockOf
    rw [took.core.rings, core, List.find?_eq_none]
    intro x hx
    simpa [ident] using (List.mem_filter.1 hx).2
  · exact (took.cores d hd).trans (((State.core_updCore _ c d _).trans (if_neg hd)).trans (undoes.cores d hd))
  · rintro vt d dv kind seq mg l rfl
    obtain ⟨m, q, found, facts⟩ := sentMsg_undo_sent s c b vt d dv kind seq mg l
    refine ⟨m, q, ?_, facts⟩
    have under : s.nextId < (s.undo c b (.sent vt d dv kind seq mg l)).nextId :=
      (Nat.lt_succ_self s.nextId).trans_eq (nextId_sendNew (s.updLeaf b.job (.core c) fun v => v.send vt) _).symm
    unfold sentMsg
    rw [msgs, later.msgs _ under]
    exact found
  · refine ⟨fun nm ver he => asks _ nm ver (.inl ⟨he, rfl⟩), fun nm ver he => asks _ nm ver (.inr (.inl ⟨he, rfl⟩)),
      fun u nm ver he => asks _ nm ver (.inr (.inr ⟨⟨u, he⟩, rfl⟩))⟩

/-- Settles O50: how rollbacks begin, what they undo, and what notices and the pressure of a ring cause. -/
theorem rollbacks : Obligations.Rollbacks := ⟨rollbackBegins, rollbackEnds, notices, ringPressure⟩

end Sys2Proof

/-! ## Holds (spec/08_isa_scalar.md R162 to R165) -/

namespace Sys2Proof

open Machine

theorem Machine.Sends.dropMsg (s : State) (n : Nat) : Sends s (s.dropMsg n) := by
  unfold State.dropMsg State.freePool
  split
  · dsimp only
    split
    · refine ⟨rfl, fun _ h => h, fun cl => ?_⟩
      rw [State.cluster_updCluster]
      split
      · subst cl; rfl
      · rfl
    · exact ⟨rfl, fun _ h => h, fun _ => rfl⟩
  · exact Sends.refl s

theorem Machine.Sends.replyTo (s : State) (e : Ep) (r : Req) (v : Rep) (data : Bool) : Sends s (s.replyTo e r v data) := by
  unfold State.replyTo State.sendTile
  dsimp only
  split
  · exact (Sends.sendNew s _).trans (Sends.sendParts _ _ _)
  · exact Sends.sendNew s _

/-- A message that leaves is found under its number. -/
theorem sentMsg_sendNew (s : State) (m : Msg) : sentMsg (s.sendNew m) s.nextId =
    some { m with colour := s.colourOf m.src m.job, due := List.range m.fcnt, got := [], refused := false } := find_inject s s.nextId _

theorem servedAt_congr {s t : State} (h : t.devnum = s.devnum) (r : Req) : t.servedAt r = s.servedAt r := by
  unfold State.servedAt State.epSlice State.epMgmt State.epHost State.epCore
  rw [h]

/-- A visit of a home moves lines and frames' records. -/
theorem visitReq_keeps (s : State) (r : Req) : (s.visitReq r).devnum = s.devnum ∧ (s.visitReq r).mem = s.mem ∧ (s.visitReq r).empties = s.empties ∧
    (s.visitReq r).poisons = s.poisons ∧ ∀ cl, ((s.visitReq r).cluster cl).waitw = (s.cluster cl).waitw := by
  have evict : ∀ (v : Cluster) (ln : Nat), (v.evictLine ln).waitw = v.waitw := by
    intro v ln
    unfold Cluster.evictLine
    dsimp only
    split <;> rfl
  have reside : ∀ (v : Cluster) (now ln key : Nat), (v.reside now ln key).waitw = v.waitw := by
    intro v now ln key
    unfold Cluster.reside
    dsimp only
    split
    · rfl
    · split
      · rfl
      · split
        · exact evict v _
        · rfl
  unfold State.visitReq State.visit
  split
  · split
    · exact ⟨rfl, rfl, rfl, rfl, fun _ => rfl⟩
    · refine ⟨rfl, rfl, rfl, rfl, fun cl => ?_⟩
      rw [State.cluster_updCluster]
      split
      · subst cl
        exact reside _ _ _ _
      · rfl
  · exact ⟨rfl, rfl, rfl, rfl, fun _ => rfl⟩

theorem serve_of {s : State} {n : Nat} {r : Req} (h : s.msgReq n = some r) (f : State → Req → State) : s.serve n f = f ((s.visitReq r).dropMsg n) r := by
  unfold State.serve
  rw [h]

theorem resumec {s : State} {r : Req} (h : s.msgReq s.arg.n = some r) (hk : r.kind = .resumec) :
    let c : CoreId := r.w0.extractLsb' 46 12
    let t : Ident := ⟨r.w0.extractLsb' 40 6, r.w0.extractLsb' 28 12, r.w0.extractLsb' 8 20⟩
    let found := ∃ q ∈ (s.core c).entries, q.t.ident = t ∧ q.t.anti = false ∧ q.t.job = r.job ∧ q.hold = .suspend
    let own := r.w0.extractLsb' 4 4 = r.job
    let u := s.dropMsg s.arg.n
    (own ∧ found → exec .resumecRequest s = .next ((u.clearHold c t .suspend).replyTo (s.servedAt r) r { w0 := 1 } true)) ∧
    (¬(own ∧ found) → exec .resumecRequest s = .next (u.replyTo (s.servedAt r) r { w0 := 0 } true)) := by
  intro c t found own u
  have stays : s.visitReq r = s := by
    unfold State.visitReq
    rw [hk]
    rfl
  have run : exec .resumecRequest s = .next (u.serveResumec r) := by
    refine congrArg _ ((serve_of h _).trans ?_)
    rw [stays]
  have dev : u.devnum = s.devnum := (Sends.dropMsg s _).devnum
  have test : (r.w0.extractLsb' 4 4 == r.job && (u.core c).entries.any fun q => q.t.ident == t && !q.t.anti && q.t.job == r.w0.extractLsb' 4 4 &&
      q.hold == .suspend) = true ↔ own ∧ found := by
    rw [core_dropMsg]
    simp only [Bool.and_eq_true, beq_iff_eq, List.any_eq_true, Bool.not_eq_true', own, found]
    constructor
    · rintro ⟨hj, q, hq, ⟨⟨hi, ha⟩, hjq⟩, hh⟩
      exact ⟨hj, q, hq, hi, ha, hjq.trans hj, hh⟩
    · rintro ⟨hj, q, hq, hi, ha, hjq, hh⟩
      exact ⟨hj, q, hq, ⟨⟨hi, ha⟩, hjq.trans hj.symm⟩, hh⟩
  constructor
  · intro hf
    rw [run]
    unfold State.serveResumec
    dsimp only
    rw [test.2 hf]
    show Host.Outcome.next ((u.clearHold c t .suspend).replyTo ((u.clearHold c t .suspend).servedAt r) r { w0 := 1 } true) = _
    rw [servedAt_congr (s := s) (t := u.clearHold c t .suspend) dev]
  · intro hf
    rw [run]
    unfold State.serveResumec
    dsimp only
    rw [Bool.eq_false_iff.2 (mt test.1 hf)]
    show Host.Outcome.next (u.replyTo (u.servedAt r) r { w0 := 0 } true) = _
    rw [servedAt_congr (s := s) dev]

theorem waitwRegistration {s : State} {r : Req} (h : s.msgReq s.arg.n = some r) :
    let a := offOf r.pa
    let u := ((s.visitReq r).dropMsg s.arg.n).replyTo (s.servedAt r) r {} false
    (s.full a = true → ∃ t m, exec .waitwRegistration s = .next t ∧ sentMsg t u.nextId = some m ∧ m.body = .wake r.core r.ident ∧
      m.dst = s.epDispenser (clusterOf r.core)) ∧
    (s.full a = false → ∃ t, exec .waitwRegistration s = .next t ∧ (t.cluster (waitCluster a)).waitw = (s.cluster (waitCluster a)).waitw ++ [r] ∧
      t.mem = s.mem) := by
  intro a u
  obtain ⟨dev, mem, empties, poisons, waitw⟩ := visitReq_keeps s r
  have sent : Sends (s.visitReq r) u := (Sends.dropMsg _ _).trans (Sends.replyTo _ _ _ _ _)
  have devU : u.devnum = s.devnum := sent.devnum.trans dev
  have emptiesU := (congrArg State.empties sent.rest :)
  have poisonsU := (congrArg State.poisons sent.rest :)
  have full : u.full a = s.full a := by
    unfold State.full
    rw [emptiesU, empties, poisonsU, poisons]
  have run : exec .waitwRegistration s = .next (if u.full a then
      u.sendNew { src := u.epSlice (waitCluster a), dst := u.epDispenser (clusterOf r.core), kind := 0x25#6, job := r.job, body := .wake r.core r.ident }
      else u.updCluster (waitCluster a) fun v => { v with waitw := v.waitw ++ [r] }) := by
    refine congrArg _ ((serve_of h _).trans ?_)
    unfold State.serveWaitw
    dsimp only
    rw [servedAt_congr (s := s) ((Sends.dropMsg _ _).devnum.trans dev)]
  rw [run, full]
  constructor
  · intro hf
    rw [if_pos hf]
    refine ⟨_, _, rfl, sentMsg_sendNew u _, rfl, ?_⟩
    show u.epDispenser _ = s.epDispenser _
    unfold State.epDispenser
    rw [devU]
  · intro hf
    rw [hf, if_neg Bool.false_ne_true]
    refine ⟨_, rfl, ?_, sent.mem.trans mem⟩
    rw [State.cluster_updCluster_same]
    have kept := (congrArg Cluster.waitw (sent.cluster (waitCluster a)) :)
    exact congrArg (· ++ [r]) (kept.trans (waitw _))

theorem waitwWake {s : State} {m : Msg} {c : CoreId} {i : Ident} (h : sentMsg s s.arg.n = some m) (hb : m.body = .wake c i) :
    ∃ t, exec .waitwWake s = .next t ∧ sentMsg t s.arg.n = none ∧
      (t.core c).queue = (s.core c).queue.map (fun q => if q.t.ident = i ∧ q.t.anti = false ∧ q.hold = .waitw then { q with hold := .none } else q) ∧
      (∀ d, d ≠ c → t.core d = s.core d) ∧ t.mem = s.mem := by
  have run : execWaitwWake s = .next ((s.dropMsg s.arg.n).clearHold c i .waitw) := by
    unfold execWaitwWake
    rw [show Tab.find s.msgs s.arg.n = some m from h]
    dsimp only
    rw [hb]
  refine ⟨_, run, sentMsg_dropMsg h, ?_, fun d hd => ?_, (Sends.dropMsg s _).mem⟩
  · unfold State.clearHold Core.mapEntries
    rw [State.core_updCore_same, core_dropMsg]
    refine List.map_congr_left fun q _ => ?_
    simp only [Bool.and_eq_true, beq_iff_eq, Bool.not_eq_true', and_assoc]
  · exact (State.core_setCore_ne _ _ hd).trans (core_dropMsg s _ d)

theorem holdsEnd : HoldsEnd := fun _ => ⟨fun _ hr => ⟨resumec hr, fun _ _ => waitwRegistration hr⟩, fun _ _ _ hm hb => waitwWake hm hb⟩

end Sys2Proof

/-! ## Refills (spec/05_placement.md R81) -/

namespace Sys2Proof

open Machine

/-- What decides where a physical address lies: a state that differs in nothing of it. -/
structure SamePlaces (s t : State) : Prop where
  devnum : t.devnum = s.devnum
  routes : t.routes = s.routes
  trained : t.trained = s.trained

theorem SamePlaces.place {s t : State} (h : SamePlaces s t) (pa : BitVec 52) : t.place pa = s.place pa := by
  obtain ⟨devnum, routes, trained⟩ := h
  unfold State.place State.stackOk
  rw [devnum, routes, trained]

theorem samePlaces_visit (s : State) (a key : Nat) : SamePlaces s (s.visit none a key) := by
  unfold State.visit
  split <;> exact ⟨rfl, rfl, rfl⟩

theorem samePlaces_markLines (s : State) (cl : ClusterId) (lines : List Nat) : SamePlaces s (s.markLines cl lines) := by
  unfold State.markLines
  refine foldl_keeps (R := SamePlaces) (fun _ => ⟨rfl, rfl, rfl⟩)
    (fun h g => ⟨g.devnum.trans h.devnum, g.routes.trans h.routes, g.trained.trans h.trained⟩) (fun s ln => ?_) lines s
  obtain ⟨devnum, routes, trained⟩ := samePlaces_visit s (128 * ln) 16
  exact ⟨devnum, routes, trained⟩

theorem samePlaces_translateNow (s : State) (c : CoreId) (j : JobId) (va : BitVec 48) (need : Need) :
    SamePlaces s (s.translateNow c false j va need).2 := by
  unfold State.translateNow State.fill
  dsimp only
  split
  · exact ⟨rfl, rfl, rfl⟩
  · split
    · exact ⟨rfl, rfl, rfl⟩
    · split
      · exact samePlaces_markLines s _ _
      · have marked := fun lines => samePlaces_markLines s (clusterOf c) lines
        split
        · exact ⟨(marked _).devnum, (marked _).routes, (marked _).trained⟩
        · exact marked _

/-- The fault of an access to the 128 bytes at a physical address, by its place. -/
def placeFault (s : State) (need : Need) (pa : BitVec 52) : Target ⊕ Nat → Option Nat
  | .inr cls => some cls
  | .inl _ => if need == .r && s.poisoned (offOf pa) 128 then some clsData else none

/-- The fault of an access to 128 bytes, by what its translation gives. -/
def accessFault (s : State) (need : Need) : TrRes → Option Nat
  | .fault cls => some cls
  | .ok pa _ => placeFault s need pa (s.place pa)
  | .miss => none

theorem spillEntryFault_eq (s : State) (c : CoreId) (j : JobId) (need : Need) (n : Nat) : s.spillEntryFault c j need n =
    accessFault s need (s.translateNow c false j ((s.job j).jspill + BitVec.ofNat 48 (0x80000 * c.toNat + 128 * n)) need).1 := by
  have place := (samePlaces_translateNow s c j ((s.job j).jspill + BitVec.ofNat 48 (0x80000 * c.toNat + 128 * n)) need).place
  unfold State.spillEntryFault
  generalize s.translateNow c false j ((s.job j).jspill + BitVec.ofNat 48 (0x80000 * c.toNat + 128 * n)) need = r at place ⊢
  obtain ⟨r, u⟩ := r
  cases r with
  | fault cls => rfl
  | miss => rfl
  | ok pa leaf =>
    dsimp only [accessFault]
    rw [← show u.place pa = s.place pa from place pa]
    generalize u.place pa = p
    cases p <;> rfl

/-- The fault of an access to a spilled entry does not depend on the queues and the spill areas. -/
theorem spillEntryFault_setCore {s : State} {c : CoreId} {v : Core} (hv : v.dtlb = (s.core c).dtlb) (j : JobId) (need : Need) (n : Nat) :
    (s.setCore c v).spillEntryFault c j need n = s.spillEntryFault c j need n := by
  have dtlb : ((s.setCore c v).core c).dtlb = (s.core c).dtlb := by rw [State.core_setCore_same, hv]
  rw [spillEntryFault_eq, spillEntryFault_eq, translateNow_congr (s := s) (t := s.setCore c v) rfl rfl rfl dtlb rfl rfl]
  rfl

theorem setCore_updCore (s : State) (c : CoreId) (v : Core) (f : Core → Core) : (s.setCore c v).updCore c f = s.setCore c (f v) := by
  unfold State.updCore
  rw [State.core_setCore_same]
  unfold State.setCore
  dsimp only
  rw [Tab.put_put]

/-- No entry of the device meets its twin in some entries. -/
def NoTwins (s : State) (es : List QEntry) : Prop := ∀ e ∈ es, ∀ d, ∀ f ∈ (s.core d).entries, f.t.ident = e.t.ident → f.t.anti = e.t.anti

theorem NoTwins.entryIn {s : State} {e : QEntry} {es : List QEntry} (h : NoTwins s es) (he : e ∈ es) (cl : ClusterId) :
    s.entryIn cl e.t.ident (!e.t.anti) = none := by
  unfold State.entryIn
  refine List.findSome?_eq_none_iff.2 fun d _ => Option.map_eq_none_iff.2 (List.find?_eq_none.2 fun f hf hq => ?_)
  simp only [Bool.and_eq_true, beq_iff_eq] at hq
  have same := h e he d f hf hq.1
  rw [hq.2] at same
  exact absurd same (by cases e.t.anti <;> decide)

theorem mem_of_mem_get {α : Type} {t : Tab (List α)} {k : Nat} {x : α} (h : x ∈ Tab.get [] t k) : ∃ e ∈ t, x ∈ e.2 := by
  induction t with
  | nil => cases h
  | cons e r ih =>
    unfold Tab.get at h
    by_cases hk : e.1 = k
    · rw [if_pos hk] at h
      exact ⟨e, List.mem_cons_self, h⟩
    · rw [if_neg hk] at h
      obtain ⟨y, hy, hx⟩ := ih h
      exact ⟨y, List.mem_cons_of_mem _ hy, hx⟩

theorem mem_put_cases {α : Type} {t : Tab α} {k : Nat} {v : α} {e : Nat × α} (h : e ∈ Tab.put t k v) : e = (k, v) ∨ e ∈ t := by
  induction t with
  | nil => exact .inl (List.mem_singleton.1 h)
  | cons x r ih =>
    unfold Tab.put at h
    split at h
    · exact (List.mem_cons.1 h).imp id (List.mem_cons_of_mem _)
    · split at h
      · exact (List.mem_cons.1 h).imp id id
      · rcases List.mem_cons.1 h with rfl | h
        · exact .inr List.mem_cons_self
        · exact (ih h).imp id (List.mem_cons_of_mem _)

theorem NoTwins.setCore {s : State} {es : List QEntry} (h : NoTwins s es) {c : CoreId} {v : Core}
    (hv : ∀ f ∈ v.entries, f ∈ (s.core c).entries) : NoTwins (s.setCore c v) es := by
  intro x hx d f hf
  refine h x hx d f ?_
  rw [State.core_setCore] at hf
  split at hf
  · subst d
    exact hv f hf
  · exact hf

/-- A core without the lowest spilled entry of a job. -/
def Machine.Core.unspilled (v : Core) (j : JobId) (rest : List QEntry) : Core := { v with spill := Tab.put v.spill j.toNat rest }

section

variable {s : State} {c : CoreId} {j : JobId} {e : QEntry} {rest : List QEntry} (hes : Tab.get [] (s.core c).spill j.toNat = e :: rest)

include hes

theorem mem_entries_of_spilled {x : QEntry} (hx : x ∈ e :: rest) : x ∈ (s.core c).entries := by
  rw [← hes] at hx
  obtain ⟨y, hy, hx⟩ := mem_of_mem_get hx
  exact List.mem_append_right _ (List.mem_flatMap.2 ⟨y, hy, hx⟩)

theorem entries_unspilled {f : QEntry} (h : f ∈ ((s.core c).unspilled j rest).entries) : f ∈ (s.core c).entries := by
  rcases List.mem_append.1 h with h | h
  · exact List.mem_append_left _ h
  · obtain ⟨y, hy, hf⟩ := List.mem_flatMap.1 h
    rcases mem_put_cases hy with rfl | hy
    · exact mem_entries_of_spilled hes (List.mem_cons_of_mem _ hf)
    · exact List.mem_append_right _ (List.mem_flatMap.2 ⟨y, hy, hf⟩)

theorem entries_refilled {f : QEntry} (h : f ∈ (((s.core c).unspilled j rest).putQueue e).entries) : f ∈ (s.core c).entries := by
  rcases List.mem_append.1 h with h | h
  · rcases mem_insertQ.1 h with rfl | h
    · exact mem_entries_of_spilled hes List.mem_cons_self
    · exact List.mem_append_left _ h
  · exact entries_unspilled hes (List.mem_append_right _ h)

theorem refill_step (hq : (s.core c).queue.length < 56) (n : Nat) {i : Nat} (hf : s.spillEntryFault c j .r i = none) (ht : NoTwins s (e :: rest)) :
    s.refill c j (n + 1) i = (s.setCore c (((s.core c).unspilled j rest).putQueue e)).refill c j n (i + 1) := by
  have alone := (ht.setCore fun f => entries_unspilled hes).entryIn List.mem_cons_self (clusterOf c)
  unfold Core.unspilled at alone
  rw [State.refill]
  refine (if_neg (by omega)).trans ?_
  rw [hes, hf]
  dsimp only
  rw [alone]
  exact congrArg (fun t : State => t.refill c j n (i + 1)) (setCore_updCore s c _ _)

end

theorem length_insertQ (q : List QEntry) (e : QEntry) : (insertQ q e).length = q.length + 1 := by
  induction q with
  | nil => rfl
  | cons x r ih =>
    unfold insertQ
    split
    · rw [List.length_cons, ih, List.length_cons]
    · rfl

/-- The spilled entries of a job that meet no fault and no twin return, as many as the queue lacks of 56. -/
theorem refill_returns {c : CoreId} {j : JobId} (n : Nat) : ∀ (s : State) (i : Nat) (es : List QEntry), Tab.get [] (s.core c).spill j.toNat = es →
    es.length ≤ n → (∀ k, k < es.length → k < 56 - (s.core c).queue.length → s.spillEntryFault c j .r (i + k) = none) → NoTwins s es →
    ((s.refill c j n i).core c).queue = (es.take (56 - (s.core c).queue.length)).foldl insertQ (s.core c).queue ∧
      Tab.get [] ((s.refill c j n i).core c).spill j.toNat = es.drop (56 - (s.core c).queue.length) ∧ (s.refill c j n i).mem = s.mem := by
  induction n with
  | zero =>
    intro s i es hes hn _ _
    obtain rfl := List.length_eq_zero_iff.1 (Nat.le_zero.1 hn)
    exact ⟨by simp [State.refill], by simpa [State.refill] using hes, rfl⟩
  | succ n ih =>
    intro s i es hes hn hf ht
    by_cases hq : 56 ≤ (s.core c).queue.length
    · have stop : s.refill c j (n + 1) i = s := by
        rw [State.refill]
        exact if_pos hq
      rw [stop, Nat.sub_eq_zero_of_le hq]
      exact ⟨rfl, hes, rfl⟩
    · cases es with
      | nil =>
        have stop : s.refill c j (n + 1) i = s := by
          rw [State.refill]
          refine (if_neg hq).trans ?_
          rw [hes]
        rw [stop]
        exact ⟨by simp, by simpa using hes, rfl⟩
      | cons e rest =>
        have hq : (s.core c).queue.length < 56 := by omega
        have room : 56 - (s.core c).queue.length = (56 - (insertQ (s.core c).queue e).length) + 1 := by
          rw [length_insertQ]
          omega
        have core := State.core_setCore_same s c (((s.core c).unspilled j rest).putQueue e)
        obtain ⟨queue, spill, mem⟩ := ih (s.setCore c (((s.core c).unspilled j rest).putQueue e)) (i + 1) rest
          (by rw [core]; exact Tab.get_put_same [] _ _ rest) (Nat.le_of_succ_le_succ hn)
          (fun k hk hr => by
            rw [core] at hr
            rw [spillEntryFault_setCore (s := s) (v := ((s.core c).unspilled j rest).putQueue e) rfl, Nat.add_right_comm]
            refine hf (k + 1) (Nat.succ_lt_succ hk) ?_
            rw [room]
            exact Nat.succ_lt_succ hr)
          fun x hx => (ht.setCore fun f => entries_refilled hes) x (List.mem_cons_of_mem _ hx)
        have first : s.spillEntryFault c j .r i = none := hf 0 (Nat.succ_pos _) (by omega)
        rw [refill_step hes hq n first ht, room, List.take_succ_cons, List.drop_succ_cons, List.foldl_cons]
        rw [core] at queue spill
        exact ⟨queue, spill, mem⟩

theorem refill_fault {s : State} {c : CoreId} {j : JobId} {cls : Nat} (hq : (s.core c).queue.length < 56) (hes : Tab.get [] (s.core c).spill j.toNat ≠ [])
    (n : Nat) {i : Nat} (hf : s.spillEntryFault c j .r i = some cls) : s.refill c j (n + 1) i = s.spillFailed c j cls := by
  rw [State.refill]
  refine (if_neg (by omega)).trans ?_
  rw [hf]
  cases hes' : Tab.get [] (s.core c).spill j.toNat with
  | nil => exact absurd hes' hes
  | cons e rest => rfl

theorem refillDue_iff (v : Core) (j : JobId) : v.refillDue j = true ↔ v.queue.length < 48 ∧ Tab.get [] v.spill j.toNat ≠ [] := by
  unfold Core.refillDue Core.spmin
  rw [Bool.and_eq_true, decide_eq_true_iff]
  cases Tab.get [] v.spill j.toNat with
  | nil => simp
  | cons e r => simp

theorem refills : Refills := by
  rintro s c j rfl rfl v es
  have run : s.arg.v = 0 → exec .spillRefill s = .next (if v.refillDue s.arg.j then s.refill s.arg.c s.arg.j 4096 0 else s) := fun h =>
    congrArg _ ((if_neg (by omega)).trans (if_neg (by omega)))
  have due := refillDue_iff v s.arg.j
  refine ⟨fun h => congrArg _ (if_pos h), fun h => congrArg _ ((if_neg (by omega)).trans (if_pos h)), fun h hn => ?_, fun h hq hes cls hf => ?_,
    fun h hq hes hl hf ht => ?_⟩
  · rw [run h, if_neg fun hd => ?_]
    obtain ⟨hq, hes⟩ := due.1 hd
    exact hn.elim (Nat.not_le.2 hq) hes
  · rw [run h, if_pos (due.2 ⟨hq, hes⟩), refill_fault (Nat.lt_trans hq (by decide)) hes 4095 hf]
  · rw [run h, if_pos (due.2 ⟨hq, hes⟩)]
    refine ⟨_, rfl, refill_returns 4096 s 0 es rfl hl (fun k hk hr => ?_) fun e he d f hfd => ?_⟩
    · rw [Nat.zero_add]
      exact hf k hk hr
    · refine ht e he d f ((List.mem_append.1 hfd).imp id fun hs => ?_)
      obtain ⟨y, hy, hfy⟩ := List.mem_flatMap.1 hs
      exact ⟨y, hy, hfy⟩

end Sys2Proof

/-! ## Dispenses (spec/05_placement.md R82 to R84; spec/02_formats.md R14; spec/07_issue.md R126) -/

namespace Sys2Proof

open Machine

theorem choice_of_not_mayDispense {s : State} {c : CoreId} {k : StrandId} (h : s.mayDispense c k = false) : s.choice c k = none := by
  unfold State.choice
  dsimp only
  split
  · rfl
  · exact if_pos (by rw [h]; rfl)

theorem mayDispense_of_busy {s : State} {c : CoreId} {k : StrandId}
    (h : (s.strand c k).st ≠ .idle ∨ 1 ≤ (s.core c).startedAt s.cycle ∨ 4 ≤ ((s.coresOf (clusterOf c)).map fun d => (s.core d).startedAt s.cycle).sum) :
    s.mayDispense c k = false := by
  unfold State.mayDispense
  rcases h with h | h | h
  · simp [h]
  · simp [show (s.core c).startedAt s.cycle ≠ 0 by omega]
  · simp [show ¬((s.coresOf (clusterOf c)).map fun d => (s.core d).startedAt s.cycle).sum < 4 by omega]

theorem dispense_none {s : State} (h : s.choice s.arg.c s.arg.k = none) : exec .dispense s = .next s := by
  refine congrArg Host.Outcome.next ?_
  unfold State.dispense
  rw [h]

/-- The state in which a chosen entry has left its queue. -/
def Machine.State.chosen (s : State) (c d : CoreId) (q : QEntry) : State :=
  (s.updCore d fun v => v.dropEntry q.t.ident).stealBreak (clusterOf c) q.t.job q.t.lslot

/-- The state in which a task that starts runs in its block of the retention ring, of which a task without one receives one. -/
def Machine.State.inRing (s : State) (c : CoreId) (k : StrandId) (q : QEntry) : State :=
  if !q.t.opt then s
  else if q.block then s.updBlock c q.t.ident fun b => { b with ts := .running, strand := some k }
  else s.updCore c fun v => { v with rings := v.rings ++ [{ job := q.t.job, lslot := q.t.lslot, t := q, strand := some k }] }

theorem dispense_runs {s : State} {c d : CoreId} {k : StrandId} {q : QEntry} (h : s.choice c k = some (d, q)) : s.dispense c k =
    if !(s.job q.t.job).live q.t.lslot || (s.job q.t.job).cancels q.t.lslot q.t.vt then ((s.chosen c d q).dropTask q.t).discarded c k
    else (((s.chosen c d q).inRing c k q).updCore c fun v => { v with pts := wmax v.pts q.pts }).updStrand c k fun t =>
      t.dispensed q (((s.chosen c d q).inRing c k q).launch q.t.job q.t.lslot).nreg ((s.chosen c d q).inRing c k q).freeWord
        (((s.chosen c d q).inRing c k q).cycle + 4) := by
  unfold State.dispense
  rw [h]
  rfl

/-- What the machine keeps where a task receives its block. -/
theorem inRing_keeps (s : State) (c : CoreId) (k : StrandId) (q : QEntry) : (s.inRing c k q).jobs = s.jobs ∧ (s.inRing c k q).mem = s.mem ∧
    (s.inRing c k q).now = s.now ∧ (∀ d n, (s.inRing c k q).strand d n = s.strand d n) ∧ ∀ d, ((s.inRing c k q).core d).queue = (s.core d).queue := by
  unfold State.inRing
  split
  · exact ⟨rfl, rfl, rfl, fun _ _ => rfl, fun _ => rfl⟩
  · have queue : ∀ f : Core → Core, (∀ v, (f v).queue = v.queue) → ∀ d, ((s.updCore c f).core d).queue = (s.core d).queue := by
      intro f hf d
      rw [State.core_updCore]
      split
      · subst d; exact hf _
      · rfl
    split
    · exact ⟨rfl, rfl, rfl, strand_updBlock s c _ _, queue _ fun _ => rfl⟩
    · exact ⟨rfl, rfl, rfl, fun d n => by refine strand_updCore_of_strands ?_ s c d n; exact fun _ => rfl, queue _ fun _ => rfl⟩

/-- An optimistic task that held no block has one where it starts. -/
theorem inRing_block (s : State) (c : CoreId) (k : StrandId) {q : QEntry} (ho : q.t.opt = true) (hb : q.block = false) :
    ({ job := q.t.job, lslot := q.t.lslot, t := q, strand := some k } : Block) ∈ ((s.inRing c k q).core c).rings := by
  unfold State.inRing
  rw [ho, hb]
  rw [if_neg (by decide), if_neg (by decide), State.core_updCore_same]
  exact List.mem_append_right _ List.mem_cons_self

theorem strand_chosen (s : State) (c d : CoreId) (q : QEntry) (e : CoreId) (n : StrandId) : (s.chosen c d q).strand e n = s.strand e n :=
  strand_updCore_of_strands (f := fun v => v.dropEntry q.t.ident) (fun _ => rfl) s d e n

theorem get_numbered {α : Type} (d : α) (f : Nat → α) (tail : Tab α) {l : List Nat} {i : Nat} (h : i ∈ l) :
    Tab.get d ((l.map fun n => (n + 1, f n)) ++ tail) (i + 1) = f i := by
  induction l with
  | nil => cases h
  | cons n r ih =>
    by_cases hn : n = i
    · subst n
      exact if_pos rfl
    · exact (if_neg (by omega)).trans (ih ((List.mem_cons.1 h).resolve_left (Ne.symm hn)))

/-- The first six arguments stand in the registers of a dispensed strand. -/
theorem rx_dispensed (t : Strand) (q : QEntry) {nreg : Nat} (free : Nat → Word) (till : Nat) {i : Nat} (hi : i < 6) (hn : i < nreg) :
    (t.dispensed q nreg free till).rx (BitVec.ofNat 6 (i + 1)) = q.t.args.getD i 0 := by
  have number : (BitVec.ofNat 6 (i + 1)).toNat = i + 1 := by
    rw [BitVec.toNat_ofNat]
    exact Nat.mod_eq_of_lt (by omega)
  have nonzero : BitVec.ofNat 6 (i + 1) ≠ 0 := fun h => by
    have h0 := number
    rw [h] at h0
    exact absurd h0 (by simp)
  have get := fun tail => get_numbered 0 (fun i => if i < 6 then q.t.args.getD i 0 else free i) tail (List.mem_range.2 hn)
  have value : (if i < 6 then q.t.args.getD i 0 else free i) = q.t.args.getD i 0 := if_pos hi
  unfold Strand.rx Strand.dispensed
  rw [if_neg nonzero, number]
  dsimp only
  split
  · exact (get _).trans value
  · exact (congrArg (Tab.get 0 · (i + 1)) (List.append_nil _).symm).trans ((get []).trans value)

/-- Every register of a dispensed strand is full but the forwarding slot, which is as it was. -/
theorem full_dispensed (t : Strand) (q : QEntry) (nreg : Nat) (free : Nat → Word) (till : Nat) (r : XReg) :
    (t.dispensed q nreg free till).full (.x r) = if r = 63#6 then t.full (.x 63#6) else true := by
  show (r == 0 || (setBit (BitVec.allOnes 64) 63 (t.full (.x 63#6))).getLsbD r.toNat) = _
  rw [getLsbD_setBit _ 63 _ _ (by decide)]
  by_cases h : r = 63#6
  · subst h
    rfl
  · have other : r.toNat ≠ 63 := fun hr => h (BitVec.eq_of_toNat_eq hr)
    rw [if_neg other, if_neg h, BitVec.getLsbD_allOnes, decide_eq_true (show r.toNat < 64 by omega), Bool.or_true]

/-- Queues and rings stand where a strand takes its task. -/
theorem core_started (s : State) (c : CoreId) (k : StrandId) (f : Strand → Strand) (g : Word → Word) (d : CoreId) :
    (((s.updCore c fun v => { v with pts := g v.pts }).updStrand c k f).core d).queue = (s.core d).queue ∧
      (((s.updCore c fun v => { v with pts := g v.pts }).updStrand c k f).core d).rings = (s.core d).rings := by
  by_cases h : d = c
  · subst d
    unfold State.updStrand State.setStrand
    rw [State.core_setCore_same, State.core_updCore_same]
    exact ⟨rfl, rfl⟩
  · rw [core_updStrand_ne _ h]
    unfold State.updCore
    rw [State.core_setCore_ne _ _ h]
    exact ⟨rfl, rfl⟩

theorem dispenses : Dispenses := by
  rintro s c k rfl rfl
  refine ⟨dispense_none, fun h => dispense_none (choice_of_not_mayDispense (mayDispense_of_busy h)), fun d q hc => ?_⟩
  have run := dispense_runs hc
  refine ⟨fun h => congrArg Host.Outcome.next (run.trans (if_pos ?_)), fun hl hn => ?_⟩
  · rcases h with h | h <;> simp [h]
  · refine ⟨_, congrArg Host.Outcome.next (run.trans (if_neg (by simp [hl, hn]))), ?_⟩
    obtain ⟨jobs, mem, now, strands, queues⟩ := inRing_keeps (s.chosen s.arg.c d q) s.arg.c s.arg.k q
    have nreg : (((s.chosen s.arg.c d q).inRing s.arg.c s.arg.k q).launch q.t.job q.t.lslot).nreg = (s.launch q.t.job q.t.lslot).nreg := by
      unfold State.launch State.job
      rw [jobs]
      rfl
    have cycle : ((s.chosen s.arg.c d q).inRing s.arg.c s.arg.k q).cycle = s.cycle := by
      unfold State.cycle
      rw [now]
      rfl
    have queued : ∀ e ∈ (((s.chosen s.arg.c d q).inRing s.arg.c s.arg.k q).core d).queue, ¬(e.t.ident = q.t.ident ∧ e.t.anti = false) := by
      intro e he hq
      rw [queues d, show (s.chosen s.arg.c d q).core d = (s.core d).dropEntry q.t.ident from
        State.core_updCore_same s d fun v => v.dropEntry q.t.ident] at he
      have kept := (List.mem_filter.1 he).2
      simp [hq.1, hq.2] at kept
    have block := inRing_block (s.chosen s.arg.c d q) s.arg.c s.arg.k (q := q)
    have strand := fun n => (strands s.arg.c n).trans (strand_chosen s s.arg.c d q s.arg.c n)
    generalize (s.chosen s.arg.c d q).inRing s.arg.c s.arg.k q = u at mem nreg cycle queued block strand ⊢
    have kept := fun n => (strand_updCore_of_strands (f := fun v : Core => { v with pts := wmax v.pts q.pts }) (fun _ => rfl) u s.arg.c s.arg.c n).trans (strand n)
    have own : ((u.updCore s.arg.c fun v => { v with pts := wmax v.pts q.pts }).updStrand s.arg.c s.arg.k fun t =>
        t.dispensed q (u.launch q.t.job q.t.lslot).nreg u.freeWord (u.cycle + 4)).strand s.arg.c s.arg.k =
        (s.strand s.arg.c s.arg.k).dispensed q (s.launch q.t.job q.t.lslot).nreg u.freeWord (s.cycle + 4) := by
      rw [State.strand_updStrand_same, kept, nreg, cycle]
    have parts := fun f => core_started u s.arg.c s.arg.k f (wmax · q.pts)
    rw [own]
    refine ⟨rfl, rfl, rfl, rfl, rfl, rfl, rfl, rfl, fun i hi hn => rx_dispensed _ q _ _ hi hn, fun r hr => (full_dispensed _ q _ _ _ r).trans (if_neg hr),
      (full_dispensed _ q _ _ _ _).trans (if_pos rfl), ?_, fun m hm => ?_, fun ho hb => ?_, ?_⟩
    · rw [(parts _ d).1]
      exact queued
    · exact (State.strand_updStrand_ne _ _ fun h => hm h.2).trans (kept m)
    · rw [(parts _ s.arg.c).2]
      exact ⟨_, block ho hb, rfl, rfl, rfl, rfl⟩
    · exact mem

end Sys2Proof

/-! ## Donation between clusters (spec/05_placement.md R88 to R91; spec/02_formats.md R17) -/

namespace Sys2Proof

open Machine

/-! ### A cluster's record of its stealing -/

theorem steal_names (v : Cluster) (j : JobId) (l : Lslot) (self : ClusterId) : (v.steal j l self).job = j ∧ (v.steal j l self).lslot = l := by
  unfold Cluster.steal
  cases h : v.steals.find? fun x => x.job == j && x.lslot == l with
  | none => exact ⟨rfl, rfl⟩
  | some x =>
    have found := List.find?_some h
    simp only [Bool.and_eq_true, beq_iff_eq] at found
    exact found

theorem steal_setSteal (s : State) (cl : ClusterId) {x : Steal} {j : JobId} {l : Lslot} (hj : x.job = j) (hl : x.lslot = l) (self : ClusterId) :
    ((s.setSteal cl x).cluster cl).steal j l self = x := by
  subst hj hl
  unfold State.setSteal
  rw [State.cluster_updCluster_same]
  unfold Cluster.steal
  dsimp only
  rw [List.find?_append, List.find?_eq_none.2]
  · simp
  · intro y hy
    simpa [imp_iff_not_or] using (List.mem_filter.1 hy).2

/-! ### The request -/

section

variable {s : State} {cl : ClusterId} {j : JobId} {l : Lslot}

theorem stealStep_fed (h : s.starved cl j l = false) : s.stealStep cl j l = s.setSteal cl { (s.cluster cl).steal j l cl with since := none } :=
  if_pos (by rw [h]; rfl)

theorem stealStep_notes (h : s.starved cl j l = true) (hx : ((s.cluster cl).steal j l cl).since = none) : s.stealStep cl j l =
    (s.setSteal cl { (s.cluster cl).steal j l cl with since := some s.cycle }).push 512 .stealRequest { cl := cl, j := j, l := l } := by
  unfold State.stealStep
  refine (if_neg (by rw [h]; decide)).trans ?_
  rw [hx]

variable {t : Nat} (h : s.starved cl j l = true) (hx : ((s.cluster cl).steal j l cl).since = some t)

include h hx

theorem stealStep_early (ht : s.cycle < t + 256) : s.stealStep cl j l = s := by
  unfold State.stealStep
  refine (if_neg (by rw [h]; decide)).trans ?_
  rw [hx]
  exact if_pos ht

theorem stealStep_holds (ht : t + 256 ≤ s.cycle) (hb : ((s.cluster cl).steal j l cl).outstanding = true ∨ 1 ≤ (s.cluster cl).level ∨
    s.cycle < ((s.cluster cl).steal j l cl).pausedTill) : s.stealStep cl j l = s.push 64 .stealRequest { cl := cl, j := j, l := l } := by
  unfold State.stealStep
  refine (if_neg (by rw [h]; decide)).trans ?_
  rw [hx]
  refine (if_neg (Nat.not_lt.2 ht)).trans (if_pos ?_)
  simpa [or_assoc] using hb

theorem stealStep_asks (ht : t + 256 ≤ s.cycle) (ho : ((s.cluster cl).steal j l cl).outstanding = false) (hl : (s.cluster cl).level = 0)
    (hp : ((s.cluster cl).steal j l cl).pausedTill ≤ s.cycle) {v : Nat} (hv : nextVictim (s.launch j l).cmask cl ((s.cluster cl).steal j l cl).last = some v) :
    s.stealStep cl j l = (s.setSteal cl { (s.cluster cl).steal j l cl with
      outstanding := true, last := v, asked := ((s.cluster cl).steal j l cl).asked + 1 }).sendNew
        { src := s.epDispenser cl, dst := s.epDispenser (BitVec.ofNat 6 v), kind := 0x09#6, job := j, body := .steal cl l } := by
  unfold State.stealStep
  refine (if_neg (by rw [h]; decide)).trans ?_
  rw [hx]
  refine (if_neg (Nat.not_lt.2 ht)).trans ((if_neg ?_).trans ?_)
  · simp [ho, hl, hp]
  · rw [hv]
    dsimp only
    rw [hx]

end

theorem steals_sends {s t : State} (h : Sends s t) (cl : ClusterId) : (t.cluster cl).steals = (s.cluster cl).steals := (congrArg Cluster.steals (h.cluster cl) :)

theorem steal_congr {v w : Cluster} (h : w.steals = v.steals) (j : JobId) (l : Lslot) (self : ClusterId) : w.steal j l self = v.steal j l self := by
  unfold Cluster.steal
  rw [h]

/-- Requests for tasks (R88). -/
theorem stealRequests (s : State) {i : Instr} (hi : i ∈ [Instr.stealRequest, .stealPauseExpiry]) :
    exec i s = .next (s.stealStep s.arg.cl s.arg.j s.arg.l) := by
  rcases List.mem_cons.1 hi with rfl | hi
  · rfl
  · rcases List.mem_singleton.1 hi with rfl
    rfl

/-! ### The reply -/

theorem shipList_eq (qs : List QEntry) (opt : Bool) (room : Nat) : shipList qs opt room =
    (qs.filter fun q => q.block = false).drop ((qs.filter fun q => q.block = false).length - min (min 16 (qs.length / 2)) (if opt then room else 16)) := by
  have free : (qs.filter fun q => !q.block) = qs.filter fun q => q.block = false := List.filter_congr fun q _ => by cases q.block <;> rfl
  have n : (if opt then min (min 16 (qs.length / 2)) room else min 16 (qs.length / 2)) = min (min 16 (qs.length / 2)) (if opt then room else 16) := by
    cases opt
    · exact (Nat.min_eq_left (Nat.min_le_left _ _)).symm
    · rfl
  unfold shipList
  dsimp only
  rw [free, n]

/-- What steps that give out messages and counts leave of the machine. -/
structure Ships (s t : State) : Prop where
  core : ∀ d, t.core d = s.core d
  fwd : ∀ cl, (t.cluster cl).fwd = (s.cluster cl).fwd
  mem : t.mem = s.mem
  devnum : t.devnum = s.devnum
  colour : ∀ j x, ((t.job j).leaf x).colour = ((s.job j).leaf x).colour
  nextId : s.nextId ≤ t.nextId
  msgs : ∀ n, n < s.nextId → sentMsg t n = sentMsg s n

theorem Ships.refl (s : State) : Ships s s := ⟨fun _ => rfl, fun _ => rfl, rfl, rfl, fun _ _ => rfl, le_rfl, fun _ _ => rfl⟩

theorem Ships.trans {s t u : State} (h : Ships s t) (g : Ships t u) : Ships s u where
  core d := (g.core d).trans (h.core d)
  fwd cl := (g.fwd cl).trans (h.fwd cl)
  mem := g.mem.trans h.mem
  devnum := g.devnum.trans h.devnum
  colour j x := (g.colour j x).trans (h.colour j x)
  nextId := h.nextId.trans g.nextId
  msgs n hn := (g.msgs n (Nat.lt_of_lt_of_le hn h.nextId)).trans (h.msgs n hn)

theorem Ships.sendNew (s : State) (m : Msg) : Ships s (s.sendNew m) where
  core := (Sends.sendNew s m).core
  fwd cl := (congrArg Cluster.fwd ((Sends.sendNew s m).cluster cl) :)
  mem := (Sends.sendNew s m).mem
  devnum := (Sends.sendNew s m).devnum
  colour j x := by rw [(Sends.sendNew s m).job]
  nextId := by rw [nextId_sendNew]; exact Nat.le_succ _
  msgs n hn := find_inject_ne s (Nat.ne_of_lt hn) _

theorem Ships.countSent (s : State) (j : JobId) (x : Leaf) (vt : Word) : Ships s (s.updLeaf j x fun v => v.send vt) where
  core _ := rfl
  fwd _ := rfl
  mem := rfl
  devnum := rfl
  colour i y := by
    unfold State.updLeaf
    rw [State.job_updJob]
    split
    · subst i
      unfold Job.leaf
      dsimp only
      rw [Tab.get_put]
      split
      · rename_i h
        rw [← h]
        rfl
      · rfl
    · rfl
  nextId := le_rfl
  msgs _ _ := rfl

theorem ships_shipOne (s : State) (cl thief : ClusterId) (j : JobId) (l : Lslot) (n : Nat) (q : Option QEntry) : Ships s (s.shipOne cl thief j l n q) := by
  unfold State.shipOne
  cases q with
  | none => exact Ships.sendNew s _
  | some q => exact (Ships.countSent s _ _ _).trans (Ships.sendNew _ _)

/-- A task as it travels to a thief (R17). -/
def Machine.QEntry.shippedAs (q : QEntry) (col : Bool) : QEntry := { q with t := { q.t with colour := col, kind := 0x14#6 } }

theorem sentMsg_shipOne (s : State) (cl thief : ClusterId) (j : JobId) (l : Lslot) (n : Nat) (q : Option QEntry) :
    ∃ r, sentMsg (s.shipOne cl thief j l n q) s.nextId = some r ∧ r.dst = s.epDispenser thief ∧ r.kind = 0x14#6 ∧ r.fcnt = 1 ∧
      r.body = .shipped (q.map fun q => q.shippedAs ((s.job j).leaf (.dispenser cl)).colour) n l := by
  unfold State.shipOne
  cases q with
  | none => exact ⟨_, sentMsg_sendNew s _, rfl, rfl, rfl, rfl⟩
  | some q => exact ⟨_, sentMsg_sendNew (s.updLeaf j (.dispenser cl) fun v => v.send q.t.vt) _, rfl, rfl, rfl, rfl⟩

theorem nextId_shipOne (s : State) (cl thief : ClusterId) (j : JobId) (l : Lslot) (n : Nat) (q : Option QEntry) :
    (s.shipOne cl thief j l n q).nextId = s.nextId + 1 := by
  unfold State.shipOne
  cases q <;> exact nextId_sendNew _ _

/-- Each task of a reply travels in a message of its own. -/
theorem ships_tasks (cl thief : ClusterId) (j : JobId) (l : Lslot) (n : Nat) (qs : List QEntry) : ∀ s : State,
    Ships s (qs.foldl (fun s q => s.shipOne cl thief j l n (some q)) s) ∧
      ∀ i q, qs[i]? = some q → ∃ r, sentMsg (qs.foldl (fun s q => s.shipOne cl thief j l n (some q)) s) (s.nextId + i) = some r ∧
        r.dst = s.epDispenser thief ∧ r.kind = 0x14#6 ∧ r.fcnt = 1 ∧
        r.body = .shipped (some (q.shippedAs ((s.job j).leaf (.dispenser cl)).colour)) n l := by
  induction qs with
  | nil => exact fun s => ⟨Ships.refl s, fun i q h => by cases h⟩
  | cons x r ih =>
    intro s
    have first := ships_shipOne s cl thief j l n (some x)
    obtain ⟨rest, sent⟩ := ih (s.shipOne cl thief j l n (some x))
    refine ⟨first.trans rest, fun i q h => ?_⟩
    rw [List.foldl_cons]
    cases i with
    | zero =>
      obtain rfl : x = q := Option.some.inj h
      obtain ⟨m, found, is⟩ := sentMsg_shipOne s cl thief j l n (some x)
      refine ⟨m, (rest.msgs _ ?_).trans found, is⟩
      rw [nextId_shipOne]
      exact Nat.lt_succ_self _
    | succ i =>
      obtain ⟨m, found, dst, is⟩ := sent i q h
      rw [nextId_shipOne, Nat.add_right_comm] at found
      refine ⟨m, found, ?_, ?_⟩
      · rw [dst]
        unfold State.epDispenser
        rw [first.devnum]
      · rw [first.colour] at is
        exact is

/-- The tasks with which a cluster answers a thief (R89). -/
def Machine.State.donates (s : State) (cl : ClusterId) (j : JobId) (l : Lslot) : List QEntry :=
  if 1 ≤ (s.cluster cl).level then [] else shipList (s.shippable cl j l) (s.launch j l).opt (64 - (s.cluster cl).fwd.length)

/-- Whether an entry stays where some tasks are shipped. -/
def staysBehind (out : List QEntry) (q : QEntry) : Bool := q.t.anti || !(out.any fun o => o.t.ident == q.t.ident)

/-- The state in which the shipped tasks have left their queues. -/
def Machine.State.unqueued (s : State) (cl : ClusterId) (out : List QEntry) : State :=
  (s.coresOf cl).foldl (fun s c => s.updCore c fun v => v.keepEntries (staysBehind out)) s

/-- The forwarding entries of the shipped optimistic tasks (R91). -/
def Machine.State.remembers (s : State) (cl thief : ClusterId) (j : JobId) (l : Lslot) (out : List QEntry) : State :=
  s.updCluster cl fun v =>
    { v with fwd := v.fwd ++ (out.filter fun q => q.t.opt).map fun q => { t := q.t.ident, thief := thief, job := j, lslot := l, vt := q.t.vt } }

theorem staysBehind_nil (q : QEntry) : staysBehind [] q = true := Bool.or_true _

theorem queue_unqueued (out : List QEntry) (cs : List CoreId) : ∀ (s : State) (c : CoreId),
    ((cs.foldl (fun s c => s.updCore c fun v => v.keepEntries (staysBehind out)) s).core c).queue =
      if c ∈ cs then (s.core c).queue.filter (staysBehind out) else (s.core c).queue := by
  induction cs with
  | nil => exact fun _ _ => rfl
  | cons d r ih =>
    intro s c
    rw [List.foldl_cons, ih, State.core_updCore]
    by_cases hd : c = d
    · subst d
      rw [if_pos rfl, if_pos List.mem_cons_self]
      split
      · exact List.filter_filter.trans (List.filter_congr fun q _ => Bool.and_self _)
      · rfl
    · rw [if_neg hd]
      simp only [List.mem_cons, hd, false_or]

/-- A core of a cluster that is not listed holds no entry. -/
theorem queue_of_not_mem_coresOf {s : State} {c : CoreId} (h : c ∉ s.coresOf (clusterOf c)) : (s.core c).queue = [] := by
  have absent : ∀ e ∈ s.cores, e.1 ≠ c.toNat := by
    intro e he hc
    refine h (List.mem_map.2 ⟨e, List.mem_filter.2 ⟨he, ?_⟩, ?_⟩)
    · rw [hc, clusterOf_toNat]
      exact beq_self_eq_true _
    · rw [hc]
      exact BitVec.ofNat_toNat 12 c
  have get : ∀ (d : Core) (t : Tab Core), (∀ e ∈ t, e.1 ≠ c.toNat) → Tab.get d t c.toNat = d := by
    intro d t ht
    induction t with
    | nil => rfl
    | cons e r ih => exact (if_neg (ht e List.mem_cons_self)).trans (ih fun x hx => ht x (List.mem_cons_of_mem _ hx))
  unfold State.core
  rw [get _ _ absent]

theorem unqueued_rest (s : State) (cl : ClusterId) (out : List QEntry) : { s.unqueued cl out with cores := s.cores } = s := by
  unfold State.unqueued
  refine foldl_keeps (R := fun s t => { t with cores := s.cores } = s) (f := fun s c => s.updCore c fun v => v.keepEntries (staysBehind out))
    (fun _ => rfl) (fun h g => ?_) (fun _ _ => rfl) (s.coresOf cl) s
  rw [← h, ← g]

theorem stealReply_of {s : State} {n : Nat} {m : Msg} {thief : ClusterId} {l : Lslot} (h : sentMsg s n = some m) (hb : m.body = .steal thief l) :
    s.stealReply n =
      let u := s.dropMsg n
      let out := u.donates m.dst.router m.job l
      let v := (u.unqueued m.dst.router out).remembers m.dst.router thief m.job l out
      if out = [] then v.shipOne m.dst.router thief m.job l 0 none
      else out.foldl (fun s q => s.shipOne m.dst.router thief m.job l out.length (some q)) v := by
  unfold State.stealReply
  rw [show Tab.find s.msgs n = some m from h]
  dsimp only
  rw [hb]
  rfl

theorem Machine.Sends.donates {s t : State} (h : Sends s t) (cl : ClusterId) (j : JobId) (l : Lslot) : t.donates cl j l = s.donates cl j l := by
  have level := (congrArg Cluster.level (h.cluster cl) :)
  have fwd := (congrArg Cluster.fwd (h.cluster cl) :)
  have counted := (congrArg (fun x : State => x.shippable cl j l) h.rest :)
  unfold State.donates
  rw [level, fwd, show t.shippable cl j l = s.shippable cl j l from counted, show t.launch j l = s.launch j l from congrArg (Job.launch · l) (h.job j)]

/-- The highest of the tasks without a block are shipped, half of all and at most 16 (R89). -/
theorem donates_eq (s : State) (cl : ClusterId) (j : JobId) (l : Lslot) :
    let free := (s.shippable cl j l).filter fun q => q.block = false
    let n := if 1 ≤ (s.cluster cl).level then 0 else
      min (min 16 ((s.shippable cl j l).length / 2)) (if (s.launch j l).opt then 64 - (s.cluster cl).fwd.length else 16)
    s.donates cl j l = free.drop (free.length - n) := by
  intro free n
  unfold State.donates
  by_cases h : 1 ≤ (s.cluster cl).level
  · have none : n = 0 := if_pos h
    rw [if_pos h, none, Nat.sub_zero, List.drop_length]
  · have some : n = _ := if_neg h
    rw [if_neg h, shipList_eq, some]

theorem stealReplies {s : State} {m : Msg} {thief : ClusterId} {l : Lslot} (h : sentMsg s s.arg.n = some m) (hb : m.body = .steal thief l) :
    let out := s.donates m.dst.router m.job l
    let col := ((s.job m.job).leaf (.dispenser m.dst.router)).colour
    ∃ t, exec .stealReply s = .next t ∧
      (out = [] → ∃ r, sentMsg t s.nextId = some r ∧ r.dst = s.epDispenser thief ∧ r.kind = 0x14#6 ∧ r.body = .shipped none 0 l) ∧
      (∀ i, ∀ q, out[i]? = some q → ∃ r, sentMsg t (s.nextId + i) = some r ∧ r.dst = s.epDispenser thief ∧ r.kind = 0x14#6 ∧ r.fcnt = 1 ∧
        r.body = .shipped (some (q.shippedAs col)) out.length l) ∧
      ((t.cluster m.dst.router).fwd = (s.cluster m.dst.router).fwd ++ (out.filter fun q => q.t.opt).map (fun q =>
        { t := q.t.ident, thief := thief, job := m.job, lslot := l, vt := q.t.vt })) ∧
      (∀ c, clusterOf c = m.dst.router → ∀ e ∈ (t.core c).queue, staysBehind out e = true) ∧
      (out = [] → ∀ c, (t.core c).queue = (s.core c).queue) ∧ t.mem = s.mem := by
  intro out col
  have dropped := Sends.dropMsg s s.arg.n
  have nextId : (s.dropMsg s.arg.n).nextId = s.nextId := by
    unfold State.dropMsg State.freePool
    split
    · dsimp only
      split <;> rfl
    · rfl
  have run : exec .stealReply s = .next (if out = [] then
      (((s.dropMsg s.arg.n).unqueued m.dst.router out).remembers m.dst.router thief m.job l out).shipOne m.dst.router thief m.job l 0 none
      else out.foldl (fun s q => s.shipOne m.dst.router thief m.job l out.length (some q))
        (((s.dropMsg s.arg.n).unqueued m.dst.router out).remembers m.dst.router thief m.job l out)) := by
    refine congrArg Host.Outcome.next ((stealReply_of h hb).trans ?_)
    dsimp only
    rw [dropped.donates]
  have rest := unqueued_rest (s.dropMsg s.arg.n) m.dst.router out
  have queues : ∀ c, (((s.dropMsg s.arg.n).unqueued m.dst.router out).core c).queue =
      if c ∈ (s.dropMsg s.arg.n).coresOf m.dst.router then (s.core c).queue.filter (staysBehind out) else (s.core c).queue := fun c => by
    rw [← core_dropMsg s s.arg.n c]
    exact queue_unqueued out _ _ c
  have idle : ∀ c, clusterOf c = m.dst.router → c ∉ (s.dropMsg s.arg.n).coresOf m.dst.router → (s.core c).queue = [] := by
    intro c hc hn
    rw [← core_dropMsg s s.arg.n c]
    exact queue_of_not_mem_coresOf (hc ▸ hn)
  generalize (s.dropMsg s.arg.n).unqueued m.dst.router out = u at run rest queues
  have dev : u.devnum = s.devnum := (congrArg State.devnum rest :).trans dropped.devnum
  have number : u.nextId = s.nextId := (congrArg State.nextId rest :).trans nextId
  have mem : u.mem = s.mem := (congrArg State.mem rest :).trans dropped.mem
  have colour : ((u.job m.job).leaf (.dispenser m.dst.router)).colour = col :=
    congrArg (fun v : Job => (v.leaf (.dispenser m.dst.router)).colour) ((congrArg (fun x : State => x.job m.job) rest :).trans (dropped.job m.job))
  have fwd : ((u.remembers m.dst.router thief m.job l out).cluster m.dst.router).fwd = (s.cluster m.dst.router).fwd ++
      (out.filter fun q => q.t.opt).map (fun q => { t := q.t.ident, thief := thief, job := m.job, lslot := l, vt := q.t.vt }) := by
    unfold State.remembers
    rw [State.cluster_updCluster_same]
    exact congrArg (· ++ _) ((congrArg (fun x : State => (x.cluster m.dst.router).fwd) rest :).trans (congrArg Cluster.fwd (dropped.cluster m.dst.router) :))
  have ep : ∀ e, u.epDispenser e = s.epDispenser e := fun e => by
    unfold State.epDispenser
    rw [dev]
  have behind : ∀ c, clusterOf c = m.dst.router → ∀ e ∈ (u.core c).queue, staysBehind out e = true := by
    intro c hc e he
    rw [queues] at he
    split at he
    · exact (List.mem_filter.1 he).2
    · rename_i hn
      rw [idle c hc hn] at he
      cases he
  have asBefore : out = [] → ∀ c, (u.core c).queue = (s.core c).queue := by
    intro ho c
    rw [queues, ho]
    split
    · exact List.filter_eq_self.2 fun q _ => staysBehind_nil q
    · rfl
  by_cases ho : out = []
  · rw [if_pos ho] at run
    have ships := ships_shipOne (u.remembers m.dst.router thief m.job l out) m.dst.router thief m.job l 0 none
    obtain ⟨r, found, dst, kind, -, body⟩ := sentMsg_shipOne (u.remembers m.dst.router thief m.job l out) m.dst.router thief m.job l 0 none
    refine ⟨_, run, fun _ => ⟨r, number ▸ found, dst.trans (ep thief), kind, body⟩, fun i q hq => ?_, (ships.fwd _).trans fwd, fun c hc => ?_,
      fun h c => ?_, ships.mem.trans mem⟩
    · rw [ho] at hq
      cases hq
    · rw [ships.core]
      exact behind c hc
    · rw [ships.core]
      exact asBefore h c
  · rw [if_neg ho] at run
    obtain ⟨ships, sent⟩ := ships_tasks m.dst.router thief m.job l out.length out (u.remembers m.dst.router thief m.job l out)
    refine ⟨_, run, fun h => absurd h ho, fun i q hq => ?_, (ships.fwd _).trans fwd, fun c hc => ?_, fun h c => absurd h ho, ships.mem.trans mem⟩
    · obtain ⟨r, found, dst, kind, one, body⟩ := sent i q hq
      refine ⟨r, number ▸ found, dst.trans (ep thief), kind, one, ?_⟩
      rw [body, ← colour]
      rfl
    · rw [ships.core]
      exact behind c hc

/-! ### The arrival of a reply -/

/-- The thief has counted a message of a reply, with which tasks came or did not. -/
def Machine.State.countsReply (s : State) (cl : ClusterId) (j : JobId) (l : Lslot) (total : Nat) (came : Bool) : State :=
  let x := (s.cluster cl).steal j l cl
  let left := x.left.getD total - 1
  let x := { x with left := some left, shipped := x.shipped || came }
  if left = 0 then s.stealAnswered cl j l x else s.setSteal cl x

theorem countsReply_came (s : State) (cl : ClusterId) (j : JobId) (l : Lslot) (total : Nat) : s.countsReply cl j l total true =
    let x := (s.cluster cl).steal j l cl
    let left := x.left.getD total - 1
    if left = 0 then s.stealAnswered cl j l { x with left := some 0, shipped := true } else s.setSteal cl { x with left := some left, shipped := true } := by
  unfold State.countsReply
  generalize (s.cluster cl).steal j l cl = x
  dsimp only
  generalize x.left.getD total - 1 = left
  rw [Bool.or_true]
  by_cases h : left = 0
  · subst h
    rfl
  · rw [if_neg h, if_neg h]

/-- A thief whose scan shipped nothing pauses (R88). -/
theorem countsReply_pauses {s : State} {cl : ClusterId} {j : JobId} {l : Lslot} (hl : ((s.cluster cl).steal j l cl).left = none)
    (ha : (bitsOf (s.launch j l).cmask).length - 1 ≤ ((s.cluster cl).steal j l cl).asked) (hs : ((s.cluster cl).steal j l cl).shipped = false) :
    s.countsReply cl j l 0 false = (s.setSteal cl { (s.cluster cl).steal j l cl with
      outstanding := false, left := none, asked := 0, shipped := false, pausedTill := s.cycle + 4096 }).push 8192 .stealPauseExpiry { cl := cl, j := j, l := l } := by
  unfold State.countsReply
  generalize (s.cluster cl).steal j l cl = x at *
  dsimp only
  rw [hl, hs]
  refine (if_pos rfl).trans ((if_neg (Nat.not_lt.2 ha)).trans ((if_neg Bool.false_ne_true).trans ?_))
  rfl

section

variable {s : State} {m : Msg} {q : Option QEntry} {total : Nat} {l : Lslot} (h : sentMsg s s.arg.n = some m) (hb : m.body = .shipped q total l)

include h hb

theorem shipped_refused (hn : s.takeShipped m.dst.router l q = none) : exec .shippedTasksArrival s = .next (s.refuse s.arg.n) := by
  refine congrArg Host.Outcome.next ?_
  unfold State.shippedArrive
  rw [show Tab.find s.msgs s.arg.n = some m from h]
  dsimp only
  rw [hb]
  dsimp only
  rw [hn]

theorem shipped_taken {u : State} (hu : s.takeShipped m.dst.router l q = some u) : exec .shippedTasksArrival s =
    .next ((if q.isSome then (u.updLeaf m.job (.dispenser m.dst.router) fun v => v.recv m.colour).acceptMsg s.arg.n m else u.dropMsg s.arg.n).countsReply
      m.dst.router m.job l total q.isSome) := by
  refine congrArg Host.Outcome.next ?_
  unfold State.shippedArrive
  rw [show Tab.find s.msgs s.arg.n = some m from h]
  dsimp only
  rw [hb]
  dsimp only
  rw [hu]
  rfl

end

theorem emptyReply {s : State} {m : Msg} {l : Lslot} (h : sentMsg s s.arg.n = some m) (hb : m.body = .shipped none 0 l) :
    let cl := m.dst.router; let j := m.job
    let x := (s.cluster cl).steal j l cl
    let scan := (bitsOf (s.launch j l).cmask).length - 1
    x.left = none → scan ≤ x.asked → x.shipped = false → ∃ t, exec .shippedTasksArrival s = .next t ∧
      ((t.cluster cl).steal j l cl).pausedTill = s.cycle + 4096 ∧ ((t.cluster cl).steal j l cl).outstanding = false ∧
      sentMsg t s.arg.n = none ∧ (s.now + 8192, Instr.stealPauseExpiry, ({ cl := cl, j := j, l := l } : StepArg)) ∈ t.agenda := by
  intro cl j x scan hl ha hs
  have run := shipped_taken h hb rfl
  have gone := sentMsg_dropMsg h
  have dropped := Sends.dropMsg s s.arg.n
  generalize s.dropMsg s.arg.n = u at run gone dropped
  have same : (u.cluster cl).steal j l cl = x := steal_congr (steals_sends dropped cl) j l cl
  have names := steal_names (s.cluster cl) j l cl
  have cycle : u.cycle = s.cycle := by
    unfold State.cycle
    rw [dropped.now]
  have launch : u.launch j l = s.launch j l := congrArg (Job.launch · l) (dropped.job j)
  have pauses := countsReply_pauses (s := u) (cl := cl) (j := j) (l := l) (by rw [same]; exact hl) (by rw [same, launch]; exact ha)
    (by rw [same]; exact hs)
  rw [same, cycle] at pauses
  have noted := steal_setSteal u cl (x := { x with outstanding := false, left := none, asked := 0, shipped := false, pausedTill := s.cycle + 4096 })
    names.1 names.2 cl
  refine ⟨_, run.trans (congrArg _ pauses), ?_, ?_, gone, State.mem_agenda_push.2 (.inl ?_)⟩
  · exact (congrArg Steal.pausedTill noted :)
  · exact (congrArg Steal.outstanding noted :)
  · rw [← dropped.now]
    rfl

theorem donation : Donation := by
  refine fun s => ⟨?_, fun m thief l h hb => ?_, fun m q total l h hb => ⟨shipped_refused h hb, fun u hq hu => ?_, ?_⟩⟩
  · intro cl j l x i hi
    have run := stealRequests s hi
    refine ⟨fun h => run.trans (congrArg _ (stealStep_fed h)), fun h hx => run.trans (congrArg _ (stealStep_notes h hx)), fun t h hx =>
      ⟨fun ht => run.trans (congrArg _ (stealStep_early h hx ht)), fun ht hb => run.trans (congrArg _ (stealStep_holds h hx ht hb)),
        fun ht ho hl hp v hv => ?_⟩⟩
    have asks := run.trans (congrArg _ (stealStep_asks h hx ht ho hl hp hv))
    have noted := steal_setSteal s cl (x := { x with outstanding := true, last := v, asked := x.asked + 1 }) (steal_names _ j l cl).1
      (steal_names _ j l cl).2 cl
    have steals : ∀ w : State, Sends (s.setSteal cl { x with outstanding := true, last := v, asked := x.asked + 1 }) w →
        (w.cluster cl).steal j l cl = { x with outstanding := true, last := v, asked := x.asked + 1 } :=
      fun w hw => (steal_congr (steals_sends hw cl) j l cl).trans noted
    refine ⟨_, _, asks, sentMsg_sendNew (s.setSteal cl { x with outstanding := true, last := v, asked := x.asked + 1 }) _, rfl, rfl, rfl, ?_, ?_,
      (Sends.sendNew _ _).mem⟩
    · rw [steals _ (Sends.sendNew _ _)]
    · rw [steals _ (Sends.sendNew _ _)]
  · intro cl j qs free n out col
    obtain ⟨t, run, none, each, fwd, queues, stays, mem⟩ := stealReplies h hb
    rw [show s.donates m.dst.router m.job l = out from donates_eq s cl j l] at none each fwd queues stays
    have zero : n = 0 → out = [] := fun h => by
      show free.drop (free.length - n) = []
      rw [h, Nat.sub_zero, List.drop_length]
    refine ⟨t, run, fun h => none (h.elim zero fun h => ?_), fun _ => each, fun _ => fwd, fun _ c hc e he ha q hq hi => ?_, fun h => ⟨?_, stays (zero h)⟩, mem⟩
    · show free.drop _ = []
      rw [h, List.drop_nil]
    · have behind := queues c hc e he
      unfold staysBehind at behind
      rw [ha, Bool.false_or, Bool.not_eq_true', List.any_eq_false] at behind
      exact behind q hq (beq_iff_eq.2 hi.symm)
    · rw [fwd, zero h]
      exact List.append_nil _
  · have run := shipped_taken h hb hu
    rw [hq, if_pos rfl, countsReply_came] at run
    exact run
  · rintro rfl rfl
    exact emptyReply h hb

/-- Settles O36: refills, dispenses, donation and holds, each by the lemma of its part. -/
theorem queuesAndDispense : Obligations.QueuesAndDispense := ⟨refills, dispenses, donation, holdsEnd⟩

end Sys2Proof

/-! ## The command ring (spec/04_launch.md R70, R71) -/

namespace Sys2Proof

open Machine

theorem length_bytesOf {w : Nat} (n : Nat) (v : BitVec w) : (bytesOf n v).length = n := by
  simp [bytesOf, toBytes_eq_leBytes, leBytes]

theorem getElem_bytesOf {w n : Nat} (v : BitVec w) {k : Nat} (h : k < (bytesOf n v).length) : (bytesOf n v)[k] = v.extractLsb' (8 * k) 8 := by
  have value : (bytesOf n v)[k] = BitVec.ofNat 8 (v.toNat / 256 ^ k) := by simp [bytesOf, toBytes_eq_leBytes, leBytes]
  apply BitVec.eq_of_toNat_eq
  rw [value, BitVec.toNat_ofNat, BitVec.extractLsb'_toNat, Nat.shiftRight_eq_div_pow, Nat.pow_mul]

/-- Taking the next command changes the ring's base and puts a step on the agenda. -/
theorem nextCommand_keeps (s : State) : { s.nextCommand with ackRing := s.ackRing, agenda := s.agenda } = s ∧
    ∀ e ∈ s.agenda, e ∈ s.nextCommand.agenda := by
  have taken : ∀ (u : State) (p : Bool) (i : Instr), u.agenda = s.agenda → { u with ackRing := s.ackRing, agenda := s.agenda } = s →
      { (if p then u else u.push 8 i {}) with ackRing := s.ackRing, agenda := s.agenda } = s ∧
        ∀ e ∈ s.agenda, e ∈ (if p then u else u.push 8 i {}).agenda := by
    intro u p i ha hu
    cases p with
    | true => exact ⟨hu, fun e he => ha ▸ he⟩
    | false => exact ⟨hu, fun e he => State.mem_agenda_push.2 (.inr (ha ▸ he))⟩
  unfold State.nextCommand
  dsimp only
  split
  · exact taken _ _ _ rfl rfl
  · exact taken _ _ _ rfl rfl

theorem mem_nextCommand (s : State) : s.nextCommand.mem = s.mem := (congrArg State.mem (nextCommand_keeps s).1 :)
theorem cmdhead_nextCommand (s : State) : s.nextCommand.cmdhead = s.cmdhead := (congrArg State.cmdhead (nextCommand_keeps s).1 :)
theorem job_nextCommand (s : State) (j : JobId) : s.nextCommand.job j = s.job j := (congrArg (fun x : State => x.job j) (nextCommand_keeps s).1 :)

/-- The next command is due where there is one and no acknowledgement stands in its way. -/
theorem nextCommand_due {s : State} (h : s.cmdhead ≠ s.cmdtail) (hs : 3 ≤ s.stage) (ha : s.ackPending s.cmdhead.toNat = false) :
    (s.now + 8, s.cmdStep, ({} : StepArg)) ∈ s.nextCommand.agenda := by
  unfold State.nextCommand
  rw [if_neg h]
  refine (congrArg (fun x : State => _ ∈ x.agenda) (if_neg ?_)).mpr (State.mem_agenda_push.2 (.inl rfl))
  rw [ha]
  simp [h, hs]

/-! ### Acknowledgements -/

theorem getLsbD_quad (a : BitVec 32) (b : BitVec 16) (c d : BitVec 8) (i : Nat) : (a ++ b ++ c ++ d).getLsbD i =
    if i < 8 then d.getLsbD i else if i < 16 then c.getLsbD (i - 8) else if i < 32 then b.getLsbD (i - 16) else a.getLsbD (i - 32) := by
  simp only [BitVec.getLsbD_append, Nat.sub_sub]
  split_ifs
  all_goals grind

theorem getLsbD_triple (a : BitVec 1) (b : BitVec 55) (c : BitVec 8) (i : Nat) : (a ++ b ++ c).getLsbD i =
    if i < 8 then c.getLsbD i else if i < 63 then b.getLsbD (i - 8) else a.getLsbD (i - 63) := by
  simp only [BitVec.getLsbD_append, Nat.sub_sub]
  split_ifs
  all_goals grind

/-- The 16 bytes of the acknowledgement of a command. -/
def ackBytes (s : State) (status : Nat) : List Byte :=
  bytesOf 8 (s.ackWord s.cmdSlot) ++ bytesOf 8 (BitVec.ofNat 1 s.wraps ++ 0#55 ++ BitVec.ofNat 8 status : Word)

theorem cmdSlot_index (s : State) : s.cmdSlot % 256 = s.cmdhead.toNat ∧ s.cmdSlot / 256 = s.wraps := by
  have bound := s.cmdhead.isLt
  unfold State.cmdSlot
  omega

theorem mem_endCommand (s : State) (status : Nat) : (s.endCommand status).mem =
    Memory.write s.mem (hostAddr s.ackRing + 16 * s.cmdhead.toNat) (ackBytes s status) := by
  obtain ⟨index, wraps⟩ := cmdSlot_index s
  unfold State.endCommand State.advanceHead State.acknowledge
  rw [mem_nextCommand, index, wraps]
  rfl

theorem cmdhead_endCommand (s : State) (status : Nat) : (s.endCommand status).cmdhead = s.cmdhead + 1 := cmdhead_nextCommand _

theorem length_ackBytes (s : State) (status : Nat) : (ackBytes s status).length = 16 := by
  unfold ackBytes
  rw [List.length_append, length_bytesOf, length_bytesOf]

theorem get_ack_low (s : State) (status : Nat) {k : Nat} (h : k < 8) :
    Memory.get (s.endCommand status).mem (hostAddr s.ackRing + 16 * s.cmdhead.toNat + k) = (s.ackWord s.cmdSlot).extractLsb' (8 * k) 8 := by
  have inside : k < (ackBytes s status).length := by rw [length_ackBytes]; omega
  have low : k < (bytesOf 8 (s.ackWord s.cmdSlot)).length := by rw [length_bytesOf]; exact h
  rw [mem_endCommand, Memory.get_write_inside _ k inside]
  unfold ackBytes
  exact (List.getElem_append_left low).trans (getElem_bytesOf _ low)

theorem get_ack_high (s : State) (status : Nat) {k : Nat} (h : k < 8) :
    Memory.get (s.endCommand status).mem (hostAddr s.ackRing + 16 * s.cmdhead.toNat + (8 + k)) =
      (BitVec.ofNat 1 s.wraps ++ 0#55 ++ BitVec.ofNat 8 status : Word).extractLsb' (8 * k) 8 := by
  have inside : 8 + k < (ackBytes s status).length := by rw [length_ackBytes]; omega
  have high : (bytesOf 8 (s.ackWord s.cmdSlot)).length ≤ 8 + k := by rw [length_bytesOf]; omega
  rw [mem_endCommand, Memory.get_write_inside _ (8 + k) inside]
  unfold ackBytes
  refine (List.getElem_append_right high).trans ((getElem_bytesOf _ _).trans ?_)
  rw [length_bytesOf, Nat.add_sub_cancel_left]

section

variable (s : State)

theorem ackWord_eq : s.ackWord s.cmdSlot = 0#32 ++ (commandWord s 0).extractLsb' 16 16 ++ 0#8 ++ (commandWord s 0).extractLsb' 0 8 := by
  unfold State.ackWord
  rw [(cmdSlot_index s).1]
  rfl

theorem ackWord_op : (s.ackWord s.cmdSlot).extractLsb' 0 8 = (commandWord s 0).extractLsb' 0 8 := by
  rw [ackWord_eq]
  refine BitVec.eq_of_getLsbD_eq fun i hi => ?_
  rw [BitVec.getLsbD_extractLsb', getLsbD_quad, if_pos (by omega)]
  simp [hi]

theorem ackWord_gap : (s.ackWord s.cmdSlot).extractLsb' 8 8 = 0#8 := by
  rw [ackWord_eq]
  refine BitVec.eq_of_getLsbD_eq fun i hi => ?_
  rw [BitVec.getLsbD_extractLsb', getLsbD_quad, if_neg (by omega), if_pos (by omega)]
  simp

/-- The two bytes of TAG. -/
theorem ackWord_tag {k : Nat} (h : k = 2 ∨ k = 3) : (s.ackWord s.cmdSlot).extractLsb' (8 * k) 8 = (commandWord s 0).extractLsb' (8 * k) 8 := by
  rw [ackWord_eq]
  refine BitVec.eq_of_getLsbD_eq fun i hi => ?_
  rw [BitVec.getLsbD_extractLsb', getLsbD_quad, if_neg (by omega), if_neg (by omega), if_pos (by omega), BitVec.getLsbD_extractLsb',
    BitVec.getLsbD_extractLsb', decide_eq_true hi, decide_eq_true (show 8 * k + i - 16 < 16 by omega), show 16 + (8 * k + i - 16) = 8 * k + i by omega,
    Bool.true_and]

theorem ackWord_rest {k : Nat} (h : 4 ≤ k) : (s.ackWord s.cmdSlot).extractLsb' (8 * k) 8 = 0#8 := by
  rw [ackWord_eq]
  refine BitVec.eq_of_getLsbD_eq fun i hi => ?_
  rw [BitVec.getLsbD_extractLsb', getLsbD_quad, if_neg (by omega), if_neg (by omega), if_neg (by omega)]
  simp

end

/-- Byte 15 of an acknowledgement holds the parity of the wraps. -/
theorem parity_ack (p st : Nat) : (BitVec.ofNat 1 p ++ 0#55 ++ BitVec.ofNat 8 st : Word).extractLsb' 56 8 = BitVec.ofNat 8 (p % 2 * 128) := by
  have parity : BitVec.ofNat 1 p = BitVec.ofNat 1 (p % 2) := BitVec.eq_of_toNat_eq (by simp)
  rw [parity]
  refine BitVec.eq_of_getLsbD_eq fun i hi => ?_
  rw [BitVec.getLsbD_extractLsb', getLsbD_triple, if_neg (by omega), decide_eq_true hi, Bool.true_and]
  rcases Nat.mod_two_eq_zero_or_one p with h | h <;> rw [h] <;> interval_cases i <;> rfl

theorem status_ack (p st : Nat) : (BitVec.ofNat 1 p ++ 0#55 ++ BitVec.ofNat 8 st : Word).extractLsb' 0 8 = BitVec.ofNat 8 st := by
  refine BitVec.eq_of_getLsbD_eq fun i hi => ?_
  rw [BitVec.getLsbD_extractLsb', getLsbD_triple, if_pos (by omega), decide_eq_true hi, Bool.true_and, Nat.zero_add]

theorem gap_ack (p st : Nat) {k : Nat} (h1 : 1 ≤ k) (h7 : k < 7) : (BitVec.ofNat 1 p ++ 0#55 ++ BitVec.ofNat 8 st : Word).extractLsb' (8 * k) 8 = 0#8 := by
  refine BitVec.eq_of_getLsbD_eq fun i hi => ?_
  rw [BitVec.getLsbD_extractLsb', getLsbD_triple, if_neg (by omega), if_pos (by omega)]
  simp

/-! ### CMDTAIL -/

theorem writeTail_refused {s : State} {v : BitVec 8} (h : 256 ≤ (s.cmdtail - s.cmdhead).toNat + (v - s.cmdtail).toNat) :
    s.writeTail v = { s with cmderr := true } := if_pos h

theorem writeTail_moves {s : State} {v : BitVec 8} (h : (s.cmdtail - s.cmdhead).toNat + (v - s.cmdtail).toNat < 256) :
    s.writeTail v = if s.taking then { s with cmdtail := v } else ({ s with cmdtail := v } : State).nextCommand := if_neg (Nat.not_le.2 h)

theorem commandRing : CommandRing := by
  refine fun s => ⟨fun st _ => ?_, ?_⟩
  · have low := fun k (h : k < 8) => get_ack_low s st h
    have high := fun k (h : k < 8) => get_ack_high s st h
    refine ⟨cmdhead_endCommand s st, fun y hy => ?_, (low 0 (by decide)).trans (ackWord_op s), (low 1 (by decide)).trans (ackWord_gap s),
      (low 2 (by decide)).trans (ackWord_tag s (.inl rfl)), (low 3 (by decide)).trans (ackWord_tag s (.inr rfl)), fun n h4 h8 => ?_,
      (high 0 (by decide)).trans (status_ack _ _), fun n h9 h15 => ?_, (high 7 (by decide)).trans (parity_ack _ _)⟩
    · rw [mem_endCommand]
      exact Memory.get_write_outside _ (by rw [length_ackBytes]; exact hy)
    · exact (low n h8).trans (ackWord_rest s h4)
    · obtain ⟨k, rfl⟩ : ∃ k, n = 8 + k := ⟨n - 8, by omega⟩
      exact (high k (by omega)).trans (gap_ack _ _ (by omega) (by omega))
  · intro u v d
    refine ⟨fun h => congrArg Host.Outcome.next (writeTail_refused h), fun h => ?_⟩
    have run : exec .cmdtailWrite s = .next (s.writeTail v) := rfl
    rw [run, writeTail_moves h]
    refine ⟨_, rfl, ?_⟩
    cases ht : s.taking with
    | true => exact ⟨rfl, rfl, fun _ _ hf => absurd hf (by simp)⟩
    | false =>
      obtain ⟨rest, -⟩ := nextCommand_keeps { s with cmdtail := v }
      refine ⟨(congrArg State.cmdtail rest :), ?_, fun hv hs _ ha => nextCommand_due (s := { s with cmdtail := v }) hv hs ha⟩
      exact (congrArg (fun x : State => ({ x with cmdtail := s.cmdtail } : State)) rest :)

end Sys2Proof

/-! ## The commands (spec/04_launch.md R72, R78; spec/01_work.md R31; spec/24_retire.md R418 to R420) -/

namespace Sys2Proof

open Machine

theorem command_due {s : State} {op : Instr} (h : Due s op) (f : State → (Nat → Word) → JobId → State) :
    s.command op f = f s (commandWord s) (commandJob s) := by
  obtain ⟨slots, stage, is⟩ := h
  refine if_neg ?_
  simp [slots, Nat.not_lt.2 stage, is]

/-! ### JOBSTART that does not start -/

section

variable {s : State} (h : Due s .jobstart) (hn : (s.job (commandJob s)).starting = none)

include h hn

theorem jobstart_resident (hr : (s.job (commandJob s)).resident = true) : exec .jobstart s = .next (s.endCommand 2) := by
  refine congrArg Host.Outcome.next ((command_due h _).trans ?_)
  unfold State.jobStart
  rw [hn]
  exact if_pos hr

theorem jobstart_severe (hr : (s.job (commandJob s)).resident = false) (hs : s.severe = true) : exec .jobstart s = .next (s.endCommand 4) := by
  refine congrArg Host.Outcome.next ((command_due h _).trans ?_)
  unfold State.jobStart
  rw [hn]
  exact (if_neg (by simp [hr])).trans (if_pos hs)

theorem jobstart_poisoned (hr : (s.job (commandJob s)).resident = false) (hs : s.severe = false)
    (hp : s.poisoned (hostAddr (commandWord s 2)) 64 = true) : exec .jobstart s = .next (s.endCommand 5) := by
  refine congrArg Host.Outcome.next ((command_due h _).trans ?_)
  unfold State.jobStart
  rw [hn]
  exact (if_neg (by simp [hr])).trans ((if_neg (by simp [hs])).trans (if_pos hp))

end

/-! ### PHASEOPEN -/

/-- The phase that a PHASEOPEN opens (R31). -/
def Machine.State.newPhase (s : State) (w : Nat → Word) (j : JobId) : Phase :=
  let p : Phase := { start := (s.job j).lastEnd, stop := w 1, crec := vaOf (w 2), sigw := vaOf (w 3), ven := (w 0).getLsbD 47,
                     vec := (w 0).extractLsb' 40 7, c := { tstart := s.tstamp } }
  { p with count := ((s.job j).early.filter p.has).length }

/-- The state with a phase opened, whose end is checked at once. -/
def Machine.State.withPhase (s : State) (j : JobId) (p : Phase) : State :=
  let s := s.updJob j fun v => { v with phases := v.phases ++ [p], early := v.early.filter fun t => !p.has t }
  if s.phaseOver j p then s.soon .phaseCompletion { j := j, w0 := p.start } else s

theorem withPhase_keeps (s : State) (j : JobId) (p : Phase) :
    ((s.withPhase j p).job j).phases = (s.job j).phases ++ [p] ∧ ((s.withPhase j p).job j).early = (s.job j).early.filter (fun t => !p.has t) ∧
      { s.withPhase j p with jobs := s.jobs, agenda := s.agenda } = s := by
  have opened := State.job_updJob_same s j fun v => { v with phases := v.phases ++ [p], early := v.early.filter fun t => !p.has t }
  unfold State.withPhase
  dsimp only
  split
  · exact ⟨(congrArg Job.phases opened :), (congrArg Job.early opened :), rfl⟩
  · exact ⟨(congrArg Job.phases opened :), (congrArg Job.early opened :), rfl⟩

theorem has_eq (p : Phase) (t : Word) : p.has t = decide (p.start ≤ t ∧ t < p.stop) := (Bool.decide_and _ _).symm

theorem phaseopen_refused {s : State} (h : Due s .phaseopen) (hr : (s.job (commandJob s)).resident = false ∨ (s.job (commandJob s)).teardown.isSome = true) :
    exec .phaseopen s = .next (s.endCommand 2) := by
  refine congrArg Host.Outcome.next ((command_due h _).trans (if_pos ?_))
  rcases hr with hr | hr <;> simp [hr]

section

variable {s : State} (h : Due s .phaseopen) (hr : (s.job (commandJob s)).resident = true) (ht : (s.job (commandJob s)).teardown = none)

include h hr ht

theorem phaseopen_early (he : commandWord s 1 ≤ (s.job (commandJob s)).lastEnd) : exec .phaseopen s = .next (s.endCommand 4) :=
  congrArg Host.Outcome.next ((command_due h _).trans ((if_neg (by simp [hr, ht])).trans (if_pos he)))

theorem phaseopen_opens (he : (s.job (commandJob s)).lastEnd < commandWord s 1) : exec .phaseopen s =
    .next ((s.withPhase (commandJob s) (s.newPhase (commandWord s) (commandJob s))).endCommand 0) :=
  congrArg Host.Outcome.next ((command_due h _).trans ((if_neg (by simp [hr, ht])).trans (if_neg (BitVec.not_le.2 he))))

end

/-! ### CANCEL -/

section

variable {s : State} (h : Due s .cancelCommand)

include h

theorem cancelCommand_refused (hr : (s.job (commandJob s)).resident = false) : exec .cancelCommand s = .next (s.endCommand 2) :=
  congrArg Host.Outcome.next ((command_due h _).trans (if_pos (by simp [hr])))

theorem cancelCommand_ending (hr : (s.job (commandJob s)).resident = true) (ht : (s.job (commandJob s)).teardown.isSome = true) :
    exec .cancelCommand s = .next (s.endCommand 3) :=
  congrArg Host.Outcome.next ((command_due h _).trans ((if_neg (by simp [hr])).trans (if_pos ht)))

theorem cancelCommand_runs (hr : (s.job (commandJob s)).resident = true) (ht : (s.job (commandJob s)).teardown = none) {u : State} {b : Bool}
    (hc : s.cancel (commandJob s) ((commandWord s 1).extractLsb' 0 2) (commandWord s 2) = (u, b)) :
    exec .cancelCommand s = .next (u.endCommand (if b then 0 else 3)) := by
  refine congrArg Host.Outcome.next ((command_due h _).trans ?_)
  unfold State.hostCancel
  refine (if_neg (by simp [hr])).trans ((if_neg (by simp [ht])).trans ?_)
  rw [hc]
  cases b <;> rfl

end

/-! ### Rounds -/

/-- Steps have been put on the agenda and messages on the links of the ports. -/
structure Links (s t : State) : Prop where
  rest : { t with agenda := s.agenda, ports := s.ports } = s
  agenda : ∀ e ∈ s.agenda, e ∈ t.agenda

theorem Links.refl (s : State) : Links s s := ⟨rfl, fun _ h => h⟩

theorem Links.trans {s t u : State} (h : Links s t) (g : Links t u) : Links s u where
  rest := by
    have h1 := h.rest
    have h2 := g.rest
    rw [← h1, ← h2]
  agenda e he := g.agenda e (h.agenda e he)

theorem Links.push (s : State) (n : Nat) (i : Instr) (x : StepArg) : Links s (s.push n i x) := ⟨rfl, fun _ h => State.mem_agenda_push.2 (.inr h)⟩

theorem Links.sendTree (s : State) (dev : Nat) (j : JobId) (t : Tree) : Links s (s.sendTree dev j t) := by
  unfold State.sendTree
  split
  · exact Links.refl s
  · exact ⟨rfl, fun _ h => h⟩

theorem Links.sendDomain (s : State) (j : JobId) (t : Tree) : Links s (s.sendDomain j t) := by
  unfold State.sendDomain
  exact foldl_keeps (f := fun s d => s.sendTree d j t) Links.refl Links.trans (fun s d => Links.sendTree s d j t) s.peers s

theorem Links.job {s t : State} (h : Links s t) (j : JobId) : t.job j = s.job j := (congrArg (fun x : State => x.job j) h.rest :)

/-- The record of a job whose round opens. -/
def Machine.State.roundOpens (s : State) (k stop : Bool) (v : Job) : Job :=
  { v with round := { v.round with active := true, k := k, stop := stop, reps := [], due := [], final := false, period := s.gvtPeriod },
           idleLeaf := if stop then { v.idleLeaf with stopped := true } else v.idleLeaf }

theorem openRound_links (s : State) (j : JobId) (stop : Bool) :
    Links ((s.dropRoundStart j).updJob j (s.roundOpens (!(s.job j).rootColour) stop)) (s.openRound j stop) := by
  refine Links.trans (Links.trans ?_ (Links.sendDomain _ j _)) (Links.push _ 32 .gvtWaveStart { j := j })
  exact foldl_keeps (f := fun s n => s.push 16 (if stop then .stopFlip else .colourFlip) { j := j, leaf := leafOf n, ok := !(State.job _ j).rootColour }) Links.refl Links.trans
    (fun s n => Links.push s 16 _ _) _ _

theorem Links.rounds {s u t : State} (h : Links u t) (hu : { u with jobs := s.jobs, agenda := s.agenda, ports := s.ports } = s) :
    { t with jobs := s.jobs, agenda := s.agenda, ports := s.ports } = s := by
  have h2 := h.rest
  rw [← hu, ← h2]

theorem startRound_keeps (s : State) (j : JobId) : ((s.startRound j).job j).teardown = (s.job j).teardown ∧
    { s.startRound j with jobs := s.jobs, agenda := s.agenda, ports := s.ports } = s := by
  unfold State.startRound
  dsimp only
  split
  · exact ⟨rfl, rfl⟩
  · have opens := openRound_links s j ((s.job j).round.asked != [])
    constructor
    · rw [opens.job, State.job_updJob_same]
      rfl
    · exact opens.rounds rfl

/-- After the start of a round, one runs, where one ran before or may start here. -/
theorem startRound_active {s : State} {j : JobId} (hr : (s.job j).resident = true) (hs : (s.job j).stopped = false)
    (h : (s.job j).round.active = true ∨ (s.isRoot = true ∧ (s.job j).round.held = [])) : ((s.startRound j).job j).round.active = true := by
  unfold State.startRound
  dsimp only
  cases ha : (s.job j).round.active with
  | true => rwa [if_pos (by simp)]
  | false =>
    obtain ⟨root, held⟩ := h.resolve_left (by simp [ha])
    rw [if_neg (by simp [hr, hs, root, held]), (openRound_links s j _).job, State.job_updJob_same]
    rfl

/-! ### KEYDESTROY -/

/-- The record of a job whose teardown begins. -/
def Machine.State.keyGoes (s : State) (v : Job) : Job :=
  { v with teardown := some (1, s.cmdSlot, s.ackWord s.cmdSlot), stopped := false, round := { v.round with final := s.isRoot } }

section

variable {s : State} (h : Due s .keydestroy)

include h

theorem keydestroy_refused (hr : (s.job (commandJob s)).resident = false ∨ (s.job (commandJob s)).teardown.isSome = true) :
    exec .keydestroy s = .next (s.endCommand 2) := by
  refine congrArg Host.Outcome.next ((command_due h _).trans (if_pos ?_))
  rcases hr with hr | hr <;> simp [hr]

variable (hr : (s.job (commandJob s)).resident = true) (ht : (s.job (commandJob s)).teardown = none)

include hr ht

theorem keydestroy_busy (hl : ((s.job (commandJob s)).launches.any fun (e : Nat × Launch) => !e.2.complete) = true) :
    exec .keydestroy s = .next (s.endCommand 4) :=
  congrArg Host.Outcome.next ((command_due h _).trans ((if_neg (by simp [hr, ht])).trans (if_pos hl)))

theorem keydestroy_begins (hl : ((s.job (commandJob s)).launches.any fun (e : Nat × Launch) => !e.2.complete) = false) :
    exec .keydestroy s = .next ((((s.updJob (commandJob s) (s.keyGoes)).startRound (commandJob s)).push 64 .teardown { j := commandJob s }).advanceHead) :=
  congrArg Host.Outcome.next ((command_due h _).trans ((if_neg (by simp [hr, ht])).trans (if_neg (by simp [hl]))))

end

theorem commandEffects : CommandEffects := by
  intro s j v
  refine ⟨fun h => congrArg Host.Outcome.next (command_due h _), fun h hn => ⟨jobstart_resident h hn, jobstart_severe h hn, jobstart_poisoned h hn⟩,
    fun h => ⟨phaseopen_refused h, phaseopen_early h, fun hr ht he => ?_⟩,
    fun h => ⟨cancelCommand_refused h, cancelCommand_ending h, fun hr ht => cancelCommand_runs h hr ht rfl⟩,
    fun h => ⟨keydestroy_refused h, keydestroy_busy h, fun hr ht hl => ?_⟩⟩
  · obtain ⟨phases, early, rest⟩ := withPhase_keeps s j (s.newPhase (commandWord s) j)
    have has : (s.newPhase (commandWord s) j).has = fun t => decide ((s.newPhase (commandWord s) j).start ≤ t ∧ t < (s.newPhase (commandWord s) j).stop) :=
      funext fun t => has_eq _ t
    rw [has] at early
    exact ⟨_, _, phaseopen_opens h hr ht he, phases, rfl, rfl, rfl, congrArg (fun f => (v.early.filter f).length) has, early, rest⟩
  · have run := keydestroy_begins h hr ht hl
    have own := State.job_updJob_same s j s.keyGoes
    obtain ⟨teardown, rest⟩ := startRound_keeps (s.updJob j s.keyGoes) j
    have active := startRound_active (s := s.updJob j s.keyGoes) (j := j) (by rw [own]; exact hr) (by rw [own]; rfl)
    rw [own] at teardown active
    generalize (s.updJob j s.keyGoes).startRound j = u at run teardown rest active
    have now : u.now = s.now := (congrArg State.now rest :)
    have cmdhead : u.cmdhead = s.cmdhead := (congrArg State.cmdhead rest :)
    have mem : u.mem = s.mem := (congrArg State.mem rest :)
    have job : ∀ x : State, x.advanceHead.job j = x.job j := fun x => job_nextCommand _ j
    refine ⟨_, run, ?_, fun ha => ?_, ?_, ?_, ?_⟩
    · rw [job]
      exact teardown
    · rw [job]
      exact active (ha.imp id fun h => ⟨beq_iff_eq.2 h.1, h.2⟩)
    · unfold State.advanceHead
      rw [cmdhead_nextCommand]
      exact congrArg (· + 1) cmdhead
    · exact (mem_nextCommand _).trans mem
    · refine (nextCommand_keeps _).2 _ (State.mem_agenda_push.2 (.inl ?_))
      rw [now]

/-- Settles O32: the ring byte by byte, and each command by the lemma of its case. -/
theorem hostCommands : Obligations.HostCommands := ⟨commandRing, commandEffects⟩

end Sys2Proof

/-! ## JOBSTART (spec/04_launch.md R72, R75) -/

namespace Sys2Proof

open Machine

theorem isRoot_iff (s : State) : s.isRoot = true ↔ s.root = s.devnum.toNat := beq_iff_eq

theorem startEnds_finishStart (s : State) (j : JobId) (d : LaunchDesc) : StartEnds s (s.finishStart j d) j d := by
  refine ⟨fun h => if_pos h, fun h => ?_⟩
  have open' : ¬(s.job j).cancelled = true := by simp [h]
  unfold State.finishStart
  rw [if_neg open']
  refine ⟨fun f hf => ?_, fun hf => ?_, fun hf => ?_, fun u l hf => ⟨fun hr => ?_, fun hr => ?_⟩⟩
  · rw [hf]
    rfl
  · rw [hf]
    rfl
  · rw [hf]
  · rw [hf]
    exact congrArg (State.endCommand · 0) (if_pos ((isRoot_iff u).2 hr))
  · rw [hf]
    exact congrArg (State.endCommand · 0) (if_neg (mt (isRoot_iff u).1 hr))

theorem jobOf_ptroot (s : State) (w : Nat → Word) : (jobOf s w).ptroot = (w 1).extractLsb' 12 40 ++ 0#12 := by
  show (w 1).extractLsb' 0 52 &&& ~~~0xFFF#52 = _
  generalize w 1 = v
  refine BitVec.eq_of_getLsbD_eq fun i hi => ?_
  rw [BitVec.getLsbD_append, BitVec.getLsbD_and, BitVec.getLsbD_extractLsb', BitVec.getLsbD_extractLsb', decide_eq_true hi, Bool.true_and, Nat.zero_add]
  by_cases low : i < 12
  · rw [if_pos low, BitVec.getLsbD_zero]
    interval_cases i <;> exact Bool.and_false _
  · have mask : (~~~0xFFF#52).getLsbD i = true := by
      interval_cases i <;> rfl
    rw [if_neg low, mask, Bool.and_true, decide_eq_true (show i - 12 < 40 by omega), Bool.true_and, show 12 + (i - 12) = i by omega]

theorem jobStart_goes {s : State} (h : Due s .jobstart) {d : LaunchDesc} (hd : (s.job (commandJob s)).starting = some d) :
    exec .jobstart s = .next (s.finishStart (commandJob s) d) := by
  refine congrArg Host.Outcome.next ((command_due h _).trans ?_)
  unfold State.jobStart
  rw [hd]

/-- The state in which a JOBSTART reads the blocks of its job. -/
def Machine.State.started (s : State) (w : Nat → Word) (j : JobId) : State := s.updJob j fun o => { jobOf s w with round := o.round, rootColour := o.rootColour }

/-- The state in which it has read the windows and the near map. -/
def Machine.State.tabled (s : State) (j : JobId) (ws nm : List Byte) : State :=
  s.updJob j fun v => { v with windows := windowsOf ws, near := leBits 256 nm }

section

variable {s : State} (h : Due s .jobstart) (hn : (s.job (commandJob s)).starting = none) (hr : (s.job (commandJob s)).resident = false)
  (hs : s.severe = false) (hp : s.poisoned (hostAddr (commandWord s 2)) 64 = false)

include h hn hr hs hp

theorem jobStart_reads {ws nm : List Byte}
    (hw : (s.started (commandWord s) (commandJob s)).jobBlock 0 (commandJob s) ((jobOf s (commandWord s)).hintbase + 4096) 256 1 = .inl ws)
    (hm : (s.started (commandWord s) (commandJob s)).jobBlock 0 (commandJob s) ((jobOf s (commandWord s)).hintbase + 4352) 32 1 = .inl nm) :
    (∀ f, ((s.started (commandWord s) (commandJob s)).tabled (commandJob s) ws nm).readLaunch 0 (commandJob s) (vaOf (commandWord s 5)) = .inr f →
      exec .jobstart s = .next (s.endCommand 5)) ∧
    ∀ d, ((s.started (commandWord s) (commandJob s)).tabled (commandJob s) ws nm).readLaunch 0 (commandJob s) (vaOf (commandWord s 5)) = .inl d →
      exec .jobstart s = .next ((((((s.started (commandWord s) (commandJob s)).tabled (commandJob s) ws nm).visitRead 0 (commandJob s)
        ((jobOf s (commandWord s)).hintbase + 4096) 256).visitRead 0 (commandJob s) ((jobOf s (commandWord s)).hintbase + 4352) 32).visitLaunch 0
          (commandJob s) (vaOf (commandWord s 5)) d).finishStart (commandJob s) d) := by
  unfold State.started at hw hm ⊢
  unfold State.tabled
  constructor
  · intro f hf
    refine congrArg Host.Outcome.next ((command_due h _).trans ?_)
    unfold State.jobStart
    rw [hn]
    dsimp only
    rw [if_neg (by simp [hr]), if_neg (by simp [hs]), if_neg (by simp [hp]), hw, hm]
    dsimp only
    rw [hf]
  · intro d hd
    refine congrArg Host.Outcome.next ((command_due h _).trans ?_)
    unfold State.jobStart
    rw [hn]
    dsimp only
    rw [if_neg (by simp [hr]), if_neg (by simp [hs]), if_neg (by simp [hp]), hw, hm]
    dsimp only
    rw [hd]

theorem jobStart_faults {f : Fault'}
    (hf : (s.started (commandWord s) (commandJob s)).jobBlock 0 (commandJob s) ((jobOf s (commandWord s)).hintbase + 4096) 256 1 = .inr f ∨
      (s.started (commandWord s) (commandJob s)).jobBlock 0 (commandJob s) ((jobOf s (commandWord s)).hintbase + 4352) 32 1 = .inr f) :
    exec .jobstart s = .next (s.endCommand 5) := by
  unfold State.started at hf
  refine congrArg Host.Outcome.next ((command_due h _).trans ?_)
  unfold State.jobStart
  rw [hn]
  dsimp only
  rw [if_neg (by simp [hr]), if_neg (by simp [hs]), if_neg (by simp [hp])]
  rcases hf with hf | hf
  · rw [hf]
  · rw [hf]
    split
    · rename_i clash
      cases clash
    · rfl

end

theorem jobStart : JobStart := by
  intro s ws nm j w u x h
  refine ⟨fun d hd => ⟨_, jobStart_goes h hd, startEnds_finishStart s j d⟩, fun hn hr hs hp => ⟨⟨rfl, jobOf_ptroot s w, rfl, rfl, rfl⟩, fun hw hm => ?_,
    fun f hf => jobStart_faults h hn hr hs hp (.inl hf), fun f hf => jobStart_faults h hn hr hs hp (.inr hf)⟩⟩
  obtain ⟨faults, reads⟩ := jobStart_reads h hn hr hs hp hw hm
  exact ⟨faults, fun d hd => ⟨_, reads d hd, startEnds_finishStart _ j d⟩⟩

end Sys2Proof

/-! ## Binding and residency (spec/04_launch.md R73 to R75; spec/01_work.md R25; spec/08_isa_scalar.md R166) -/

namespace Sys2Proof

open Machine

/-! ### What reads and shares leave -/

/-- Lines have been read at their homes: nothing but slices and frames' records has changed. -/
structure Visits (s t : State) : Prop where
  rest : { t with clusters := s.clusters, frames := s.frames, frameHits := s.frameHits } = s

theorem Visits.refl (s : State) : Visits s s := ⟨rfl⟩

theorem Visits.trans {s t u : State} (h : Visits s t) (g : Visits t u) : Visits s u where
  rest := by
    have h1 := h.rest
    have h2 := g.rest
    rw [← h1, ← h2]

theorem Visits.visit (s : State) (by' : Option (JobId × BitVec 8)) (a key : Nat) : Visits s (s.visit by' a key) := by
  unfold State.visit
  split
  · exact Visits.refl s
  · exact ⟨rfl⟩

theorem Visits.visitRead (s : State) (c : CoreId) (j : JobId) (va : BitVec 48) (n : Nat) : Visits s (s.visitRead c j va n) := by
  unfold State.visitRead State.visitParts
  refine foldl_keeps Visits.refl Visits.trans (fun s x => ?_) _ s
  dsimp only
  split
  · exact Visits.visit s _ _ _
  · exact Visits.refl s

theorem Visits.visitLaunch (s : State) (c : CoreId) (j : JobId) (va : BitVec 48) (d : LaunchDesc) : Visits s (s.visitLaunch c j va d) := by
  have header : ∀ (p : Prop) [Decidable p] (u : State) (a : BitVec 48) (n : Nat), Visits u (if p then u.visitRead c j a n else u) := by
    intro p _ u a n
    split
    · exact Visits.visitRead u c j a n
    · exact Visits.refl u
  have args : ∀ (p : Prop) [Decidable p] (u : State) (a : BitVec 48) (n : Nat), Visits u (if p then u else u.visitRead c j a n) := by
    intro p _ u a n
    split
    · exact Visits.refl u
    · exact Visits.visitRead u c j a n
  unfold State.visitLaunch
  exact (Visits.visitRead s c j va 64).trans ((header _ _ _ _).trans (args _ _ _ _))

/-- Shares of cores have been given and taken: nothing but cores and memory has changed. -/
structure Shares (s t : State) : Prop where
  rest : { t with cores := s.cores, mem := s.mem, poisons := s.poisons } = s

theorem Shares.refl (s : State) : Shares s s := ⟨rfl⟩

theorem Shares.trans {s t u : State} (h : Shares s t) (g : Shares t u) : Shares s u where
  rest := by
    have h1 := h.rest
    have h2 := g.rest
    rw [← h1, ← h2]

theorem Shares.setPoison (s : State) (ws : List Nat) (v : Bool) : Shares s (s.setPoison ws v) := by
  unfold State.setPoison
  split
  · exact ⟨rfl⟩
  · split
    · exact Shares.refl s
    · exact ⟨rfl⟩

theorem Shares.setCore (s : State) (c : CoreId) (v : Core) : Shares s (s.setCore c v) := ⟨rfl⟩

theorem Shares.wiped (s : State) (a n : Nat) (m : List Host.Cell) : Shares s { s.clearPoison a n with mem := m } := by
  have cleared : Shares s (s.clearPoison a n) := by
    unfold State.clearPoison
    split
    · exact Shares.refl s
    · exact Shares.setPoison s _ _
  exact ⟨cleared.rest⟩

theorem Shares.zeroShare (s : State) (c : CoreId) (f : Freed) : Shares s (s.zeroShare c f) := by
  unfold State.zeroShare
  refine (Shares.setCore s c _).trans (foldl_keeps Shares.refl Shares.trans (fun s n => ?_) _ _)
  exact Shares.wiped s _ _ _

theorem Shares.scrub (s : State) (c : CoreId) : Shares s (s.scrub c) := by
  unfold State.scrub
  dsimp only
  split
  · exact Shares.refl s
  · exact (Shares.setCore s c _).trans (foldl_keeps Shares.refl Shares.trans (fun s f => Shares.zeroShare s c f) _ _)

theorem Shares.install (s : State) (c : CoreId) (j : JobId) (l : Lslot) : Shares s (s.install c j l) := by
  unfold State.install
  dsimp only
  refine Shares.trans (Shares.trans (Shares.setCore s c _) (Shares.wiped _ _ _ _)) (Shares.setPoison _ _ _)

/-! ### Slots and strands of a share -/

theorem slot_setSlot (v : Core) (m n : Nat) (e : Slot) : (v.setSlot n e).slot m = if m = n then e else v.slot m := Tab.get_put _ _ _ _ _

theorem slot_giveSlots (v : Core) (i n : Nat) (e : Slot) (m : Nat) : (v.giveSlots i n e).slot m = if i ≤ m ∧ m < i + n then e else v.slot m := by
  induction n with
  | zero => exact (if_neg (by omega)).symm
  | succ n ih =>
    have step : v.giveSlots i (n + 1) e = (v.giveSlots i n e).setSlot (i + n) e := by
      unfold Core.giveSlots
      rw [List.range_succ, List.foldl_append]
      rfl
    rw [step, slot_setSlot, ih]
    by_cases hm : m = i + n
    · rw [if_pos hm, if_pos (by omega)]
    · rw [if_neg hm]
      exact if_congr (by omega) rfl rfl

theorem strands_giveSlots (v : Core) (i n : Nat) (e : Slot) : (v.giveSlots i n e).strands = v.strands := by
  induction n with
  | zero => rfl
  | succ n ih =>
    unfold Core.giveSlots at ih ⊢
    rw [List.range_succ, List.foldl_append]
    exact ih

end Sys2Proof

namespace Sys2Proof

open Machine

/-! ### The tasks that a bind sends on -/

/-- Tasks have been sent on by the management core: the bind records stand, and so do the launches but for what they note of it. -/
structure Releases (s t : State) : Prop where
  slotTable : t.slotTable = s.slotTable
  launch : ∀ j l, { t.launch j l with released := (s.launch j l).released } = s.launch j l

theorem Releases.refl (s : State) : Releases s s := ⟨rfl, fun _ _ => rfl⟩

theorem Releases.trans {s t u : State} (h : Releases s t) (g : Releases t u) : Releases s u where
  slotTable := g.slotTable.trans h.slotTable
  launch j l := by
    have h1 := h.launch j l
    have h2 := g.launch j l
    rw [← h1, ← h2]

theorem Releases.sendNew (s : State) (m : Msg) : Releases s (s.sendNew m) where
  slotTable := (congrArg State.slotTable (Sends.sendNew s m).rest :)
  launch j l := by rw [show (s.sendNew m).launch j l = s.launch j l from congrArg (Job.launch · l) ((Sends.sendNew s m).job j)]

theorem Releases.updLeaf (s : State) (j : JobId) (x : Leaf) (f : LeafSt → LeafSt) : Releases s (s.updLeaf j x f) where
  slotTable := rfl
  launch i l := by
    have same : (s.updLeaf j x f).launch i l = s.launch i l := by
      unfold State.updLeaf
      refine State.launch_updJob ?_ s i j l
      exact fun _ => rfl
    rw [same]

theorem Releases.note (s : State) (j : JobId) (l : Lslot) (e : Ident × CoreId) :
    Releases s (s.updLaunch j l fun x => { x with released := e :: x.released }) where
  slotTable := rfl
  launch i m := by
    by_cases hi : i = j
    · subst i
      rw [State.launch_updLaunch]
      split
      · subst m
        rfl
      · rfl
    · have same : (s.updLaunch j l fun x => { x with released := e :: x.released }).launch i m = s.launch i m := by
        unfold State.launch State.updLaunch
        rw [State.job_updJob, if_neg hi]
      rw [same]

theorem Releases.sendOn (s : State) (q : QEntry) : Releases s (s.sendOn q) := by
  unfold State.sendOn
  dsimp only
  split
  · exact Releases.refl s
  · refine Releases.trans (Releases.trans (Releases.updLeaf s q.t.job .mgmt fun v => v.send ((s.launch q.t.job q.t.lslot).localPc q).t.vt) ?_) (Releases.sendNew _ _)
    split
    · exact Releases.note _ _ _ _
    · exact Releases.refl _

/-! ### BIND -/

theorem bind_ignored {s : State} (h : 256 ≤ s.arg.n ∨ (Tab.get {} s.slotTable s.arg.n).v = true) : exec .bind s = .next s := by
  have ignored : ((Tab.get {} s.slotTable s.arg.n).v || decide (256 ≤ s.arg.n)) = true := by
    rw [Bool.or_eq_true, decide_eq_true_iff]
    exact h.symm
  exact congrArg Host.Outcome.next (if_pos ignored)

section

variable {s : State} (hn : s.arg.n < 256) (hv : (Tab.get {} s.slotTable s.arg.n).v = false)

include hn hv

theorem bind_free : ¬((Tab.get {} s.slotTable s.arg.n).v || decide (256 ≤ s.arg.n)) = true := by
  rw [hv, decide_eq_false (Nat.not_le.2 hn)]
  decide

theorem bind_clear (hw : s.arg.w0.getLsbD 63 = false) :
    exec .bind s = .next { s with slotTable := Tab.put s.slotTable s.arg.n (bindRec s.arg.w0 s.arg.w1 s.arg.w2) } := by
  have clear : (!(bindRec s.arg.w0 s.arg.w1 s.arg.w2).v) = true := by
    show (!s.arg.w0.getLsbD 63) = true
    rw [hw]
    rfl
  exact congrArg Host.Outcome.next ((if_neg (bind_free hn hv)).trans (if_pos clear))

variable (hw : s.arg.w0.getLsbD 63 = true)

include hw

omit hn hv in
theorem bind_valid : ¬(!(bindRec s.arg.w0 s.arg.w1 s.arg.w2).v) = true := by
  show ¬(!s.arg.w0.getLsbD 63) = true
  rw [hw]
  decide

theorem bind_notLive (hl : (s.launch (s.arg.w0.extractLsb' 56 4) (s.arg.w0.extractLsb' 40 16)).bound.isSome = true ∨
    (s.job (s.arg.w0.extractLsb' 56 4)).live (s.arg.w0.extractLsb' 40 16) = false) : exec .bind s = .next s := by
  refine congrArg Host.Outcome.next ((if_neg (bind_free hn hv)).trans ((if_neg (bind_valid hw)).trans (if_pos ?_)))
  rcases hl with hl | hl <;> simp [hl]

end

/-- The launch as a bind record makes it, with its code. -/
def Machine.Launch.bindTo (x : Launch) (n : Nat) (w0 w1 w2 : Word) (code : List Byte) (bad : List Nat) : Launch :=
  { x with bound := some n, bmaxs := (w0.extractLsb' 35 5).toNat, codeoff := (w0.extractLsb' 0 20).toNat / 2048 * 2048, cmask := w1, cores := w2,
           prio := (w0.extractLsb' 60 3).toNat, code := code, codePois := bad }

/-- The shares of a bound launch's code, as far as its cores have room. -/
def Machine.State.installAll (s : State) (j : JobId) (l : Lslot) (cs : List CoreId) (x : Launch) : State :=
  cs.foldl (fun s c => let s := s.scrub c; if (s.core c).canInstall x then s.install c j l else s.updCore c id) s

theorem Shares.installAll (s : State) (j : JobId) (l : Lslot) (cs : List CoreId) (x : Launch) : Shares s (s.installAll j l cs x) := by
  unfold State.installAll
  refine foldl_keeps Shares.refl Shares.trans (fun s c => ?_) cs s
  dsimp only
  split
  · exact (Shares.scrub s c).trans (Shares.install _ c j l)
  · exact (Shares.scrub s c).trans (Shares.setCore _ c _)

/-- The positives that waited for a bind leave, and the anti-messages go on waiting. -/
def Machine.State.releaseWaiting (s : State) (j : JobId) (l : Lslot) (x : Launch) : State :=
  let held := if x.isBound then x.waiting else []
  let s := if !x.isBound then s else s.updLaunch j l fun x => { x with waiting := held.filter fun q => q.t.anti }
  (held.filter fun q => !q.t.anti).foldl (fun s q => s.sendOn q) s

theorem bind_reads {s : State} (hn : s.arg.n < 256) (hv : (Tab.get {} s.slotTable s.arg.n).v = false) (hw : s.arg.w0.getLsbD 63 = true)
    {j : JobId} {l : Lslot} (hj : s.arg.w0.extractLsb' 56 4 = j) (hl : s.arg.w0.extractLsb' 40 16 = l) (hb : (s.launch j l).bound = none)
    (live : (s.job j).live l = true) {code : List Byte} {bad : List Nat}
    (hr : s.jobRead 0 j ((s.launch j l).hdr + 64) (s.launch j l).codeb = .inl (code, bad)) :
    let u := ({ s.visitRead 0 j ((s.launch j l).hdr + 64) (s.launch j l).codeb with
      slotTable := Tab.put s.slotTable s.arg.n (bindRec s.arg.w0 s.arg.w1 s.arg.w2) } : State).updLaunch j l fun x =>
        x.bindTo s.arg.n s.arg.w0 s.arg.w1 s.arg.w2 code bad
    let x := u.launch j l
    exec .bind s = .next ((u.installAll j l x.coreList x).releaseWaiting j l x) := by
  intro u x
  subst hj hl
  have free : ¬((s.launch (s.arg.w0.extractLsb' 56 4) (s.arg.w0.extractLsb' 40 16)).bound.isSome ||
    !(s.job (s.arg.w0.extractLsb' 56 4)).live (s.arg.w0.extractLsb' 40 16)) = true := by rw [hb, live]; decide
  have run : exec .bind s = .next (s.bind s.arg.n s.arg.w0 s.arg.w1 s.arg.w2) := rfl
  rw [run]
  unfold State.bind
  dsimp only
  rw [if_neg (bind_free hn hv), if_neg (bind_valid hw), if_neg free, hr]
  rfl

theorem bind_faults {s : State} (hn : s.arg.n < 256) (hv : (Tab.get {} s.slotTable s.arg.n).v = false) (hw : s.arg.w0.getLsbD 63 = true)
    {j : JobId} {l : Lslot} (hj : s.arg.w0.extractLsb' 56 4 = j) (hl : s.arg.w0.extractLsb' 40 16 = l) (hb : (s.launch j l).bound = none)
    (live : (s.job j).live l = true) {f : Fault'}
    (hr : s.jobRead 0 j ((s.launch j l).hdr + 64) (s.launch j l).codeb = .inr f) : exec .bind s = .next
      (({ s with slotTable := Tab.put s.slotTable s.arg.n { bindRec s.arg.w0 s.arg.w1 s.arg.w2 with v := false } } : State).badCode j l f.cls) := by
  subst hj hl
  have free : ¬((s.launch (s.arg.w0.extractLsb' 56 4) (s.arg.w0.extractLsb' 40 16)).bound.isSome ||
    !(s.job (s.arg.w0.extractLsb' 56 4)).live (s.arg.w0.extractLsb' 40 16)) = true := by rw [hb, live]; decide
  have run : exec .bind s = .next (s.bind s.arg.n s.arg.w0 s.arg.w1 s.arg.w2) := rfl
  rw [run]
  unfold State.bind
  dsimp only
  rw [if_neg (bind_free hn hv), if_neg (bind_valid hw), if_neg free, hr]

theorem isBound_congr {x y : Launch} (hb : y.bound = x.bound) (hm : y.cmask = x.cmask) (hc : y.cores = x.cores) : y.isBound = x.isBound := by
  unfold Launch.isBound
  rw [hb, hm, hc]

/-- Where a launch is bound, no positive waits any more; the record and the launch stand but for what waits and what was released. -/
theorem releaseWaiting_keeps (s : State) (j : JobId) (l : Lslot) : (s.releaseWaiting j l (s.launch j l)).slotTable = s.slotTable ∧
    { (s.releaseWaiting j l (s.launch j l)).launch j l with released := (s.launch j l).released, waiting := (s.launch j l).waiting } = s.launch j l ∧
    (((s.releaseWaiting j l (s.launch j l)).launch j l).isBound = true → ∀ q ∈ ((s.releaseWaiting j l (s.launch j l)).launch j l).waiting, q.t.anti = true) := by
  have sent : ∀ (qs : List QEntry) (u : State), Releases u (qs.foldl (fun s q => s.sendOn q) u) := fun qs u =>
    foldl_keeps Releases.refl Releases.trans (fun s q => Releases.sendOn s q) qs u
  unfold State.releaseWaiting
  dsimp only
  cases hb : (s.launch j l).isBound with
  | false =>
    rw [if_neg Bool.false_ne_true, if_pos (by rfl)]
    refine ⟨rfl, rfl, fun h => ?_⟩
    exact absurd (hb.symm.trans h) (by decide)
  | true =>
    rw [if_pos rfl, if_neg (by decide)]
    have own := State.launch_updLaunch_same s j l fun x => { x with waiting := (s.launch j l).waiting.filter fun q => q.t.anti }
    have table : (s.updLaunch j l fun x => { x with waiting := (s.launch j l).waiting.filter fun q => q.t.anti }).slotTable = s.slotTable := rfl
    generalize s.updLaunch j l (fun x => { x with waiting := (s.launch j l).waiting.filter fun q => q.t.anti }) = u at own table ⊢
    have on := sent ((s.launch j l).waiting.filter fun q => !q.t.anti) u
    generalize ((s.launch j l).waiting.filter fun q => !q.t.anti).foldl (fun s q => s.sendOn q) u = t at on ⊢
    have launch := on.launch j l
    refine ⟨on.slotTable.trans table, ?_, fun _ q hq => ?_⟩
    · rw [own] at launch
      exact (congrArg (fun x : Launch => { x with waiting := (s.launch j l).waiting, released := (s.launch j l).released }) launch :)
    · have waits : (t.launch j l).waiting = (s.launch j l).waiting.filter fun q => q.t.anti := by
        rw [own] at launch
        exact (congrArg Launch.waiting launch :)
      rw [waits] at hq
      exact (List.mem_filter.1 hq).2

theorem bindings (s : State) :
    let n := s.arg.n
    let j : JobId := s.arg.w0.extractLsb' 56 4
    let l : Lslot := s.arg.w0.extractLsb' 40 16
    n < 256 → (Tab.get {} s.slotTable n).v = false → s.arg.w0.getLsbD 63 = true → (s.launch j l).bound = none → (s.job j).live l = true →
    ∀ code bad, s.jobRead 0 j ((s.launch j l).hdr + 64) (s.launch j l).codeb = .inl (code, bad) → ∃ t, exec .bind s = .next t ∧
      (Tab.get {} t.slotTable n).v = true ∧ (t.launch j l).bound = some n ∧ (t.launch j l).cmask = s.arg.w1 ∧
      (t.launch j l).cores = s.arg.w2 ∧ (t.launch j l).code = code ∧ (t.launch j l).codePois = bad ∧
      ((t.launch j l).isBound = true → ∀ q ∈ (t.launch j l).waiting, q.t.anti = true) := by
  intro n j l hn hv hw hb live code bad hr
  have run := bind_reads hn hv hw rfl rfl hb live hr
  have own := State.launch_updLaunch_same ({ s.visitRead 0 j ((s.launch j l).hdr + 64) (s.launch j l).codeb with
    slotTable := Tab.put s.slotTable n (bindRec s.arg.w0 s.arg.w1 s.arg.w2) } : State) j l fun x => x.bindTo n s.arg.w0 s.arg.w1 s.arg.w2 code bad
  have table : (({ s.visitRead 0 j ((s.launch j l).hdr + 64) (s.launch j l).codeb with
    slotTable := Tab.put s.slotTable n (bindRec s.arg.w0 s.arg.w1 s.arg.w2) } : State).updLaunch j l fun x =>
      x.bindTo n s.arg.w0 s.arg.w1 s.arg.w2 code bad).slotTable = Tab.put s.slotTable n (bindRec s.arg.w0 s.arg.w1 s.arg.w2) := rfl
  dsimp only at run
  generalize (({ s.visitRead 0 j ((s.launch j l).hdr + 64) (s.launch j l).codeb with
    slotTable := Tab.put s.slotTable n (bindRec s.arg.w0 s.arg.w1 s.arg.w2) } : State).updLaunch j l fun x =>
      x.bindTo n s.arg.w0 s.arg.w1 s.arg.w2 code bad) = u at run own table
  have shares := Shares.installAll u j l (u.launch j l).coreList (u.launch j l)
  generalize u.installAll j l (u.launch j l).coreList (u.launch j l) = w at run shares
  have same : w.launch j l = u.launch j l := (congrArg (fun x : State => x.launch j l) shares.rest :)
  have tableW : w.slotTable = u.slotTable := (congrArg State.slotTable shares.rest :)
  obtain ⟨slots, launch, waits⟩ := releaseWaiting_keeps w j l
  rw [same] at slots launch waits
  have bound := (congrArg Launch.bound launch :).trans (congrArg Launch.bound own :)
  have cmask := (congrArg Launch.cmask launch :).trans (congrArg Launch.cmask own :)
  have cores := (congrArg Launch.cores launch :).trans (congrArg Launch.cores own :)
  have held := (congrArg Launch.code launch :).trans (congrArg Launch.code own :)
  have poison := (congrArg Launch.codePois launch :).trans (congrArg Launch.codePois own :)
  refine ⟨_, run, ?_, bound, cmask, cores, held, poison, waits⟩
  rw [slots, tableW, table, Tab.get_put_same]
  exact hw

end Sys2Proof

namespace Sys2Proof

open Machine

/-! ### Residency -/

theorem reside_none {s : State} (h : s.canReside s.arg.c s.arg.j s.arg.l = false) : exec .strandBecomesResident s = .next s :=
  congrArg Host.Outcome.next (if_pos (by rw [h]; rfl))

theorem scrub_nothing {s : State} {c : CoreId} (h : (s.core c).freed = []) : s.scrub c = s := by
  unfold State.scrub
  exact if_pos h

/-- A core with the share of a strand of a launch given (R25). -/
def Machine.Core.withShare (v : Core) (x : Launch) (j : JobId) (l : Lslot) (k : StrandId) (i : Nat) : Core :=
  ((v.giveSlots i x.ntile { jobtag := j.toNat, strand := k, use := 1 }).giveSlots (i + x.ntile) (slotCount x.scrb)
    { jobtag := j.toNat, strand := k, use := 2 }).setStrand k
    { res := some (j, l), base := i, ntile := x.ntile, nscr := slotCount x.scrb, pool := x.poolShare }

theorem reside_shares {s : State} {c : CoreId} {j : JobId} {l : Lslot} {k : StrandId} {i : Nat} (h : s.canReside c j l = true)
    (hf : (s.core c).freed = []) (hi : (s.core c).installed.contains (j, l) = true) (hn : s.nextResident c j l = some (k, i)) :
    s.reside c j l = s.setCore c ((s.core c).withShare (s.launch j l) j l k i) := by
  unfold State.reside
  rw [if_neg (by simp [h]), scrub_nothing hf]
  dsimp only
  rw [if_pos hi, hn]
  rfl

theorem slot_withShare (v : Core) (x : Launch) (j : JobId) (l : Lslot) (k : StrandId) (i m : Nat) : (v.withShare x j l k i).slot m =
    if i + x.ntile ≤ m ∧ m < i + x.ntile + slotCount x.scrb then { jobtag := j.toNat, strand := k, use := 2 }
    else if i ≤ m ∧ m < i + x.ntile then { jobtag := j.toNat, strand := k, use := 1 } else v.slot m := by
  unfold Core.withShare
  refine (slot_giveSlots (v.giveSlots i x.ntile { jobtag := j.toNat, strand := k, use := 1 }) (i + x.ntile) (slotCount x.scrb)
    { jobtag := j.toNat, strand := k, use := 2 } m).trans ?_
  rw [slot_giveSlots]

theorem strand_withShare (v : Core) (x : Launch) (j : JobId) (l : Lslot) (k : StrandId) (i : Nat) (m : StrandId) : (v.withShare x j l k i).strand m =
    if m = k then { res := some (j, l), base := i, ntile := x.ntile, nscr := slotCount x.scrb, pool := x.poolShare } else v.strand m := by
  have kept : ∀ (w : Core), w.strands = v.strands → w.strand m = v.strand m := fun w hw => by
    unfold Core.strand
    rw [hw]
  unfold Core.withShare
  rw [Core.strand_setStrand, kept _ ((strands_giveSlots _ _ _ _).trans (strands_giveSlots _ _ _ _))]

theorem residencies (s : State) :
    let c := s.arg.c; let j := s.arg.j; let l := s.arg.l
    let x := s.launch j l
    ∀ k i, s.canReside c j l = true → (s.core c).freed = [] → (s.core c).installed.contains (j, l) = true → s.nextResident c j l = some (k, i) →
      ∃ t, exec .strandBecomesResident s = .next t ∧
        t.strand c k = { res := some (j, l), base := i, ntile := x.ntile, nscr := (x.scrb + 2047) / 2048, pool := 8 * ((x.nreg + 7) / 8) } ∧
        (∀ m, i ≤ m → m < i + x.ntile + (x.scrb + 2047) / 2048 →
          (t.slot c m).jobtag = j.toNat ∧ (t.slot c m).strand = k ∧ (t.slot c m).use = (if m < i + x.ntile then 1 else 2) ∧ (t.slot c m).st = 0) ∧
        (∀ m, m < i ∨ i + x.ntile + (x.scrb + 2047) / 2048 ≤ m → t.slot c m = s.slot c m) ∧
        (∀ m, m ≠ k → t.strand c m = s.strand c m) ∧ { t with cores := s.cores } = s := by
  intro c j l x k i h hf hi hn
  have run : exec .strandBecomesResident s = .next (s.setCore c ((s.core c).withShare x j l k i)) :=
    congrArg Host.Outcome.next (reside_shares h hf hi hn)
  have core := State.core_setCore_same s c ((s.core c).withShare x j l k i)
  have slots := fun m => (congrArg (Core.slot · m) core).trans (slot_withShare (s.core c) x j l k i m)
  have strands := fun m => (congrArg (Core.strand · m) core).trans (strand_withShare (s.core c) x j l k i m)
  refine ⟨_, run, (strands k).trans (if_pos rfl), fun m h1 h2 => ?_, fun m hm => ?_, fun m hm => (strands m).trans (if_neg hm), rfl⟩
  · have slot : _ = _ := slots m
    unfold slotCount at slot
    unfold State.slot
    rw [slot]
    by_cases tile : m < i + x.ntile
    · rw [if_neg (by omega), if_pos ⟨h1, tile⟩, if_pos tile]
      exact ⟨rfl, rfl, rfl, rfl⟩
    · rw [if_pos ⟨Nat.not_lt.1 tile, h2⟩, if_neg tile]
      exact ⟨rfl, rfl, rfl, rfl⟩
  · have slot : _ = _ := slots m
    unfold slotCount at slot
    exact slot.trans ((if_neg (by omega)).trans (if_neg (by omega)))

/-! ### Requests of strands to the management core -/

/-- The reply of the management core to a LAUNCH, which is then done. -/
def Machine.State.launchReply (s : State) (n : Nat) (r : Req) (v : Rep) (data : Bool) : State :=
  (({ s with descs := Tab.del s.descs n } : State).dropMsg n).replyTo s.epMgmt r v data

/-- A LAUNCH that waits: its step comes again. -/
def Machine.State.launchWaits (s : State) (n : Nat) (r : Req) : State :=
  (s.updCore r.core fun v => { v with reqs := v.reqs.map fun x => if x.id = r.id then { x with waiting := true } else x }).push 64
    .launchRequestAtManagementCore { n := n }

/-- What a LAUNCH does of which everything has been read. -/
def Machine.State.launchMakes (s : State) (n : Nat) (r : Req) (d : LaunchDesc) : State :=
  if (s.job r.job).cancelled then s.launchWaits n r
  else match s.createLaunch r.core r.job d (some r.strand) with
  | .fault f => s.launchReply n r { fault := some f } false
  | .desc => s.launchReply n r { fault := some (mkFault clsOperand) } false
  | .wait => s.launchWaits n r
  | .made t l => t.launchReply n r { w0 := l.setWidth 64 } true

section

variable {s : State} {r : Req} (h : s.msgReq s.arg.n = some r)

include h

theorem launchRequest_faults (hd : Tab.find s.descs s.arg.n = none) {f : Fault'} (hr : s.readLaunch r.core r.job r.va = .inr f) :
    exec .launchRequestAtManagementCore s = .next (s.launchReply s.arg.n r { fault := some f } false) := by
  refine congrArg Host.Outcome.next ?_
  unfold State.serveLaunch
  rw [h]
  dsimp only
  rw [hd]
  dsimp only
  rw [hr]
  rfl

theorem launchRequest_makes {d : LaunchDesc} {u : State} (hu : (Tab.find s.descs s.arg.n = some d ∧ u = s) ∨
    (Tab.find s.descs s.arg.n = none ∧ s.readLaunch r.core r.job r.va = .inl d ∧
      u = { s.visitLaunch r.core r.job r.va d with descs := Tab.put s.descs s.arg.n d })) :
    exec .launchRequestAtManagementCore s = .next (u.launchMakes s.arg.n r d) := by
  refine congrArg Host.Outcome.next ?_
  unfold State.serveLaunch
  rw [h]
  dsimp only
  rcases hu with ⟨hd, rfl⟩ | ⟨hd, hr, rfl⟩
  · rw [hd]
    rfl
  · rw [hd]
    dsimp only
    rw [hr]
    rfl

end

section

variable {u : State} {n : Nat} {r : Req} {d : LaunchDesc}

theorem launchMakes_waits (h : (u.job r.job).cancelled = true ∨ u.createLaunch r.core r.job d (some r.strand) = .wait) :
    u.launchMakes n r d = u.launchWaits n r := by
  unfold State.launchMakes
  by_cases hc : (u.job r.job).cancelled = true
  · exact if_pos hc
  · rw [if_neg hc, h.resolve_left hc]

variable (hc : (u.job r.job).cancelled = false)

include hc

theorem launchMakes_fault {f : Fault'} (h : u.createLaunch r.core r.job d (some r.strand) = .fault f) :
    u.launchMakes n r d = u.launchReply n r { fault := some f } false := by
  unfold State.launchMakes
  rw [if_neg (by simp [hc]), h]

theorem launchMakes_desc (h : u.createLaunch r.core r.job d (some r.strand) = .desc) :
    u.launchMakes n r d = u.launchReply n r { fault := some { cls := 11 } } false := by
  unfold State.launchMakes
  rw [if_neg (by simp [hc]), h]
  rfl

theorem launchMakes_made {t : State} {l : Lslot} (h : u.createLaunch r.core r.job d (some r.strand) = .made t l) :
    u.launchMakes n r d = t.launchReply n r { w0 := l.setWidth 64 } true := by
  unfold State.launchMakes
  rw [if_neg (by simp [hc]), h]

end

/-- What a LAUNCH has read stands where it is made. -/
theorem launchRead_keeps {s u : State} {r : Req} {d : LaunchDesc} (hu : (Tab.find s.descs s.arg.n = some d ∧ u = s) ∨
    (Tab.find s.descs s.arg.n = none ∧ s.readLaunch r.core r.job r.va = .inl d ∧
      u = { s.visitLaunch r.core r.job r.va d with descs := Tab.put s.descs s.arg.n d })) :
    u.now = s.now ∧ u.msgs = s.msgs ∧ u.jobs = s.jobs ∧ Tab.find u.descs s.arg.n = some d := by
  rcases hu with ⟨hd, rfl⟩ | ⟨-, -, rfl⟩
  · exact ⟨rfl, rfl, rfl, hd⟩
  · have rest := (Visits.visitLaunch s r.core r.job r.va d).rest
    exact ⟨(congrArg State.now rest :), (congrArg State.msgs rest :), (congrArg State.jobs rest :), Tab.find_put_same _ _ _⟩

theorem cancelRequest {s : State} {r : Req} (h : s.msgReq s.arg.n = some r) :
    let x := (s.dropMsg s.arg.n).cancel r.job (r.w1.extractLsb' 0 2) r.w0
    exec .cancelRequestAtManagementCore s = .next (x.1.replyTo x.1.epMgmt r { w0 := if x.2 then 0 else 3 } true) := by
  refine congrArg Host.Outcome.next ?_
  rw [h]

theorem launchRequests {s : State} {r : Req} (h : s.msgReq s.arg.n = some r) {d : LaunchDesc} {u : State}
    (hu : (Tab.find s.descs s.arg.n = some d ∧ u = s) ∨ (Tab.find s.descs s.arg.n = none ∧ s.readLaunch r.core r.job r.va = .inl d ∧
      u = { s.visitLaunch r.core r.job r.va d with descs := Tab.put s.descs s.arg.n d })) :
    ((s.job r.job).cancelled = true ∨ u.createLaunch r.core r.job d (some r.strand) = .wait → ∃ t, exec .launchRequestAtManagementCore s = .next t ∧
      (s.now + 64, Instr.launchRequestAtManagementCore, ({ n := s.arg.n } : StepArg)) ∈ t.agenda ∧ t.msgs = s.msgs ∧ t.jobs = s.jobs ∧
      Tab.find t.descs s.arg.n = some d) ∧
    ((s.job r.job).cancelled = false →
      (∀ f, u.createLaunch r.core r.job d (some r.strand) = .fault f →
        exec .launchRequestAtManagementCore s = .next (u.launchReply s.arg.n r { fault := some f } false)) ∧
      (u.createLaunch r.core r.job d (some r.strand) = .desc →
        exec .launchRequestAtManagementCore s = .next (u.launchReply s.arg.n r { fault := some { cls := 11 } } false)) ∧
      ∀ t l, u.createLaunch r.core r.job d (some r.strand) = .made t l →
        exec .launchRequestAtManagementCore s = .next (t.launchReply s.arg.n r { w0 := l.setWidth 64 } true)) := by
  have run := launchRequest_makes h hu
  obtain ⟨now, msgs, jobs, descs⟩ := launchRead_keeps hu
  have job : u.job r.job = s.job r.job := by
    unfold State.job
    rw [jobs]
  rw [← job]
  refine ⟨fun hw => ⟨_, run.trans (congrArg _ (launchMakes_waits hw)), State.mem_agenda_push.2 (.inl ?_), msgs, jobs, descs⟩, fun hc =>
    ⟨fun f hf => run.trans (congrArg _ (launchMakes_fault hc hf)), fun hf => run.trans (congrArg _ (launchMakes_desc hc hf)),
      fun t l hf => run.trans (congrArg _ (launchMakes_made hc hf))⟩⟩
  rw [← now]
  rfl

theorem binding : Binding := fun s =>
  ⟨⟨bind_ignored, fun hn hv => bind_clear hn hv, fun hn hv hw => ⟨bind_notLive hn hv hw, fun hb live =>
    ⟨fun _ hf => bind_faults hn hv hw rfl rfl hb live hf, bindings s hn hv hw hb live⟩⟩⟩,
   ⟨reside_none, residencies s⟩,
   fun _ h => ⟨⟨fun hd _ hf => launchRequest_faults h hd hf, fun _ _ hu => launchRequests h hu⟩, cancelRequest h⟩⟩

/-- Settles O33: JOBSTART read by read, and binding, residency and LAUNCH by the lemmas of their cases. -/
theorem jobsStartAndBind : Obligations.JobsStartAndBind := ⟨jobStart, binding⟩

end Sys2Proof

/-! ## Completions (spec/04_launch.md R76, R77; spec/01_work.md R28, R31; spec/24_retire.md R414, R415) -/

namespace Sys2Proof

open Machine

theorem outlets : Outlets :=
  ⟨fun _ => ⟨rfl, rfl, rfl, rfl, rfl⟩, fun _ => ⟨rfl, rfl, rfl, rfl⟩, fun _ => ⟨rfl, rfl, rfl, rfl, rfl⟩, fun _ => ⟨rfl, rfl, rfl, rfl, rfl⟩⟩

theorem uncommitted_eq_false {s : State} {j : JobId} {sel : Block → Bool} : s.uncommitted j sel = false ↔
    ∀ d y, (d, y) ∈ s.cores → ∀ b ∈ y.rings, b.migrated = true → b.job = j → sel b = false := by
  unfold State.uncommitted
  simp only [List.any_eq_false, Bool.and_eq_true, beq_iff_eq, Prod.forall, not_and, Bool.not_eq_true, and_imp]

theorem launchOver_iff {s : State} {j : JobId} {l : Lslot} : s.launchOver j l = true ↔
    (s.launch j l).count = 0 ∧ ∀ d y, (d, y) ∈ s.cores → ∀ b ∈ y.rings, b.migrated = true → b.job = j → b.lslot ≠ l := by
  unfold State.launchOver
  rw [Bool.and_eq_true, beq_iff_eq, Bool.not_eq_true', uncommitted_eq_false]
  simp only [beq_eq_false_iff_ne, ne_eq]

theorem phaseOver_iff {s : State} {j : JobId} {p : Phase} : s.phaseOver j p = true ↔ p.count = 0 ∧ p.stop ≤ ((s.job j).leaf .mgmt).gvt ∧
    ∀ d y, (d, y) ∈ s.cores → ∀ b ∈ y.rings, b.migrated = true → b.job = j → b.t.t.vt < p.start ∨ p.stop ≤ b.t.t.vt := by
  have has : ∀ t : Word, p.has t = false ↔ t < p.start ∨ p.stop ≤ t := fun t => by
    unfold Phase.has
    rw [Bool.and_eq_false_iff, decide_eq_false_iff_not, decide_eq_false_iff_not, BitVec.not_le, BitVec.not_lt]
  unfold State.phaseOver
  rw [Bool.and_eq_true, Bool.and_eq_true, beq_iff_eq, decide_eq_true_iff, Bool.not_eq_true', uncommitted_eq_false, and_assoc]
  simp only [has]

theorem whenClear_waits {s : State} {j : JobId} {x : Outlet} (h : s.jobClear j x.addrs = false) (i : Instr) (a : StepArg) (f : State → State) :
    s.whenClear j x i a f = (s.clearJob j x.addrs).push 64 i a := if_neg (by simp [h])

theorem whenClear_runs {s : State} {j : JobId} {x : Outlet} (h : s.jobClear j x.addrs = true) (i : Instr) (a : StepArg) (f : State → State) :
    s.whenClear j x i a f = f s := if_pos h

/-! ### Launches -/

/-- The status with which a launch completes (R381). -/
def Machine.Launch.endStatus (x : Launch) : Nat := if x.c.cancelled || x.lost then 1 else if x.c.killed then 3 else x.bad.getD 0

/-- The state in which a launch has completed but for what its graph does with it. -/
def Machine.State.launchEnds (s : State) (j : JobId) (l : Lslot) : State :=
  (((s.updLaunch j l fun x => { x with complete := true, status := (s.launch j l).endStatus }).signalLevel j (s.launch j l).outlet
    (Record (s.launch j l).c l.toNat j 0 (s.launch j l).endStatus s.tstamp (s.job j).gvt 0)).releaseShares j l).unbind j l

theorem gvt_updLaunch (s : State) (j : JobId) (l : Lslot) (f : Launch → Launch) : ((s.updLaunch j l f).job j).gvt = (s.job j).gvt :=
  (congrArg Job.gvt (State.job_updJob_same s j _) :)

section

variable {s : State} {j : JobId} {l : Lslot}

theorem completeLaunch_idle (h : (s.job j).live l = false ∨ s.launchOver j l ≠ true) : s.completeLaunch j l = s :=
  if_pos (by rcases h with h | h <;> simp [h])

variable (hl : (s.job j).live l = true) (ho : s.launchOver j l = true)

include hl ho

theorem completeLaunch_waits (hc : s.jobClear j (s.launch j l).outlet.addrs = false) :
    s.completeLaunch j l = (s.clearJob j (s.launch j l).outlet.addrs).push 64 .launchCompletion { j := j, l := l } :=
  (if_neg (by simp [hl, ho])).trans (whenClear_waits hc _ _ _)

theorem completeLaunch_alone (hc : s.jobClear j (s.launch j l).outlet.addrs = true) (hg : (s.launch j l).graph = none) :
    s.completeLaunch j l = (s.launchEnds j l).updJob j fun v => { v with launches := Tab.del v.launches l.toNat } := by
  refine (if_neg (by simp [hl, ho])).trans ((whenClear_runs hc _ _ _).trans ?_)
  dsimp only
  rw [hg, gvt_updLaunch]
  rfl

theorem completeLaunch_graph (hc : s.jobClear j (s.launch j l).outlet.addrs = true) {g : BitVec 16} (hg : (s.launch j l).graph = some g) :
    s.completeLaunch j l = ((((s.launchEnds j l).updJob j fun v => { v with graphs := Tab.upd {} v.graphs g.toNat fun y =>
      { y with done := y.done ++ [(l, (s.launch j l).endStatus)] } }).releaseDependants j g l (s.launch j l).endStatus).checkGraph j g) := by
  refine (if_neg (by simp [hl, ho])).trans ((whenClear_runs hc _ _ _).trans ?_)
  dsimp only
  rw [hg, gvt_updLaunch]
  rfl

end

theorem launchCompletions (s : State) :
    let j := s.arg.j; let l := s.arg.l
    let v := s.job j
    let x := s.launch j l
    let ended := x.count = 0 ∧ ∀ d y, (d, y) ∈ s.cores → ∀ b ∈ y.rings, b.migrated = true → b.job = j → b.lslot ≠ l
    (v.live l = false ∨ ¬ended → exec .launchCompletion s = .next s) ∧
    (v.live l = true → ended → s.jobClear j x.outlet.addrs = false →
      exec .launchCompletion s = .next ((s.clearJob j x.outlet.addrs).push 64 .launchCompletion { j := j, l := l })) ∧
    (v.live l = true → ended → s.jobClear j x.outlet.addrs = true → x.graph = none →
      ∃ t, exec .launchCompletion s = .next t ∧ t = (s.launchEnds j l).updJob j (fun v => { v with launches := Tab.del v.launches l.toNat }) ∧
        ∀ m, m ≠ l → t.launch j m = (s.launchEnds j l).launch j m) ∧
    (∀ g, v.live l = true → ended → s.jobClear j x.outlet.addrs = true → x.graph = some g → exec .launchCompletion s = .next
      ((((s.launchEnds j l).updJob j fun v => { v with graphs := Tab.upd {} v.graphs g.toNat fun y => { y with done := y.done ++ [(l, x.endStatus)] } }
        ).releaseDependants j g l x.endStatus).checkGraph j g)) := by
  intro j l v x ended
  have isOver : ended ↔ s.launchOver j l = true := launchOver_iff.symm
  refine ⟨fun h => congrArg Host.Outcome.next (completeLaunch_idle (h.imp id (mt isOver.2))), fun hl he hc =>
    congrArg Host.Outcome.next (completeLaunch_waits hl (isOver.1 he) hc), fun hl he hc hg =>
      ⟨_, congrArg Host.Outcome.next (completeLaunch_alone hl (isOver.1 he) hc hg), rfl, fun m hm => ?_⟩, fun g hl he hc hg =>
    congrArg Host.Outcome.next (completeLaunch_graph hl (isOver.1 he) hc hg)⟩
  unfold State.launch
  rw [State.job_updJob_same]
  refine (Tab.get_del _ _ _ _).trans (if_neg fun h => hm (BitVec.eq_of_toNat_eq h))

/-! ### Graphs -/

theorem find_del_ne {α : Type} (t : Tab α) {k n : Nat} (h : n ≠ k) : Tab.find (Tab.del t k) n = Tab.find t n := by
  induction t with
  | nil => rfl
  | cons e r ih =>
    obtain ⟨m, v⟩ := e
    unfold Tab.del at ih ⊢
    by_cases hm : m = k
    · rw [List.filter_cons_of_neg (by simpa using hm), ih, Tab.find, if_neg (by rw [hm]; exact Ne.symm h)]
    · rw [List.filter_cons_of_pos (by simpa using hm), Tab.find, Tab.find, ih]

theorem has_del {α : Type} (t : Tab α) (k : Nat) : Tab.has (Tab.del t k) k = false := by
  unfold Tab.has Tab.del
  rw [List.any_eq_false]
  intro e he
  simpa using (List.mem_filter.1 he).2

/-- Every member of a graph has completed. -/
def Machine.Graph.allDone (g : Graph) : Bool := g.members.all fun l => g.done.any fun d => d.1 == l

theorem allDone_iff (g : Graph) : g.allDone = true ↔ ∀ l ∈ g.members, ∃ n, (l, n) ∈ g.done := by
  unfold Graph.allDone
  simp only [List.all_eq_true, List.any_eq_true, beq_iff_eq, Prod.exists, exists_and_right, exists_eq_right]

/-- The status with which a graph completes (R30, R381). -/
def Machine.Graph.endStatus (g : Graph) : Nat :=
  if g.c.cancelled then 1 else if g.c.killed then 3 else ((g.done.find? fun d => d.2 ≠ 0).map (·.2)).getD 0

/-- The state without a graph and its launches. -/
def Machine.State.graphGoes (s : State) (j : JobId) (n : Nat) (g : Graph) : State :=
  s.updJob j fun v =>
    { v with graphs := Tab.del v.graphs n, launches := v.launches.filter fun (e : Nat × Launch) => !g.members.contains (BitVec.ofNat 16 e.1) }

theorem graphGoes_keeps (s : State) (j : JobId) (n : Nat) (g : Graph) : Tab.has ((s.graphGoes j n g).job j).graphs n = false ∧
    (∀ m, m ≠ n → Tab.find ((s.graphGoes j n g).job j).graphs m = Tab.find (s.job j).graphs m) ∧
    (∀ e ∈ ((s.graphGoes j n g).job j).launches, BitVec.ofNat 16 e.1 ∉ g.members) ∧ { s.graphGoes j n g with jobs := s.jobs } = s := by
  unfold State.graphGoes
  rw [State.job_updJob_same]
  refine ⟨has_del _ _, fun m hm => find_del_ne _ hm, fun e he => ?_, rfl⟩
  simpa using (List.mem_filter.1 he).2

theorem statusOf_eq (c : Counts) (own : Nat) : statusOf c false own = if c.cancelled then 1 else if c.killed then 3 else own := by
  unfold statusOf
  rw [Bool.or_false]

section

variable {s : State} {j : JobId} {n : Nat} {g : Graph} (hg : Tab.find (s.job j).graphs n = some g)

include hg

theorem completeGraph_open (ho : g.closed = false) : s.completeGraph j n = s := by
  unfold State.completeGraph
  rw [hg]
  exact if_pos (by simp [ho])

variable (hc : g.complete = false) (ho : g.closed = true) (hd : g.allDone = true)

include hc ho hd

theorem completeGraph_waits (hw : s.jobClear j g.outlet.addrs = false) :
    s.completeGraph j n = (s.clearJob j g.outlet.addrs).push 64 .graphCompletion { j := j, n := n } := by
  unfold Graph.allDone at hd
  unfold State.completeGraph
  rw [hg]
  exact (if_neg (by simp [ho, hc, hd])).trans (whenClear_waits hw _ _ _)

theorem completeGraph_runs (hw : s.jobClear j g.outlet.addrs = true) : s.completeGraph j n =
    (s.signalLevel j g.outlet (Record g.c n j 1 g.endStatus s.tstamp (s.job j).gvt 0)).graphGoes j n g := by
  unfold Graph.allDone at hd
  unfold State.completeGraph
  rw [hg]
  refine (if_neg (by simp [ho, hc, hd])).trans ((whenClear_runs hw _ _ _).trans ?_)
  dsimp only
  rw [statusOf_eq]
  rfl

end

theorem graphCompletions (s : State) (g : Graph) :
    let j := s.arg.j
    let v := s.job j
    Tab.find v.graphs s.arg.n = some g → g.complete = false →
    let u := s.signalLevel j g.outlet (Record g.c s.arg.n j 1 g.endStatus s.tstamp v.gvt 0)
    (g.closed = true → (∀ l ∈ g.members, ∃ n, (l, n) ∈ g.done) → s.jobClear j g.outlet.addrs = false →
      exec .graphCompletion s = .next ((s.clearJob j g.outlet.addrs).push 64 .graphCompletion { j := j, n := s.arg.n })) ∧
    (g.closed = true → (∀ l ∈ g.members, ∃ n, (l, n) ∈ g.done) → s.jobClear j g.outlet.addrs = true → ∃ t, exec .graphCompletion s = .next t ∧
      Tab.has (t.job j).graphs s.arg.n = false ∧ (∀ m, m ≠ s.arg.n → Tab.find (t.job j).graphs m = Tab.find (u.job j).graphs m) ∧
      (∀ e ∈ (t.job j).launches, BitVec.ofNat 16 e.1 ∉ g.members) ∧ { t with jobs := u.jobs } = u) ∧
    (g.closed = false → exec .graphCompletion s = .next s) := by
  intro j v hg hc u
  refine ⟨fun ho hd hw => congrArg Host.Outcome.next (completeGraph_waits hg hc ho ((allDone_iff g).2 hd) hw), fun ho hd hw =>
    ⟨_, congrArg Host.Outcome.next (completeGraph_runs hg hc ho ((allDone_iff g).2 hd) hw), graphGoes_keeps u j s.arg.n g⟩,
    fun ho => congrArg Host.Outcome.next (completeGraph_open hg ho)⟩

/-! ### Phases -/

/-- The status with which a phase completes (R381). -/
def Machine.Phase.endStatus (p : Phase) : Nat := if p.c.cancelled then 1 else if p.c.killed then 3 else 0

section

variable {s : State} {j : JobId} {w : Word} {p : Phase} (hp : (s.job j).phases.find? (fun p => p.start == w) = some p)

include hp

theorem completePhase_idle (h : p.complete = true ∨ s.phaseOver j p ≠ true) : s.completePhase j w = s := by
  unfold State.completePhase
  rw [hp]
  exact if_pos (by rcases h with h | h <;> simp [h])

variable (hc : p.complete = false) (ho : s.phaseOver j p = true)

include hc ho

theorem completePhase_behind (hb : s.completing j = true) : s.completePhase j w = s.push 8 .phaseCompletion { j := j, w0 := w } := by
  unfold State.completePhase
  rw [hp]
  exact (if_neg (by simp [hc, ho])).trans (if_pos hb)

variable (hb : s.completing j = false)

include hb

theorem completePhase_waits (hw : s.jobClear j p.outlet.addrs = false) :
    s.completePhase j w = (s.clearJob j p.outlet.addrs).push 64 .phaseCompletion { j := j, w0 := w } := by
  unfold State.completePhase
  rw [hp]
  exact (if_neg (by simp [hc, ho])).trans ((if_neg (by simp [hb])).trans (whenClear_waits hw _ _ _))

theorem completePhase_runs (hw : s.jobClear j p.outlet.addrs = true) : s.completePhase j w =
    (s.updJob j fun v => { v with phases := v.phases.map fun q => if q.start == w then { q with complete := true } else q }).signalLevel j
      p.outlet (Record p.c 0 j 2 p.endStatus s.tstamp (s.job j).gvt p.start) := by
  have gvt := (congrArg Job.gvt (State.job_updJob_same s j fun v =>
    { v with phases := v.phases.map fun q => if q.start == w then { q with complete := true } else q }) :)
  unfold State.completePhase
  rw [hp]
  refine (if_neg (by simp [hc, ho])).trans ((if_neg (by simp [hb])).trans ((whenClear_runs hw _ _ _).trans ?_))
  dsimp only
  rw [statusOf_eq, gvt]
  rfl

end

theorem phaseCompletions (s : State) (p : Phase) :
    let j := s.arg.j
    let v := s.job j
    v.phases.find? (fun p => p.start == s.arg.w0) = some p →
    let ended := p.count = 0 ∧ p.stop ≤ (v.leaf .mgmt).gvt ∧
      ∀ d y, (d, y) ∈ s.cores → ∀ b ∈ y.rings, b.migrated = true → b.job = j → b.t.t.vt < p.start ∨ p.stop ≤ b.t.t.vt
    (p.complete = false → ended → s.completing j = true → exec .phaseCompletion s = .next (s.push 8 .phaseCompletion { j := j, w0 := s.arg.w0 })) ∧
    (p.complete = false → ended → s.completing j = false → s.jobClear j p.outlet.addrs = false →
      exec .phaseCompletion s = .next ((s.clearJob j p.outlet.addrs).push 64 .phaseCompletion { j := j, w0 := s.arg.w0 })) ∧
    (p.complete = false → ended → s.completing j = false → s.jobClear j p.outlet.addrs = true → exec .phaseCompletion s = .next
      ((s.updJob j fun v => { v with phases := v.phases.map fun q => if q.start == s.arg.w0 then { q with complete := true } else q }).signalLevel j
        p.outlet (Record p.c 0 j 2 p.endStatus s.tstamp v.gvt p.start))) ∧
    (p.complete = true ∨ ¬ended → exec .phaseCompletion s = .next s) := by
  intro j v hp ended
  have isOver : ended ↔ s.phaseOver j p = true := phaseOver_iff.symm
  exact ⟨fun hc he hb => congrArg Host.Outcome.next (completePhase_behind hp hc (isOver.1 he) hb),
    fun hc he hb hw => congrArg Host.Outcome.next (completePhase_waits hp hc (isOver.1 he) hb hw),
    fun hc he hb hw => congrArg Host.Outcome.next (completePhase_runs hp hc (isOver.1 he) hb hw),
    fun h => congrArg Host.Outcome.next (completePhase_idle hp (h.imp id (mt isOver.2)))⟩

theorem completions : Completions := by
  refine ⟨outlets, fun s j hj => ?_⟩
  subst hj
  exact ⟨launchCompletions s, graphCompletions s, phaseCompletions s⟩

end Sys2Proof

/-! ## The teardown of a job (spec/24_retire.md R418 to R420; spec/09_memory.md R199, R201) -/

namespace Sys2Proof

open Machine

theorem get_map {α : Type} {d : α} {g : α → α} (h : g d = d) (t : Tab α) (k : Nat) :
    Tab.get d (t.map fun e => (e.1, g e.2)) k = g (Tab.get d t k) := by
  induction t with
  | nil => exact h.symm
  | cons e r ih =>
    rw [List.map_cons]
    by_cases he : e.1 = k
    · exact (if_pos he).trans (congrArg g (if_pos he).symm)
    · exact (if_neg he).trans (ih.trans (congrArg g (if_neg he).symm))

/-! ### Steps -/

/-- A step of a teardown done: the next one is due. -/
def Machine.State.stepDone (s : State) (j : JobId) (n slot : Nat) (ack : Word) : State :=
  (s.updJob j fun v => { v with teardown := some (n + 1, slot, ack) }).push 8 .teardown { j := j }

theorem job_stepDone (u : State) (j : JobId) (n slot : Nat) (ack : Word) : (u.stepDone j n slot ack).job j =
    { u.job j with teardown := some (n + 1, slot, ack) } := State.job_updJob_same u j fun v => { v with teardown := some (n + 1, slot, ack) }

theorem passed_stepDone {s u : State} (h : u.now = s.now) (j : JobId) (n slot : Nat) (ack : Word) :
    ((u.stepDone j n slot ack).job j).teardown = some (n + 1, slot, ack) ∧
      (s.now + 8, Instr.teardown, ({ j := j } : StepArg)) ∈ (u.stepDone j n slot ack).agenda := by
  constructor
  · rw [job_stepDone]
  · refine State.mem_agenda_push.2 (.inl ?_)
    rw [← h]
    rfl

section

variable {s : State} {j : JobId} {slot : Nat} {ack : Word}

theorem tearDown_waits (h : (s.job j).teardown = some (1, slot, ack)) (hw : (s.job j).round.final = true ∨ (s.job j).round.active = true ∨
    (s.job j).gvt ≠ BitVec.allOnes 64 ∨ ∃ p ∈ (s.job j).phases, p.complete = false) : s.tearDown j = s.push 64 .teardown { j := j } := by
  unfold State.tearDown
  dsimp only
  rw [h]
  dsimp only
  by_cases hr : ((s.job j).round.final || (s.job j).round.active) = true
  · exact if_pos hr
  · rw [if_neg hr]
    refine if_pos ?_
    rw [Bool.or_eq_true, not_or] at hr
    rw [Bool.or_eq_true, decide_eq_true_iff, List.any_eq_true]
    rcases hw with hw | hw | hw | ⟨p, hp, hc⟩
    · exact absurd hw hr.1
    · exact absurd hw hr.2
    · exact .inl hw
    · exact .inr ⟨p, hp, by rw [hc]; rfl⟩

theorem tearDown_round (h : (s.job j).teardown = some (1, slot, ack)) (hf : (s.job j).round.final = false) (ha : (s.job j).round.active = false)
    (hg : (s.job j).gvt = BitVec.allOnes 64) (hp : ∀ p ∈ (s.job j).phases, p.complete = true) : s.tearDown j = s.stepDone j 1 slot ack := by
  have phases : ((s.job j).phases.any fun p => !p.complete) = false := by
    rw [List.any_eq_false]
    intro p h
    simp [hp p h]
  unfold State.tearDown
  dsimp only
  rw [h]
  dsimp only
  rw [if_neg (by simp [hf, ha]), if_neg (by rw [hg, phases]; decide)]
  rfl

theorem tearDown_busy (h : (s.job j).teardown = some (2, slot, ack)) (hb : s.busyJob j = true) : s.tearDown j = s.push 64 .teardown { j := j } := by
  unfold State.tearDown
  dsimp only
  rw [h]
  exact if_pos hb

theorem tearDown_key (h : (s.job j).teardown = some (2, slot, ack)) (hb : s.busyJob j = false) : s.tearDown j = (s.dropKey j).stepDone j 2 slot ack := by
  unfold State.tearDown
  dsimp only
  rw [h]
  exact if_neg (by simp [hb])

theorem tearDown_versions (h : (s.job j).teardown = some (3, slot, ack)) : s.tearDown j = (s.dropVersions j).stepDone j 3 slot ack := by
  unfold State.tearDown
  dsimp only
  rw [h]
  rfl

theorem tearDown_translations (h : (s.job j).teardown = some (4, slot, ack)) : s.tearDown j = (s.dropTranslations j).stepDone j 4 slot ack := by
  unfold State.tearDown
  dsimp only
  rw [h]
  rfl

theorem tearDown_areas (h : (s.job j).teardown = some (5, slot, ack)) : s.tearDown j = (s.dropAreas j).stepDone j 5 slot ack := by
  unfold State.tearDown
  dsimp only
  rw [h]
  rfl

theorem tearDown_hostjob (h : (s.job j).teardown = some (6, slot, ack)) : s.tearDown j =
    ({ s with hostjob := if s.hostjob = j.setWidth 5 then 16#5 else s.hostjob } : State).stepDone j 6 slot ack := by
  unfold State.tearDown
  dsimp only
  rw [h]
  rfl

theorem tearDown_record_waits (h : (s.job j).teardown = some (7, slot, ack)) (hc : s.jobClear j (s.job j).outlet.addrs = false) :
    s.tearDown j = (s.clearJob j (s.job j).outlet.addrs).push 64 .teardown { j := j } := by
  unfold State.tearDown
  dsimp only
  rw [h]
  exact whenClear_waits hc _ _ _

theorem tearDown_record (h : (s.job j).teardown = some (7, slot, ack)) (hc : s.jobClear j (s.job j).outlet.addrs = true) :
    s.tearDown j = (s.recordJob j).stepDone j 7 slot ack := by
  unfold State.tearDown
  dsimp only
  rw [h]
  exact whenClear_runs hc _ _ _

/-- The state after the last step of a teardown. -/
theorem tearDown_last (h : (s.job j).teardown = some (8, slot, ack)) : s.tearDown j =
    if ((s.acknowledge ack slot 0).endJob j).taking then (s.acknowledge ack slot 0).endJob j else ((s.acknowledge ack slot 0).endJob j).nextCommand := by
  unfold State.tearDown
  dsimp only
  rw [h]
  rfl

end

/-! ### Step 2: the dirty lines and the key -/

theorem get_loseLine_outside (a : Nat) (v : Line) (m : List Host.Cell) {y : Nat} (h : y / 128 ≠ a) :
    Memory.get (Memory.write m (128 * a) (bytesOf 128 v)) y = Memory.get m y :=
  Memory.get_write_outside _ (by rw [length_bytesOf]; omega)

theorem get_loseLine (a : Nat) (v : Line) (m : List Host.Cell) {i : Nat} (h : i < 128) :
    Memory.get (Memory.write m (128 * a) (bytesOf 128 v)) (128 * a + i) = v.extractLsb' (8 * i) 8 := by
  have inside : i < (bytesOf 128 v).length := by rw [length_bytesOf]; exact h
  rw [Memory.get_write_inside _ i inside, getElem_bytesOf]

/-- Lines that are lost read as memory holds of them; the others are as they were. -/
theorem get_loseLines_outside (ls : List (Nat × Line)) {y : Nat} (h : y / 128 ∉ ls.map (·.1)) :
    ∀ s : State, Memory.get (s.loseLines ls).mem y = Memory.get s.mem y := by
  induction ls with
  | nil => exact fun _ => rfl
  | cons e r ih =>
    rw [List.map_cons, List.mem_cons, not_or] at h
    intro s
    exact (ih h.2 _).trans (get_loseLine_outside e.1 e.2 s.mem h.1)

theorem get_loseLines_inside (ls : List (Nat × Line)) (hd : (ls.map (·.1)).Nodup) : ∀ (s : State), ∀ e ∈ ls, ∀ i, i < 128 →
    Memory.get (s.loseLines ls).mem (128 * e.1 + i) = e.2.extractLsb' (8 * i) 8 := by
  induction ls with
  | nil => exact fun _ e he => by cases he
  | cons x r ih =>
    rw [List.map_cons, List.nodup_cons] at hd
    intro s e he i hi
    rcases List.mem_cons.1 he with rfl | he
    · refine (get_loseLines_outside r ?_ _).trans (get_loseLine e.1 e.2 s.mem hi)
      rw [show (128 * e.1 + i) / 128 = e.1 by omega]
      exact hd.1
    · exact ih hd.2 _ e he i hi

theorem loseLines_rest (ls : List (Nat × Line)) : ∀ s : State, { s.loseLines ls with mem := s.mem } = s := by
  induction ls with
  | nil => exact fun _ => rfl
  | cons e r ih =>
    intro s
    exact (congrArg (fun x : State => { x with mem := s.mem }) (ih { s with mem := Memory.write s.mem (128 * e.1) (bytesOf 128 e.2) }) :)

/-- A slice without the lines and the near versions of a job's key. -/
def Machine.Cluster.unkeyed (v : Cluster) (j : JobId) : Cluster :=
  { v with lines := v.lines.map (fun (h : Nat × HomeLine) => (h.1, if h.2.key = j.toNat then { h.2 with old := none, key := 16 } else h.2)),
           vers := v.vers.filter fun v => !(v.job == j && v.near) }

/-- A core without the dirty non-coherent lines of a job. -/
def Machine.Core.unkeyed (v : Core) (j : JobId) : Core := { v with dcache := v.dcache.filter fun d => !(d.nc && d.job == j && d.dirty != 0) }

theorem cluster_dropKey (s : State) (j : JobId) (cl : ClusterId) : (s.dropKey j).cluster cl = (s.cluster cl).unkeyed j := by
  have rest := loseLines_rest (s.dirtyLines fun k => k == j.toNat) s
  have clusters := (congrArg State.clusters rest :)
  refine (get_map (g := fun v => Cluster.unkeyed v j) rfl _ _).trans ?_
  rw [clusters]
  rfl

theorem core_dropKey (s : State) (j : JobId) (c : CoreId) : (s.dropKey j).core c = (s.core c).unkeyed j := by
  have rest := loseLines_rest (s.dirtyLines fun k => k == j.toNat) s
  have core := (congrArg (fun x : State => x.core c) rest :)
  refine (get_map (g := fun v => Core.unkeyed v j) rfl _ _).trans ?_
  exact congrArg (Core.unkeyed · j) core

theorem mem_dropKey (s : State) (j : JobId) : (s.dropKey j).mem = (s.loseLines (s.dirtyLines fun k => k == j.toNat)).mem := rfl

theorem now_dropKey (s : State) (j : JobId) : (s.dropKey j).now = s.now :=
  (congrArg State.now (loseLines_rest (s.dirtyLines fun k => k == j.toNat) s) :)

theorem key_dropKey (s : State) (j : JobId) : ((s.dropKey j).job j).key = none := by
  unfold State.dropKey
  rw [State.job_updJob_same]

/-- The key of a job goes with what stands under it (R199, R201). -/
theorem teardownKey {s : State} {j : JobId} {slot : Nat} {ack : Word} (h : (s.job j).teardown = some (2, slot, ack)) (hb : s.busyJob j = false) :
    let lost := s.dirtyLines fun k => k == j.toNat
    let t := (s.dropKey j).stepDone j 2 slot ack
    s.tearDown j = t ∧ (t.job j).key = none ∧
      (∀ y, y / 128 ∉ lost.map (·.1) → Memory.get t.mem y = Memory.get s.mem y) ∧
      ((lost.map (·.1)).Nodup → ∀ e ∈ lost, ∀ i, i < 128 → Memory.get t.mem (128 * e.1 + i) = e.2.extractLsb' (8 * i) 8) ∧
      (∀ cl h, h ∈ (t.cluster cl).lines → h.2.key ≠ j.toNat) ∧ (∀ cl v, v ∈ (t.cluster cl).vers → v.job = j → v.near = false) ∧
      ∀ c d, d ∈ (t.core c).dcache → d.nc = true → d.job = j → d.dirty = 0 := by
  intro lost t
  refine ⟨tearDown_key h hb, ?_, fun y hy => get_loseLines_outside lost hy s, fun hd => get_loseLines_inside lost hd s, fun cl h hh => ?_, fun cl v hv hj => ?_,
    fun c d hd hn hj => ?_⟩
  · rw [job_stepDone]
    exact key_dropKey s j
  · have hh : h ∈ ((s.dropKey j).cluster cl).lines := hh
    rw [cluster_dropKey] at hh
    obtain ⟨x, -, rfl⟩ := List.mem_map.1 hh
    dsimp only
    by_cases hk : x.2.key = j.toNat
    · rw [if_pos hk]
      exact Nat.ne_of_gt j.isLt
    · rw [if_neg hk]
      exact hk
  · have hv : v ∈ ((s.dropKey j).cluster cl).vers := hv
    rw [cluster_dropKey] at hv
    simpa [hj] using (List.mem_filter.1 hv).2
  · have hd : d ∈ ((s.dropKey j).core c).dcache := hd
    rw [core_dropKey] at hd
    simpa [hn, hj] using (List.mem_filter.1 hd).2

/-! ### Steps 3 to 6 -/

/-- A slice without the ephemeris entries of a job. -/
def Machine.Cluster.unversioned (v : Cluster) (j : JobId) : Cluster :=
  { v with vers := v.vers.filter (fun v => v.job != j), asof := v.asof.filter (fun v => v.job != j), died := v.died.filter (fun d => d.1 != j),
           vwait := v.vwait.filter fun r => r.job != j }

theorem cluster_dropVersions (s : State) (j : JobId) (cl : ClusterId) : (s.dropVersions j).cluster cl = (s.cluster cl).unversioned j :=
  get_map (g := fun v => Cluster.unversioned v j) rfl s.clusters cl.toNat

theorem teardownVersions (s : State) (j : JobId) (cl : ClusterId) (slot : Nat) (ack : Word) :
    let t := (s.dropVersions j).stepDone j 3 slot ack
    (∀ v ∈ (t.cluster cl).vers, v.job ≠ j) ∧ (∀ m ∈ (t.cluster cl).asof, m.job ≠ j) ∧ (∀ d ∈ (t.cluster cl).died, d.1 ≠ j) ∧
      ∀ r ∈ (t.cluster cl).vwait, r.job ≠ j := by
  intro t
  rw [show t.cluster cl = (s.cluster cl).unversioned j from cluster_dropVersions s j cl]
  exact ⟨fun v hv => by simpa using (List.mem_filter.1 hv).2, fun v hv => by simpa using (List.mem_filter.1 hv).2,
    fun v hv => by simpa using (List.mem_filter.1 hv).2, fun v hv => by simpa using (List.mem_filter.1 hv).2⟩

theorem core_dropTranslations (s : State) (j : JobId) (c : CoreId) : (s.dropTranslations j).core c =
    { s.core c with dtlb := (s.core c).dtlb.filter fun e => e.job != j, itlb := (s.core c).itlb.filter fun e => e.job != j } :=
  get_map (g := fun v : Core => { v with dtlb := v.dtlb.filter fun e => e.job != j, itlb := v.itlb.filter fun e => e.job != j }) rfl s.cores c.toNat

theorem cluster_dropTranslations (s : State) (j : JobId) (cl : ClusterId) : (s.dropTranslations j).cluster cl =
    { s.cluster cl with l2 := (s.cluster cl).l2.filter fun e => e.job != j } :=
  get_map (g := fun v : Cluster => { v with l2 := v.l2.filter fun e => e.job != j }) rfl s.clusters cl.toNat

theorem job_dropTranslations (s : State) (j : JobId) : (s.dropTranslations j).job j =
    { s.job j with hintbase := 0, windows := [], near := 0, policy := 0 } :=
  State.job_updJob_same _ j fun v => { v with hintbase := 0, windows := [], near := 0, policy := 0 }

theorem teardownTranslations (s : State) (j : JobId) (slot : Nat) (ack : Word) :
    let t := (s.dropTranslations j).stepDone j 4 slot ack
    (∀ c e, e ∈ (t.core c).dtlb ∨ e ∈ (t.core c).itlb → e.job ≠ j) ∧ (∀ cl e, e ∈ (t.cluster cl).l2 → e.job ≠ j) ∧ (t.job j).windows = [] ∧
      (t.job j).near = 0 ∧ (t.job j).policy = 0 ∧ (t.job j).hintbase = 0 ∧ (t.job j).ptroot = (s.job j).ptroot := by
  intro t
  have kept : ∀ (l : List TlbEntry) (e : TlbEntry), e ∈ l.filter (fun e => e.job != j) → e.job ≠ j := fun l e he => by
    simpa using (List.mem_filter.1 he).2
  refine ⟨fun c e he => ?_, fun cl e he => ?_, ?_⟩
  · rw [show t.core c = _ from core_dropTranslations s j c] at he
    exact he.elim (kept _ e) (kept _ e)
  · rw [show t.cluster cl = _ from cluster_dropTranslations s j cl] at he
    exact kept _ e he
  · rw [show t.job j = _ from job_stepDone _ _ _ _ _, job_dropTranslations]
    exact ⟨rfl, rfl, rfl, rfl, rfl⟩

/-- No time passes from one state to the other. -/
def SameNow (s t : State) : Prop := t.now = s.now

theorem SameNow.fold {α : Type} {f : State → α → State} (step : ∀ s x, SameNow s (f s x)) (l : List α) (s : State) : SameNow s (l.foldl f s) :=
  foldl_keeps (R := SameNow) (f := f) (fun _ => rfl) (fun h g => g.trans h) step l s

theorem now_settleId (s : State) (c : CoreId) (id : Nat) (by' : Option Nat) : (s.settleId c id by').now = s.now := by
  unfold State.settleId
  dsimp only
  have departs : ∀ (l : List SendEntry) (u : State), SameNow u (l.foldl (fun s e => s.soon .sendBufferDeparture { c := c, n := e.m }) u) :=
    SameNow.fold fun _ _ => rfl
  have leaves : ∀ (l : List Req) (u : State), SameNow u (l.foldl (fun s r => s.launchReq { r with after := [] }) u) :=
    SameNow.fold fun u r => (Sends.launchReq u { r with after := [] }).now
  exact (departs _ _).trans (leaves _ _)

theorem now_dropSlog (s : State) (c : CoreId) (i : Nat) : (s.dropSlog c i).now = s.now := by
  have freed : (s.freeSlog c i).now = s.now := now_settleId _ c _ none
  unfold State.dropSlog
  dsimp only
  split
  · exact freed
  · exact freed

/-- The side-log entries of a job on every core dropped. -/
def Machine.State.dropSlogs (s : State) (j : JobId) : State :=
  s.cores.foldl (fun (s : State) (e : Nat × Core) =>
    (e.2.slog.filter fun x => x.2.st != 0 && x.2.job == j).foldl (fun (s : State) (x : Nat × SlEntry) => s.dropSlog (BitVec.ofNat 12 e.1) x.1) s) s

theorem now_dropSlogs (s : State) (j : JobId) : (s.dropSlogs j).now = s.now :=
  SameNow.fold (fun u (e : Nat × Core) => SameNow.fold (fun w (x : Nat × SlEntry) => now_dropSlog w (BitVec.ofNat 12 e.1) x.1) _ u) _ s

theorem now_scrub (s : State) (c : CoreId) : (s.scrub c).now = s.now := (congrArg State.now (Shares.scrub s c).rest :)

theorem now_dropAreas (s : State) (j : JobId) : (s.dropAreas j).now = s.now := by
  have scrubbed : SameNow s (s.cores.foldl (fun (s : State) (e : Nat × Core) => s.scrub (BitVec.ofNat 12 e.1)) s) :=
    SameNow.fold (fun u (e : Nat × Core) => now_scrub u (BitVec.ofNat 12 e.1)) _ s
  exact (now_dropSlogs _ j).trans scrubbed

theorem job_dropAreas (s : State) (j : JobId) : ((s.dropAreas j).job j).launches = [] ∧ ((s.dropAreas j).job j).saved = {} := by
  unfold State.dropAreas
  rw [State.job_updJob_same]
  exact ⟨rfl, rfl⟩

/-! ### The last step -/

theorem job_endJob (s : State) (j : JobId) : ((s.endJob j).job j).resident = false := by
  unfold State.endJob
  dsimp only
  split
  · exact congrArg Job.resident ((Tab.get_del ({} : Job) s.jobs j.toNat j.toNat).trans (if_pos rfl))
  · exact congrArg Job.resident (Tab.get_put_same ({} : Job) s.jobs j.toNat _)

theorem mem_endJob (s : State) (j : JobId) : (s.endJob j).mem = s.mem := by
  unfold State.endJob
  dsimp only
  split
  · rfl
  · rfl

/-- A job that no other device runs leaves no entry and no pending start of a round. -/
theorem endJob_alone {s : State} {j : JobId} (h : (s.job j).round.users = []) : s.endJob j =
    { s.dropRoundStart j with jobs := Tab.del s.jobs j.toNat } := by
  unfold State.endJob
  exact if_pos h

theorem jobs_nextCommand (s : State) : s.nextCommand.jobs = s.jobs := (congrArg State.jobs (nextCommand_keeps s).1 :)

theorem cmdStep_ne (s : State) : s.cmdStep ≠ .gvtRoundStart := by
  unfold State.cmdStep
  split <;> exact Instr.noConfusion

/-- Of the steps that are due, only the next command's is new. -/
theorem agenda_nextCommand (s : State) : ∀ e ∈ s.nextCommand.agenda, e ∈ s.agenda ∨ e.2.1 ≠ .gvtRoundStart := by
  have taken : ∀ (u : State) (p : Bool), u.agenda = s.agenda → ∀ e ∈ (if p then u else u.push 8 u.cmdStep {}).agenda,
      e ∈ s.agenda ∨ e.2.1 ≠ .gvtRoundStart := by
    intro u p hu e he
    cases p with
    | true => exact .inl (hu ▸ he)
    | false =>
      rcases State.mem_agenda_push.1 he with rfl | he
      · exact .inr (cmdStep_ne u)
      · exact .inl (hu ▸ he)
  unfold State.nextCommand
  dsimp only
  split
  · exact taken _ _ rfl
  · exact taken _ _ rfl

/-- The last step: the job is not resident, and where no other device runs it nothing of it is left (R418). -/
theorem teardownLast {s : State} {j : JobId} {slot : Nat} {ack : Word} (h : (s.job j).teardown = some (8, slot, ack)) :
    ((s.tearDown j).job j).resident = false ∧ (s.tearDown j).mem = (s.acknowledge ack slot 0).mem ∧
      ((s.job j).round.users = [] → Tab.has (s.tearDown j).jobs j.toNat = false ∧
        ∀ e ∈ (s.tearDown j).agenda, ¬(e.2.1 = .gvtRoundStart ∧ e.2.2.j = j)) := by
  rw [tearDown_last h]
  have users : ((s.acknowledge ack slot 0).job j).round.users = (s.job j).round.users := rfl
  generalize s.acknowledge ack slot 0 = u at users ⊢
  have gone : (s.job j).round.users = [] → Tab.has (u.endJob j).jobs j.toNat = false ∧
      ∀ e ∈ (u.endJob j).agenda, ¬(e.2.1 = .gvtRoundStart ∧ e.2.2.j = j) := by
    intro hu
    rw [endJob_alone (users.trans hu)]
    refine ⟨has_del u.jobs j.toNat, fun e he => ?_⟩
    have kept := (List.mem_filter.1 he).2
    simpa [imp_iff_not_or] using kept
  split
  · exact ⟨job_endJob u j, mem_endJob u j, gone⟩
  · refine ⟨?_, (mem_nextCommand _).trans (mem_endJob u j), fun hu => ?_⟩
    · rw [job_nextCommand]
      exact job_endJob u j
    · obtain ⟨jobs, agenda⟩ := gone hu
      refine ⟨?_, fun e he => ?_⟩
      · rw [jobs_nextCommand]
        exact jobs
      · rcases agenda_nextCommand _ e he with old | new
        · exact agenda e old
        · exact fun hx => new hx.1

/-- HOSTJOB is free where it named the job. -/
theorem hostjob_freed (s : State) (j : JobId) : (if s.hostjob = j.setWidth 5 then 16#5 else s.hostjob) =
    if s.hostjob.toNat = j.toNat then 16#5 else s.hostjob := by
  have same : s.hostjob = j.setWidth 5 ↔ s.hostjob.toNat = j.toNat := by
    have := j.isLt
    rw [← BitVec.toNat_inj, BitVec.toNat_setWidth, Nat.mod_eq_of_lt (by omega)]
  exact if_congr same rfl rfl

theorem teardown : Teardown := by
  intro s j n slot ack hj h
  subst hj
  have run : exec .teardown s = .next (s.tearDown s.arg.j) := rfl
  intro passed lost
  refine ⟨?_, ?_, ?_, ?_, ?_, ?_, ?_, ?_, ?_, ?_, ?_⟩
  · rintro rfl hf ha hg hp
    exact ⟨_, run.trans (congrArg _ (tearDown_round h hf ha hg hp)), passed_stepDone rfl _ _ _ _⟩
  · rintro rfl hw
    exact run.trans (congrArg _ (tearDown_waits h hw))
  · rintro rfl hb
    exact run.trans (congrArg _ (tearDown_busy h hb))
  · rintro rfl hb
    obtain ⟨ends, rest⟩ := teardownKey h hb
    exact ⟨_, run.trans (congrArg _ ends), passed_stepDone (now_dropKey s _) _ _ _ _, rest⟩
  · rintro rfl
    exact ⟨_, run.trans (congrArg _ (tearDown_versions h)), passed_stepDone rfl _ _ _ _, rfl, fun cl => teardownVersions s _ cl slot ack⟩
  · rintro rfl
    exact ⟨_, run.trans (congrArg _ (tearDown_translations h)), passed_stepDone rfl _ _ _ _, rfl, teardownTranslations s _ slot ack⟩
  · rintro rfl
    refine ⟨_, run.trans (congrArg _ (tearDown_areas h)), passed_stepDone (now_dropAreas s _) _ _ _ _, ?_⟩
    rw [job_stepDone]
    exact job_dropAreas s _
  · rintro rfl
    exact ⟨_, run.trans (congrArg _ (tearDown_hostjob h)), passed_stepDone rfl _ _ _ _, hostjob_freed s _, rfl⟩
  · rintro rfl hc
    exact run.trans (congrArg _ (tearDown_record_waits h hc))
  · rintro rfl hc
    exact run.trans (congrArg _ (tearDown_record h hc))
  · rintro rfl
    exact ⟨_, run, teardownLast h⟩

/-- Settles O34: the steps of a teardown one after another, and the completions of launches, graphs and phases. -/
theorem jobsEnd : Obligations.JobsEnd := ⟨teardown, completions⟩

end Sys2Proof

/-! ## Instructions that set flags (spec/02_formats.md R46, spec/08_isa_scalar.md R139, R140) -/

namespace Sys2Proof

open Machine

/-- A strand with its sticky flags replaced. -/
def Machine.Strand.withFlags (a : Strand) (f : BitVec 5) : Strand := { a with flags := f }

theorem strand_orFlags (s : State) (c : CoreId) (k : StrandId) (f : BitVec 5) (e : CoreId) (n : StrandId) :
    (s.orFlags c k f).strand e n = if e = c ∧ n = k then (s.strand c k).withFlags ((s.strand c k).flags ||| f) else s.strand e n := by
  unfold State.orFlags
  split
  · rename_i h
    subst h
    split
    · rename_i own
      obtain ⟨rfl, rfl⟩ := own
      simp [Strand.withFlags]
    · rfl
  · exact State.strand_updStrand s c e k n _

theorem elsewhere_orFlags (s : State) (c : CoreId) (k : StrandId) (f : BitVec 5) : Elsewhere s (s.orFlags c k f) c [k] := by
  unfold State.orFlags
  split
  · exact ⟨fun _ => rfl, fun _ _ _ => rfl, fun _ => rfl, rfl⟩
  · exact elsewhere_updStrand s c k _

/-- The flags of a strand take no part in the write of a register. -/
theorem putX_setF_withFlags (a : Strand) (d : XReg) (v : Word) (f : BitVec 5) :
    ((a.withFlags f).putX d v).setF (.x d) true = ((a.putX d v).setF (.x d) true).withFlags f := by
  by_cases h0 : d = 0#6
  · subst h0; rfl
  · rw [putX_setF _ v h0, putX_setF _ v h0]; rfl

/-- Flags set before a register is written are the only difference that they make. -/
theorem strand_orFlags_writeX (s : State) (c : CoreId) (k : StrandId) (f : BitVec 5) (d : XReg) (v : Word) (e : CoreId) (n : StrandId) :
    ((s.orFlags c k f).writeX c k d v).strand e n =
      if e = c ∧ n = k then ((s.writeX c k d v).strand c k).withFlags ((s.strand c k).flags ||| f) else (s.writeX c k d v).strand e n := by
  simp only [State.strand_writeX, strand_orFlags]
  by_cases own : e = c ∧ n = k
  · obtain ⟨rfl, rfl⟩ := own
    simp only [and_self, if_true, true_and]
    split
    · exact putX_setF_withFlags _ d v _
    · rfl
  · simp only [if_neg own]

theorem flags_writeX (s : State) (c : CoreId) (k : StrandId) (d : XReg) (v : Word) (e : CoreId) (n : StrandId) :
    ((s.writeX c k d v).strand e n).flags = (s.strand e n).flags := by
  rw [State.strand_writeX]
  split
  · exact (Strand.flags_setF_x _ _ _).trans (Strand.flags_putX _ _ _)
  · rfl

/-- Flags set and set back at the end of an instruction leave the strand as it was. -/
theorem ended_withFlags {a : Strand} {g : BitVec 5} (h : a.flags = g) (f : BitVec 5) (now len : Nat) (nf : Bool) :
    ((a.withFlags f).ended now len nf).withFlags g = a.ended now len nf := by
  subst h; rfl

/-- What an instruction leaves that completes with flags set and one x register written. -/
theorem computesF_complete {s : State} {c : CoreId} {k : StrandId} {u : Uses} {srcs : List XReg} (d : XReg) (v : Word) (f : BitVec 5)
    (hn : u.readsNf = decide (63#6 ∈ srcs)) :
    ((((s.took.orFlags c k f).writeX c k d v).complete c k u 4).strand c k).flags = (s.strand c k).flags ||| f ∧
    Wrote s ((((s.took.orFlags c k f).writeX c k d v).complete c k u 4).updStrand c k fun b => b.withFlags (s.strand c k).flags)
      c k srcs d v ((s.strand c k).pc + 4#48) (s.strand c k).buf := by
  have now : ((s.took.orFlags c k f).writeX c k d v).now = (s.took.writeX c k d v).now :=
    ((elsewhere_writeX (s.took.orFlags c k f) c k d v).now.trans (elsewhere_orFlags s.took c k f).now).trans (elsewhere_writeX s.took c k d v).now.symm
  have cycle : ((s.took.orFlags c k f).writeX c k d v).cycle = (s.took.writeX c k d v).cycle := congrArg (· / 2) now
  have frame := elsewhere_trans (elsewhere_trans (elsewhere_trans (elsewhere_trans (elsewhere_took s c) (elsewhere_orFlags s.took c k f))
    (elsewhere_writeX _ c k d v)) (elsewhere_complete _ c k u 4)) (elsewhere_updStrand _ c k fun b => b.withFlags (s.strand c k).flags)
  refine ⟨?_, (wrote_complete d v 4 hn).of_strands (elsewhere_mono frame fun n hn => ?_) fun e n => ?_⟩
  · rw [State.complete_eq, State.strand_updStrand_same, strand_orFlags_writeX, if_pos (And.intro rfl rfl)]
    rfl
  · simp only [List.nil_append, List.mem_append, List.mem_singleton] at hn
    rcases hn with ((rfl | hn) | rfl) | rfl
    · exact mem_touched _ d
    · exact hn
    · exact mem_touched _ d
    · exact mem_touched _ d
  · rw [State.complete_eq, State.complete_eq, cycle, State.strand_updStrand, State.strand_updStrand_same, State.strand_updStrand,
      State.strand_updStrand, strand_orFlags_writeX _ c k f d v c k, strand_orFlags_writeX, if_pos (And.intro rfl rfl)]
    split
    · exact ended_withFlags (flags_writeX s.took c k d v c k) _ _ _ _
    · rfl

/-- An instruction whose body sets flags and writes one register, both from the strand that issues it. -/
theorem computesF_of {i : Instr} {srcs : List XReg} {d : XReg} {v : Strand → Word × BitVec 5} {u : Uses} (hu : UsesAre u srcs [d])
    (he : ∀ s, exec i s = Machine.issue 4 u (fun c k s =>
      .done ((s.orFlags c k (v (s.strand c k)).2).writeX c k d (v (s.strand c k)).1)) s) : ComputesF i srcs d v := by
  intro s c k h
  exact ⟨_, (he s).trans (h.issue hu 4 _), computesF_complete d _ _ hu.nf⟩

/-- An instruction whose body produces one register from the strand that issues it. -/
theorem produces_of {i : Instr} {srcs : List XReg} {d : XReg} {cycles : Nat} {v : Strand → Word × BitVec 5} {u : Uses} (hu : UsesAre u srcs [d])
    (he : ∀ s, exec i s = Machine.issue 4 u (fun c k s =>
      .done (s.produce c k d (v (s.strand c k)).1 (v (s.strand c k)).2 cycles)) s) : Produces i srcs d cycles v := by
  intro s c k h hd
  exact ⟨_, (he s).trans (h.issue hu 4 _), resultLater_produce _ _ cycles hu.nf hd⟩

/-- Two sources, and a destination that is a third. -/
theorem usesAre_rrd (w u : Bool) (b a d : XReg) :
    UsesAre { names := [a, b, d], srcs := [sx a u, sx b w, s0 (.x d)], dsts := [d] } [a, b, d] [d] where
  names r hr := .inl hr
  srcs x hx := by
    simp only [sx, s0, List.mem_cons, List.not_mem_nil, or_false] at hx
    rcases hx with rfl | rfl | rfl
    · exact ⟨a, by simp, rfl⟩
    · exact ⟨b, by simp, rfl⟩
    · exact ⟨d, by simp, rfl⟩
  dsts := rfl
  dregs := rfl
  accs := rfl
  nf := by
    simp only [Uses.readsNf, sx, s0, List.any_cons, List.any_nil, Bool.or_false, List.mem_cons, List.not_mem_nil, or_false, Bool.decide_or]
    simp only [beq_eq_decide, RegRef.x.injEq, eq_comm (a := 63#6)]

theorem floatResults : FloatResults := by
  intro w u b a d
  refine ⟨?_, ?_, ?_, ?_, ?_, ?_, ?_, ?_⟩
  · exact computesF_of (usesAre_rr w u b a d) fun _ => rfl
  · exact computesF_of (usesAre_rr w u b a d) fun _ => rfl
  · exact computesF_of (usesAre_rr w u b a d) fun _ => rfl
  · exact computesF_of (usesAre_rrd w u b a d) fun _ => rfl
  · exact computesF_of (usesAre_r u a d) fun _ => rfl
  · exact computesF_of (usesAre_r u a d) fun _ => rfl
  · exact produces_of (usesAre_rr w u b a d) fun _ => rfl
  · exact produces_of (usesAre_r u a d) fun _ => rfl

end Sys2Proof

/-! ## FP32 patterns and their values (spec/02_formats.md R32, R42, spec/08_isa_scalar.md R147, R151) -/

namespace Sys2Proof

open Machine

/-- The value of the magnitude bits of an FP32 pattern in units of 2^−149, the least subnormal; infinity counts as the next binade. -/
def magnitude32 (m : Nat) : Nat := if m < 2 ^ 23 then m else (2 ^ 23 + m % 2 ^ 23) * 2 ^ (m / 2 ^ 23 - 1)

/-- Greater magnitude bits have greater values. -/
theorem magnitude32_strictMono : StrictMono magnitude32 := by
  refine strictMono_nat_of_lt_succ fun m => ?_
  unfold magnitude32
  by_cases sub : m + 1 < 2 ^ 23
  · rw [if_pos sub, if_pos (by omega)]
    omega
  · rw [if_neg sub]
    by_cases low : m < 2 ^ 23
    · rw [if_pos low, show m + 1 = 2 ^ 23 by omega]
      omega
    · rw [if_neg low]
      by_cases carry : m % 2 ^ 23 = 2 ^ 23 - 1
      · rw [show (m + 1) % 2 ^ 23 = 0 by omega, show (m + 1) / 2 ^ 23 - 1 = (m / 2 ^ 23 - 1) + 1 by omega, carry,
          pow_succ 2 (m / 2 ^ 23 - 1)]
        have pos := Nat.two_pow_pos (m / 2 ^ 23 - 1)
        generalize 2 ^ (m / 2 ^ 23 - 1) = p at pos ⊢
        omega
      · rw [show (m + 1) % 2 ^ 23 = m % 2 ^ 23 + 1 by omega, show (m + 1) / 2 ^ 23 = m / 2 ^ 23 by omega]
        exact Nat.mul_lt_mul_of_pos_right (by omega) (Nat.two_pow_pos _)

/-- A magnitude with the sign bit of a pattern. -/
def signed (neg : Bool) (m : Nat) : Int := if neg then -(m : Int) else m

theorem order32_eq (x : BitVec 32) : order32 x = signed (x.getLsbD 31) (x.toNat % 2 ^ 31) := rfl

/-- A strictly monotone function that keeps 0 keeps the order of signed magnitudes. -/
theorem signed_lt_iff {f : Nat → Nat} (hf : StrictMono f) (h0 : f 0 = 0) (p q : Bool) (m n : Nat) :
    signed p (f m) < signed q (f n) ↔ signed p m < signed q n := by
  have hm : m = 0 ∨ 0 < m := Nat.eq_zero_or_pos m
  have hn : n = 0 ∨ 0 < n := Nat.eq_zero_or_pos n
  have fm : 0 < m → 0 < f m := fun h => h0 ▸ hf h
  have fn : 0 < n → 0 < f n := fun h => h0 ▸ hf h
  have lt : f m < f n ↔ m < n := hf.lt_iff_lt
  have gt : f n < f m ↔ n < m := hf.lt_iff_lt
  have zm : m = 0 → f m = 0 := fun h => h ▸ h0
  have zn : n = 0 → f n = 0 := fun h => h ▸ h0
  cases p <;> cases q <;> simp only [signed, if_true, if_false, Bool.false_eq_true] <;> omega

/-- The comparison of two numbers as `fvCmp` gives it. -/
def compareInt (x y : Int) : Int := if x < y then -1 else if x = y then 0 else 1

/-- A finite value in units of 2^−149. -/
theorem fvCmp_fin {n1 n2 : Bool} {m1 m2 : Nat} {e1 e2 : Int} (h1 : -149 ≤ e1) (h2 : -149 ≤ e2) :
    fvCmp (.fin n1 m1 e1) (.fin n2 m2 e2) =
      compareInt (signed n1 (m1 * 2 ^ (e1 + 149).toNat)) (signed n2 (m2 * 2 ^ (e2 + 149).toNat)) := by
  have scale : ∀ (m : Nat) (e e0 : Int), -149 ≤ e0 → e0 ≤ e → m * 2 ^ (e + 149).toNat = (m * 2 ^ (e - e0).toNat) * 2 ^ (e0 + 149).toNat := by
    intro m e e0 h h'
    rw [Nat.mul_assoc, ← Nat.pow_add]
    congr 2
    omega
  have e0 : -149 ≤ min e1 e2 := le_min h1 h2
  rw [scale m1 e1 _ e0 (min_le_left _ _), scale m2 e2 _ e0 (min_le_right _ _)]
  have mono : StrictMono fun n : Nat => n * 2 ^ (min e1 e2 + 149).toNat := fun a b h => Nat.mul_lt_mul_of_pos_right h (Nat.two_pow_pos _)
  have lt := signed_lt_iff mono (Nat.zero_mul _) n1 n2 (m1 * 2 ^ (e1 - min e1 e2).toNat) (m2 * 2 ^ (e2 - min e1 e2).toNat)
  have gt := signed_lt_iff mono (Nat.zero_mul _) n2 n1 (m2 * 2 ^ (e2 - min e1 e2).toNat) (m1 * 2 ^ (e1 - min e1 e2).toNat)
  have eq : ∀ x y : Int, x = y ↔ ¬x < y ∧ ¬y < x := fun x y => by omega
  unfold compareInt
  simp only [eq, lt, gt]
  simp only [← eq]
  rfl


/-- An FP32 pattern as a value: no NaN is infinite from the magnitude 0x7F800000 on, else a number of units of 2^−149. -/
theorem fp32_cases (x : BitVec 32) :
    (isNaN32 x = true ∧ decodeFmt 8 x.toNat = .nan (isSignaling32 x)) ∨
    (isNaN32 x = false ∧ x.toNat % 2 ^ 31 = 0x7F800000 ∧ decodeFmt 8 x.toNat = .inf (x.getLsbD 31)) ∨
    (isNaN32 x = false ∧ x.toNat % 2 ^ 31 < 0x7F800000 ∧ ∃ m e, decodeFmt 8 x.toNat = .fin (x.getLsbD 31) m e ∧ -149 ≤ e ∧
      m * 2 ^ (e + 149).toNat = magnitude32 (x.toNat % 2 ^ 31)) := by
  have bits := x.isLt
  have sign : (x.toNat / 2 ^ (23 + 8) % 2 == 1) = x.getLsbD 31 := by
    rw [BitVec.getLsbD, Nat.testBit_eq_decide_div_mod_eq]
    rfl
  have quiet : x.getLsbD 22 = decide (¬ x.toNat % 2 ^ 23 < 2 ^ (23 - 1)) := by
    rw [BitVec.getLsbD, Nat.testBit_eq_decide_div_mod_eq, decide_eq_decide]
    omega
  unfold decodeFmt decodeIeee isSignaling32 isNaN32
  simp only [sign, quiet]
  by_cases top : x.toNat / 2 ^ 23 % 2 ^ 8 = 2 ^ 8 - 1
  · rw [if_pos top]
    by_cases zero : x.toNat % 2 ^ 23 = 0
    · rw [if_pos zero, decide_eq_false (by omega)]
      exact .inr (.inl ⟨rfl, by omega, rfl⟩)
    · rw [if_neg zero, decide_eq_true (by omega)]
      exact .inl ⟨rfl, by rw [Bool.true_and, decide_not, Bool.not_not]⟩
  · rw [if_neg top, decide_eq_false (by omega)]
    refine .inr (.inr ⟨rfl, by omega, ?_⟩)
    unfold magnitude32
    by_cases sub : x.toNat / 2 ^ 23 % 2 ^ 8 = 0
    · rw [if_pos sub, if_pos (by omega)]
      refine ⟨_, _, rfl, by decide, ?_⟩
      show x.toNat % 2 ^ 23 * 2 ^ 0 = _
      omega
    · rw [if_neg sub, if_neg (by omega)]
      refine ⟨_, _, rfl, by omega, ?_⟩
      congr 1
      · omega
      · congr 1; omega

/-- Two patterns that are no NaN compare as their signed magnitudes (R147). -/
theorem fvCmp_fp32 {x y : BitVec 32} (hx : isNaN32 x = false) (hy : isNaN32 y = false) :
    fvCmp (decodeFmt 8 x.toNat) (decodeFmt 8 y.toNat) = compareInt (order32 x) (order32 y) := by
  rw [order32_eq, order32_eq]
  rcases fp32_cases x with ⟨nan, -⟩ | ⟨-, mx, dx⟩ | ⟨-, mx, m, e, dx, he, vx⟩
  · simp [nan] at hx
  · rcases fp32_cases y with ⟨nan, -⟩ | ⟨-, my, dy⟩ | ⟨-, my, n, g, dy, -, -⟩
    · simp [nan] at hy
    · rw [dx, dy, mx, my]
      cases x.getLsbD 31 <;> cases y.getLsbD 31 <;> decide
    · rw [dx, dy, mx]
      generalize y.toNat % 2 ^ 31 = v at my
      cases x.getLsbD 31 <;> cases y.getLsbD 31 <;> simp [fvCmp, compareInt, signed] <;> omega
  · rcases fp32_cases y with ⟨nan, -⟩ | ⟨-, my, dy⟩ | ⟨-, my, n, g, dy, hg, vy⟩
    · simp [nan] at hy
    · rw [dx, dy, my]
      generalize x.toNat % 2 ^ 31 = v at mx
      cases x.getLsbD 31 <;> cases y.getLsbD 31 <;> simp [fvCmp, compareInt, signed] <;> omega
    · rw [dx, dy, fvCmp_fin he hg, vx, vy]
      have lt := fun p q m n => signed_lt_iff magnitude32_strictMono rfl p q m n
      have eq : ∀ u v : Int, u = v ↔ ¬u < v ∧ ¬v < u := fun u v => by omega
      unfold compareInt
      simp only [eq, lt]

theorem neg_fp32 {x : BitVec 32} (hx : isNaN32 x = false) : (decodeFmt 8 x.toNat).neg' = x.getLsbD 31 := by
  rcases fp32_cases x with ⟨nan, -⟩ | ⟨-, -, dx⟩ | ⟨-, -, m, e, dx, -, -⟩
  · simp [nan] at hx
  · rw [dx]; rfl
  · rw [dx]; rfl

theorem isNan_fp32 (x : BitVec 32) : (decodeFmt 8 x.toNat).isNan = isNaN32 x := by
  rcases fp32_cases x with ⟨nan, dx⟩ | ⟨fine, -, dx⟩ | ⟨fine, -, m, e, dx, -, -⟩
  · rw [dx, nan]; rfl
  · rw [dx, fine]; rfl
  · rw [dx, fine]; rfl

theorem isSig_fp32 (x : BitVec 32) : (decodeFmt 8 x.toNat).isSig = isSignaling32 x := by
  rcases fp32_cases x with ⟨-, dx⟩ | ⟨fine, -, dx⟩ | ⟨fine, -, m, e, dx, -, -⟩
  · rw [dx]; rfl
  · rw [dx, isSignaling32, fine]; rfl
  · rw [dx, isSignaling32, fine]; rfl

/-- −0 lies below +0, and otherwise the numbers decide (R151). -/
theorem fvLess_fp32 {x y : BitVec 32} (hx : isNaN32 x = false) (hy : isNaN32 y = false) :
    fvLess (decodeFmt 8 x.toNat) (decodeFmt 8 y.toNat) = below32 x y := by
  unfold fvLess below32
  rw [fvCmp_fp32 hx hy, neg_fp32 hx, neg_fp32 hy]
  have lt : compareInt (order32 x) (order32 y) < 0 ↔ order32 x < order32 y := by
    unfold compareInt; split <;> [simp_all; (split <;> simp_all)]
  have eq : compareInt (order32 x) (order32 y) = 0 ↔ order32 x = order32 y := by
    unfold compareInt; split <;> [(simp; omega); (split <;> simp_all)]
  simp only [lt, eq, Bool.and_assoc]

/-- FMIN and FMAX pick the pattern that the statements name, with NV for a signaling NaN. -/
theorem fvMinMax_fp32 (greater : Bool) (x y : BitVec 32) : fvMinMax greater 8 x.toNat y.toNat =
    ((minMax32 greater x y).toNat, if isSignaling32 x || isSignaling32 y then 16#5 else 0#5) := by
  have flags : sigFlag [decodeFmt 8 x.toNat, decodeFmt 8 y.toNat] = if isSignaling32 x || isSignaling32 y then 16#5 else 0#5 := by
    unfold sigFlag flagIf
    rw [List.any_cons, List.any_cons, List.any_nil, Bool.or_false, isSig_fp32, isSig_fp32]
    rfl
  unfold fvMinMax minMax32
  simp only [flags, isNan_fp32]
  cases hx : isNaN32 x
  · cases hy : isNaN32 y
    · simp only [fvLess_fp32 hx hy, fvLess_fp32 hy hx]
      cases greater
      · cases below32 y x <;> rfl
      · cases below32 x y <;> rfl
    · rfl
  · cases hy : isNaN32 y
    · rfl
    · rfl

/-- The FP32 pattern of a register. -/
theorem low32 (w : Word) : w.toNat % 2 ^ 32 = (w.extractLsb' 0 32).toNat := by
  rw [BitVec.extractLsb'_toNat, Nat.shiftRight_zero]

/-- FMIN and FMAX as they issue compute the pick of the patterns. -/
theorem opMinMax_computesF {i : Instr} {greater w u : Bool} {b a d : XReg} (he : ∀ s, exec i s = opMinMax greater w u b a d s) :
    ComputesF i [a, b] d (fun t =>
      ((minMax32 greater ((t.rx a).extractLsb' 0 32) ((t.rx b).extractLsb' 0 32)).setWidth 64,
        if isSignaling32 ((t.rx a).extractLsb' 0 32) || isSignaling32 ((t.rx b).extractLsb' 0 32) then 16#5 else 0#5)) := by
  refine computesF_of (usesAre_rr w u b a d) fun s => (he s).trans ?_
  unfold opMinMax
  congr 1
  funext c k s
  simp only [low32, fvMinMax_fp32, BitVec.ofNat_toNat]

theorem floatMinMax : FloatMinMax := fun _ _ _ _ _ => ⟨opMinMax_computesF fun _ => rfl, opMinMax_computesF fun _ => rfl⟩

/-- Settles O5: the arithmetic and the conversions by the rule of instructions that set flags, FMIN and FMAX by the order of the patterns. -/
theorem floatArithmetic : Obligations.FloatArithmetic := ⟨floatResults, floatMinMax⟩

end Sys2Proof

/-! ## Blocks of bytes (spec/02_formats.md R5) -/

namespace Sys2Proof.Machine

/-- Blocks of one length, one after another: block e stands at e times that length. -/
theorem drop_take_flatMap_range {α : Type} {f : Nat → List α} {w : Nat} (hf : ∀ i, (f i).length = w) (n : Nat) :
    ((List.range n).flatMap f).length = n * w ∧ ∀ e < n, (((List.range n).flatMap f).drop (e * w)).take w = f e := by
  induction n with
  | zero => simp
  | succ n ih =>
    obtain ⟨len, block⟩ := ih
    rw [List.range_succ, List.flatMap_append, List.flatMap_singleton]
    refine ⟨by rw [List.length_append, len, hf, Nat.succ_mul], fun e he => ?_⟩
    rcases Nat.lt_succ_iff_lt_or_eq.1 he with he | rfl
    · have fits : e * w + w ≤ n * w := by rw [← Nat.succ_mul]; exact Nat.mul_le_mul_right w he
      rw [List.drop_append_of_le_length (by omega), List.take_append_of_le_length (by rw [List.length_drop]; omega), block e he]
    · rw [← len, List.drop_left, List.take_of_length_le (hf e).le]

@[simp] theorem length_toBytes (n v : Nat) : (toBytes n v).length = n := by rw [toBytes_eq_leBytes, length_leBytes]

theorem leNat_toBytes (n v : Nat) : leNat (toBytes n v) = v % 256 ^ n := by
  induction n generalizing v with
  | zero => simp [toBytes, leNat, Nat.mod_one]
  | succ n ih => rw [toBytes, leNat, ih, BitVec.toNat_ofNat, pow_succ' 256 n, Nat.mod_mul]

theorem leNat_lt (bs : List Byte) : leNat bs < 256 ^ bs.length := by
  induction bs with
  | nil => simp [leNat]
  | cons b r ih =>
    have := b.isLt
    rw [leNat, List.length_cons, Nat.pow_succ]
    omega

/-- A byte of a little-endian number. -/
theorem leNat_div (bs : List Byte) {k : Nat} (h : k < bs.length) : leNat bs / 256 ^ k % 256 = bs[k].toNat := by
  induction bs generalizing k with
  | nil => simp at h
  | cons b r ih =>
    have small := b.isLt
    cases k with
    | zero =>
      simp only [leNat, Nat.pow_zero, Nat.div_one, List.getElem_cons_zero]
      omega
    | succ k =>
      rw [leNat, Nat.pow_succ, Nat.mul_comm (256 ^ k), ← Nat.div_div_eq_div_mul, show (b.toNat + 256 * leNat r) / 256 = leNat r by omega,
        ih (by simpa using h), List.getElem_cons_succ]

/-- A byte of a little-endian value that bytes fill. -/
theorem extractLsb'_leBits {bs : List Byte} {n k : Nat} (h : bs.length = n) (hk : k < bs.length) :
    (leBits (8 * n) bs).extractLsb' (8 * k) 8 = bs[k] := by
  have small : leNat bs < 2 ^ (8 * n) := (leNat_lt bs).trans_eq (h ▸ (Nat.pow_mul 2 8 _).symm)
  apply BitVec.eq_of_toNat_eq
  rw [BitVec.extractLsb'_toNat, leBits, BitVec.toNat_ofNat, Nat.mod_eq_of_lt small, Nat.shiftRight_eq_div_pow, Nat.pow_mul]
  exact leNat_div bs hk

/-- Bytes of a line that bytes fill. -/
theorem lineSlice_leBits {bs : List Byte} (h : bs.length = 128) {off n : Nat} (fits : off + n ≤ 128) :
    lineSlice (leBits 1024 bs) off n = (bs.drop off).take n := by
  refine List.ext_getElem (by simp [lineSlice]; omega) fun k hk _ => ?_
  have hk : k < n := by simpa [lineSlice] using hk
  simp only [lineSlice, List.getElem_map, List.getElem_range, List.getElem_take, List.getElem_drop]
  exact extractLsb'_leBits h (by omega)

/-! ### In memory -/

@[simp] theorem Memory.length_read (m : List Host.Cell) (a n : Nat) : (Memory.read m a n).length = n := by simp [Memory.read]

theorem Memory.drop_take_read (m : List Host.Cell) (a : Nat) {i w n : Nat} (h : i + w ≤ n) :
    ((Memory.read m a n).drop i).take w = Memory.read m (a + i) w := by
  refine List.ext_getElem (by simp; omega) fun k _ _ => ?_
  simp [Memory.read, Nat.add_assoc]

theorem Memory.write_append (m : List Host.Cell) (a : Nat) (xs ys : List Byte) :
    Memory.write m a (xs ++ ys) = Memory.write (Memory.write m a xs) (a + xs.length) ys := by
  induction xs generalizing m a with
  | nil => rfl
  | cons x r ih => rw [List.cons_append, Memory.write, ih, List.length_cons, Memory.write, Nat.add_assoc, Nat.add_comm 1]

/-- The bytes written are those read. -/
theorem Memory.read_write (m : List Host.Cell) (a : Nat) (bs : List Byte) : Memory.read (Memory.write m a bs) a bs.length = bs := by
  refine List.ext_getElem (by simp) fun k _ hk => ?_
  simp only [Memory.read, List.getElem_map, List.getElem_range]
  exact Memory.get_write_inside bs k hk

theorem Memory.read_write_outside {m : List Host.Cell} {a b n : Nat} (bs : List Byte) (h : b + n ≤ a ∨ a + bs.length ≤ b) :
    Memory.read (Memory.write m a bs) b n = Memory.read m b n :=
  List.map_congr_left fun k hk => Memory.get_write_outside bs (by have := List.mem_range.1 hk; omega)

/-- Values of w bytes replaced one after another, each by a function of its old value, are replaced in one write. -/
theorem Memory.foldl_write (m : List Host.Cell) (a w : Nat) (g : Nat → Nat → Nat) (n : Nat) :
    (List.range n).foldl (fun mem e => Memory.write mem (a + e * w) (toBytes w (g e (leNat (Memory.read mem (a + e * w) w))))) m =
      Memory.write m a ((List.range n).flatMap fun e => toBytes w (g e (leNat (Memory.read m (a + e * w) w)))) := by
  induction n with
  | zero => rfl
  | succ n ih =>
    have len := (drop_take_flatMap_range (f := fun e => toBytes w (g e (leNat (Memory.read m (a + e * w) w)))) (fun _ => length_toBytes _ _) n).1
    rw [List.range_succ, List.foldl_append, List.foldl_cons, List.foldl_nil, ih, List.flatMap_append, List.flatMap_singleton,
      Memory.write_append, len, Memory.read_write_outside _ (by omega)]

end Sys2Proof.Machine

/-! ## What changes around the matrix unit of a core (spec/12_tiles.md R263, R271) -/

namespace Sys2Proof.Machine

/-- The command that runs on a core and its accumulators are as they were, and no step has left the agenda. -/
structure UnitKept (s t : State) (c : CoreId) : Prop where
  agenda : ∀ e ∈ s.agenda, e ∈ t.agenda
  mrun : (t.core c).mrun = (s.core c).mrun
  acc : ∀ a, (t.core c).accAt a = (s.core c).accAt a

theorem UnitKept.refl (s : State) (c : CoreId) : UnitKept s s c := ⟨fun _ h => h, rfl, fun _ => rfl⟩

theorem UnitKept.trans {s t u : State} {c : CoreId} (h : UnitKept s t c) (g : UnitKept t u c) : UnitKept s u c where
  agenda e he := g.agenda e (h.agenda e he)
  mrun := g.mrun.trans h.mrun
  acc a := (g.acc a).trans (h.acc a)

theorem UnitKept.push (s : State) (n : Nat) (i : Instr) (x : StepArg) (c : CoreId) : UnitKept s (s.push n i x) c :=
  ⟨fun _ h => State.mem_agenda_push.2 (.inr h), rfl, fun _ => rfl⟩

/-- A change of a core that leaves its matrix unit alone. -/
theorem UnitKept.updCore (s : State) (c d : CoreId) {f : Core → Core} (hf : ∀ v, (f v).mrun = v.mrun ∧ (f v).acc = v.acc) :
    UnitKept s (s.updCore d f) c := by
  refine ⟨fun _ h => h, ?_, fun a => ?_⟩
  · rw [State.core_updCore]
    split
    · rename_i h; exact h ▸ (hf _).1
    · rfl
  · rw [State.core_updCore]
    split
    · rename_i h; exact h ▸ congrArg (fun l => Tab.get ({} : Acc) l a.toNat) (hf (s.core c)).2
    · rfl

theorem UnitKept.updStrand (s : State) (c d : CoreId) (k : StrandId) (f : Strand → Strand) : UnitKept s (s.updStrand d k f) c :=
  UnitKept.updCore s c d (f := fun v => v.setStrand k (f (v.strand k))) fun _ => ⟨rfl, rfl⟩

theorem UnitKept.updSlot (s : State) (c d : CoreId) (n : Nat) (f : Slot → Slot) : UnitKept s (s.updSlot d n f) c :=
  UnitKept.updCore s c d fun _ => ⟨rfl, rfl⟩

theorem UnitKept.orFlags (s : State) (c d : CoreId) (k : StrandId) (f : BitVec 5) : UnitKept s (s.orFlags d k f) c := by
  unfold State.orFlags
  split
  · exact UnitKept.refl s c
  · exact UnitKept.updStrand s c d k _

theorem UnitKept.sendsFrom {s t : State} {c : CoreId} (h : SendsFrom s t c) : UnitKept s t c where
  agenda := h.agenda
  mrun := (congrArg Core.mrun h.core :)
  acc a := (congrArg (Core.accAt · a) h.core :)

/-- What waited for a number goes on: requests leave, and task messages depart. -/
theorem SendsFrom.settleId (s : State) (c : CoreId) (id : Nat) (by' : Option Nat) : SendsFrom s (s.settleId c id by') c := by
  unfold State.settleId
  refine (SendsFrom.trans ?_ ((foldl_keeps Sends.refl Sends.trans (fun s r => Sends.launchReq s _) _ _).from c)).trans
    ((foldl_keeps Sends.refl Sends.trans (fun s e => Sends.push s _ _ _) _ _).from c)
  exact SendsFrom.updCore s c (f := fun v => { v with reqs := v.reqs.map _, sendBuf := v.sendBuf.map _ }) fun _ => rfl

/-- What the rows of a copy or a TRED leave that have been performed: the unit as it was, and memory. -/
theorem UnitKept.rowsDone (s : State) (c : CoreId) (id : Nat) : UnitKept s (s.rowsDone c id) c ∧ (s.rowsDone c id).mem = s.mem := by
  have settled : UnitKept s (s.settleId c id none) c ∧ (s.settleId c id none).mem = s.mem :=
    ⟨UnitKept.sendsFrom (SendsFrom.settleId s c id none), (SendsFrom.settleId s c id none).mem⟩
  have copied : ∀ e : Copy, UnitKept s (s.setCopy c e) c := fun e => UnitKept.updCore s c c fun _ => ⟨rfl, rfl⟩
  have next : ∀ e : Copy, UnitKept s (s.nextTranspose c e) c ∧ (s.nextTranspose c e).mem = s.mem := by
    intro e
    unfold State.nextTranspose
    dsimp only
    split
    · exact ⟨((copied _).trans (UnitKept.updStrand _ c c _ _)).trans (UnitKept.push _ _ _ _ c), rfl⟩
    · exact ⟨((copied _).trans (UnitKept.updStrand _ c c _ _)).trans (UnitKept.push _ _ _ _ c), rfl⟩
  unfold State.rowsDone
  split
  · exact ⟨UnitKept.refl s c, rfl⟩
  · split
    · split
      · exact next _
      · split
        · exact ⟨UnitKept.push s _ _ _ c, rfl⟩
        · exact ⟨UnitKept.refl s c, rfl⟩
    · split
      · exact ⟨UnitKept.refl s c, rfl⟩
      · exact settled

/-! ### Slots -/

/-- The slots of a core are a matter of its tile table. -/
theorem slot_updCore_of_tiles {f : Core → Core} (hf : ∀ v, (f v).tiles = v.tiles) (s : State) (c d : CoreId) (n : Nat) :
    (s.updCore c f).slot d n = s.slot d n := by
  unfold State.slot
  rw [State.core_updCore]
  split
  · rename_i h; exact h ▸ congrArg (fun l => Tab.get ({} : Slot) l n) (hf (s.core d))
  · rfl

theorem slot_updStrand (s : State) (c d : CoreId) (k : StrandId) (f : Strand → Strand) (n : Nat) : (s.updStrand c k f).slot d n = s.slot d n :=
  slot_updCore_of_tiles (f := fun v => v.setStrand k (f (v.strand k))) (fun _ => rfl) s c d n

theorem slot_orFlags (s : State) (c d : CoreId) (k : StrandId) (f : BitVec 5) (n : Nat) : (s.orFlags c k f).slot d n = s.slot d n := by
  unfold State.orFlags
  split
  · rfl
  · exact slot_updStrand s c d k _ n

theorem slot_setAcc (s : State) (c d : CoreId) (a : BitVec 2) (f : Acc → Acc) (n : Nat) : (s.setAcc c a f).slot d n = s.slot d n :=
  slot_updCore_of_tiles (f := fun v => { v with acc := Tab.put v.acc a.toNat (f (v.accAt a)) }) (fun _ => rfl) s c d n

theorem slot_updSlot (s : State) (c : CoreId) (n m : Nat) (f : Slot → Slot) :
    (s.updSlot c n f).slot c m = if m = n then f (s.slot c n) else s.slot c m := by
  unfold State.slot State.updSlot
  rw [State.core_updCore_same]
  exact slot_setSlot _ _ _ _

/-- Slots of a list changed one after another, each once. -/
theorem slot_foldl_updSlot (c : CoreId) (f : Slot → Slot) (m : Nat) : ∀ (ns : List Nat), ns.Nodup → ∀ s : State,
    (ns.foldl (fun s n => s.updSlot c n f) s).slot c m = if m ∈ ns then f (s.slot c m) else s.slot c m := by
  intro ns
  induction ns with
  | nil => intro _ s; simp
  | cons n r ih =>
    intro nodup s
    obtain ⟨first, rest⟩ := List.nodup_cons.1 nodup
    rw [List.foldl_cons, ih rest, slot_updSlot]
    by_cases h : m = n
    · subst h; simp [first]
    · simp [h]

theorem UnitKept.foldl_updSlot (s : State) (c : CoreId) (f : Slot → Slot) (ns : List Nat) :
    UnitKept s (ns.foldl (fun s n => s.updSlot c n f) s) c :=
  foldl_keeps (R := fun s t => UnitKept s t c) (fun s => UnitKept.refl s c) UnitKept.trans (fun s n => UnitKept.updSlot s c c n f) ns s

theorem mem_foldl_updSlot (s : State) (c : CoreId) (f : Slot → Slot) (ns : List Nat) : (ns.foldl (fun s n => s.updSlot c n f) s).mem = s.mem :=
  foldl_keeps (R := fun s t => t.mem = s.mem) (fun _ => rfl) (fun h g => g.trans h) (fun s n => State.updSlot_mem s c n f) ns s

theorem nodup_reads (m : MCmd) : m.reads.Nodup := by
  unfold MCmd.reads
  split
  · split <;> simp_all
  · split <;> simp_all
  · simp
  · simp

/-! ### Accumulators -/

theorem accAt_setAcc (s : State) (c : CoreId) (a : BitVec 2) (f : Acc → Acc) : ((s.setAcc c a f).core c).accAt a = f ((s.core c).accAt a) := by
  unfold State.setAcc
  rw [State.core_updCore_same]
  exact Tab.get_put_same _ _ _ _

theorem mrun_setAcc (s : State) (c : CoreId) (a : BitVec 2) (f : Acc → Acc) : ((s.setAcc c a f).core c).mrun = (s.core c).mrun := by
  unfold State.setAcc
  rw [State.core_updCore_same]

end Sys2Proof.Machine

/-! ## MATRIX_COMMAND_COMPLETE (spec/12_tiles.md R271 to R273, spec/02_formats.md R46) -/

namespace Sys2Proof.Machine

/-- The command that ran on a core has ended, and the start of the next is due. -/
def State.unitFreed (s : State) (c : CoreId) : State := (s.updCore c fun v => { v with mrun := none }).soon .matrixCommandStart { c := c }

@[simp] theorem slot_unitFreed (s : State) (c : CoreId) (n : Nat) : (s.unitFreed c).slot c n = s.slot c n :=
  slot_updCore_of_tiles (f := fun v => { v with mrun := none }) (fun _ => rfl) s c c n

theorem core_unitFreed (s : State) (c : CoreId) : (s.unitFreed c).core c = { s.core c with mrun := none } :=
  State.core_updCore_same s c fun v => { v with mrun := none }

@[simp] theorem slotBytes_unitFreed (s : State) (c : CoreId) (n : Nat) : (s.unitFreed c).slotBytes c n = s.slotBytes c n := rfl

@[simp] theorem tileOf_unitFreed (s : State) (c : CoreId) (n : Nat) : (s.unitFreed c).tileOf c n = s.tileOf c n := by
  unfold State.tileOf
  rw [slot_unitFreed]
  rfl

@[simp] theorem wbOf_unitFreed (s : State) (c : CoreId) (n : Nat) : ((s.unitFreed c).core c).wbOf n = (s.core c).wbOf n := by
  rw [core_unitFreed]
  rfl

@[simp] theorem bTile_unitFreed (s : State) (c : CoreId) (n : Nat) : (s.unitFreed c).bTile c n = s.bTile c n := by
  unfold State.bTile
  rw [wbOf_unitFreed, tileOf_unitFreed]

@[simp] theorem elemsBad_unitFreed (s : State) (c : CoreId) (n : Nat) (es : List (Nat × Nat)) : (s.unitFreed c).elemsBad c n es = s.elemsBad c n es := by
  unfold State.elemsBad
  rw [slot_unitFreed]
  rfl

@[simp] theorem badOperands_unitFreed (s : State) (c : CoreId) (m : MCmd) : (s.unitFreed c).badOperands c m = s.badOperands c m := by
  unfold State.badOperands
  simp only [slot_unitFreed, tileOf_unitFreed, wbOf_unitFreed, elemsBad_unitFreed]

/-- The accumulator of a command as it finds it (R283). -/
def State.claimed (s : State) (c : CoreId) (m : MCmd) : Acc := ((s.core c).accAt m.acc).claim m.job

/-- A command may not use what it reads: an operand that is poisoned or unreadable, or an accumulator that holds an error (R272, R386). -/
def State.spoiled (s : State) (c : CoreId) (m : MCmd) : Prop :=
  s.badOperands c m ≠ [] ∨ (m.reads ≠ [] ∧ (s.claimed c m).bad ≠ [] ∧ m.readsAcc = true)

/-- The barrel of the core has issued in this cycle, or need not (R46). -/
def State.barrelDone (s : State) (c : CoreId) : Prop := ∀ e ∈ s.agenda, e.1 ≤ s.now → e.2.1 = .barrelCycle → e.2.2.c ≠ c

theorem rows_eq_nil {m : MCmd} (h : ∀ va rows fmt, m.op ≠ .tred va rows fmt) : m.rows = [] := by
  unfold MCmd.rows
  split
  · rename_i e; exact absurd e (h _ _ _)
  · rfl

theorem tredHeld_of_rows {m : MCmd} (h : m.rows = []) (s : State) (c : CoreId) : s.tredHeld c m = false := by
  unfold State.tredHeld
  rw [h]
  rfl

/-- What a command does that finds nothing amiss. -/
def State.performMatrix (s : State) (c : CoreId) (m : MCmd) : State :=
  let u := s.unitFreed c
  let acc := s.claimed c m
  match m.op with
  | .tmul a b => u.endMatrix c m (mulAcc m (u.tileOf c a) (u.bTile c b) none acc).1 (mulAcc m (u.tileOf c a) (u.bTile c b) none acc).2
  | .tmuls a b ps =>
    u.endMatrix c m (mulAcc m (u.tileOf c a) (u.bTile c b) (some ps) acc).1 (mulAcc m (u.tileOf c a) (u.bTile c b) (some ps) acc).2
  | .tacc a => u.endMatrix c m (loadAcc m (u.tileOf c a) acc).1 (loadAcc m (u.tileOf c a) acc).2
  | .twb n ty h mode keep =>
    let r := twbBytes (acc.found m.job) m.job ty.toNat h keep mode m.sat (u.slotBytes c n)
    ((((u.putSlot c n 0 r.1).endFill c n (mkLayout ty.toNat 0 false false 0) [] false).setAcc c m.acc fun a =>
      (a.claim m.job).found m.job).orFlags c m.strand r.2)
  | .tred _ rows fmt =>
    ((rows.zipIdx.foldl (fun s x => s.tredRow c m (acc.found m.job) fmt x.2 x.1) u).setAcc c m.acc fun a => (a.claim m.job).found m.job).rowsDone c m.id

/-- The two ends of a command whose turn has come: its result, or NaN where what it reads is spoiled. -/
theorem finishMatrix_eq {s : State} {c : CoreId} {m : MCmd} (hrun : (s.core c).mrun = some m) (hturn : s.barrelDone c)
    (hheld : s.tredHeld c m = false) :
    (s.spoiled c m → s.finishMatrix c = (s.unitFreed c).poisonMatrix c m (s.badOperands c m)) ∧
    (¬s.spoiled c m → s.finishMatrix c = s.performMatrix c m) := by
  have turn : ¬(s.agenda.any fun e => decide (e.1 ≤ s.now) && e.2.1 == .barrelCycle && e.2.2.c == c) = true := by
    simp only [List.any_eq_true, Bool.and_eq_true, decide_eq_true_eq, beq_iff_eq, not_exists, not_and]
    exact fun e he h => hturn e he h.1 h.2
  have bad := badOperands_unitFreed s c m
  unfold State.finishMatrix
  rw [hrun]
  dsimp only
  rw [if_neg turn, hheld, if_neg Bool.false_ne_true]
  refine ⟨fun h => (if_pos ?_).trans (congrArg _ bad), fun h => (if_neg ?_).trans ?_⟩
  · exact bad.symm ▸ h
  · exact bad.symm ▸ h
  · unfold State.performMatrix
    cases m.op <;> rfl

end Sys2Proof.Machine

/-! ## What is spoiled (spec/12_tiles.md R272, spec/20_faults.md R386, spec/13_isa_tile.md R298, R300) -/

namespace Sys2Proof

open Machine

theorem fmtBits_cases (f : Nat) : fmtBits f = 4 ∨ fmtBits f = 8 ∨ fmtBits f = 16 ∨ fmtBits f = 32 := by
  unfold fmtBits
  split <;> simp

theorem pairK_eq (f : Nat) : pairK f = kOf f := by
  unfold pairK kOf
  rcases fmtBits_cases f with h | h | h | h <;> rw [h] <;> rfl

theorem bAt_eq (B : Tile) (k j : Nat) : bElem B k j = bAt B k j := by
  unfold bElem bAt matDims
  rw [pairK_eq]
  split <;> rfl

/-- A word of an element of the matrix that a slot holds is unreadable. -/
def elemUnreadable (s : State) (c : CoreId) (n i j : Nat) : Prop :=
  s.poisoned (localBase c + 2048 * n +
    elemPos (loFmt (s.slot c n).layout) (loZ (s.slot c n).layout) (matElem (s.slot c n).layout i j).1 (matElem (s.slot c n).layout i j).2 / 8) 1 = true ∧
    s.slotBad c n = true

theorem elemsBad_iff (s : State) (c : CoreId) (n : Nat) (es : List (Nat × Nat)) :
    s.elemsBad c n es = true ↔ ∃ e ∈ es, elemUnreadable s c n e.1 e.2 := by
  unfold State.elemsBad elemUnreadable
  simp only [Bool.and_eq_true, List.any_eq_true]
  constructor
  · rintro ⟨bad, e, he, h⟩
    exact ⟨e, he, h, bad⟩
  · rintro ⟨e, he, h, bad⟩
    exact ⟨bad, e, he, h⟩

theorem elemsBad_of_sound {s : State} {c : CoreId} {n : Nat} (h : s.slotBad c n = false) (es : List (Nat × Nat)) : s.elemsBad c n es = false := by
  unfold State.elemsBad
  rw [h, Bool.false_and]

theorem poison_tileOf {s : State} {c : CoreId} {n : Nat} : (s.tileOf c n).poison = false ↔ (s.slot c n).poison = false ∧ s.slotBad c n = false :=
  Bool.or_eq_false_iff

/-- The tile of a TACC, element by element. -/
theorem mem_accElems {l : BitVec 16} {i j : Nat} : (i, j) ∈ accElems l ↔
    i < 32 ∧ j < 32 ∧ i < (if loX l then tileCols (loFmt l) else 32) ∧ j < (if loX l then 32 else tileCols (loFmt l)) := by
  unfold accElems matDims
  cases loX l <;> simp <;> omega

theorem mem_elemsA {m : MCmd} {a b : Nat} (hop : m.op = .tmul a b) (A B : Tile) {i k : Nat} (hi : i < 32) (hk : k < kOf (loFmt A.layout)) :
    (i, k) ∈ (m.elems A B).1 := by
  simp only [MCmd.elems, MCmd.terms, hop, pairK_eq, List.mem_flatMap, List.mem_map, List.mem_range, Prod.mk.injEq, exists_eq_right_right]
  exact ⟨hi, hk⟩

section

variable {s : State} {c : CoreId} {m : MCmd} {a b : Nat}

/-- Two operands without POISON, and with all their words readable, spoil nothing. -/
theorem badOperands_pair (hop : m.op = .tmul a b ∨ ∃ ps, m.op = .tmuls a b ps) (ha : (s.tileOf c a).poison = false)
    (hb : (s.tileOf c b).poison = false) : s.badOperands c m = [] := by
  have reads : ∀ n ∈ m.reads, n = a ∨ n = b := by
    intro n hn
    rcases hop with hop | ⟨ps, hop⟩ <;> simp only [MCmd.reads, hop] at hn <;> split at hn <;> simp_all
  have clean : ∀ n ∈ m.reads, (s.slot c n).poison = false ∧ s.slotBad c n = false := by
    intro n hn
    rcases reads n hn with rfl | rfl
    · exact poison_tileOf.1 ha
    · exact poison_tileOf.1 hb
  have none : ∀ ea eb : List (Nat × Nat), (m.reads.filter fun n => (s.slot c n).poison || (n == a && s.elemsBad c a ea) ||
      (n == b && ((s.core c).wbOf b).isNone && s.elemsBad c b eb)) = [] := by
    intro ea eb
    rw [List.filter_eq_nil_iff]
    intro n hn
    rw [(clean n hn).1, elemsBad_of_sound (poison_tileOf.1 ha).2, elemsBad_of_sound (poison_tileOf.1 hb).2]
    simp
  unfold State.badOperands
  rcases hop with hop | ⟨ps, hop⟩
  · rw [hop]; exact none _ _
  · rw [hop]; exact none _ _

theorem mem_reads_tmul (hop : m.op = .tmul a b) (n : Nat) : n ∈ m.reads ↔ n = a ∨ n = b := by
  simp only [MCmd.reads, hop]
  split <;> simp_all

/-- Among the operands of a TMUL that spoil it are those with POISON, and A where an element of it is unreadable. -/
theorem mem_badOperands_tmul (hop : m.op = .tmul a b) {n : Nat} (hn : n = a ∨ n = b) (h : (s.slot c n).poison = true ∨
    n = a ∧ ∃ i k, i < 32 ∧ k < kOf (loFmt (s.slot c a).layout) ∧ elemUnreadable s c a i k) : n ∈ s.badOperands c m := by
  unfold State.badOperands
  rw [hop]
  refine List.mem_filter.2 ⟨(mem_reads_tmul hop n).2 hn, ?_⟩
  rcases h with h | ⟨rfl, i, k, hi, hk, h⟩
  · rw [h]; rfl
  · have bad := (elemsBad_iff s c n (m.elems (s.tileOf c n) (s.tileOf c b)).1).2 ⟨(i, k), mem_elemsA hop _ _ hi hk, h⟩
    exact Bool.or_eq_true_iff.2 (.inl (Bool.or_eq_true_iff.2 (.inr (Bool.and_eq_true_iff.2 ⟨beq_self_eq_true n, bad⟩))))

/-- The tile of a TACC spoils it where it is poisoned or one of its elements is unreadable. -/
theorem badOperands_tacc (hop : m.op = .tacc a) : s.badOperands c m =
    if (s.slot c a).poison || s.elemsBad c a (accElems (s.slot c a).layout) then [a] else [] := by
  unfold State.badOperands
  rw [hop]

theorem badOperands_other (hr : m.reads = []) : s.badOperands c m = [] := by
  unfold State.badOperands
  split
  · rw [hr]; rfl
  · rw [hr]; rfl
  · rename_i e; simp [MCmd.reads, e] at hr
  · rfl

theorem nodup_badOperands : (s.badOperands c m).Nodup := by
  unfold State.badOperands
  split
  · exact (nodup_reads m).filter _
  · exact (nodup_reads m).filter _
  · split <;> simp
  · simp

end

end Sys2Proof

/-! ## What a command leaves in its accumulator (spec/12_tiles.md R271, R283, spec/13_isa_tile.md R295 to R300, spec/02_formats.md R50 to R52) -/

namespace Sys2Proof

open Machine

/-! ### Elements -/

/-- One element of an accumulator with its flags. -/
def accStep (f : Nat → Nat → Lv) (n : Nat) (p : Tab (BitVec 32) × BitVec 5) : Tab (BitVec 32) × BitVec 5 :=
  ((n, BitVec.ofNat 32 (f (n / 32) (n % 32)).1) :: p.1, p.2 ||| (f (n / 32) (n % 32)).2)

theorem accFill_eq (f : Nat → Nat → Lv) : accFill f = (List.range 1024).foldr (accStep f) ([], 0) := rfl

theorem get_foldr_accStep (f : Nat → Nat → Lv) (p : Tab (BitVec 32) × BitVec 5) {l : List Nat} {n : Nat} (h : n ∈ l) :
    Tab.get 0#32 (l.foldr (accStep f) p).1 n = BitVec.ofNat 32 (f (n / 32) (n % 32)).1 := by
  induction l with
  | nil => simp at h
  | cons k r ih =>
    rw [List.foldr_cons, accStep, Tab.get]
    split
    · rename_i e; rw [e]
    · rename_i e; exact ih ((List.mem_cons.1 h).resolve_left (Ne.symm e))

/-- An accumulator holds in row i and column j what its function gives there. -/
theorem get_accFill (f : Nat → Nat → Lv) {i j : Nat} (hi : i < 32) (hj : j < 32) :
    Tab.get 0#32 (accFill f).1 (32 * i + j) = BitVec.ofNat 32 (f i j).1 := by
  rw [accFill_eq, get_foldr_accStep f _ (List.mem_range.2 (by omega)), show (32 * i + j) / 32 = i by omega, show (32 * i + j) % 32 = j by omega]

theorem get_nanAcc (j : JobId) {n : Nat} (h : n < 1024) : Tab.get 0#32 (nanAcc j).el n = 0x7FC00000#32 := by
  have every : ∀ l : List Nat, n ∈ l → Tab.get 0#32 (l.map fun n => (n, 0x7FC00000#32)) n = 0x7FC00000#32 := by
    intro l
    induction l with
    | nil => simp
    | cons k r ih =>
      intro h
      rw [List.map_cons, Tab.get]
      split
      · rfl
      · rename_i e; exact ih ((List.mem_cons.1 h).resolve_left (Ne.symm e))
  have inside := every (List.range 1024) (List.mem_range.2 h)
  simpa only [nanAcc] using inside

/-- Another job's elements count as +0 (R283). -/
theorem val_claim (x : Acc) (j : JobId) (n : Nat) : (x.claim j).val j n = accElem x j n := by
  unfold Acc.claim Acc.val accElem
  split
  · rfl
  · exact if_pos rfl

/-! ### Products -/

/-- The slices of a pair are one sum over the blocks present (R50, R51). -/
theorem pairFloat_eq (A B : Tile) (ps : List Nat) (c i j : Nat) :
    (pairFloat A B ps c i j).1 = pairSum A B (fun k => ps.contains k) c i j := by
  unfold pairFloat pairSum
  simp only [pairK_eq, bAt_eq]

/-- Sixteen steps of a program, the flags apart (R52). -/
theorem pairProg_eq (A B : Tile) (prog : Word) (c i j : Nat) : (pairProg A B prog c i j).1 = pairUnder prog A B c i j := by
  unfold pairProg pairUnder
  simp only [bAt_eq]
  exact (List.foldl_hom Prod.fst fun _ _ => rfl).symm

theorem contains_range16 : (fun k => (List.range 16).contains k) = fun k => decide (k < 16) := by
  funext k
  simp

/-- c[i][j] after a TMUL. -/
theorem pair_eq (m : MCmd) (A B : Tile) (c i j : Nat) :
    (if m.prog = 0 then pairFloat A B (List.range 16) c i j else pairProg A B m.prog c i j).1 =
      if m.prog = 0#64 then pairSum A B (fun k => decide (k < 16)) c i j else pairUnder m.prog A B c i j := by
  by_cases h : m.prog = 0#64
  · rw [if_pos (show m.prog = 0 from h), if_pos h, pairFloat_eq, contains_range16]
  · rw [if_neg (show ¬m.prog = 0 from h), if_neg h, pairProg_eq]

theorem mulAcc_all (m : MCmd) (A B : Tile) (x : Acc) : (mulAcc m A B none x).1 = { x with
    el := (accFill fun i j => if m.prog = 0 then pairFloat A B (List.range 16) (x.val m.job (32 * i + j)) i j
      else pairProg A B m.prog (x.val m.job (32 * i + j)) i j).1
    int := m.prog != 0 && loFmt A.layout == 3
    tag := m.job.toNat } := by
  unfold mulAcc
  dsimp only

theorem mulAcc_some (m : MCmd) (A B : Tile) {ps : List Nat} (h : ps ≠ []) (x : Acc) : (mulAcc m A B (some ps) x).1 = { x with
    el := (accFill fun i j => pairFloat A B ps (x.val m.job (32 * i + j)) i j).1, int := false, tag := m.job.toNat } := by
  cases ps with
  | nil => exact absurd rfl h
  | cons p r =>
    unfold mulAcc
    dsimp only

/-- Element (i, j) of the accumulator that a TACC loads (R300). -/
def loaded (A : Tile) (i j : Nat) : Nat :=
  if i < (if loX A.layout then tileCols (loFmt A.layout) else 32) ∧ j < (if loX A.layout then 32 else tileCols (loFmt A.layout)) then
    (if (loFmt A.layout == 0 || tyInt (loFmt A.layout)) then
      intBits 32 (if loFmt A.layout = 0 then (A.raw i j : Nat) else tyVal (loFmt A.layout) (A.raw i j)) else (roundIeee 8 23 0 (A.mat i j)).1)
  else 0

theorem loadAcc_fields (m : MCmd) (A : Tile) (x : Acc) : (loadAcc m A x).1.int = (loFmt A.layout == 0 || tyInt (loFmt A.layout)) ∧
    (loadAcc m A x).1.tag = m.job.toNat ∧
    ∀ i < 32, ∀ j < 32, Tab.get 0#32 (loadAcc m A x).1.el (32 * i + j) = BitVec.ofNat 32 (loaded A i j) := by
  unfold loadAcc
  dsimp only
  refine ⟨rfl, rfl, fun i hi j hj => ?_⟩
  rw [get_accFill _ hi hj]
  unfold loaded matDims
  cases loX A.layout <;> split_ifs <;> rfl

end Sys2Proof

/-! ### The ends of a command -/

namespace Sys2Proof

open Machine

/-- The unit of a core is idle, and the start of its next command is due. -/
def UnitFreed (s t : State) (c : CoreId) : Prop :=
  (t.core c).mrun = none ∧ (s.now, Instr.matrixCommandStart, ({ c := c } : StepArg)) ∈ t.agenda

theorem accAt_unitFreed (s : State) (c : CoreId) (a : BitVec 2) : ((s.unitFreed c).core c).accAt a = (s.core c).accAt a := by
  rw [core_unitFreed]
  rfl

/-- A command that ends leaves the unit idle, and its accumulator as the end sets it, whatever it does before and after that. -/
theorem freed_setAcc {s u t : State} {c : CoreId} {a : BitVec 2} {f : Acc → Acc} (before : UnitKept (s.unitFreed c) u c)
    (after : UnitKept (u.setAcc c a f) t c) : UnitFreed s t c ∧ (t.core c).accAt a = f ((s.core c).accAt a) := by
  refine ⟨⟨?_, after.agenda _ (before.agenda _ (State.mem_agenda_push.2 (.inl rfl)))⟩, ?_⟩
  · rw [after.mrun, mrun_setAcc, before.mrun, core_unitFreed]
  · rw [after.acc, accAt_setAcc, before.acc, accAt_unitFreed]

/-- The command of a core has ended with memory as it was, and its accumulator is full, of the type given and its job's, and holds the values given. -/
def AccWritten (s t : State) (c : CoreId) (m : MCmd) (int : Bool) (v : Nat → Nat → Nat) : Prop :=
  UnitFreed s t c ∧ t.mem = s.mem ∧ ((t.core c).accAt m.acc).full = true ∧ ((t.core c).accAt m.acc).int = int ∧
    ((t.core c).accAt m.acc).tag = m.job.toNat ∧ ∀ i < 32, ∀ j < 32, Tab.get 0#32 ((t.core c).accAt m.acc).el (32 * i + j) = BitVec.ofNat 32 (v i j)

theorem mem_orFlags (s : State) (c : CoreId) (k : StrandId) (f : BitVec 5) : (s.orFlags c k f).mem = s.mem := by
  unfold State.orFlags
  split <;> rfl

/-- The slots whose holds a command releases (R263, R271). -/
theorem slot_unhold (s : State) (c : CoreId) (m : MCmd) (n : Nat) :
    (s.unhold c m.reads).slot c n = { s.slot c n with rdc := (s.slot c n).rdc - if n ∈ m.reads then 1 else 0 } := by
  refine (slot_foldl_updSlot c (fun t => { t with rdc := t.rdc - 1 }) n m.reads (nodup_reads m) s).trans ?_
  split <;> rfl

section

variable {s : State} {c : CoreId} {m : MCmd} (hstep : m.step = false) (hmore : m.more = false)

include hstep

theorem endMatrix_eq (x : Acc) (fl : BitVec 5) : (s.unitFreed c).endMatrix c m x fl =
    (((s.unitFreed c).unhold c m.reads).setAcc c m.acc fun _ => { x with full := !m.more }).orFlags c m.strand fl := by
  unfold State.endMatrix
  dsimp only
  rw [hstep, if_neg Bool.false_ne_true]
  rfl

theorem slot_endMatrix (x : Acc) (fl : BitVec 5) (n : Nat) : ((s.unitFreed c).endMatrix c m x fl).slot c n =
    { s.slot c n with rdc := (s.slot c n).rdc - if n ∈ m.reads then 1 else 0 } := by
  rw [endMatrix_eq hstep, slot_orFlags, slot_setAcc, slot_unhold, slot_unitFreed]

theorem poisonMatrix_eq (ns : List Nat) : (s.unitFreed c).poisonMatrix c m ns =
    ((ns.foldl (fun s n => s.updSlot c n fun t => { t with poison := true }) (s.unitFreed c)).unhold c m.reads).setAcc c m.acc
      fun _ => { nanAcc m.job with full := !m.more } := by
  unfold State.poisonMatrix
  dsimp only
  rw [hstep, if_neg Bool.false_ne_true]

/-- The slots of a command that met R272: those it names carry POISON. -/
theorem slot_poisonMatrix {ns : List Nat} (hns : ns.Nodup) (n : Nat) : ((s.unitFreed c).poisonMatrix c m ns).slot c n =
    { s.slot c n with rdc := (s.slot c n).rdc - (if n ∈ m.reads then 1 else 0), poison := if n ∈ ns then true else (s.slot c n).poison } := by
  rw [poisonMatrix_eq hstep, slot_setAcc, slot_unhold, slot_foldl_updSlot c _ n ns hns, slot_unitFreed]
  split <;> rfl

include hmore

theorem accWritten_endMatrix {x : Acc} (fl : BitVec 5) {int : Bool} {v : Nat → Nat → Nat} (hint : x.int = int) (htag : x.tag = m.job.toNat)
    (hel : ∀ i < 32, ∀ j < 32, Tab.get 0#32 x.el (32 * i + j) = BitVec.ofNat 32 (v i j)) :
    AccWritten s ((s.unitFreed c).endMatrix c m x fl) c m int v := by
  rw [endMatrix_eq hstep]
  obtain ⟨freed, acc⟩ := freed_setAcc (s := s) (a := m.acc) (f := fun _ => { x with full := !m.more })
    (UnitKept.foldl_updSlot (s.unitFreed c) c (fun t => { t with rdc := t.rdc - 1 }) m.reads) (UnitKept.orFlags _ c c m.strand fl)
  refine ⟨freed, ?_, ?_⟩
  · rw [mem_orFlags]
    exact mem_foldl_updSlot (s.unitFreed c) c _ m.reads
  · unfold State.unhold
    rw [acc, hmore]
    exact ⟨rfl, hint, htag, hel⟩

theorem accWritten_poisonMatrix (ns : List Nat) :
    AccWritten s ((s.unitFreed c).poisonMatrix c m ns) c m false fun _ _ => 0x7FC00000 := by
  have marked := UnitKept.foldl_updSlot (s.unitFreed c) c (fun t => { t with poison := true }) ns
  have memory := mem_foldl_updSlot (s.unitFreed c) c (fun t => { t with poison := true }) ns
  rw [poisonMatrix_eq hstep]
  generalize ns.foldl (fun s n => s.updSlot c n fun t => { t with poison := true }) (s.unitFreed c) = u at marked memory ⊢
  obtain ⟨freed, acc⟩ := freed_setAcc (s := s) (a := m.acc) (f := fun _ => { nanAcc m.job with full := !m.more })
    (marked.trans (UnitKept.foldl_updSlot u c (fun t => { t with rdc := t.rdc - 1 }) m.reads)) (UnitKept.refl _ c)
  refine ⟨freed, (mem_foldl_updSlot u c _ m.reads).trans memory, ?_⟩
  unfold State.unhold
  rw [acc, hmore]
  refine ⟨rfl, rfl, rfl, fun i hi j hj => ?_⟩
  dsimp only
  exact get_nanAcc m.job (by omega)

end

end Sys2Proof

/-! ### TMUL, TMULS and TACC -/

namespace Sys2Proof

open Machine

/-- Every element of an accumulator of one value. -/
theorem AccWritten.every {s t : State} {c : CoreId} {m : MCmd} {int : Bool} {v : Nat} (h : AccWritten s t c m int fun _ _ => v) {n : Nat} (hn : n < 1024) :
    Tab.get 0#32 ((t.core c).accAt m.acc).el n = BitVec.ofNat 32 v := by
  obtain ⟨-, -, -, -, -, el⟩ := h
  have at_n := el (n / 32) (by omega) (n % 32) (by omega)
  rwa [Nat.div_add_mod] at at_n

section

variable {s : State} {c : CoreId} {m : MCmd} {a b : Nat}

/-- An accumulator is sound for a command where another job's, or its own without an error. -/
theorem bad_claimed : (s.claimed c m).bad = [] ↔ (((s.core c).accAt m.acc).tag = m.job.toNat → ((s.core c).accAt m.acc).bad = []) := by
  unfold State.claimed Acc.claim
  split
  · rename_i h; exact ⟨fun e _ => e, fun e => e h⟩
  · rename_i h; exact ⟨fun _ e => absurd e h, fun _ => rfl⟩

theorem not_spoiled {h : s.badOperands c m = []} (hs : (s.claimed c m).bad = [] ∨ m.readsAcc = false) : ¬s.spoiled c m := by
  rintro (bad | ⟨-, bad, reads⟩)
  · exact bad h
  · rcases hs with hs | hs
    · exact bad hs
    · exact absurd (hs.symm.trans reads) Bool.false_ne_true

theorem tmul_spoiled_iff (hop : m.op = .tmul a b) (ha : (s.tileOf c a).poison = false) (hb : (s.tileOf c b).poison = false) :
    s.spoiled c m ↔ (s.claimed c m).bad ≠ [] := by
  have none := badOperands_pair (.inl hop) ha hb
  have reads : m.reads ≠ [] := List.ne_nil_of_mem ((mem_reads_tmul hop a).2 (.inl rfl))
  have acc : m.readsAcc = true := by simp only [MCmd.readsAcc, hop]
  simp only [State.spoiled, none, acc, reads, ne_eq, not_true_eq_false, false_or, not_false_eq_true, true_and, and_true]

variable (hrun : (s.core c).mrun = some m) (hturn : s.barrelDone c) (hstep : m.step = false) (hmore : m.more = false)

include hrun hturn

theorem finish_of_rows_nil (hr : m.rows = []) : (s.spoiled c m → s.finishMatrix c = (s.unitFreed c).poisonMatrix c m (s.badOperands c m)) ∧
    (¬s.spoiled c m → s.finishMatrix c = s.performMatrix c m) :=
  finishMatrix_eq hrun hturn (tredHeld_of_rows hr s c)

include hstep hmore

/-- A command that may not use what it reads. -/
theorem spoiled_ends (hr : m.rows = []) (h : s.spoiled c m) : AccWritten s (s.finishMatrix c) c m false (fun _ _ => 0x7FC00000) ∧
    ∀ n, (s.finishMatrix c).slot c n = { s.slot c n with
      rdc := (s.slot c n).rdc - (if n ∈ m.reads then 1 else 0), poison := if n ∈ s.badOperands c m then true else (s.slot c n).poison } := by
  rw [(finish_of_rows_nil hrun hturn hr).1 h]
  exact ⟨accWritten_poisonMatrix hstep hmore _, slot_poisonMatrix hstep nodup_badOperands⟩

theorem tmul_ends (hop : m.op = .tmul a b) (ha : (s.tileOf c a).poison = false) (hb : (s.tileOf c b).poison = false)
    (hs : (s.claimed c m).bad = []) :
    AccWritten s (s.finishMatrix c) c m (m.prog != 0#64 && loFmt (s.tileOf c a).layout == 3) (fun i j =>
      if m.prog = 0#64 then
        pairSum (s.tileOf c a) (s.bTile c b) (fun k => decide (k < 16)) (accElem ((s.core c).accAt m.acc) m.job (32 * i + j)) i j
      else pairUnder m.prog (s.tileOf c a) (s.bTile c b) (accElem ((s.core c).accAt m.acc) m.job (32 * i + j)) i j) ∧
    ∀ n, ((s.finishMatrix c).slot c n).rdc = (s.slot c n).rdc - if n = a ∨ n = b then 1 else 0 := by
  have run : s.finishMatrix c = (s.unitFreed c).endMatrix c m (mulAcc m (s.tileOf c a) (s.bTile c b) none (s.claimed c m)).1
      (mulAcc m (s.tileOf c a) (s.bTile c b) none (s.claimed c m)).2 := by
    rw [(finish_of_rows_nil hrun hturn (rows_eq_nil (by simp [hop]))).2 (fun h => (tmul_spoiled_iff hop ha hb).1 h hs)]
    simp only [State.performMatrix, hop, tileOf_unitFreed, bTile_unitFreed]
  rw [run]
  refine ⟨accWritten_endMatrix hstep hmore _ ?_ ?_ fun i hi j hj => ?_, fun n => ?_⟩
  · rw [mulAcc_all]; rfl
  · rw [mulAcc_all]
  · rw [mulAcc_all]
    dsimp only
    rw [get_accFill _ hi hj, pair_eq, State.claimed, val_claim]
  · rw [slot_endMatrix hstep]
    simp only [mem_reads_tmul hop]

theorem tmuls_ends {ps : List Nat} (hop : m.op = .tmuls a b ps) (hps : ps ≠ []) (ha : (s.tileOf c a).poison = false)
    (hb : (s.tileOf c b).poison = false) (hs : (s.claimed c m).bad = []) :
    AccWritten s (s.finishMatrix c) c m false fun i j =>
      pairSum (s.tileOf c a) (s.bTile c b) (fun k => ps.contains k) (accElem ((s.core c).accAt m.acc) m.job (32 * i + j)) i j := by
  have run : s.finishMatrix c = (s.unitFreed c).endMatrix c m (mulAcc m (s.tileOf c a) (s.bTile c b) (some ps) (s.claimed c m)).1
      (mulAcc m (s.tileOf c a) (s.bTile c b) (some ps) (s.claimed c m)).2 := by
    rw [(finish_of_rows_nil hrun hturn (rows_eq_nil (by simp [hop]))).2 (not_spoiled (h := badOperands_pair (.inr ⟨ps, hop⟩) ha hb) (.inl hs))]
    simp only [State.performMatrix, hop, tileOf_unitFreed, bTile_unitFreed]
  rw [run]
  refine accWritten_endMatrix hstep hmore _ ?_ ?_ fun i hi j hj => ?_
  · rw [mulAcc_some m _ _ hps]
  · rw [mulAcc_some m _ _ hps]
  · rw [mulAcc_some m _ _ hps]
    dsimp only
    rw [get_accFill _ hi hj, pairFloat_eq, State.claimed, val_claim]

theorem tacc_ends (hop : m.op = .tacc a) (hp : (s.slot c a).poison = false) (hu : s.elemsBad c a (accElems (s.slot c a).layout) = false) :
    AccWritten s (s.finishMatrix c) c m (loFmt (s.tileOf c a).layout == 0 || tyInt (loFmt (s.tileOf c a).layout)) (loaded (s.tileOf c a)) := by
  have none : s.badOperands c m = [] := by
    rw [badOperands_tacc hop, hp, hu]
    rfl
  have acc : m.readsAcc = false := by simp only [MCmd.readsAcc, hop]
  have run : s.finishMatrix c = (s.unitFreed c).endMatrix c m (loadAcc m (s.tileOf c a) (s.claimed c m)).1
      (loadAcc m (s.tileOf c a) (s.claimed c m)).2 := by
    rw [(finish_of_rows_nil hrun hturn (rows_eq_nil (by simp [hop]))).2 (not_spoiled (h := none) (.inr acc))]
    simp only [State.performMatrix, hop, tileOf_unitFreed]
  rw [run]
  obtain ⟨int, tag, el⟩ := loadAcc_fields m (s.tileOf c a) (s.claimed c m)
  exact accWritten_endMatrix hstep hmore _ int tag el

end

end Sys2Proof

/-! ### TWB (spec/13_isa_tile.md R301) -/

namespace Sys2Proof

open Machine

theorem zipIdx_map_range {α : Type} (g : Nat → α) (n : Nat) : ((List.range n).map g).zipIdx = (List.range n).map fun q => (g q, q) :=
  List.ext_getElem (by simp) fun k _ _ => by simp

/-- The column of an accumulator that a TWB of half hn converts into column q of its tile. -/
def twbCol (f hn q : Nat) : Nat := if fmtBits f = 32 then 16 * hn + q else if fmtBits f = 8 then q % 32 else q

/-- What a TWB puts at element (r, q) of its tile; nothing, in the half that it does not write. -/
def twbValue (x : Acc) (j : JobId) (f hn mode : Nat) (sat : Bool) (r q : Nat) : Option Lv :=
  if fmtBits f = 8 ∧ q / 32 ≠ hn then none else some (accConvert x.int f mode sat (x.val j (32 * r + twbCol f hn q)))

/-- The bytes of element (r, q): a value's, or those kept of the old slot, or 0. -/
def twbPut (f : Nat) (keep : Bool) (old : List Byte) (r q : Nat) (v : Option Lv) : List Byte :=
  match v with
  | some v => toBytes (fmtBits f / 8) v.1
  | none => [if keep then old[64 * r + q]?.getD 0 else 0#8]

/-- The bytes that a TWB writes for element (r, q) of its tile. -/
def twbCell (x : Acc) (j : JobId) (f hn : Nat) (keep : Bool) (mode : Nat) (sat : Bool) (old : List Byte) (r q : Nat) : List Byte :=
  twbPut f keep old r q (twbValue x j f hn mode sat r q)

theorem length_twbCell (x : Acc) (j : JobId) (f hn : Nat) (keep : Bool) (mode : Nat) (sat : Bool) (old : List Byte) (r q : Nat) :
    (twbCell x j f hn keep mode sat old r q).length = fmtBits f / 8 := by
  unfold twbCell twbValue
  by_cases e : fmtBits f = 8 ∧ q / 32 ≠ hn
  · rw [if_pos e, e.1]; rfl
  · rw [if_neg e]; exact length_toBytes _ _

/-- The slot of a TWB row by row, and each row element by element. -/
theorem twbBytes_eq {f : Nat} (h4 : fmtBits f ≠ 4) (x : Acc) (j : JobId) (h keep : Bool) (mode : Nat) (sat : Bool) (old : List Byte) :
    (twbBytes x j f h keep mode sat old).1 =
      (List.range 32).flatMap fun r => (List.range (tileCols f)).flatMap (twbCell x j f (if h then 1 else 0) keep mode sat old r) := by
  have cells : ∀ r, ∀ es : List (Option Lv), es = (List.range (tileCols f)).map (twbValue x j f (if h then 1 else 0) mode sat r) →
      (es.zipIdx.flatMap fun e => twbPut f keep old r e.2 e.1) =
        (List.range (tileCols f)).flatMap (twbCell x j f (if h then 1 else 0) keep mode sat old r) := by
    rintro r es rfl
    rw [zipIdx_map_range, List.flatMap_map]
    rfl
  unfold twbBytes
  dsimp only
  rw [List.flatMap_map]
  congr 1
  funext r
  refine cells r _ ?_
  unfold tileCols
  generalize (if h then 1 else 0) = hn
  rcases fmtBits_cases f with e | e | e | e
  · exact absurd e h4
  · simp only [e]
    refine List.map_congr_left fun q _ => ?_
    unfold twbValue twbCol
    by_cases hq : q / 32 = hn <;> simp [e, hq]
  · simp only [e]
    refine List.map_congr_left fun q _ => ?_
    unfold twbValue twbCol
    simp [e]
  · simp only [e]
    refine List.map_congr_left fun q _ => ?_
    unfold twbValue twbCol
    simp [e]

/-! ### The elements of a slot that is written element by element -/

section

variable {f : Nat} (h4 : fmtBits f ≠ 4)

include h4

theorem rowBytes : tileCols f * (fmtBits f / 8) = 64 := by
  unfold tileCols
  rcases fmtBits_cases f with e | e | e | e
  · exact absurd e h4
  · rw [e]
  · rw [e]
  · rw [e]

theorem tileElem_eq (bs : List Byte) (r q : Nat) :
    tileElem f false bs r q = leNat ((bs.drop (r * 64 + q * (fmtBits f / 8))).take (fmtBits f / 8)) := by
  have pos : (512 * r + q * fmtBits f) / 8 = r * 64 + q * (fmtBits f / 8) := by
    rcases fmtBits_cases f with e | e | e | e
    · exact absurd e h4
    · rw [e]; omega
    · rw [e]; omega
    · rw [e]; omega
  unfold tileElem elemPos
  dsimp only
  rw [if_neg h4, Bool.not_false, if_pos rfl, pos]

/-- A slot whose rows are written element by element has 2048 bytes, and those elements. -/
theorem tileElem_rows {g : Nat → Nat → List Byte} (hg : ∀ r q, (g r q).length = fmtBits f / 8) :
    ((List.range 32).flatMap fun r => (List.range (tileCols f)).flatMap (g r)).length = 2048 ∧
    ∀ r < 32, ∀ q < tileCols f,
      tileElem f false ((List.range 32).flatMap fun r => (List.range (tileCols f)).flatMap (g r)) r q = leNat (g r q) := by
  have row : ∀ r, ((List.range (tileCols f)).flatMap (g r)).length = 64 := fun r =>
    (drop_take_flatMap_range (hg r) (tileCols f)).1.trans (rowBytes h4)
  obtain ⟨len, rows⟩ := drop_take_flatMap_range row 32
  refine ⟨len, fun r hr q hq => ?_⟩
  have fits : q * (fmtBits f / 8) + fmtBits f / 8 ≤ 64 := by
    rw [← rowBytes h4, ← Nat.succ_mul]
    exact Nat.mul_le_mul_right _ hq
  rw [tileElem_eq h4, ← (drop_take_flatMap_range (hg r) (tileCols f)).2 q hq, ← rows r hr, List.drop_take, List.take_take, List.drop_drop,
    Nat.min_eq_left (by omega)]

end

/-- The elements that a TWB leaves in its slot. -/
theorem tileElem_twbBytes {f : Nat} (h4 : fmtBits f ≠ 4) (x : Acc) (j : JobId) (h keep : Bool) (mode : Nat) (sat : Bool) {old : List Byte}
    (hold : old.length = 2048) : (twbBytes x j f h keep mode sat old).1.length = 2048 ∧ ∀ r < 32, ∀ q < tileCols f,
      tileElem f false (twbBytes x j f h keep mode sat old).1 r q =
        if fmtBits f = 8 ∧ q / 32 ≠ (if h then 1 else 0) then (if keep then tileElem f false old r q else 0)
        else (accConvert x.int f mode sat (x.val j (32 * r + twbCol f (if h then 1 else 0) q))).1 % 2 ^ fmtBits f := by
  rw [twbBytes_eq h4]
  generalize (if h then 1 else 0) = hn
  obtain ⟨len, elem⟩ := tileElem_rows h4 (length_twbCell x j f hn keep mode sat old)
  refine ⟨len, fun r hr q hq => ?_⟩
  rw [elem r hr q hq, twbCell, twbValue]
  by_cases e : fmtBits f = 8 ∧ q / 32 ≠ hn
  · rw [if_pos e, if_pos e, twbPut, tileElem_eq h4, e.1]
    have hq : q < 64 := by rwa [tileCols, e.1] at hq
    have inside : r * 64 + q < old.length := by omega
    cases keep
    · rfl
    · simp only [Nat.div_self (show 0 < 8 by decide), Nat.mul_one, if_true, Nat.mul_comm 64 r, List.getElem?_eq_getElem inside, Option.getD_some,
        List.drop_eq_getElem_cons inside, List.take_succ_cons, List.take_zero]
  · rw [if_neg e, if_neg e, twbPut, leNat_toBytes]
    have bytes : 256 ^ (fmtBits f / 8) = 2 ^ fmtBits f := by
      rcases fmtBits_cases f with w | w | w | w
      · exact absurd w h4
      · rw [w]; rfl
      · rw [w]; rfl
      · rw [w]; rfl
    rw [bytes]

/-! ### The state that a TWB leaves -/

/-- A command that reads no slot is not spoiled. -/
theorem not_spoiled_of_no_reads {s : State} {c : CoreId} {m : MCmd} (hr : m.reads = []) : ¬s.spoiled c m := by
  rintro (bad | ⟨some, -⟩)
  · exact bad (badOperands_other hr)
  · exact some hr

theorem mkLayout_plain (ty : BitVec 4) : mkLayout ty.toNat 0 false false 0 = ty ++ 0#12 := by
  revert ty
  decide

theorem agenda_clearPoison (s : State) (a n : Nat) : (s.clearPoison a n).agenda = s.agenda := by
  unfold State.clearPoison State.setPoison
  split <;> rfl

theorem UnitKept.putSlot (s : State) (c : CoreId) (n off : Nat) (bs : List Byte) : UnitKept s (s.putSlot c n off bs) c := by
  have same := core_clearPoison s (localBase c + 2048 * n + off) bs.length c
  refine ⟨fun e he => ?_, congrArg Core.mrun same, fun a => congrArg (Core.accAt · a) same⟩
  show e ∈ (s.clearPoison _ _).agenda
  rwa [agenda_clearPoison]

theorem slot_putSlot (s : State) (c : CoreId) (n off : Nat) (bs : List Byte) (j : Nat) : (s.putSlot c n off bs).slot c j = s.slot c j :=
  congrArg (fun v : Core => Tab.get ({} : Slot) v.tiles j) (core_clearPoison s (localBase c + 2048 * n + off) bs.length c)

section

variable {s : State} {c : CoreId} {m : MCmd} {n mode : Nat} {ty : BitVec 4} {h keep : Bool}
variable (hrun : (s.core c).mrun = some m) (hturn : s.barrelDone c) (hop : m.op = .twb n ty h mode keep)

include hrun hturn hop

theorem twb_run : s.finishMatrix c = s.performMatrix c m :=
  (finish_of_rows_nil hrun hturn (rows_eq_nil (by simp [hop]))).2 (not_spoiled_of_no_reads (by simp only [MCmd.reads, hop]))

theorem twb_ends : UnitFreed s (s.finishMatrix c) c ∧ ((s.finishMatrix c).core c).accAt m.acc = (s.claimed c m).found m.job ∧
    (s.finishMatrix c).slot c n = { s.slot c n with st := 2, own := false, layout := ty ++ 0#12, scales := [], poison := false } ∧
    (s.finishMatrix c).mem = Memory.write s.mem (localBase c + 2048 * n)
      (twbBytes ((s.claimed c m).found m.job) m.job ty.toNat h keep mode m.sat (s.slotBytes c n)).1 := by
  have fill : ∀ u : State, UnitKept u (u.endFill c n (mkLayout ty.toNat 0 false false 0) [] false) c := fun u => UnitKept.updSlot u c c n _
  rw [twb_run hrun hturn hop]
  simp only [State.performMatrix, hop, slotBytes_unitFreed]
  generalize twbBytes _ _ _ _ _ _ _ _ = r
  obtain ⟨freed, acc⟩ := freed_setAcc (s := s) (a := m.acc) (f := fun a => (a.claim m.job).found m.job)
    ((UnitKept.putSlot (s.unitFreed c) c n 0 r.1).trans (fill _)) (UnitKept.orFlags _ c c m.strand r.2)
  refine ⟨freed, acc, ?_, ?_⟩
  · rw [slot_orFlags, slot_setAcc, State.endFill, slot_updSlot, if_pos rfl, slot_putSlot, slot_unitFreed, mkLayout_plain]
  · rw [mem_orFlags]
    rfl

/-- The elements of the slot of a TWB, and the memory that it leaves alone. -/
theorem twb_slot (h4 : fmtBits ty.toNat ≠ 4) :
    (∀ r < 32, ∀ q < tileCols ty.toNat, tileElem ty.toNat false ((s.finishMatrix c).slotBytes c n) r q =
      if fmtBits ty.toNat = 8 ∧ q / 32 ≠ (if h then 1 else 0) then (if keep then tileElem ty.toNat false (s.slotBytes c n) r q else 0)
      else (accConvert ((s.claimed c m).found m.job).int ty.toNat mode m.sat
        (accElem ((s.claimed c m).found m.job) m.job (32 * r + twbCol ty.toNat (if h then 1 else 0) q))).1 % 2 ^ fmtBits ty.toNat) ∧
    ∀ y, y < localBase c + 2048 * n ∨ localBase c + 2048 * n + 2048 ≤ y → Memory.get (s.finishMatrix c).mem y = Memory.get s.mem y := by
  obtain ⟨-, -, -, memory⟩ := twb_ends hrun hturn hop
  obtain ⟨len, elems⟩ := tileElem_twbBytes h4 ((s.claimed c m).found m.job) m.job h keep mode m.sat (old := s.slotBytes c n)
    (Memory.length_read _ _ _)
  have bytes : (s.finishMatrix c).slotBytes c n = _ := congrArg (Memory.read · (localBase c + 2048 * n) 2048) memory
  rw [bytes, memory]
  generalize (twbBytes _ _ _ _ _ _ _ _).1 = bs at len elems
  refine ⟨fun r hr q hq => ?_, fun y hy => Memory.get_write_outside _ (by rwa [len])⟩
  rw [← len, Memory.read_write]
  exact elems r hr q hq

end

end Sys2Proof

/-! ### TRED (spec/13_isa_tile.md R302, R207) -/

namespace Sys2Proof

open Machine

/-- What a row of a TRED to own local memory leaves: the unit as it was, no poison where there was none, and the slots. -/
structure RowKept (s t : State) (c : CoreId) : Prop where
  unit : UnitKept s t c
  poisons : t.poisons = s.poisons
  devnum : t.devnum = s.devnum
  slot : ∀ n, t.slot c n = s.slot c n

theorem RowKept.refl (s : State) (c : CoreId) : RowKept s s c := ⟨UnitKept.refl s c, rfl, rfl, fun _ => rfl⟩

theorem RowKept.trans {s t u : State} {c : CoreId} (h : RowKept s t c) (g : RowKept t u c) : RowKept s u c where
  unit := h.unit.trans g.unit
  poisons := g.poisons.trans h.poisons
  devnum := g.devnum.trans h.devnum
  slot n := (g.slot n).trans (h.slot n)

/-- The weight buffer is no part of what a row keeps (R265, R273). -/
theorem RowKept.dropWb (s : State) (c d : CoreId) (l : List Nat) : RowKept s (s.updCore d fun v => v.dropWb l) c where
  unit := UnitKept.updCore s c d fun v => by unfold Core.dropWb; split <;> exact ⟨rfl, rfl⟩
  poisons := rfl
  devnum := rfl
  slot n := slot_updCore_of_tiles (f := fun v => v.dropWb l) (fun v => by unfold Core.dropWb; split <;> rfl) s d c n

/-- Where no word is poisoned, bytes written to local memory leave the weight buffer and memory changed. -/
theorem RowKept.localWrite {s : State} (clean : s.poisons = []) (c d : CoreId) (off : Nat) (bs : List Byte) : RowKept s (s.localWrite d off bs) c := by
  have buffer : RowKept s (if (s.core d).wb = [] then s else s.updCore d fun v => v.dropWb (slotsOf off bs.length)) c := by
    split
    · exact RowKept.refl s c
    · exact RowKept.dropWb s c d _
  unfold State.localWrite
  dsimp only
  generalize (if (s.core d).wb = [] then s else s.updCore d fun v => v.dropWb (slotsOf off bs.length)) = u at buffer ⊢
  rw [State.clearPoison, if_pos (buffer.poisons.trans clean)]
  exact buffer.trans ⟨⟨fun _ h => h, rfl, fun _ => rfl⟩, rfl, rfl, fun _ => rfl⟩

theorem markBad_nil (s : State) : s.markBad [] = s := by
  unfold State.markBad State.setPoison
  simp

/-- A row that lies in the own local memory of a core, in slots that no engine holds. -/
structure OwnRow (s : State) (c : CoreId) (w : Nat) (p : Piece) : Prop where
  size : p.n = 32 * w
  dev : devOf p.pa = s.devnum
  loc : isLocal (offOf p.pa) = true
  core : localCore (offOf p.pa) = c
  idle : ∀ j ∈ slotsOf (localOff (offOf p.pa)) p.n, (s.slot c j).busy = false

theorem OwnRow.of_kept {s t : State} {c : CoreId} {w : Nat} {p : Piece} (k : RowKept s t c) (h : OwnRow s c w p) : OwnRow t c w p where
  size := h.size
  dev := h.dev.trans k.devnum.symm
  loc := h.loc
  core := h.core
  idle j hj := (congrArg Slot.busy (k.slot j)).trans (h.idle j hj)

/-- A local address is that of its core and its offset there. -/
theorem localBase_add_localOff {a : Nat} (h : isLocal a = true) : localBase (localCore a) + localOff a = a := by
  unfold isLocal at h
  simp only [Bool.and_eq_true, decide_eq_true_eq] at h
  unfold localBase localCore localOff
  rw [BitVec.toNat_ofNat]
  omega

theorem not_isTier_of_le {a : Nat} (h : 0x300000000000 ≤ a) : isTier a = false := by
  unfold isTier isHbm isCap
  simp only [Bool.or_eq_false_iff, Bool.and_eq_false_iff, decide_eq_false_iff_not]
  omega

theorem le_of_isLocal {a : Nat} (h : isLocal a = true) : 0x300000000000 ≤ a := by
  unfold isLocal at h
  simp only [Bool.and_eq_true, decide_eq_true_eq] at h
  exact h.1

/-- Where no word is poisoned, none of local memory is unreadable. -/
theorem memBad_of_clean {s : State} (clean : s.poisons = []) {a : Nat} (h : 0x300000000000 ≤ a) (n : Nat) : s.memBad a n = false := by
  unfold State.memBad State.lostAt State.localBad State.poisoned
  rw [not_isTier_of_le h, clean]
  simp

/-- The elements of an accumulator's row in the line that a TRED sends. -/
theorem lineSlice_rowElems (x : Acc) (j : JobId) (i : Nat) {w e : Nat} (hw : 0 < w) (he : e < 32) :
    leNat (lineSlice (rowElems x j i 0 w (32 * w)) (4 * e) 4) = x.val j (32 * i + e) := by
  obtain ⟨len, block⟩ := drop_take_flatMap_range (fun e => length_toBytes 4 (x.val j (32 * i + 0 / w + e))) 32
  have small : x.val j (32 * i + e) < 256 ^ 4 := by
    unfold Acc.val
    split
    · exact (Tab.get 0#32 x.el _).isLt
    · decide
  unfold rowElems
  rw [Nat.mul_div_cancel _ hw, lineSlice_leBits len (by omega), Nat.mul_comm 4 e, block e he, leNat_toBytes, Nat.zero_div, Nat.add_zero,
    Nat.mod_eq_of_lt small]

/-- The bytes of a row after its reduction, by the elements of the accumulator. -/
def redRow (x : Acc) (j : JobId) (fmt i : Nat) (mem : List Host.Cell) (a : Nat) : List Byte :=
  (List.range 32).flatMap fun e => toBytes (fmtBits fmt / 8)
    (tredElem fmt x.int (leNat (Memory.read mem (a + e * (fmtBits fmt / 8)) (fmtBits fmt / 8))) (x.val j (32 * i + e)))

theorem length_redRow (x : Acc) (j : JobId) (fmt i : Nat) (mem : List Host.Cell) (a : Nat) :
    (redRow x j fmt i mem a).length = 32 * (fmtBits fmt / 8) :=
  (drop_take_flatMap_range (fun _ => length_toBytes _ _) 32).1

section

variable {s : State} {c : CoreId} {fmt : Nat} {p : Piece} (clean : s.poisons = []) (own : OwnRow s c (fmtBits fmt / 8) p)

include own

theorem OwnRow.memRead : s.memRead none (offOf p.pa) p.n = Memory.read s.mem (offOf p.pa) p.n := by
  have idle : ((slotsOf (localOff (offOf p.pa)) p.n).any fun j => (s.slot c j).busy) = false :=
    List.any_eq_false.2 fun j hj => by simp [own.idle j hj]
  unfold State.memRead State.localRead
  rw [not_isTier_of_le (le_of_isLocal own.loc), if_neg Bool.false_ne_true, if_pos own.loc, own.core, idle, if_neg Bool.false_ne_true, ← own.core,
    localBase_add_localOff own.loc]

include clean

theorem OwnRow.redBytes (hw : 0 < fmtBits fmt / 8) (x : Acc) (j : JobId) (i : Nat) :
    s.redBytes none (offOf p.pa) p.n fmt x.int (rowElems x j i 0 (fmtBits fmt / 8) p.n) = (redRow x j fmt i s.mem (offOf p.pa), []) := by
  have new : ((List.range (p.n / (fmtBits fmt / 8))).flatMap fun e => toBytes (fmtBits fmt / 8)
      (tredElem fmt x.int (leNat (((Memory.read s.mem (offOf p.pa) p.n).drop (e * (fmtBits fmt / 8))).take (fmtBits fmt / 8)))
        (leNat (lineSlice (rowElems x j i 0 (fmtBits fmt / 8) p.n) (4 * e) 4)))) = redRow x j fmt i s.mem (offOf p.pa) := by
    rw [own.size, Nat.mul_div_cancel _ hw]
    refine List.flatMap_congr fun e he => ?_
    have he := List.mem_range.1 he
    rw [lineSlice_rowElems x j i hw he, Memory.drop_take_read _ _ (by rw [← Nat.succ_mul]; exact Nat.mul_le_mul_right _ he)]
  unfold State.redBytes
  dsimp only
  rw [own.memRead, new, clean]
  refine Prod.ext ?_ ?_
  · refine List.ext_getElem ?_ fun k hk _ => ?_
    · simp [length_redRow, own.size]
    · simp [memBad_of_clean clean (Nat.le_add_right_of_le (le_of_isLocal own.loc))]
  · exact List.filter_eq_nil_iff.2 fun _ _ => by simp

theorem OwnRow.write {bs : List Byte} (len : bs.length = p.n) : RowKept s (s.memWrite none (offOf p.pa) bs) c ∧
    (s.memWrite none (offOf p.pa) bs).mem = Memory.write s.mem (offOf p.pa) bs := by
  unfold State.memWrite
  rw [not_isTier_of_le (le_of_isLocal own.loc), if_neg Bool.false_ne_true, if_pos own.loc]
  refine ⟨RowKept.localWrite clean c _ _ bs, ?_⟩
  rw [mem_localWrite_of_idle (by rw [len, own.core]; exact own.idle), localBase_add_localOff own.loc]

/-- A row of a TRED in own local memory is reduced at once. -/
theorem OwnRow.tredRow (hw : 0 < fmtBits fmt / 8) (m : MCmd) (x : Acc) (i : Nat) : RowKept s (s.tredRow c m x fmt i [p]) c ∧
    (s.tredRow c m x fmt i [p]).mem = Memory.write s.mem (offOf p.pa) (redRow x m.job fmt i s.mem (offOf p.pa)) := by
  have here : (devOf p.pa == s.devnum && isLocal (offOf p.pa) && localCore (offOf p.pa) == c) = true := by
    rw [own.dev, own.loc, own.core]
    simp
  unfold State.tredRow
  simp only [List.foldl_cons, List.foldl_nil, here, if_true, own.redBytes clean hw, markBad_nil]
  exact own.write clean ((length_redRow _ _ _ _ _ _).trans own.size.symm)

end

/-- The rows of a TRED in own local memory are reduced in order (R302). -/
theorem tredRows {c : CoreId} {fmt : Nat} (hw : 0 < fmtBits fmt / 8) (m : MCmd) (x : Acc) (l : List (Piece × Nat)) : ∀ {s : State}, s.poisons = [] →
    (∀ y ∈ l, OwnRow s c (fmtBits fmt / 8) y.1) →
    RowKept s (l.foldl (fun s y => s.tredRow c m x fmt y.2 [y.1]) s) c ∧
    (l.foldl (fun s y => s.tredRow c m x fmt y.2 [y.1]) s).mem =
      l.foldl (fun mem y => Memory.write mem (offOf y.1.pa) (redRow x m.job fmt y.2 mem (offOf y.1.pa))) s.mem := by
  induction l with
  | nil => exact fun _ _ => ⟨RowKept.refl _ c, rfl⟩
  | cons y r ih =>
    intro s clean own
    obtain ⟨kept, memory⟩ := (own y List.mem_cons_self).tredRow clean hw m x y.2
    obtain ⟨rest, memories⟩ := ih (kept.poisons.trans clean) fun z hz => (own z (List.mem_cons_of_mem _ hz)).of_kept kept
    rw [List.foldl_cons, List.foldl_cons, ← memory]
    exact ⟨kept.trans rest, memories⟩

/-- A row reduced in one write is one reduced element by element. -/
theorem write_redRow (x : Acc) (j : JobId) (fmt i : Nat) (mem : List Host.Cell) (a : Nat) : Memory.write mem a (redRow x j fmt i mem a) =
    (List.range 32).foldl (fun mem e => Memory.write mem (a + e * (fmtBits fmt / 8)) (leBytes (fmtBits fmt / 8) (tredElem fmt x.int
      ((List.range (fmtBits fmt / 8)).map fun b => (Memory.get mem (a + e * (fmtBits fmt / 8) + b)).toNat * 256 ^ b).sum
      (accElem x j (32 * i + e))))) mem := by
  have value : ∀ (mem : List Host.Cell) (a n : Nat), ((List.range n).map fun b => (Memory.get mem (a + b)).toNat * 256 ^ b).sum =
      leNat (Memory.read mem a n) :=
    fun mem a n => (leNat_read { State.reset with mem := mem } a n).symm
  simp only [value, ← toBytes_eq_leBytes]
  exact (Memory.foldl_write mem a (fmtBits fmt / 8) (fun e o => tredElem fmt x.int o (x.val j (32 * i + e))) 32).symm

section

variable {s : State} {c : CoreId} {m : MCmd} {va : BitVec 48} {ps : List Piece} {fmt : Nat}
variable (hrun : (s.core c).mrun = some m) (hturn : s.barrelDone c) (hop : m.op = .tred va (ps.map fun p => [p]) fmt)

include hrun hturn hop

theorem tred_ends (hw : 0 < fmtBits fmt / 8) (clean : s.poisons = []) (hheld : s.tredHeld c m = false)
    (own : ∀ p ∈ ps, OwnRow s c (fmtBits fmt / 8) p) :
    UnitFreed s (s.finishMatrix c) c ∧ ((s.finishMatrix c).core c).accAt m.acc = (s.claimed c m).found m.job ∧
    (s.finishMatrix c).mem = ps.zipIdx.foldl (fun mem y => Memory.write mem (offOf y.1.pa)
      (redRow ((s.claimed c m).found m.job) m.job fmt y.2 mem (offOf y.1.pa))) s.mem := by
  obtain ⟨kept, memory⟩ := tredRows (s := s.unitFreed c) hw m ((s.claimed c m).found m.job) ps.zipIdx clean fun y hy =>
    let o := own y.1 (List.fst_mem_of_mem_zipIdx hy)
    ⟨o.size, o.dev, o.loc, o.core, fun j hj => (congrArg Slot.busy (slot_unitFreed s c j)).trans (o.idle j hj)⟩
  rw [(finishMatrix_eq hrun hturn hheld).2 (not_spoiled_of_no_reads (by simp only [MCmd.reads, hop]))]
  simp only [State.performMatrix, hop, List.zipIdx_map, List.foldl_map, Prod.map_fst, Prod.map_snd, id]
  generalize ps.zipIdx.foldl (fun s y => s.tredRow c m ((s.claimed c m).found m.job) fmt y.2 [y.1]) (s.unitFreed c) = u at kept memory
  obtain ⟨freed, acc⟩ := freed_setAcc (s := s) (a := m.acc) (f := fun a => (a.claim m.job).found m.job) kept.unit (UnitKept.rowsDone _ c m.id).1
  exact ⟨freed, acc, (UnitKept.rowsDone _ c m.id).2.trans memory⟩

end

end Sys2Proof

/-! ### The obligation -/

namespace Sys2Proof

open Machine

section

variable {s : State} {c : CoreId} {m : MCmd} {a b : Nat}
variable (hrun : (s.core c).mrun = some m) (hturn : s.barrelDone c) (hstep : m.step = false) (hmore : m.more = false)

include hrun hturn hstep hmore

/-- A TMUL that finds an error in its accumulator leaves NaN, and no POISON (R386). -/
theorem tmul_of_error (hop : m.op = .tmul a b) (ha : (s.tileOf c a).poison = false) (hb : (s.tileOf c b).poison = false)
    (hs : (s.claimed c m).bad ≠ []) : AccWritten s (s.finishMatrix c) c m false (fun _ _ => 0x7FC00000) ∧
    ∀ n, (s.finishMatrix c).slot c n = { s.slot c n with rdc := (s.slot c n).rdc - if n = a ∨ n = b then 1 else 0 } := by
  obtain ⟨wrote, slots⟩ := spoiled_ends hrun hturn hstep hmore (rows_eq_nil (by simp [hop])) ((tmul_spoiled_iff hop ha hb).2 hs)
  refine ⟨wrote, fun n => ?_⟩
  rw [slots n, badOperands_pair (.inl hop) ha hb]
  simp only [mem_reads_tmul hop, List.not_mem_nil, if_false]

/-- A TMUL whose operands may not be read leaves NaN, and POISON in those slots (R272). -/
theorem tmul_of_poison (hop : m.op = .tmul a b) (h : (s.slot c a).poison = true ∨ (s.slot c b).poison = true ∨
      ∃ i k, i < 32 ∧ k < kOf (loFmt (s.slot c a).layout) ∧ elemUnreadable s c a i k) :
    AccWritten s (s.finishMatrix c) c m false (fun _ _ => 0x7FC00000) ∧
    ((s.slot c b).poison = false → ((s.finishMatrix c).slot c a).poison = true) ∧
    ∀ n, (n = a ∨ n = b) → (s.slot c n).poison = true → ((s.finishMatrix c).slot c n).poison = true := by
  have some : s.badOperands c m ≠ [] := by
    rcases h with h | h | h
    · exact List.ne_nil_of_mem (mem_badOperands_tmul hop (.inl rfl) (.inl h))
    · exact List.ne_nil_of_mem (mem_badOperands_tmul hop (.inr rfl) (.inl h))
    · exact List.ne_nil_of_mem (mem_badOperands_tmul hop (.inl rfl) (.inr ⟨rfl, h⟩))
  obtain ⟨wrote, slots⟩ := spoiled_ends hrun hturn hstep hmore (rows_eq_nil (by simp [hop])) (.inl some)
  have marked : ∀ {n}, n ∈ s.badOperands c m → ((s.finishMatrix c).slot c n).poison = true := fun {n} hn => by rw [slots n]; exact if_pos hn
  refine ⟨wrote, fun hb => marked (mem_badOperands_tmul hop (.inl rfl) ?_), fun n hn hp => marked (mem_badOperands_tmul hop hn (.inl hp))⟩
  rcases h with h | h | h
  · exact .inl h
  · exact absurd (hb.symm.trans h) Bool.false_ne_true
  · exact .inr ⟨rfl, h⟩

/-- A TACC whose tile may not be read leaves NaN, and POISON in its slot (R272). -/
theorem tacc_of_poison (hop : m.op = .tacc a) (h : (s.slot c a).poison = true ∨ s.elemsBad c a (accElems (s.slot c a).layout) = true) :
    AccWritten s (s.finishMatrix c) c m false (fun _ _ => 0x7FC00000) ∧ ((s.finishMatrix c).slot c a).poison = true := by
  have bad : s.badOperands c m = [a] := (badOperands_tacc hop).trans (if_pos (Bool.or_eq_true_iff.2 h))
  obtain ⟨wrote, slots⟩ := spoiled_ends hrun hturn hstep hmore (rows_eq_nil (by simp [hop])) (.inl (bad ▸ List.cons_ne_nil a []))
  refine ⟨wrote, ?_⟩
  rw [slots a, bad]
  exact if_pos List.mem_cons_self

end

theorem fmtBits_ne_four {f : Nat} (h : f ∈ [1, 2, 3, 5, 6, 7, 8, 9]) : fmtBits f ≠ 4 := by
  revert f
  decide

theorem fmtBytes_pos {f : Nat} (h : f ∈ [3, 6, 7, 8]) : 0 < fmtBits f / 8 := by
  revert f
  decide

/-- The elements of a tile that a TACC loads are readable. -/
theorem elemsBad_accElems {s : State} {c : CoreId} {a : Nat} : s.elemsBad c a (accElems (s.slot c a).layout) = true ↔
    ∃ i j, (i < 32 ∧ j < 32 ∧ i < (if loX (s.slot c a).layout then tileCols (loFmt (s.slot c a).layout) else 32) ∧
      j < (if loX (s.slot c a).layout then 32 else tileCols (loFmt (s.slot c a).layout))) ∧ elemUnreadable s c a i j := by
  simp only [elemsBad_iff, Prod.exists, mem_accElems]

/-- Settles O27: the two ends of a command (`finishMatrix_eq`) and, per command, what it leaves. -/
theorem matrixResults : Obligations.MatrixResults := by
  unfold Obligations.MatrixResults
  intro s c m hc hrun hstep hmore hturn old sound claimed found unread inTile idle wrote
  have run : ∃ t, exec .matrixCommandComplete s = .next t ∧ t = s.finishMatrix c := ⟨_, rfl, congrArg s.finishMatrix hc⟩
  obtain ⟨t, run, rfl⟩ := run
  refine ⟨fun a b hop ha hb hs => ?_, fun a b hop ha hb hs => ?_, fun a b ps hop hps ha hb hs => ?_, fun a hop hp hu => ?_, fun a b hop h => ?_,
    fun a hop h => ?_, fun n ty h mode keep hop hty _ => ?_, fun va ps fmt hop hfmt _ clean hheld own => ?_⟩
  · exact ⟨_, run, tmul_ends hrun hturn hstep hmore hop ha hb (bad_claimed.2 hs)⟩
  · exact ⟨_, run, tmul_of_error hrun hturn hstep hmore hop ha hb fun e => hs (bad_claimed.1 e)⟩
  · exact ⟨_, run, tmuls_ends hrun hturn hstep hmore hop hps ha hb (bad_claimed.2 hs)⟩
  · have readable : s.elemsBad c a (accElems (s.slot c a).layout) = false :=
      Bool.eq_false_iff.2 fun e => let ⟨i, j, inside, bad⟩ := elemsBad_accElems.1 e; hu i j inside bad
    exact ⟨_, run, tacc_ends hrun hturn hstep hmore hop hp readable⟩
  · obtain ⟨written, pa, pb⟩ := tmul_of_poison hrun hturn hstep hmore hop h
    have nan : ∀ n < 1024, _ := fun n hn => written.every hn
    obtain ⟨freed, memory, full, -, tag, -⟩ := written
    exact ⟨_, run, freed, memory, full, tag, nan, pa, pb⟩
  · obtain ⟨written, marked⟩ := tacc_of_poison hrun hturn hstep hmore hop (h.imp_right elemsBad_accElems.2)
    have nan : ∀ n < 1024, _ := fun n hn => written.every hn
    obtain ⟨freed, memory, full, -⟩ := written
    exact ⟨_, run, freed, memory, full, nan, marked⟩
  · obtain ⟨freed, acc, slot, -⟩ := twb_ends hrun hturn hop
    obtain ⟨elems, frame⟩ := twb_slot hrun hturn hop (fmtBits_ne_four hty)
    exact ⟨_, run, freed, slot, elems, acc, frame⟩
  · obtain ⟨freed, acc, memory⟩ := tred_ends hrun hturn hop (fmtBytes_pos hfmt) clean hheld fun p hp =>
      let ⟨size, dev, loc, core, _, idle⟩ := own p hp
      ⟨size, dev, loc, core, core ▸ idle⟩
    simp only [write_redRow] at memory
    exact ⟨_, run, freed, acc, memory⟩

end Sys2Proof

/-! ## The state after a power-on (spec/03_bringup.md R57 to R64; spec/24_retire.md R422) -/

namespace Sys2Proof

open Machine

/-- A core that nothing has touched. -/
theorem core_reset (c : CoreId) : State.reset.core c = {} := rfl

/-- Settles O58: the fields of the state as they stand, the registers as they read, and every core as one that nothing has touched. -/
theorem resetFacts : Obligations.ResetFacts := by
  unfold Obligations.ResetFacts
  have caps : (State.reset.isl.map fun e => e.2.cap.toNat).sum = 2500 := by decide
  have zeros : ∀ o ∈ [0x1000, 0x1008, 0x1238, 0x1300, 0x1400, 0x1408, 0x1410, 0x2000, 0x2008, 0x2010, 0x2018, 0x2020],
      State.reset.readBar o = 0#64 := by decide
  refine ⟨rfl, rfl, rfl, rfl, rfl, rfl, rfl, rfl, rfl, rfl, rfl, rfl, rfl, rfl, caps, fun _ => rfl, rfl, rfl, rfl, zeros, fun c => ?_⟩
  unfold State.slot State.strand
  rw [core_reset]
  exact ⟨fun _ => ⟨rfl, rfl⟩, rfl, rfl, rfl, rfl, rfl, fun _ => ⟨rfl, rfl⟩⟩

end Sys2Proof

/-! ## Cold resets (spec/03_bringup.md R57, R58; spec/20_faults.md R389, R390) -/

namespace Sys2Proof

open Machine

/-- A table without the entries whose index fails a test. -/
theorem get_filter {α : Type} (d : α) (p : Nat → Bool) (t : Tab α) (k : Nat) :
    Tab.get d (t.filter fun e => p e.1) k = if p k then Tab.get d t k else d := by
  induction t with
  | nil => exact (ite_self d).symm
  | cons e r ih =>
    have head : Tab.get d (e :: r) k = if e.1 = k then e.2 else Tab.get d r k := rfl
    rw [head, List.filter_cons]
    by_cases he : e.1 = k
    · subst he
      by_cases hp : p e.1
      · simp [hp, Tab.get]
      · simpa [hp] using ih
    · rw [if_neg he]
      split
      · exact (if_neg he).trans ih
      · exact ih

/-! ### What stands over a reset -/

/-- The bytes that stand over a cold reset: host memory, and over one that is no power-on the tiers. -/
theorem get_coldReset (s : State) (cause a : Nat) : Memory.get (s.coldReset cause).mem a =
    if isBus a || (decide (cause ≠ 0) && !isLocal a) then Memory.get (s.loseLines (dirtyOf s)).mem a else Memory.blank := by
  have mem : (s.coldReset cause).mem =
      (s.loseLines (dirtyOf s)).mem.filter fun e => isBus e.1 || (decide (cause ≠ 0) && !isLocal e.1) := by
    by_cases h : cause = 0
    · subst h; rfl
    · unfold State.coldReset
      dsimp only
      rw [if_neg h]
      simp [h, dirtyOf]
  rw [mem]
  exact get_filter Memory.blank (fun a => isBus a || (decide (cause ≠ 0) && !isLocal a)) _ a

/-- A power-on keeps neither marks nor records. -/
theorem coldReset_power (s : State) : (s.coldReset 0).poisons = [] ∧ (s.coldReset 0).empties = [] ∧ (s.coldReset 0).frames = [] ∧
    (s.coldReset 0).mcrec = [] ∧ (s.coldReset 0).mcWritten = 0 ∧ (s.coldReset 0).mcHeadIdx = 0 :=
  ⟨rfl, rfl, rfl, rfl, rfl, rfl⟩

/-- A cold reset of another cause: the marks outside the local memories, the frame tables and the records stay. -/
theorem coldReset_warm (s : State) {cause : Nat} (h : cause ≠ 0) : s.coldReset cause =
    { State.reset with fresh := s.fresh, nextId := s.nextId, resets := s.resets + 1, saveKey := Config.saveKey (s.resets + 1),
                       rstcause := cause, mem := (s.coldReset cause).mem, poisons := s.poisons.filter fun w => !isLocal (8 * w),
                       empties := s.empties.filter fun w => !isLocal (8 * w), frames := s.frames, mcrec := s.mcrec,
                       mcWritten := s.mcWritten, mcHeadIdx := s.mcHeadIdx } := by
  unfold State.coldReset
  simp only [if_neg h]

theorem coldReset_rest (s : State) (cause : Nat) :
    { s.coldReset cause with mem := [], poisons := [], empties := [], frames := [], mcrec := [], mcWritten := 0, mcHeadIdx := 0, rstcause := 0,
                             resets := 0, saveKey := State.reset.saveKey, fresh := 0, nextId := 1 } = State.reset ∧
    (s.coldReset cause).rstcause = cause ∧ (s.coldReset cause).resets = s.resets + 1 ∧
    (s.coldReset cause).saveKey = Config.saveKey (s.coldReset cause).resets := by
  by_cases h : cause = 0
  · subst h; exact ⟨rfl, rfl, rfl, rfl⟩
  · rw [coldReset_warm s h]
    exact ⟨rfl, rfl, rfl, rfl⟩

theorem isBus_of_isHost {a : Nat} (h : isHost a = true) : isBus a = true := by
  unfold isBus
  rw [h, Bool.true_or]

theorem isBus_of_lt {a : Nat} (h : a < 2 ^ 64) : isBus a = isHost a := by
  unfold isBus
  rw [decide_eq_false (Nat.not_le.2 h), Bool.or_false]

theorem isHost_of_isLocal {a : Nat} (h : isLocal a = true) : a < 2 ^ 64 ∧ isHost a = false := by
  unfold isLocal at h
  unfold isHost
  simp only [Bool.and_eq_true, decide_eq_true_eq] at h
  simp only [Bool.and_eq_false_iff, decide_eq_false_iff_not]
  omega

theorem isLocal_of_isTier {a : Nat} (h : isTier a = true) : isLocal a = false :=
  Bool.eq_false_iff.2 fun l => by simp [not_isTier_of_le (le_of_isLocal l)] at h

theorem get_loseDirty {s : State} {a : Nat} (h : ∀ e ∈ dirtyOf s, e.1 ≠ a / 128) :
    Memory.get (s.loseLines (dirtyOf s)).mem a = Memory.get s.mem a :=
  get_loseLines_outside _ (fun m => by obtain ⟨e, he, k⟩ := List.mem_map.1 m; exact h e he k) s

/-- Every cold reset leaves what R58 says, whatever its cause. -/
theorem coldReset_spec (s : State) (cause : Nat) : ColdReset s (s.coldReset cause) cause := by
  obtain ⟨clear, named, resets, key⟩ := coldReset_rest s cause
  refine ⟨clear, named, ⟨resets, key⟩, fun a ha clean => ?_, fun hc => ?_, fun hc => ?_⟩
  · rw [get_coldReset, isBus_of_isHost ha]
    exact get_loseDirty clean
  · subst hc
    refine ⟨fun a ha hh => ?_, coldReset_power s⟩
    rw [get_coldReset, isBus_of_lt ha, hh]
    rfl
  · have outside : ∀ a, isLocal a = false → Memory.get (s.coldReset cause).mem a = Memory.get (s.loseLines (dirtyOf s)).mem a := fun a ha => by
      rw [get_coldReset, ha]
      simp [hc]
    refine ⟨fun a ha => ?_, fun a ha clean => (outside a ha).trans (get_loseDirty clean), fun a l ha dirty distinct => ?_, ?_⟩
    · obtain ⟨bound, host⟩ := isHost_of_isLocal ha
      rw [get_coldReset, isBus_of_lt bound, host, ha]
      simp
    · have old := get_loseLines_inside _ distinct s _ dirty (a % 128) (Nat.mod_lt _ (by decide))
      rw [Nat.div_add_mod] at old
      exact (outside a (isLocal_of_isTier ha)).trans old
    · rw [coldReset_warm s hc]
      simp [List.mem_filter]

/-! ### Machine-check records -/

theorem recordWord_fields (kind : BitVec 8) (sev : BitVec 2) (job isl : BitVec 5) (cl unit : BitVec 6) :
    let w := kind ++ sev ++ job ++ isl ++ cl ++ unit ++ 0#32
    w.extractLsb' 56 8 = kind ∧ w.extractLsb' 54 2 = sev ∧ w.extractLsb' 49 5 = job ∧ w.extractLsb' 44 5 = isl ∧ w.extractLsb' 38 6 = cl ∧
      w.extractLsb' 32 6 = unit ∧ w.extractLsb' 0 32 = 0#32 := by
  intro w
  simp (disch := decide) only [w, BitVec.extractLsb'_append_eq_of_le, BitVec.extractLsb'_append_eq_of_add_le, -Nat.reduceAdd]
  simp

theorem machineCheck_recorded (s : State) (kind sev job isl cl unit : Nat) (pa : Word) :
    Recorded s (s.machineCheck kind sev job isl cl unit pa) kind sev job isl cl unit pa where
  entry := by
    obtain ⟨hkind, hsev, hjob, hisl, hcl, hunit, hzero⟩ := recordWord_fields (BitVec.ofNat 8 kind) (BitVec.ofNat 2 sev) (BitVec.ofNat 5 job)
      (BitVec.ofNat 5 isl) (BitVec.ofNat 6 cl) (BitVec.ofNat 6 unit)
    exact ⟨_, Tab.find_put_same _ _ _, hkind, hsev, hjob, hisl, hcl, hunit, hzero, rfl, rfl⟩
  head := ⟨rfl, rfl⟩
  rsvc := rfl
  vector := by
    have vec : (s.mcctl.extractLsb' 0 7).toNat = s.mcctl.toNat % 128 := by simp
    unfold State.machineCheck
    dsimp only
    rw [vec]
    by_cases h : s.mcctl.getLsbD 7 = true ∧ s.mcctl.toNat % 128 < 64
    · rw [if_pos (by simpa using h), if_pos h]
    · rw [if_neg (by simpa using h), if_neg h, List.append_nil]
  rest := rfl

theorem thermalHalt_module {s : State} {k : Nat} (low : 16 ≤ k) (high : k < 24) (h : (s.island k).halted = false) :
    s.thermalHalt k = ((haltIsland s k).machineCheck 2 3 16 k 0 0 0).coldReset 2 := by
  unfold State.thermalHalt haltIsland
  dsimp only
  rw [if_neg (by simp [h]; omega), if_neg (by omega), if_neg (by omega)]
  rfl

theorem coldResets : ColdResets := by
  intro s
  refine ⟨fun i cause h => ?_, fun k hk low high run => ?_⟩
  · simp only [List.mem_cons, Prod.mk.injEq, List.not_mem_nil, or_false] at h
    rcases h with ⟨rfl, rfl⟩ | ⟨rfl, rfl⟩ | ⟨rfl, rfl⟩
    · exact ⟨_, rfl, coldReset_spec s 0⟩
    · exact ⟨_, rfl, coldReset_spec s 1⟩
    · exact ⟨_, rfl, coldReset_spec s 3⟩
  · subst hk
    have halts : exec .thermalHalt s = _ := congrArg Host.Outcome.next (thermalHalt_module low high run)
    exact ⟨_, _, halts, machineCheck_recorded _ 2 3 16 s.arg.n 0 0 0, coldReset_spec _ 2⟩

end Sys2Proof

/-! ## Islands (spec/03_bringup.md R64, R65) -/

namespace Sys2Proof

open Machine

theorem island_updIsland (s : State) (k m : Nat) (f : Island → Island) :
    (s.updIsland k f).island m = if m = k then f (s.island k) else s.island m := Tab.get_put ({} : Island) s.isl k m (f (s.island k))

theorem island_congr {s t : State} (h : s.isl = t.isl) (k : Nat) : s.island k = t.island k := by
  unfold State.island
  rw [h]

/-- Only the islands have changed. -/
def OnlyIslands (s t : State) : Prop := { t with isl := s.isl } = s

theorem OnlyIslands.refl (s : State) : OnlyIslands s s := rfl

theorem OnlyIslands.trans {s t u : State} (h : OnlyIslands s t) (g : OnlyIslands t u) : OnlyIslands s u :=
  (congrArg (fun x : State => { x with isl := s.isl }) g :).trans h

section

variable {α : Type} (key : α → Nat) (f : α → Island → Island)

theorem OnlyIslands.fold (l : List α) (s : State) : OnlyIslands s (l.foldl (fun s e => s.updIsland (key e) (f e)) s) :=
  foldl_keeps (f := fun s e => s.updIsland (key e) (f e)) OnlyIslands.refl OnlyIslands.trans (fun _ _ => rfl) l s

theorem island_foldl_ne (l : List α) {k : Nat} (h : k ∉ l.map key) :
    ∀ s : State, (l.foldl (fun s e => s.updIsland (key e) (f e)) s).island k = s.island k := by
  induction l with
  | nil => exact fun _ => rfl
  | cons e r ih =>
    rw [List.map_cons, List.mem_cons, not_or] at h
    exact fun s => (ih h.2 _).trans ((island_updIsland s _ _ _).trans (if_neg h.1))

theorem island_foldl_of_mem (l : List α) (hd : (l.map key).Nodup) :
    ∀ s : State, ∀ e ∈ l, (l.foldl (fun s e => s.updIsland (key e) (f e)) s).island (key e) = f e (s.island (key e)) := by
  induction l with
  | nil => exact fun _ e he => by cases he
  | cons x r ih =>
    rw [List.map_cons, List.nodup_cons] at hd
    intro s e he
    rcases List.mem_cons.1 he with rfl | he
    · exact (island_foldl_ne key f r hd.1 _).trans ((island_updIsland s _ _ _).trans (if_pos rfl))
    · have other : key e ≠ key x := fun h => hd.1 (h ▸ List.mem_map_of_mem he)
      exact (ih hd.2 _ e he).trans (congrArg (f e) ((island_updIsland s _ _ _).trans (if_neg other)))

end

/-! ### LOCK -/

/-- The sum of the caps of the islands. -/
def Machine.State.capSum (s : State) : Nat := ((List.range 24).map fun k => (s.island k).cap.toNat).sum

/-- The state with every cap at its default. -/
def Machine.State.defaultCaps (s : State) : State := (List.range 24).foldl (fun s k => s.updIsland k fun v => { v with cap := defaultCap k }) s

theorem lockCaps_locked {s : State} (h : s.islock = true) : s.lockCaps = s := if_pos h

theorem lockCaps_kept {s : State} (h : s.islock = false) (hs : s.capSum ≤ 2600) : s.lockCaps = { s with islock := true } := by
  unfold State.lockCaps
  rw [if_neg (by simp [h])]
  exact if_neg (Nat.not_lt.2 hs)

theorem island_defaultCaps (s : State) {k : Nat} (h : k < 24) : s.defaultCaps.island k = { s.island k with cap := defaultCap k } :=
  have once : ((List.range 24).map id).Nodup := List.nodup_range.map Function.injective_id
  island_foldl_of_mem id (fun k v => { v with cap := defaultCap k }) (List.range 24) once s k (List.mem_range.2 h)

theorem OnlyIslands.defaultCaps (s : State) : OnlyIslands s s.defaultCaps :=
  OnlyIslands.fold id (fun k v => { v with cap := defaultCap k }) (List.range 24) s

/-- Caps above the limit give way to the defaults. -/
theorem lockCaps_defaults {s : State} (h : s.islock = false) (hs : 2600 < s.capSum) :
    ∃ u : State, s.lockCaps = { u with isdflt := true } ∧ OnlyIslands { s with islock := true } u ∧
      ∀ k < 24, u.island k = { s.island k with cap := defaultCap k } := by
  refine ⟨({ s with islock := true } : State).defaultCaps, ?_, OnlyIslands.defaultCaps _, fun k hk => island_defaultCaps _ hk⟩
  exact (if_neg (Bool.eq_false_iff.1 h)).trans (if_pos hs)

/-- LOCK changes the caps, their flag and itself. -/
theorem lockCaps_rest (s : State) : { s.lockCaps with islock := s.islock, isl := s.isl, isdflt := s.isdflt } = s ∧ s.lockCaps.islock = true := by
  rcases Bool.eq_false_or_eq_true s.islock with h | h
  · rw [lockCaps_locked h]
    exact ⟨rfl, h⟩
  · rcases Nat.lt_or_ge 2600 s.capSum with hs | hs
    · obtain ⟨u, lock, only, -⟩ := lockCaps_defaults h hs
      rw [lock]
      exact ⟨(congrArg (fun x : State => { x with islock := s.islock, isdflt := s.isdflt }) only :), (congrArg State.islock only :)⟩
    · rw [lockCaps_kept h hs]
      exact ⟨rfl, rfl⟩

end Sys2Proof

/-! ## Bring-up (spec/03_bringup.md R57, R59, R62, R65) -/

namespace Sys2Proof

open Machine

/-! ### Measurement -/

theorem meas_measure (s : State) (k : Nat) (image : List Byte) (i : Nat) :
    (s.measure k image).meas[i]? = if i = k then (s.meas[i]?).map (fun m => extended m image) else s.meas[i]? := by
  unfold State.measure extended
  dsimp only
  rw [List.getElem?_set]
  by_cases h : i = k
  · subst h
    rw [if_pos rfl, if_pos rfl]
    by_cases hi : i < s.meas.length
    · simp [hi]
    · simp [hi]
  · rw [if_neg (Ne.symm h), if_neg h]

/-! ### Firmware load -/

/-- The caps of a list by island. -/
def capList (caps : List (BitVec 12)) : List (BitVec 12 × Nat) := caps.zipIdx.filter fun e => decide (e.2 < 24)

/-- The caps of islands written one after another. -/
def Machine.State.setCaps (s : State) (cs : List (BitVec 12 × Nat)) : State :=
  cs.foldl (fun (s : State) e => s.updIsland e.2 fun v => { v with cap := e.1 }) s

theorem OnlyIslands.setCaps (s : State) (cs : List (BitVec 12 × Nat)) : OnlyIslands s (s.setCaps cs) :=
  OnlyIslands.fold Prod.snd (fun e v => { v with cap := e.1 }) cs s

theorem island_setCaps (s : State) {caps : List (BitVec 12)} {k : Nat} (h : k < 24) (hl : k < caps.length) :
    (s.setCaps (capList caps)).island k = { s.island k with cap := caps.getD k 0#12 } := by
  have listed : (caps.getD k 0#12, k) ∈ capList caps :=
    List.mem_filter.2 ⟨List.mk_mem_zipIdx_iff_getElem?.2 (by simp [hl]), decide_eq_true h⟩
  have once : ((capList caps).map Prod.snd).Nodup := by
    refine List.Nodup.sublist (List.filter_sublist.map Prod.snd) ?_
    rw [List.zipIdx_map_snd]
    exact List.nodup_range'
  exact island_foldl_of_mem Prod.snd (fun e v => { v with cap := e.1 }) _ once s _ listed

theorem map_getD_range {α : Type} (d : α) (l : List α) : (List.range l.length).map (fun k => l.getD k d) = l := by
  refine List.ext_getElem (by simp) fun k h _ => ?_
  have hk : k < l.length := by simpa using h
  simp [hk]

theorem capSum_setCaps (s : State) {caps : List (BitVec 12)} (h : caps.length = 24) : (s.setCaps (capList caps)).capSum = (caps.map (·.toNat)).sum := by
  have each : (List.range 24).map (fun k => ((s.setCaps (capList caps)).island k).cap.toNat) =
      (List.range caps.length).map fun k => (caps.getD k 0#12).toNat := by
    rw [h]
    refine List.map_congr_left fun k hk => ?_
    have low := List.mem_range.1 hk
    rw [island_setCaps s low (h ▸ low)]
  have all : (List.range caps.length).map (fun k => (caps.getD k 0#12).toNat) = caps.map (·.toNat) := by
    conv_rhs => rw [← map_getD_range 0#12 caps, List.map_map]
    rfl
  unfold State.capSum
  rw [each, all]

theorem get_zipIdx {α : Type} (d : α) (l : List α) (k : Nat) :
    ∀ n, n ≤ k → Tab.get d ((l.zipIdx n).map fun e => (e.2, e.1)) k = l.getD (k - n) d := by
  induction l with
  | nil => exact fun _ _ => rfl
  | cons x r ih =>
    intro n hn
    rw [List.zipIdx_cons, List.map_cons]
    by_cases h : n = k
    · subst h
      simp [Tab.get]
    · have next : k - n = (k - (n + 1)) + 1 := by omega
      rw [next, List.getD_cons_succ, ← ih (n + 1) (by omega)]
      exact if_neg h

/-- A route table written from a list. -/
theorem get_routes (l : List (BitVec 16)) {d : Nat} (h : d < 64) :
    Tab.get 0#16 ((l.zipIdx.filter fun e => decide (e.2 < 64)).map fun e => (e.2, e.1)) d = l.getD d 0#16 := by
  have order : (l.zipIdx.filter fun e => decide (e.2 < 64)).map (fun e => (e.2, e.1)) =
      (l.zipIdx.map fun e => (e.2, e.1)).filter fun e => decide (e.1 < 64) := by
    rw [List.filter_map]
    rfl
  rw [order, get_filter 0#16 (fun n => decide (n < 64)), if_pos (decide_eq_true h)]
  exact get_zipIdx 0#16 l d 0 (Nat.zero_le d)

/-! ### Full service -/

/-- The clocks of a die's clusters rise, but for those of hot islands. -/
def Machine.State.riseClocks (s : State) (d : Nat) : State :=
  (List.range 4).foldl (fun (s : State) i => s.updIsland (4 * d + i) fun v => if v.hot then v else { v with mhz := 1400 }) s

/-- A die in full service. -/
def Machine.State.riseDie (s : State) (d : Nat) : State :=
  let s := s.riseClocks d
  { s with diesvc := setBit s.diesvc d true }

theorem OnlyIslands.riseClocks (s : State) (d : Nat) : OnlyIslands s (s.riseClocks d) :=
  OnlyIslands.fold (fun i => 4 * d + i) (fun _ v => if v.hot then v else { v with mhz := 1400 }) (List.range 4) s

theorem riseDie_rest (s : State) (d : Nat) : { s.riseDie d with isl := s.isl, diesvc := s.diesvc } = s :=
  (congrArg (fun x : State => { x with diesvc := s.diesvc }) (OnlyIslands.riseClocks s d) :)

theorem diesvc_riseDie (s : State) (d : Nat) : (s.riseDie d).diesvc = setBit s.diesvc d true :=
  (congrArg (fun x : State => setBit x.diesvc d true) (OnlyIslands.riseClocks s d) :)

theorem riseDies_rest (ds : List Nat) (s : State) : { ds.foldl State.riseDie s with isl := s.isl, diesvc := s.diesvc } = s :=
  foldl_keeps (R := fun s t => { t with isl := s.isl, diesvc := s.diesvc } = s) (fun _ => rfl)
    (fun {s _ _} h g => (congrArg (fun x : State => { x with isl := s.isl, diesvc := s.diesvc }) g :).trans h) riseDie_rest ds s

theorem diesvc_riseDies (ds : List Nat) (i : Nat) : ∀ s : State, (∀ d ∈ ds, d < 4) →
    (ds.foldl State.riseDie s).diesvc.getLsbD i = (s.diesvc.getLsbD i || decide (i ∈ ds)) := by
  induction ds with
  | nil => exact fun _ _ => by simp
  | cons d r ih =>
    intro s h
    have step : (s.riseDie d).diesvc.getLsbD i = if i = d then true else s.diesvc.getLsbD i := by
      rw [diesvc_riseDie, getLsbD_setBit _ _ _ _ (h d List.mem_cons_self)]
    rw [List.foldl_cons, ih _ fun e he => h e (List.mem_cons_of_mem _ he), step]
    by_cases hi : i = d
    · simp [hi]
    · simp [hi]

/-- The dies that can leave reduced service. -/
def Machine.State.risen (s : State) : State := ((List.range 4).filter fun d => s.dieTrained d && !s.diesvc.getLsbD d).foldl State.riseDie s

/-- The module in stage 4 once all its dies are in full service. -/
def Machine.State.promoted (s : State) : State := if s.diesvc = 15#4 then { s with stage := 4 } else s

theorem fullService_eq {s : State} (h : s.stage = 3) : s.fullService = s.risen.promoted := by
  unfold State.fullService State.promoted State.risen State.riseDie State.riseClocks
  rw [if_neg (by omega)]

theorem risen_rest (s : State) : { s.risen with isl := s.isl, diesvc := s.diesvc } = s := riseDies_rest _ s

theorem promoted_rest (s : State) : { s.promoted with stage := s.stage } = s := by
  unfold State.promoted
  split
  · rfl
  · rfl

theorem stage_promoted {s : State} (h : s.stage = 3) : 3 ≤ s.promoted.stage ∧ (s.promoted.stage = 4 ↔ s.promoted.diesvc = 15#4) := by
  unfold State.promoted
  split
  · next full => exact ⟨Nat.le_succ 3, iff_of_true rfl full⟩
  · next short => exact ⟨h.ge, iff_of_false (by omega) short⟩

theorem served_congr {s t u : State} (h : served s t) (diesvc : u.diesvc = t.diesvc) (stage : u.stage = t.stage) (ended : u.trainEnded = t.trainEnded) :
    served s u := by
  unfold served State.dieTrained at h ⊢
  rwa [diesvc, stage, ended]

/-- The dies that have left reduced service, and the stage with them. -/
theorem fullService_spec {s : State} (h : s.stage = 3) :
    ∃ t, s.fullService = t ∧ { t with isl := s.isl, diesvc := s.diesvc, stage := s.stage } = s ∧ served s t ∧ 3 ≤ t.stage := by
  have rest := risen_rest s
  have promoted := promoted_rest s.risen
  have dies : ∀ d < 4, s.risen.diesvc.getLsbD d = (s.diesvc.getLsbD d || s.dieTrained d) := fun d hd => by
    have bit := diesvc_riseDies ((List.range 4).filter fun d => s.dieTrained d && !s.diesvc.getLsbD d) d s
      fun e he => List.mem_range.1 (List.mem_filter.1 he).1
    have listed : decide (d ∈ (List.range 4).filter fun d => s.dieTrained d && !s.diesvc.getLsbD d) = (s.dieTrained d && !s.diesvc.getLsbD d) := by
      simp [List.mem_filter, hd]
    rw [listed] at bit
    refine bit.trans ?_
    cases s.diesvc.getLsbD d
    · simp
    · simp
  rw [fullService_eq h]
  generalize s.risen = u at rest promoted dies
  obtain ⟨stage, last⟩ := stage_promoted (s := u) ((congrArg State.stage rest :).trans h)
  have trained : ∀ d, u.promoted.dieTrained d = s.dieTrained d := fun d =>
    (congrArg (fun x : State => x.dieTrained d) promoted :).trans (congrArg (fun x : State => x.dieTrained d) rest :)
  have diesvc : u.promoted.diesvc = u.diesvc := (congrArg State.diesvc promoted :)
  refine ⟨_, rfl, ?_, ⟨fun d hd => ?_, last⟩, stage⟩
  · exact (congrArg (fun x : State => { x with isl := s.isl, diesvc := s.diesvc, stage := s.stage }) promoted :).trans
      (congrArg (fun x : State => { x with stage := s.stage }) rest :)
  · rw [diesvc, trained]
    exact dies d hd

/-! ### Bring-up -/

/-- The images of the second stage measured. -/
def Machine.State.imagesMeasured (s : State) : State := ((s.measure 1 s.arg.bytes).measure 2 s.arg.bytes2).measure 3 s.arg.bytes3

theorem imagesMeasured_rest (s : State) : { s.imagesMeasured with meas := s.meas } = s := by
  unfold State.imagesMeasured State.measure
  rfl

theorem meas_imagesMeasured (s : State) : s.imagesMeasured.meas[0]? = s.meas[0]? ∧
    s.imagesMeasured.meas[1]? = (s.meas[1]?).map (fun m => extended m s.arg.bytes) ∧
    s.imagesMeasured.meas[2]? = (s.meas[2]?).map (fun m => extended m s.arg.bytes2) ∧
    s.imagesMeasured.meas[3]? = (s.meas[3]?).map (fun m => extended m s.arg.bytes3) := by
  unfold State.imagesMeasured
  simp [meas_measure]

/-- The caps locked, the device number and the routes written: the machine after the second stage. -/
def Machine.State.flashed (u : State) : State :=
  { u.lockCaps with
    devnum := BitVec.ofNat 6 u.arg.n, routes := (u.arg.routes.zipIdx.filter fun e => decide (e.2 < 64)).map fun e => (e.2, e.1), stage := 2 }

theorem island_flashed (u : State) (k : Nat) : u.flashed.island k = u.lockCaps.island k := rfl

theorem firmwareLoad_eq {s : State} (h : s.stage = 1) (hl : s.islock = false) :
    ∃ u : State, exec .stage2FirmwareLoad s = .next u.flashed ∧ OnlyIslands s.imagesMeasured u ∧
      (s.arg.caps.length = 24 → u.capSum = (s.arg.caps.map (·.toNat)).sum ∧ ∀ k < 24, (u.island k).cap = s.arg.caps.getD k 0#12) := by
  have caps : (if s.imagesMeasured.islock then [] else capList s.arg.caps) = capList s.arg.caps := if_neg (Bool.eq_false_iff.1 hl)
  refine ⟨s.imagesMeasured.setCaps (capList s.arg.caps), ?_, OnlyIslands.setCaps _ _, fun len => ⟨capSum_setCaps _ len, fun k hk => ?_⟩⟩
  · exact congrArg Host.Outcome.next ((if_neg (not_not.2 h)).trans (congrArg (fun cs => (s.imagesMeasured.setCaps cs).flashed) caps))
  · rw [island_setCaps _ hk (len ▸ hk)]

/-- What a firmware load writes taken back from a state. -/
def Machine.State.unloaded (s x : State) : State :=
  { x with stage := 1, islock := false, devnum := s.devnum, meas := s.meas, routes := s.routes, isl := s.isl, isdflt := s.isdflt }

theorem unloaded_flashed {s u : State} (h : s.stage = 1) (hl : s.islock = false) (only : OnlyIslands s.imagesMeasured u) : s.unloaded u.flashed = s :=
  calc s.unloaded u.flashed
    _ = s.unloaded u := (congrArg s.unloaded (lockCaps_rest u).1 :)
    _ = s.unloaded s.imagesMeasured := (congrArg s.unloaded only :)
    _ = s.unloaded s := (congrArg s.unloaded (imagesMeasured_rest s) :)
    _ = s := by rw [State.unloaded, ← h, ← hl]

theorem firmwareLoad_spec {s : State} (h : s.stage = 1) (hl : s.islock = false) :
    ∃ t, exec .stage2FirmwareLoad s = .next t ∧ t.stage = 2 ∧ t.islock = true ∧
      t.devnum = BitVec.ofNat 6 s.arg.n ∧ t.meas[0]? = s.meas[0]? ∧ t.meas[1]? = (s.meas[1]?).map (fun m => extended m s.arg.bytes) ∧
      t.meas[2]? = (s.meas[2]?).map (fun m => extended m s.arg.bytes2) ∧ t.meas[3]? = (s.meas[3]?).map (fun m => extended m s.arg.bytes3) ∧
      (s.arg.caps.length = 24 → (s.arg.caps.map (·.toNat)).sum ≤ 2600 → ∀ k, k < 24 → (t.island k).cap = s.arg.caps.getD k 0#12) ∧
      (s.arg.caps.length = 24 → 2600 < (s.arg.caps.map (·.toNat)).sum → t.isdflt = true ∧ ∀ k, k < 24 → (t.island k).cap = defaultCap k) ∧
      (∀ d, d < 64 → Tab.get 0#16 t.routes d = s.arg.routes.getD d 0#16) ∧
      { t with stage := 1, islock := false, devnum := s.devnum, meas := s.meas, routes := s.routes, isl := s.isl, isdflt := s.isdflt } = s := by
  obtain ⟨u, run, only, caps⟩ := firmwareLoad_eq h hl
  obtain ⟨rest, locked⟩ := lockCaps_rest u
  have arg : u.arg = s.arg := (congrArg State.arg only :)
  have unlocked : u.islock = false := (congrArg State.islock only :).trans hl
  have meas : u.flashed.meas = s.imagesMeasured.meas := (congrArg State.meas rest :).trans (congrArg State.meas only :)
  obtain ⟨m0, m1, m2, m3⟩ := meas_imagesMeasured s
  rw [← meas] at m0 m1 m2 m3
  refine ⟨_, run, rfl, locked, congrArg (fun x : StepArg => BitVec.ofNat 6 x.n) arg, m0, m1, m2, m3, fun len sum k hk => ?_, fun len sum => ?_,
    fun d hd => ?_, unloaded_flashed h hl only⟩
  · obtain ⟨total, cap⟩ := caps len
    rw [island_flashed, lockCaps_kept unlocked (total ▸ sum)]
    exact cap k hk
  · obtain ⟨w, lock, -, island⟩ := lockCaps_defaults unlocked ((caps len).1 ▸ sum)
    refine ⟨(congrArg State.isdflt lock :), fun k hk => ?_⟩
    rw [island_flashed, lock]
    show (w.island k).cap = defaultCap k
    rw [island k hk]
  · exact (get_routes u.arg.routes hd).trans (by rw [arg])

/-- The end of a stack's training. -/
theorem stackTrainingEnd_eq {s : State} (h : s.stage = 3) (hn : s.arg.n < 12) (he : s.trainEnded.getLsbD s.arg.n = false) :
    exec .stackTrainingEnd s = .next (
      if s.arg.ok then ({ s with trained := setBit s.trained s.arg.n true, trainEnded := setBit s.trainEnded s.arg.n true } : State).fullService
      else
        let u : State := { s with trainFails := Tab.put s.trainFails s.arg.n (Tab.get 0 s.trainFails s.arg.n + 1) }
        if 3 ≤ Tab.get 0 s.trainFails s.arg.n + 1 then
          ({ u with failed := setBit s.failed s.arg.n true, trainEnded := setBit s.trainEnded s.arg.n true } : State).fullService
        else u) := by
  have skip : ¬(s.stage < 3 ∨ 12 ≤ s.arg.n ∨ s.trainEnded.getLsbD s.arg.n) := fun c => by
    rcases c with c | c | c
    · omega
    · omega
    · exact Bool.false_ne_true (he.symm.trans c)
  exact congrArg Host.Outcome.next (if_neg skip)

theorem stackTrainingEnd_spec {s : State} (h : s.stage = 3) (hn : s.arg.n < 12) (he : s.trainEnded.getLsbD s.arg.n = false) :
    ∃ t, exec .stackTrainingEnd s = .next t ∧
      t.trained = (if s.arg.ok then setBit s.trained s.arg.n true else s.trained) ∧
      t.failed = (if !s.arg.ok && decide (2 ≤ Tab.get 0 s.trainFails s.arg.n) then setBit s.failed s.arg.n true else s.failed) ∧
      (s.arg.ok = false → Tab.get 0 t.trainFails s.arg.n = Tab.get 0 s.trainFails s.arg.n + 1) ∧
      t.trainEnded.getLsbD s.arg.n = (s.arg.ok || decide (2 ≤ Tab.get 0 s.trainFails s.arg.n)) ∧
      (s.arg.ok = true ∨ 2 ≤ Tab.get 0 s.trainFails s.arg.n → served s t) := by
  have ended : (setBit s.trainEnded s.arg.n true).getLsbD s.arg.n = true := (getLsbD_setBit _ _ _ _ hn).trans (if_pos rfl)
  refine ⟨_, stackTrainingEnd_eq h hn he, ?_⟩
  cases hok : s.arg.ok with
  | true =>
    obtain ⟨t, service, rest, dies, -⟩ := fullService_spec
      (s := { s with trained := setBit s.trained s.arg.n true, trainEnded := setBit s.trainEnded s.arg.n true }) h
    rw [if_pos rfl, service]
    exact ⟨(congrArg State.trained rest :), (congrArg State.failed rest :), nofun,
      (congrArg (fun x : State => x.trainEnded.getLsbD s.arg.n) rest :).trans ended, fun _ => dies⟩
  | false =>
    dsimp only
    rw [if_neg Bool.false_ne_true]
    by_cases hf : 2 ≤ Tab.get 0 s.trainFails s.arg.n
    · obtain ⟨t, service, rest, dies, -⟩ := fullService_spec
        (s := { s with trainFails := Tab.put s.trainFails s.arg.n (Tab.get 0 s.trainFails s.arg.n + 1),
                       failed := setBit s.failed s.arg.n true, trainEnded := setBit s.trainEnded s.arg.n true }) h
      rw [if_pos (by omega), decide_eq_true hf, service]
      exact ⟨(congrArg State.trained rest :), (congrArg State.failed rest :),
        fun _ => (congrArg (fun x : State => Tab.get 0 x.trainFails s.arg.n) rest :).trans (Tab.get_put_same ..),
        (congrArg (fun x : State => x.trainEnded.getLsbD s.arg.n) rest :).trans ended, fun _ => dies⟩
    · rw [if_neg (by omega), decide_eq_false hf]
      exact ⟨rfl, rfl, fun _ => Tab.get_put_same .., he, fun g => by simp [hf] at g⟩

theorem reducedService_spec {s : State} (h : s.stage = 2) :
    ∃ t, exec .stage3ReducedService s = .next t ∧ 3 ≤ t.stage ∧ served s t ∧ t.trained = s.trained ∧ t.failed = s.failed := by
  have run : exec .stage3ReducedService s = .next ({ s with stage := 3 } : State).fullService.nextCommand := congrArg Host.Outcome.next (if_pos h)
  obtain ⟨t, service, rest, dies, stage⟩ := fullService_spec (s := { s with stage := 3 }) rfl
  have taken := (nextCommand_keeps t).1
  rw [service] at run
  have stage' : t.nextCommand.stage = t.stage := (congrArg State.stage taken :)
  exact ⟨_, run, stage'.symm ▸ stage, served_congr dies (congrArg State.diesvc taken :) stage' (congrArg State.trainEnded taken :),
    (congrArg State.trained taken :).trans (congrArg State.trained rest :), (congrArg State.failed taken :).trans (congrArg State.failed rest :)⟩

theorem romMeasure_spec {s : State} (h : s.stage = 0) : ∃ t, exec .romMeasureFirmware s = .next t ∧ t.stage = 1 ∧
    t.meas[0]? = (s.meas[0]?).map (fun m => extended m s.arg.bytes) ∧ { t with stage := s.stage, meas := s.meas } = s := by
  have run : exec .romMeasureFirmware s = .next { s.measure 0 s.arg.bytes with stage := 1 } := congrArg Host.Outcome.next (if_pos h)
  exact ⟨_, run, rfl, meas_measure s 0 s.arg.bytes 0, rfl⟩

/-- Bring-up, step by step. -/
theorem bringUp : BringUp := by
  intro s
  refine ⟨fun h _ => romMeasure_spec h, fun h _ hl => firmwareLoad_spec h hl,
    fun hl sum => congrArg Host.Outcome.next (lockCaps_kept hl sum), fun hl sum => ?_,
    fun hl => congrArg Host.Outcome.next (lockCaps_locked hl), fun h _ => reducedService_spec h, fun h => ?_,
    fun h _ hn he => stackTrainingEnd_spec h hn he⟩
  · obtain ⟨u, lock, only, island⟩ := lockCaps_defaults hl sum
    refine ⟨_, congrArg Host.Outcome.next lock, (congrArg State.islock only :), rfl, island, ?_⟩
    rw [← hl]
    exact (congrArg (fun x : State => { x with islock := s.islock, isdflt := s.isdflt }) only :)
  · exact congrArg Host.Outcome.next (if_pos (.inl h))

/-- Settles O29: the cold resets and the halt of the module, and bring-up stage by stage. -/
theorem resetsAndBringUp : Obligations.ResetsAndBringUp := ⟨coldResets, bringUp⟩

end Sys2Proof

/-! ## Power samples (spec/03_bringup.md R66) -/

namespace Sys2Proof

open Machine

theorem clockRange_eq (k : Nat) : clockRange k = if 20 ≤ k then none else some (if k < 16 then (50, 700, 1400) else (100, 1400, 2800)) := by
  unfold clockRange
  by_cases low : k < 16
  · rw [if_pos low, if_neg (by omega), if_pos low]
  · rw [if_neg low, if_neg low]
    by_cases mid : k < 20
    · rw [if_pos mid, if_neg (by omega)]
    · rw [if_neg mid, if_pos (by omega)]

/-- A sample changes the island, and a temperature of 115 °C makes its thermal halt due. -/
theorem sampleIsland_eq (s : State) (k w t : Nat) : ∃ f : Island → Island,
    s.sampleIsland k w t = (if 115 ≤ t then (s.updIsland k f).soon .thermalHalt { n := k } else s.updIsland k f) ∧
    (f (s.island k)).watts = BitVec.ofNat 12 w ∧ (f (s.island k)).temp = BitVec.ofNat 8 t ∧ (f (s.island k)).cap = (s.island k).cap ∧
    (f (s.island k)).mhz = nextClock s k w t ∧
    ((f (s.island k)).throttled = true ↔ 20 ≤ k ∧ ((w :: (s.island k).samples).take 8).length = 8 ∧
      8 * (s.island k).cap.toNat < ((w :: (s.island k).samples).take 8).sum) := by
  refine ⟨_, rfl, rfl, rfl, rfl, ?_, ?_⟩
  · have climbs : ∀ (p : Prop) [Decidable p] (n : Nat), 64 ≤ (if p then n + 1 else 0) ↔ p ∧ 63 ≤ n := fun p _ n => by
      by_cases h : p
      · simp [h]
      · simp [h]
    unfold nextClock State.clockMax
    dsimp only
    simp only [Bool.or_eq_true, Bool.and_eq_true, decide_eq_true_eq, climbs, clockRange_eq, Bool.not_eq_true']
    generalize (if k < 16 then ((50, 700, 1400) : Nat × Nat × Nat) else (100, 1400, 2800)) = range
    obtain ⟨step, lo, hi⟩ := range
    by_cases fixed : 20 ≤ k
    · rw [if_pos fixed, if_pos fixed]
    · rw [if_neg fixed, if_neg fixed]
  · have none' : (clockRange k).isNone = true ↔ 20 ≤ k := by
      rw [clockRange_eq]
      by_cases fixed : 20 ≤ k
      · simp [fixed]
      · simp [fixed]
    simp only [Bool.and_eq_true, decide_eq_true_eq, none']

theorem islandSamples : IslandSamples := by
  intro s k hk high run w tc l
  obtain ⟨f, sample, watts, temp, cap, mhz, throttled⟩ := sampleIsland_eq s k w tc
  have step : exec .islandPowerSample s = .next (s.sampleIsland k w tc) := by
    subst hk
    exact congrArg Host.Outcome.next (if_pos ⟨high, by rw [run]; rfl⟩)
  have bound : w < 2 ^ 12 ∧ tc < 2 ^ 8 := ⟨BitVec.isLt _, BitVec.isLt _⟩
  have island : ∀ m, (s.sampleIsland k w tc).island m = if m = k then f (s.island k) else s.island m := fun m => by
    have same : (s.sampleIsland k w tc).isl = (s.updIsland k f).isl := by
      rw [sample]
      split
      · rfl
      · rfl
    exact (island_congr same m).trans (island_updIsland s k m f)
  refine ⟨_, step, ?_⟩
  rw [island k, if_pos rfl, watts, temp, mhz, cap, throttled]
  refine ⟨BitVec.toNat_ofNat .. |>.trans (Nat.mod_eq_of_lt bound.1), BitVec.toNat_ofNat .. |>.trans (Nat.mod_eq_of_lt bound.2), rfl, Iff.rfl, rfl,
    fun m hm => (island m).trans (if_neg hm), ?_⟩
  rw [sample]
  by_cases hot : 115 ≤ tc
  · rw [if_pos hot]
    exact ⟨rfl, fun _ => State.mem_agenda_push.2 (.inl rfl), fun cool => absurd hot (Nat.not_le.2 cool)⟩
  · rw [if_neg hot]
    exact ⟨rfl, fun h => absurd h hot, fun _ => rfl⟩

end Sys2Proof

/-! ## The report and register writes (spec/03_bringup.md R63, R67; spec/04_launch.md R69, R70; spec/20_faults.md R375, R389) -/

namespace Sys2Proof

open Machine

/-! ### Words of wide registers -/

theorem getLsbD_putWord {n : Nat} (v : BitVec n) (w : Nat) (x : Word) (i : Nat) (hi : i < n) :
    (putWord v w x).getLsbD i = if 64 * w ≤ i ∧ i < 64 * w + 64 then x.getLsbD (i - 64 * w) else v.getLsbD i := by
  have ones : ∀ j, (0xFFFFFFFFFFFFFFFF#64).getLsbD j = decide (j < 64) := fun j => by
    rw [show (0xFFFFFFFFFFFFFFFF#64 : BitVec 64) = BitVec.allOnes 64 by decide, BitVec.getLsbD_allOnes]
  unfold putWord
  simp only [BitVec.getLsbD_or, BitVec.getLsbD_and, BitVec.getLsbD_not, BitVec.getLsbD_shiftLeft, BitVec.getLsbD_setWidth, ones]
  by_cases low : i < 64 * w
  · simp [low, hi, show ¬64 * w ≤ i by omega]
  · by_cases high : i < 64 * w + 64
    · simp [low, high, hi, show 64 * w ≤ i by omega, show i - 64 * w < 64 by omega, show i - 64 * w < n by omega]
    · have out : x.getLsbD (i - 64 * w) = false := BitVec.getLsbD_of_ge _ _ (by omega)
      simp [low, high, hi, out, show ¬i - 64 * w < 64 by omega]

/-- The words of a register after one of them is written. -/
theorem word_putWord {n : Nat} (v : BitVec n) (w m : Nat) (x : Word) (h : 64 * m + 64 ≤ n) :
    (putWord v w x).extractLsb' (64 * m) 64 = if m = w then x else v.extractLsb' (64 * m) 64 := by
  ext i hi
  rw [BitVec.getElem_extractLsb', getLsbD_putWord v w x _ (by omega)]
  by_cases same : m = w
  · subst same
    rw [if_pos rfl, if_pos (by omega), Nat.add_sub_cancel_left, BitVec.getLsbD_eq_getElem hi]
  · rw [if_neg same, if_neg (by omega), BitVec.getElem_extractLsb']

/-! ### Register writes -/

/-- A register write by its space. -/
theorem registerWrite_eq {s : State} {v : RegSpace} (h : s.arg.space = v) :
    exec .registerWrite s = .next (s.writeRegister { s.arg with space := v }) := by
  rw [← h]
  rfl

theorem registerWrite_bar {s : State} (h : s.arg.space = .bar0) (aligned : s.arg.n % 8 = 0) :
    exec .registerWrite s = .next (if s.arg.who = .supervisor then s else s.writeBar s.arg.who s.arg.n s.arg.w0) := by
  rw [registerWrite_eq h]
  refine congrArg Host.Outcome.next ?_
  show (if s.arg.who = .supervisor ∨ s.arg.n % 8 ≠ 0 then s else s.writeBar s.arg.who s.arg.n s.arg.w0) = _
  simp [aligned]

theorem writeBar_nonce (s : State) (who : Agent) (v : Word) {i : Nat} (h : i < 4) : s.writeBar who (0x1210 + 8 * i) v =
    if who = .host then { s with nonce := putWord s.nonce i v } else s := by
  have word : (0x1210 + 8 * i - 0x1210) / 8 = i := by omega
  refine (if_pos (by omega)).trans ?_
  rw [word]

theorem writeBar_repaddr (s : State) (who : Agent) (v : Word) : s.writeBar who 0x1230 v = if who = .host then { s with repaddr := v } else s := rfl

theorem writeBar_cap (s : State) (who : Agent) (v : Word) {k : Nat} (h : k < 24) : s.writeBar who (0x1240 + 8 * k) v =
    if who = .mgmt ∧ s.islock = false then s.updIsland k fun x => { x with cap := v.extractLsb' 0 12 } else s := by
  have island : (0x1240 + 8 * k - 0x1240) / 8 = k := by omega
  unfold State.writeBar
  dsimp only
  rw [if_neg (by omega), if_neg (by omega), if_neg (by omega), if_pos (by omega), island]
  simp only [Bool.not_eq_true']

theorem writeBar_mcctl (s : State) (who : Agent) (v : Word) : s.writeBar who 0x1410 v = { s with mcctl := v.extractLsb' 0 8 } := rfl

theorem registerWrite_nonce {s : State} (hs : s.arg.space = .bar0) {i : Nat} (hi : i < 4) (hn : s.arg.n = 0x1210 + 8 * i) :
    ∃ t, exec .registerWrite s = .next t ∧ { t with nonce := s.nonce } = s ∧ (s.arg.who ≠ .host → t.nonce = s.nonce) ∧
      (s.arg.who = .host → ∀ m, m < 4 → t.nonce.extractLsb' (64 * m) 64 = if m = i then s.arg.w0 else s.nonce.extractLsb' (64 * m) 64) := by
  refine ⟨_, registerWrite_bar hs (by omega), ?_⟩
  rw [hn, writeBar_nonce s s.arg.who s.arg.w0 hi]
  cases hw : s.arg.who with
  | host => exact ⟨rfl, fun h => absurd rfl h, fun _ m hm => word_putWord s.nonce i m s.arg.w0 (by omega)⟩
  | supervisor => exact ⟨rfl, fun _ => rfl, nofun⟩
  | mgmt => exact ⟨rfl, fun _ => rfl, nofun⟩

theorem registerWrite_repaddr {s : State} (hs : s.arg.space = .bar0) (hn : s.arg.n = 0x1230) :
    exec .registerWrite s = .next (if s.arg.who = .host then { s with repaddr := s.arg.w0 } else s) := by
  rw [registerWrite_bar hs (by omega), hn, writeBar_repaddr]
  cases s.arg.who
  all_goals rfl

theorem registerWrite_cap {s : State} (hs : s.arg.space = .bar0) {k : Nat} (hk : k < 24) (hn : s.arg.n = 0x1240 + 8 * k) :
    exec .registerWrite s = .next (
      if s.arg.who = .mgmt ∧ s.islock = false then s.updIsland k fun v => { v with cap := s.arg.w0.extractLsb' 0 12 } else s) := by
  rw [registerWrite_bar hs (by omega), hn, writeBar_cap s _ _ hk]
  cases s.arg.who
  all_goals simp

theorem registerWrite_period {s : State} (hs : s.arg.space = .gvtPeriod) :
    ∃ t, exec .registerWrite s = .next t ∧ { t with treectl := s.treectl } = s ∧
    (s.arg.who ≠ .mgmt → t.treectl = s.treectl) ∧
    (s.arg.who = .mgmt → t.treectl.extractLsb' 0 6 = s.arg.w0.extractLsb' 0 6 ∧ t.treectl.extractLsb' 6 58 = s.treectl.extractLsb' 6 58) := by
  have run : exec .registerWrite s = .next (
      if s.arg.who = .mgmt then { s with treectl := s.treectl.extractLsb' 6 58 ++ s.arg.w0.extractLsb' 0 6 } else s) :=
    registerWrite_eq hs
  have low : (s.treectl.extractLsb' 6 58 ++ s.arg.w0.extractLsb' 0 6).extractLsb' 0 6 = s.arg.w0.extractLsb' 0 6 :=
    (BitVec.extractLsb'_append_eq_of_add_le (by decide)).trans BitVec.extractLsb'_eq_self
  have high : (s.treectl.extractLsb' 6 58 ++ s.arg.w0.extractLsb' 0 6).extractLsb' 6 58 = s.treectl.extractLsb' 6 58 :=
    (BitVec.extractLsb'_append_eq_of_le (by decide)).trans BitVec.extractLsb'_eq_self
  refine ⟨_, run, ?_⟩
  by_cases hw : s.arg.who = .mgmt
  · rw [if_pos hw]
    exact ⟨rfl, fun h => absurd hw h, fun _ => ⟨low, high⟩⟩
  · rw [if_neg hw]
    exact ⟨rfl, fun _ => rfl, fun h => absurd h hw⟩

theorem registerWrite_wctl {s : State} {c : CoreId} (hs : s.arg.space = .wctl c) (hr : s.arg.w0.getLsbD 8 = false) :
    ∃ t, exec .registerWrite s = .next t ∧ { t with cores := s.cores } = s ∧
    (s.arg.who = .supervisor → t.core c = { s.core c with wctlS := s.arg.w0 &&& 0x3F#64 }) ∧
    (s.arg.who = .mgmt → t.core c = { s.core c with wctlM := s.arg.w0 &&& 0x3F#64 }) ∧ (s.arg.who = .host → t = s) := by
  have run : exec .registerWrite s = .next (if s.arg.who = .host then s else s.writeWctl s.arg.who c s.arg.w0) := registerWrite_eq hs
  have wrote : s.writeWctl s.arg.who c s.arg.w0 = s.updCore c fun x =>
      if s.arg.who = .supervisor then { x with wctlS := s.arg.w0 &&& 0x3F#64 } else { x with wctlM := s.arg.w0 &&& 0x3F#64 } :=
    if_neg (Bool.eq_false_iff.1 hr)
  rw [wrote] at run
  refine ⟨_, run, ?_⟩
  cases hw : s.arg.who with
  | host => exact ⟨rfl, nofun, nofun, fun _ => rfl⟩
  | supervisor =>
    rw [if_neg (by decide)]
    exact ⟨rfl, fun _ => (State.core_updCore_same s c _).trans (if_pos rfl), nofun, nofun⟩
  | mgmt =>
    rw [if_neg (by decide)]
    exact ⟨rfl, nofun, fun _ => (State.core_updCore_same s c _).trans (if_neg (by decide)), nofun⟩

/-! ### Stores by physical address -/

theorem outside_of_isHost {a : Nat} (h : isHost a = true) : isTier a = false ∧ isLocal a = false := by
  unfold isHost at h
  unfold isTier isHbm isCap isLocal
  simp only [Bool.and_eq_true, decide_eq_true_eq] at h
  simp only [Bool.or_eq_false_iff, Bool.and_eq_false_iff, decide_eq_false_iff_not]
  omega

theorem ownWrite_host (s : State) (by' : Option (JobId × BitVec 8)) (j : JobId) (pln : Bool) (kind : BitVec 2) {a : Nat} (bs : List Byte)
    (h : isHost a = true) :
    s.ownWrite by' j pln kind a bs = { s with mem := Memory.write s.mem a bs, hostTs := wmax s.hostTs s.topTime } := by
  obtain ⟨tier, loc⟩ := outside_of_isHost h
  unfold State.ownWrite State.memWrite State.leaveTime
  simp only [tier, loc, h, Bool.false_eq_true, if_false, if_true]

theorem physStore_host (s : State) (x : StepArg) {a : Nat} {bs : List Byte} (h : isHost a = true) (filled : bs ≠ [])
    (line : a % 128 + bs.length ≤ 128) :
    s.physStore x a bs = { s with mem := Memory.write s.mem a bs, hostTs := wmax s.hostTs s.topTime,
                                  physDone := s.physDone ++ [(x.who, BitVec.ofNat 46 a)] } := by
  obtain ⟨tier, loc⟩ := outside_of_isHost h
  unfold State.physStore
  dsimp only
  rw [if_neg (not_or.2 ⟨filled, by omega⟩), if_neg (by simp [tier]), if_pos (.inl h), ownWrite_host s none 0 true 0 bs h]

theorem registerWrite_phys {s : State} {pa : BitVec 46} {n : Nat} (hs : s.arg.space = .phys pa n) (host : isHost pa.toNat = true) (hn : 0 < n)
    (line : pa.toNat % 128 + min n 8 ≤ 128) : ∃ t, exec .registerWrite s = .next t ∧
      t.mem = (if s.arg.who = .host then s.mem else Memory.write s.mem pa.toNat (bytesOf (min n 8) s.arg.w0)) ∧
      t.physDone = s.physDone ++ (if s.arg.who = .host then [] else [(s.arg.who, pa)]) := by
  have run : exec .registerWrite s = .next (if s.arg.who = .host then s
      else s.physStore { s.arg with space := .phys pa n } pa.toNat (bytesOf (min n 8) s.arg.w0)) := registerWrite_eq hs
  have len : (bytesOf (min n 8) s.arg.w0).length = min n 8 := length_bytesOf _ _
  refine ⟨_, run, ?_⟩
  by_cases hw : s.arg.who = .host
  · simp only [if_pos hw, List.append_nil, and_self]
  · have filled : bytesOf (min n 8) s.arg.w0 ≠ [] := List.ne_nil_of_length_pos (by omega)
    simp only [if_neg hw]
    rw [physStore_host s _ host filled (len.symm ▸ line), BitVec.ofNat_toNat, BitVec.setWidth_eq]
    exact ⟨rfl, rfl⟩

/-! ### Mailboxes -/

/-- Steps that are put on the agenda one after another are all due at once; nothing else changes. -/
theorem foldl_soon {α : Type} (i : Instr) (x : α → StepArg) (l : List α) : ∀ s : State,
    { l.foldl (fun s e => s.soon i (x e)) s with agenda := s.agenda } = s ∧
    ∀ e, e ∈ (l.foldl (fun s e => s.soon i (x e)) s).agenda ↔ (∃ y ∈ l, e = (s.now, i, x y)) ∨ e ∈ s.agenda := by
  induction l with
  | nil => exact fun s => ⟨rfl, fun e => by simp⟩
  | cons y r ih =>
    intro s
    obtain ⟨rest, due⟩ := ih (s.soon i (x y))
    refine ⟨(congrArg (fun t : State => { t with agenda := s.agenda }) rest :), fun e => (due e).trans ?_⟩
    have pushed : e ∈ (s.soon i (x y)).agenda ↔ e = (s.now, i, x y) ∨ e ∈ s.agenda := State.mem_agenda_push
    rw [pushed, State.soon_now, List.exists_mem_cons_iff, or_left_comm, or_assoc]

theorem registerWrite_mailbox {s : State} {cl : ClusterId} (hs : s.arg.space = .mailbox cl) (hw : s.arg.who = .supervisor) :
    ∃ t, exec .registerWrite s = .next t ∧
      { t with clusters := s.clusters, agenda := s.agenda } = s ∧ t.cluster cl = { s.cluster cl with mbox := (s.cluster cl).mbox.drop 1 } ∧
      ∀ e ∈ s.cores, e.1 / 64 = cl.toNat → e.2.pktq ≠ [] →
        (s.now, Instr.packetDelivery, ({ c := BitVec.ofNat 12 e.1 } : StepArg)) ∈ t.agenda := by
  let u := s.updCluster cl fun v => { v with mbox := v.mbox.drop 1 }
  have run : exec .registerWrite s = .next (s.takePacket cl) := (registerWrite_eq hs).trans (congrArg Host.Outcome.next (if_pos hw))
  obtain ⟨rest, due⟩ := foldl_soon .packetDelivery (fun e : Nat × Core => { c := BitVec.ofNat 12 e.1 })
    (s.cores.filter fun (e : Nat × Core) => e.1 / 64 == cl.toNat && e.2.pktq != []) u
  refine ⟨_, run, (congrArg (fun t : State => { t with clusters := s.clusters }) rest :), ?_, fun e he hc hq => ?_⟩
  · exact (congrArg (fun t : State => t.cluster cl) rest :).trans (State.cluster_updCluster_same s cl _)
  · exact (due _).2 (.inl ⟨e, List.mem_filter.2 ⟨he, by simp [hc, hq]⟩, rfl⟩)

/-! ### The report -/

theorem reportComplete_spec {s : State} {a : Word} {bs : List Byte} (h : s.report = some (a, bs)) :
    ∃ t, exec .reportComplete s = .next t ∧ t.repGo = false ∧ t.report = none ∧
      (s.arg.ok = true → t.repDone = true ∧ t.repErr = s.repErr ∧ t.mem = Memory.write s.mem (hostAddr a) bs) ∧
      (s.arg.ok = false → t.repErr = true ∧ t.repDone = s.repDone ∧ t.mem = s.mem) ∧
      { t with repGo := s.repGo, report := s.report, repDone := s.repDone, repErr := s.repErr, mem := s.mem } = s := by
  let u : State := { s with report := none, repGo := false }
  have run : exec .reportComplete s = .next (
      if s.arg.ok then { u with mem := Memory.write u.mem (hostAddr a) bs, repDone := true } else { u with repErr := true }) := by
    show execReportComplete s = _
    unfold execReportComplete
    rw [h]
  refine ⟨_, run, ?_⟩
  cases s.arg.ok with
  | true => exact ⟨rfl, rfl, fun _ => ⟨rfl, rfl, rfl⟩, nofun, rfl⟩
  | false => exact ⟨rfl, rfl, nofun, fun _ => ⟨rfl, rfl, rfl⟩, rfl⟩

theorem reportAndRegisters : ReportAndRegisters := by
  intro s
  refine ⟨fun h => congrArg Host.Outcome.next (if_neg (Bool.eq_false_iff.1 h)), fun h => congrArg Host.Outcome.next (if_pos h),
    fun a bs h => reportComplete_spec h, fun hs i hi hn => registerWrite_nonce hs hi hn, registerWrite_repaddr,
    fun hs k hk hn => registerWrite_cap hs hk hn, fun hs hn hw => ?_, registerWrite_period,
    registerWrite_eq, fun d => registerWrite_eq, fun c hs hr => registerWrite_wctl hs hr, fun o => registerWrite_eq,
    fun pa n hs host hn line => registerWrite_phys hs host hn line, fun cl hs hw => registerWrite_mailbox hs hw⟩
  rw [registerWrite_bar hs (by omega), hn, hw, writeBar_mcctl]
  rfl

/-- Settles O31: samples of an island, and the report and the registers write by write. -/
theorem boardSteps : Obligations.BoardSteps := ⟨islandSamples, reportAndRegisters⟩

end Sys2Proof

/-! ## Bytes of a line that are replaced (spec/09_memory.md R190, R199) -/

namespace Sys2Proof.Machine

theorem extractLsb'_lineSet_one (l : Line) (b : Byte) {o i : Nat} (ho : o < 128) (hi : i < 128) :
    ((l &&& ~~~((0xFF#1024) <<< (8 * o))) ||| ((b.setWidth 1024) <<< (8 * o))).extractLsb' (8 * i) 8 =
      if i = o then b else l.extractLsb' (8 * i) 8 := by
  apply BitVec.eq_of_getLsbD_eq
  intro k hk
  have mask : ∀ n, (0xFF#1024).getLsbD n = decide (n < 8) := by
    intro n
    rw [BitVec.getLsbD_ofNat, show 0xFF = 2 ^ 8 - 1 from rfl, Nat.testBit_two_pow_sub_one]
    by_cases h : n < 8
    · simp [h]; omega
    · simp [h]
  simp only [BitVec.getLsbD_extractLsb', BitVec.getLsbD_or, BitVec.getLsbD_and, BitVec.getLsbD_not, BitVec.getLsbD_shiftLeft, mask,
    BitVec.getLsbD_setWidth]
  by_cases h : i = o
  · subst h
    simp [hk, show 8 * i + k < 1024 by omega, show ¬8 * i + k < 8 * i by omega, show 8 * i + k - 8 * i = k by omega, show k < 1024 by omega]
  · rw [if_neg h]
    by_cases below : i < o
    · simp [hk, show 8 * i + k < 1024 by omega, show 8 * i + k < 8 * o by omega]
    · simp [hk, show 8 * i + k < 1024 by omega, show ¬8 * i + k < 8 * o by omega, show ¬8 * i + k - 8 * o < 8 by omega,
        BitVec.getLsbD_of_ge b (8 * i + k - 8 * o) (by omega)]

/-- A byte of a line in which bytes have been replaced. -/
theorem extractLsb'_lineSet (bs : List Byte) (l : Line) {off i : Nat} (fits : off + bs.length ≤ 128) (hi : i < 128) :
    (lineSet l off bs).extractLsb' (8 * i) 8 = if h : off ≤ i ∧ i - off < bs.length then bs[i - off]'h.2 else l.extractLsb' (8 * i) 8 := by
  induction bs generalizing l off with
  | nil => simp [lineSet]
  | cons b r ih =>
    rw [List.length_cons] at fits
    rw [lineSet, ih _ (by omega), extractLsb'_lineSet_one l b (by omega) hi]
    by_cases at' : i = off
    · subst at'
      simp
    · by_cases after : off + 1 ≤ i ∧ i - (off + 1) < r.length
      · rw [dif_pos after, dif_pos (by rw [List.length_cons]; omega)]
        simp only [show i - off = (i - (off + 1)) + 1 by omega, List.getElem_cons_succ]
      · rw [dif_neg after, if_neg at', dif_neg (by rw [List.length_cons]; omega)]

theorem lineSlice_lineSet (bs : List Byte) (l : Line) {off : Nat} (fits : off + bs.length ≤ 128) :
    lineSlice (lineSet l off bs) off bs.length = bs := by
  refine List.ext_getElem (by simp [lineSlice]) fun k _ hk => ?_
  simp only [lineSlice, List.getElem_map, List.getElem_range]
  rw [extractLsb'_lineSet bs l fits (by omega), dif_pos (by omega)]
  simp only [Nat.add_sub_cancel_left]

/-- A byte of a line with the bytes of a mask taken from another one. -/
theorem extractLsb'_mergeLine (old new : Line) (mask : BitVec 128) {i : Nat} (hi : i < 128) :
    (mergeLine old new mask).extractLsb' (8 * i) 8 = if mask.getLsbD i then new.extractLsb' (8 * i) 8 else old.extractLsb' (8 * i) 8 := by
  have upTo : ∀ n ≤ 128, ((List.range n).foldl (fun l k => if mask.getLsbD k then lineSet l k [new.extractLsb' (8 * k) 8] else l) old).extractLsb'
      (8 * i) 8 = if i < n ∧ mask.getLsbD i = true then new.extractLsb' (8 * i) 8 else old.extractLsb' (8 * i) 8 := by
    intro n
    induction n with
    | zero => exact fun _ => (if_neg (by omega)).symm
    | succ n ih =>
      intro hn
      rw [List.range_succ, List.foldl_append, List.foldl_cons, List.foldl_nil]
      by_cases here : i = n
      · subst here
        cases hm : mask.getLsbD i with
        | true =>
          rw [if_pos rfl, extractLsb'_lineSet _ _ (by simpa using hi) hi, dif_pos (by simp), if_pos ⟨by omega, rfl⟩]
          simp
        | false =>
          rw [if_neg Bool.false_ne_true, ih (by omega), if_neg (by omega), if_neg (by simp)]
      · have rest := ih (by omega)
        have same : (i < n + 1 ∧ mask.getLsbD i = true) ↔ (i < n ∧ mask.getLsbD i = true) := and_congr_left fun _ => by omega
        simp only [same]
        rw [← rest]
        split
        · rw [extractLsb'_lineSet _ _ (by simp; omega) hi, dif_neg (by simp; omega)]
        · rfl
  unfold mergeLine
  rw [upTo 128 (Nat.le_refl _)]
  simp only [hi, true_and]

theorem leBits_bytesOf (l : Line) : leBits 1024 (bytesOf 128 l) = l := by
  apply BitVec.eq_of_toNat_eq
  rw [leBits, bytesOf, leNat_toBytes, BitVec.toNat_ofNat]
  have := l.isLt
  rw [Nat.mod_eq_of_lt (a := l.toNat) (by omega), Nat.mod_eq_of_lt this]

/-! ## Bytes of one line of a tier (spec/09_memory.md R199, R200) -/

theorem rawLine_write (s : State) (ln : Nat) (l : Line) :
    ({ s with mem := Memory.write s.mem (128 * ln) (bytesOf 128 l) } : State).rawLine ln = l := by
  have whole := Memory.read_write s.mem (128 * ln) (bytesOf 128 l)
  rw [length_bytesOf] at whole
  unfold State.rawLine
  rw [whole, leBits_bytesOf]

section

variable {pa : Nat} {bs : List Byte} (fits : pa % 128 + bs.length ≤ 128)

include fits

/-- Bytes written under a key read under it as they were written. -/
theorem tierRead_tierWrite (s : State) (key : Option Key) : (s.tierWrite key pa bs).tierRead key pa bs.length = bs := by
  cases key with
  | none => exact Memory.read_write s.mem pa bs
  | some k =>
    have written : s.tierWrite (some k) pa bs = s.lineWrite k (pa / 128) (pa % 128) bs := if_pos fits
    rw [written]
    unfold State.tierRead State.lineWrite State.readLine
    rw [if_pos fits, rawLine_write]
    show lineSlice (xtsDec k (s.unitOf (pa / 128)) _) _ _ = _
    rw [xtsDec_xtsEnc]
    exact lineSlice_lineSet bs _ fits

theorem get_tierWrite_outside (s : State) (key : Option Key) {y : Nat} (h : y / 128 ≠ pa / 128) :
    Memory.get (s.tierWrite key pa bs).mem y = Memory.get s.mem y := by
  cases key with
  | none => exact Memory.get_write_outside bs (by omega)
  | some k =>
    rw [show s.tierWrite (some k) pa bs = s.lineWrite k (pa / 128) (pa % 128) bs from if_pos fits]
    exact Memory.get_write_outside _ (by rw [length_bytesOf]; omega)

/-- Nothing but bytes changes. -/
theorem tierWrite_rest (s : State) (key : Option Key) : { s.tierWrite key pa bs with mem := s.mem } = s := by
  cases key with
  | none => rfl
  | some k =>
    rw [show s.tierWrite (some k) pa bs = s.lineWrite k (pa / 128) (pa % 128) bs from if_pos fits]
    rfl

end

theorem length_tierRead (s : State) (key : Option Key) {pa n : Nat} (fits : pa % 128 + n ≤ 128) : (s.tierRead key pa n).length = n := by
  cases key with
  | none => exact Memory.length_read _ _ _
  | some k =>
    unfold State.tierRead
    rw [if_pos fits]
    simp [lineSlice]

/-- What memory holds decides what is read of a tier. -/
theorem tierRead_congr {s t : State} (mem : t.mem = s.mem) (dev : t.devnum = s.devnum) (key : Option Key) (pa n : Nat) :
    t.tierRead key pa n = s.tierRead key pa n := by
  have line : ∀ ln, t.readLine key ln = s.readLine key ln := by
    intro ln
    unfold State.readLine State.rawLine State.unitOf
    rw [mem, dev]
  unfold State.tierRead
  rw [mem]
  simp only [line]

theorem memRead_tier {a : Nat} (h : isTier a = true) (s : State) (key : Option Key) (n : Nat) : s.memRead key a n = s.tierRead key a n := if_pos h

theorem memWrite_tier {a : Nat} (h : isTier a = true) {s : State} (sound : s.poisons = []) (key : Option Key) {bs : List Byte}
    (fits : a % 128 + bs.length ≤ 128) : s.memWrite key a bs = s.tierWrite key a bs := by
  have kept : (s.tierWrite key a bs).poisons = [] := (congrArg State.poisons (tierWrite_rest fits s key) :).trans sound
  unfold State.memWrite State.clearPoison
  rw [if_pos h, if_pos kept]

end Sys2Proof.Machine

/-! ## Where a line has its home, and what its slice keeps of it (spec/09_memory.md R181, R184 to R186, R194) -/

namespace Sys2Proof.Machine

theorem homeSlice_line (a : Nat) : homeSlice (128 * (a / 128)) = homeSlice a := by
  unfold homeSlice
  rw [Nat.mul_div_cancel_left _ (by decide)]

/-- A line that a slice holds has the times that are kept there. -/
theorem Cluster.line_of_way {v : Cluster} {ln : Nat} {h : HomeLine} (e : Tab.get {} v.lines ln = h) (w : h.way.isSome) : v.line ln = h := by
  unfold Cluster.line
  rw [e]
  exact if_pos w

theorem Cluster.line_put {v : Cluster} {ln : Nat} {h : HomeLine} (w : h.way.isSome) :
    ({ v with lines := Tab.put v.lines ln h } : Cluster).line ln = h :=
  Cluster.line_of_way (Tab.get_put_same _ _ _ _) w

/-- A search that takes something of every element finds something in a list that is not empty. -/
theorem foldl_isSome {α β : Type} {f : Option β → α → Option β} (hf : ∀ b x, (f b x).isSome) {l : List α} (hl : l ≠ []) (b : Option β) :
    (l.foldl f b).isSome := by
  obtain ⟨r, x, rfl⟩ := (List.eq_nil_or_concat l).resolve_left hl
  rw [List.concat_eq_append, List.foldl_append]
  exact hf _ x

theorem oldestLine_eq_none {l : List (Nat × HomeLine)} : oldestLine l = none ↔ l = [] := by
  refine ⟨fun h => by_contra fun hl => ?_, fun h => h ▸ rfl⟩
  have found : (oldestLine l).isSome := by
    refine foldl_isSome (fun b x => ?_) hl none
    cases b with
    | none => rfl
    | some y =>
      dsimp only
      split <;> rfl
  rw [h] at found
  cases found

/-- An access leaves the line in its slice. -/
theorem Cluster.reside_way (v : Cluster) (now ln key : Nat) : ((v.reside now ln key).line ln).way.isSome := by
  have filled : ∀ (u : Cluster) (w : Nat),
      (({ u with lines := Tab.put u.lines ln { u.line ln with way := some w, used := now, key := key } } : Cluster).line ln).way.isSome := by
    intro u w
    rw [Cluster.line_put rfl]
    rfl
  unfold Cluster.reside
  dsimp only
  split
  · next w hw =>
    have here : ({ v.line ln with used := now } : HomeLine).way.isSome := by
      show (v.line ln).way.isSome
      rw [hw]
      rfl
    rw [Cluster.line_put here]
    exact here
  · split
    · exact filled v _
    · next none' =>
      split
      · exact filled _ _
      · next empty =>
        have nothing := oldestLine_eq_none.1 empty
        rw [nothing, List.find?_eq_none] at none'
        exact absurd rfl (none' 0 (by simp))

/-- An access to a line that its slice holds is noted there. -/
theorem Cluster.line_reside_of_way {v : Cluster} {ln : Nat} (w : (v.line ln).way.isSome) (now key : Nat) :
    (v.reside now ln key).line ln = { v.line ln with used := now } := by
  obtain ⟨x, hx⟩ := Option.isSome_iff_exists.1 w
  have here : ({ v.line ln with used := now } : HomeLine).way.isSome := w
  unfold Cluster.reside
  dsimp only
  rw [hx] at here ⊢
  exact Cluster.line_put here

theorem State.homeLine_congr {s t : State} {ln : Nat} (lines : (t.cluster (homeSlice (128 * ln))).lines = (s.cluster (homeSlice (128 * ln))).lines)
    (mts : (t.cluster (homeSlice (128 * ln))).mts = (s.cluster (homeSlice (128 * ln))).mts) : t.homeLine ln = s.homeLine ln := by
  unfold State.homeLine Cluster.line
  rw [lines, mts]

theorem State.homeLine_updLine {s : State} {ln : Nat} {f : HomeLine → HomeLine} (w : (f (s.homeLine ln)).way.isSome) :
    (s.updLine ln f).homeLine ln = f (s.homeLine ln) := by
  unfold State.updLine State.homeLine
  rw [State.cluster_updCluster_same]
  exact Cluster.line_put w

theorem Sends.homeLine {s t : State} (h : Sends s t) (ln : Nat) : t.homeLine ln = s.homeLine ln :=
  State.homeLine_congr (congrArg Cluster.lines (h.cluster _) :) (congrArg Cluster.mts (h.cluster _) :)

theorem State.homeLine_visit {s : State} (by' : Option (JobId × BitVec 8)) {a : Nat} (key : Nat) (tier : isTier a = true) :
    (s.visit by' a key).homeLine (a / 128) = ((s.cluster (homeSlice a)).reside s.now (a / 128) key).line (a / 128) := by
  unfold State.visit State.homeLine
  rw [homeSlice_line, tier, Bool.not_true, if_neg Bool.false_ne_true, State.cluster_updCluster_same]
  rfl

end Sys2Proof.Machine

/-! ## What a home does with a request that it serves -/

namespace Sys2Proof

open Machine

/-- A home has worked: nothing but memory, slices, frames' records and messages may differ. -/
structure Tends (s t : State) : Prop where
  rest : { t with mem := s.mem, clusters := s.clusters, frames := s.frames, frameHits := s.frameHits, msgs := s.msgs } = s

section

variable {s t u : State}

theorem Tends.refl (s : State) : Tends s s := ⟨rfl⟩

theorem Tends.trans (h : Tends s t) (g : Tends t u) : Tends s u where
  rest := by
    have h1 := h.rest
    have h2 := g.rest
    rw [← h1, ← h2]

theorem Tends.of_mem (h : { t with mem := s.mem } = s) : Tends s t where
  rest := by rw [← h]

theorem Visits.tends (h : Visits s t) : Tends s t where
  rest := by
    have h1 := h.rest
    rw [← h1]

theorem Tends.devnum (h : Tends s t) : t.devnum = s.devnum := (congrArg State.devnum h.rest :)
theorem Tends.jobs (h : Tends s t) : t.jobs = s.jobs := (congrArg State.jobs h.rest :)
theorem Tends.nextId (h : Tends s t) : t.nextId = s.nextId := (congrArg State.nextId h.rest :)
theorem Tends.poisons (h : Tends s t) : t.poisons = s.poisons := (congrArg State.poisons h.rest :)

theorem Tends.updCluster (s : State) (cl : ClusterId) (f : Cluster → Cluster) : Tends s (s.updCluster cl f) := ⟨rfl⟩
theorem Tends.updLine (s : State) (ln : Nat) (f : HomeLine → HomeLine) : Tends s (s.updLine ln f) := ⟨rfl⟩

theorem Tends.dropMsg (s : State) (n : Nat) : Tends s (s.dropMsg n) := by
  unfold State.dropMsg State.freePool
  split
  · dsimp only
    split <;> exact ⟨rfl⟩
  · exact ⟨rfl⟩

theorem Tends.tierWrite {pa : Nat} {bs : List Byte} (fits : pa % 128 + bs.length ≤ 128) (s : State) (key : Option Key) :
    Tends s (s.tierWrite key pa bs) := Tends.of_mem (tierWrite_rest fits s key)

theorem Tends.record (s : State) (r : Req) (kind : BitVec 2) : Tends s (s.record r kind) := by
  unfold State.record
  split
  · exact ⟨rfl⟩
  · exact Tends.refl s

theorem Tends.visitReq (s : State) (r : Req) : Tends s (s.visitReq r) := by
  unfold State.visitReq
  split
  · exact (Visits.visit s _ _ _).tends
  · exact Tends.refl s

theorem reqKey_congr (h : t.jobs = s.jobs) (r : Req) : t.reqKey r = s.reqKey r := by
  unfold State.reqKey State.keyOf State.job
  rw [h]

theorem mem_updLine (s : State) (ln : Nat) (f : HomeLine → HomeLine) : (s.updLine ln f).mem = s.mem := rfl

theorem mem_dropMsg (s : State) (n : Nat) : (s.dropMsg n).mem = s.mem := (Sends.dropMsg s n).mem

theorem mem_visitReq (s : State) (r : Req) : (s.visitReq r).mem = s.mem := (visitReq_keeps s r).2.1

theorem mem_record (s : State) (r : Req) (kind : BitVec 2) : (s.record r kind).mem = s.mem := by
  unfold State.record
  split <;> rfl

theorem homeLine_record (s : State) (r : Req) (kind : BitVec 2) (ln : Nat) : (s.record r kind).homeLine ln = s.homeLine ln := by
  have noted : ∀ (a : Nat) (d : BitVec 6), (s.trace a d r.core kind).homeLine ln = s.homeLine ln := by
    intro a d
    unfold State.trace
    refine State.homeLine_congr ?_ ?_
    all_goals
      rw [State.cluster_updCluster]
      split
      · next h => rw [h]
      · rfl
  unfold State.record
  split
  · exact noted _ _
  · rfl

end

/-! ### A request at its home -/

section

variable {s : State} {n : Nat} {r : Req} {size : Nat}

/-- The record of the line, once the home has the request and its message is gone. -/
theorem homeLine_visited (s : State) (n : Nat) (r : Req) : ((s.visitReq r).dropMsg n).homeLine (offOf r.pa / 128) = homeOf s r :=
  (Sends.dropMsg _ n).homeLine _

variable (h : AtHome s n r size)

include h

theorem AtHome.visit_eq (ha : r.kind.addressed = true) : s.visitReq r = s.visit (some (r.job, r.hg)) (offOf r.pa) (s.keyTag r.job r.pln) := by
  unfold State.visitReq
  rw [ha, h.own]
  simp

/-- A line that its home has reached stands in its slice. -/
theorem AtHome.homeOf_way (ha : r.kind.addressed = true) : (homeOf s r).way.isSome := by
  unfold homeOf
  rw [h.visit_eq ha, State.homeLine_visit _ _ h.tier]
  exact Cluster.reside_way _ _ _ _

/-- While the slice holds the line, a further access changes none of its times. -/
theorem AtHome.homeOf_later {t : State} (ha : r.kind.addressed = true) (dev : t.devnum = s.devnum) (w : (t.homeLine (offOf r.pa / 128)).way.isSome) :
    homeOf t r = { t.homeLine (offOf r.pa / 128) with used := t.now } := by
  have visit : t.visitReq r = t.visit (some (r.job, r.hg)) (offOf r.pa) (t.keyTag r.job r.pln) := by
    unfold State.visitReq
    rw [ha, dev, h.own]
    simp
  unfold State.homeLine at w ⊢
  rw [homeSlice_line] at w
  unfold homeOf
  rw [visit, State.homeLine_visit _ _ h.tier, Cluster.line_reside_of_way w, homeSlice_line]

theorem AtHome.alone (t : State) : t.twinOf r = none := by
  unfold State.twinOf
  rw [h.single]
  rfl

theorem AtHome.serveRow_eq (t : State) (f : State → Req → State) : t.serveRow r f = f t r := by
  unfold State.serveRow
  dsimp only
  rw [h.alone]

theorem AtHome.serve_eq (f : State → Req → State) : s.serve n f = f ((s.visitReq r).dropMsg n) r := serve_of h.req f

theorem AtHome.serveWrite_eq (f : State → Req → State) : s.serveWrite n f = f ((s.visitReq r).dropMsg n) r := by
  have free : s.hostHolds (128 * (offOf r.pa / 128)) = false := by
    have held := h.free
    unfold State.hostHolds at held ⊢
    rw [h.tier, Bool.true_and] at held
    rw [Nat.mul_div_cancel_left _ (by decide), held, Bool.and_false]
  unfold State.serveWrite State.written
  rw [h.req]
  dsimp only
  rw [h.alone]
  simp [h.own, free]

end

end Sys2Proof

/-! ## Replies of a home, and the completion of a write (spec/09_memory.md R180, R184, R185) -/

namespace Sys2Proof

open Machine

theorem replied_replyTo (s : State) (e : Ep) (r : Req) (v : Rep) {data : Bool} (h : (data && r.kind.loadsTile) = false) :
    Replied (s.replyTo e r v data) s.nextId r v := by
  have dev := (Sends.replyTo s e r v data).devnum
  have core : (s.replyTo e r v data).epCore r.core = s.epCore r.core := by
    unfold State.epCore
    rw [dev]
  unfold State.replyTo at core ⊢
  dsimp only at core ⊢
  rw [h, if_neg Bool.false_ne_true] at core ⊢
  refine ⟨_, sentMsg_sendNew s _, rfl, ?_⟩
  rw [core]

/-- Messages have left on behalf of a write of a line; of the home's record of the line, only what concerns stale translations may differ. -/
structure Completes (s t : State) (ln : Nat) : Prop where
  rest : { t with agenda := s.agenda, nextId := s.nextId, clusters := s.clusters, msgs := s.msgs } = s
  line : { t.homeLine ln with map := (s.homeLine ln).map, acks := (s.homeLine ln).acks, held := (s.homeLine ln).held } = s.homeLine ln

section

variable {s t u : State} {ln : Nat}

theorem Completes.refl (s : State) (ln : Nat) : Completes s s ln := ⟨rfl, rfl⟩

theorem Completes.trans (h : Completes s t ln) (g : Completes t u ln) : Completes s u ln where
  rest := by
    have h1 := h.rest
    have h2 := g.rest
    rw [← h1, ← h2]
  line := by
    have h1 := h.line
    have h2 := g.line
    rw [← h1, ← h2]

theorem Machine.Sends.completes (h : Sends s t) (ln : Nat) : Completes s t ln where
  rest := h.rest
  line := by rw [h.homeLine]

theorem Completes.way (h : Completes s t ln) : (t.homeLine ln).way = (s.homeLine ln).way := (congrArg HomeLine.way h.line :)
theorem Completes.wts (h : Completes s t ln) : (t.homeLine ln).wts = (s.homeLine ln).wts := (congrArg HomeLine.wts h.line :)
theorem Completes.rts (h : Completes s t ln) : (t.homeLine ln).rts = (s.homeLine ln).rts := (congrArg HomeLine.rts h.line :)
theorem Completes.mem (h : Completes s t ln) : t.mem = s.mem := (congrArg State.mem h.rest :)
theorem Completes.devnum (h : Completes s t ln) : t.devnum = s.devnum := (congrArg State.devnum h.rest :)
theorem Completes.jobs (h : Completes s t ln) : t.jobs = s.jobs := (congrArg State.jobs h.rest :)

theorem Completes.updLine {f : HomeLine → HomeLine} (hf : ∀ h, { f h with map := h.map, acks := h.acks, held := h.held } = h)
    (w : (s.homeLine ln).way.isSome) : Completes s (s.updLine ln f) ln where
  rest := rfl
  line := by
    have way := (congrArg HomeLine.way (hf (s.homeLine ln)) :)
    rw [State.homeLine_updLine (way.symm ▸ w)]
    exact hf _

theorem Completes.invalidate (w : (s.homeLine ln).way.isSome) : Completes s (s.invalidate ln).1 ln := by
  unfold State.invalidate
  dsimp only
  split
  · exact Completes.refl s ln
  · have asked := Completes.updLine (f := fun h => { h with map := [], acks := h.acks ++ h.map }) (fun _ => rfl) w
    exact asked.trans ((foldl_keeps Sends.refl Sends.trans (fun s _ => Sends.sendNew s _) _ _).completes ln)

theorem Completes.answer (w : (s.homeLine ln).way.isSome) (r : Req) (v : Rep) (data p : Bool) :
    Completes s (s.answer r v data (if p then some ln else none)) ln := by
  cases p with
  | false => exact (Sends.replyTo s _ r v data).completes ln
  | true =>
    unfold State.answer
    have kept : ∀ m : Msg, Completes s ({ s with msgs := Tab.put s.msgs s.nextId m } : State).bumpId ln := fun m => ⟨rfl, rfl⟩
    exact (kept _).trans (Completes.updLine (fun _ => rfl) w)

/-- Where no walker has read a line its invalidation sends nothing. -/
theorem invalidate_unread (hm : (s.homeLine ln).map = []) (ha : (s.homeLine ln).acks = []) : s.invalidate ln = (s, false) := by
  unfold State.invalidate
  dsimp only
  rw [if_pos hm, ha]
  rfl

end

/-- The end of a write at its home: it takes a logical time of the line, stale translations of the line are invalidated, and its reply leaves once
these are acknowledged. -/
def Machine.State.completeWrite (s : State) (ln : Nat) (r : Req) (v : Rep) (data : Bool) : State :=
  let u := (s.stamp ln r.pts).1
  (u.invalidate ln).1.answer r { v with wts := (s.stamp ln r.pts).2 } data (if (u.invalidate ln).2 then some ln else none)

/-- The logical time that a write takes (R185). -/
def nextTime (rts pts : Word) : Word := if pts < rts + 1 then rts + 1 else pts

theorem wmax_eq_nextTime (rts pts : Word) : wmax (rts + 1) pts = nextTime rts pts := by
  unfold wmax nextTime
  by_cases below : rts + 1 < pts
  · rw [if_pos below, if_neg (BitVec.not_lt.2 (BitVec.le_of_lt below))]
  · rw [if_neg below]
    by_cases above : pts < rts + 1
    · rw [if_pos above]
    · rw [if_neg above, BitVec.le_antisymm (BitVec.not_lt.1 above) (BitVec.not_lt.1 below)]

section

variable {s : State} {ln : Nat} (w : (s.homeLine ln).way.isSome) (r : Req) (v : Rep) (data : Bool)

include w

theorem homeLine_stamp (pts : Word) : (s.stamp ln pts).1.homeLine ln =
    { s.homeLine ln with wts := nextTime (s.homeLine ln).rts pts, rts := nextTime (s.homeLine ln).rts pts } := by
  unfold State.stamp
  dsimp only
  rw [State.homeLine_updLine w, wmax_eq_nextTime]

/-- What the end of a write leaves: the bytes as they are, the line with its new time; the reply where nothing is to be invalidated. -/
theorem completeWrite_spec : (s.completeWrite ln r v data).mem = s.mem ∧ (s.completeWrite ln r v data).devnum = s.devnum ∧
    (s.completeWrite ln r v data).jobs = s.jobs ∧ ((s.completeWrite ln r v data).homeLine ln).way.isSome ∧
    ((s.completeWrite ln r v data).homeLine ln).wts = nextTime (s.homeLine ln).rts r.pts ∧
    ((s.completeWrite ln r v data).homeLine ln).rts = nextTime (s.homeLine ln).rts r.pts := by
  have stamped := homeLine_stamp w r.pts
  have here : ((s.stamp ln r.pts).1.homeLine ln).way.isSome := by rw [stamped]; exact w
  have told := Completes.invalidate here
  have done := told.trans (Completes.answer (told.way.symm ▸ here) r { v with wts := (s.stamp ln r.pts).2 } data ((s.stamp ln r.pts).1.invalidate ln).2)
  refine ⟨done.mem, done.devnum, done.jobs, done.way.symm ▸ here, done.wts.trans ?_, done.rts.trans ?_⟩ <;> rw [stamped]

theorem completeWrite_replied (hm : (s.homeLine ln).map = []) (ha : (s.homeLine ln).acks = []) (hd : (data && r.kind.loadsTile) = false) :
    Replied (s.completeWrite ln r v data) s.nextId r { v with wts := nextTime (s.homeLine ln).rts r.pts } := by
  have stamped := homeLine_stamp w r.pts
  have quiet : (s.stamp ln r.pts).1.invalidate ln = ((s.stamp ln r.pts).1, false) := by
    refine invalidate_unread ?_ ?_
    · rw [stamped]; exact hm
    · rw [stamped]; exact ha
  unfold State.completeWrite
  dsimp only
  rw [quiet, show (s.stamp ln r.pts).2 = nextTime (s.homeLine ln).rts r.pts from wmax_eq_nextTime _ _]
  exact replied_replyTo _ _ r _ hd

end

/-! ## Reads and stores at the home of a coherent line (spec/09_memory.md R184, R185, R190) -/

theorem serveLoad_tier {s : State} {r : Req} (tier : isTier (offOf r.pa) = true) (hk : r.kind ∈ [ReqKind.load, .loadM, .pref, .filln]) :
    let ln := offOf r.pa / 128
    let rts := if (s.homeLine ln).rts < r.pts + r.lease then r.pts + r.lease else (s.homeLine ln).rts
    ∃ (u : State) (v : Rep), s.serveLoad r = u.replyTo (u.atHome r) r v true ∧ v.line = s.lineAt (s.reqKey r) (offOf r.pa) ∧ v.fault = none ∧
      v.wts = (s.homeLine ln).wts ∧
      (r.nc = true → u = s) ∧ (r.nc = false → v.rts = rts ∧ u = s.updLine ln fun h => { h with rts := rts }) := by
  intro ln rts
  have plain : (r.kind == .ldb) = false ∧ (r.kind == .rowRead) = false := by
    simp only [List.mem_cons, List.not_mem_nil, or_false] at hk
    rcases hk with hk | hk | hk | hk <;> rw [hk] <;> exact ⟨rfl, rfl⟩
  unfold State.serveLoad
  dsimp only
  rw [if_pos tier, plain.1, plain.2, Bool.or_false, Bool.or_false]
  cases r.nc with
  | true => exact ⟨_, _, rfl, rfl, rfl, rfl, fun _ => rfl, nofun⟩
  | false => exact ⟨_, _, rfl, rfl, rfl, rfl, nofun, fun _ => ⟨rfl, rfl⟩⟩

/-- The bytes of a write of one line, at its home. -/
def Machine.State.putAtHome (s : State) (r : Req) (kind : BitVec 2) (bs : List Byte) : State :=
  ((s.record r kind).soil r.job r.pln (offOf r.pa)).tierWrite (s.reqKey r) (offOf r.pa) bs

section

variable {s : State} {n : Nat} {r : Req} {size : Nat}

theorem serveStore_tier (tier : isTier (offOf r.pa) = true) (sound : s.poisons = []) (hk : r.kind = .store ∨ r.kind = .storeM)
    (fits : offOf r.pa % 128 + r.bytes.length ≤ 128) :
    s.serveStore r = (s.putAtHome r 0 r.bytes).completeWrite (offOf r.pa / 128) r {} false := by
  have recorded := Tends.record s r 0
  have plain : (r.kind == .stb) = false ∧ (r.kind == .rowWrite) = false := by
    rcases hk with hk | hk <;> rw [hk] <;> exact ⟨rfl, rfl⟩
  have key : ((s.record r 0).soil r.job r.pln (offOf r.pa)).keyOf r.job r.pln = s.reqKey r := reqKey_congr recorded.jobs r
  have put := memWrite_tier tier (s := (s.record r 0).soil r.job r.pln (offOf r.pa)) (recorded.poisons.trans sound) (s.reqKey r) fits
  unfold State.serveStore State.homeStore
  dsimp only
  rw [if_pos tier, plain.1, plain.2, if_neg Bool.false_ne_true, if_neg Bool.false_ne_true, show (s.record r 0).keyOf r.job r.pln = s.reqKey r from key, put]
  rfl

theorem serveWriteback_tier (tier : isTier (offOf r.pa) = true) (sound : s.poisons = []) (hp : r.pois = 0) (aligned : 128 * (offOf r.pa / 128) = offOf r.pa) :
    s.serveWriteback r = (s.putAtHome r 1 (bytesOf 128 (mergeLine (leBits 1024 (s.memRead (s.reqKey r) (offOf r.pa) 128)) r.line r.mask))).completeWrite
      (offOf r.pa / 128) r {} false := by
  have recorded := Tends.record s r 1
  have old : ((s.record r 1).soil r.job r.pln (offOf r.pa)).memRead (s.reqKey r) (offOf r.pa) 128 = s.memRead (s.reqKey r) (offOf r.pa) 128 := by
    rw [memRead_tier tier, memRead_tier tier]
    exact tierRead_congr (mem_record s r 1) recorded.devnum _ _ _
  have fits : offOf r.pa % 128 + (bytesOf 128 (mergeLine (leBits 1024 (s.memRead (s.reqKey r) (offOf r.pa) 128)) r.line r.mask)).length ≤ 128 := by
    rw [length_bytesOf]
    omega
  have merged : ((s.record r 1).soil r.job r.pln (offOf r.pa)).memMerge (s.reqKey r) (offOf r.pa / 128) r.line r.mask r.pois =
      s.putAtHome r 1 (bytesOf 128 (mergeLine (leBits 1024 (s.memRead (s.reqKey r) (offOf r.pa) 128)) r.line r.mask)) := by
    unfold State.memMerge
    dsimp only
    rw [aligned, old]
    refine if_pos ⟨?_, hp⟩
    exact (congrArg State.poisons (tierWrite_rest fits _ _) :).trans (recorded.poisons.trans sound)
  unfold State.serveWriteback
  dsimp only
  rw [merged]
  rfl

/-- The line keeps its place and its times while its bytes change. -/
theorem homeLine_putAtHome (w : (s.homeLine (offOf r.pa / 128)).way.isSome) (kind : BitVec 2) {bs : List Byte}
    (fits : offOf r.pa % 128 + bs.length ≤ 128) :
    { (s.putAtHome r kind bs).homeLine (offOf r.pa / 128) with old := (s.homeLine (offOf r.pa / 128)).old,
                                                               key := (s.homeLine (offOf r.pa / 128)).key } = s.homeLine (offOf r.pa / 128) := by
  have kept : (s.putAtHome r kind bs).homeLine (offOf r.pa / 128) =
      ((s.record r kind).soil r.job r.pln (offOf r.pa)).homeLine (offOf r.pa / 128) :=
    (congrArg (fun x : State => x.homeLine (offOf r.pa / 128)) (tierWrite_rest fits ((s.record r kind).soil r.job r.pln (offOf r.pa)) (s.reqKey r)) :)
  have recorded := homeLine_record s r kind (offOf r.pa / 128)
  rw [kept]
  unfold State.soil
  dsimp only
  rw [State.homeLine_updLine (by rw [recorded]; exact w), recorded]

theorem tends_putAtHome (s : State) (r : Req) (kind : BitVec 2) {bs : List Byte} (fits : offOf r.pa % 128 + bs.length ≤ 128) :
    Tends s (s.putAtHome r kind bs) := by
  have soiled : Tends s ((s.record r kind).soil r.job r.pln (offOf r.pa)) := (Tends.record s r kind).trans ⟨rfl⟩
  exact soiled.trans (Tends.tierWrite fits _ _)

/-- The bytes written stand where they were written, as the key of the request reads them; the other lines are as they were. -/
theorem mem_putAtHome (tier : isTier (offOf r.pa) = true) (s : State) (kind : BitVec 2) {bs : List Byte}
    (fits : offOf r.pa % 128 + bs.length ≤ 128) :
    (s.putAtHome r kind bs).memRead (s.reqKey r) (offOf r.pa) bs.length = bs ∧
      ∀ y, y / 128 ≠ offOf r.pa / 128 → Memory.get (s.putAtHome r kind bs).mem y = Memory.get s.mem y := by
  refine ⟨(memRead_tier tier _ _ _).trans (tierRead_tierWrite fits _ _), fun y hy => (get_tierWrite_outside fits _ _ hy).trans ?_⟩
  exact congrArg (Memory.get · y) (mem_record s r kind)

/-- What a write of one line leaves at its home: the bytes, the times of the line, and the reply where no walker has read it. -/
theorem wroteAtHome (h : AtHome s n r size) (ha : r.kind.addressed = true) (kind : BitVec 2) {bs : List Byte} (v : Rep) (data : Bool)
    (fits : offOf r.pa % 128 + bs.length ≤ 128) :
    let t := (((s.visitReq r).dropMsg n).putAtHome r kind bs).completeWrite (offOf r.pa / 128) r v data
    t.memRead (s.reqKey r) (offOf r.pa) bs.length = bs ∧ t.reqKey r = s.reqKey r ∧
      (∀ y, y / 128 ≠ offOf r.pa / 128 → Memory.get t.mem y = Memory.get s.mem y) ∧
      (homeOf t r).wts = nextTime (homeOf s r).rts r.pts ∧ (homeOf t r).rts = nextTime (homeOf s r).rts r.pts ∧
      (Unwalked s r → (data && r.kind.loadsTile) = false → Replied t s.nextId r { v with wts := nextTime (homeOf s r).rts r.pts }) := by
  intro t
  have came : Tends s ((s.visitReq r).dropMsg n) := (Tends.visitReq s r).trans (Tends.dropMsg _ n)
  have at' : ((s.visitReq r).dropMsg n).homeLine (offOf r.pa / 128) = homeOf s r := homeLine_visited s n r
  have here : (((s.visitReq r).dropMsg n).homeLine (offOf r.pa / 128)).way.isSome := by
    rw [at']
    exact h.homeOf_way ha
  have mem : ((s.visitReq r).dropMsg n).mem = s.mem := (mem_dropMsg _ n).trans (mem_visitReq s r)
  have key := reqKey_congr came.jobs r
  have line := homeLine_putAtHome here kind fits
  have put := tends_putAtHome ((s.visitReq r).dropMsg n) r kind fits
  obtain ⟨bytes, others⟩ := mem_putAtHome h.tier ((s.visitReq r).dropMsg n) kind fits
  rw [at'] at line
  rw [key] at bytes
  have way : ((((s.visitReq r).dropMsg n).putAtHome r kind bs).homeLine (offOf r.pa / 128)).way = (homeOf s r).way := (congrArg HomeLine.way line :)
  have rts : ((((s.visitReq r).dropMsg n).putAtHome r kind bs).homeLine (offOf r.pa / 128)).rts = (homeOf s r).rts := (congrArg HomeLine.rts line :)
  have w : ((((s.visitReq r).dropMsg n).putAtHome r kind bs).homeLine (offOf r.pa / 128)).way.isSome := way.symm ▸ h.homeOf_way ha
  obtain ⟨memC, devC, jobsC, wayC, wtsC, rtsC⟩ := completeWrite_spec w r v data
  have later := h.homeOf_later ha (devC.trans (put.devnum.trans came.devnum)) wayC
  rw [rts] at wtsC rtsC
  refine ⟨?_, reqKey_congr (jobsC.trans (put.jobs.trans came.jobs)) r, fun y hy => ?_, ?_, ?_, fun unread hd => ?_⟩
  · rw [memRead_tier h.tier] at bytes ⊢
    exact (tierRead_congr memC devC _ _ _).trans bytes
  · exact ((congrArg (Memory.get · y) memC).trans (others y hy)).trans (congrArg (Memory.get · y) mem)
  · exact (congrArg HomeLine.wts later).trans wtsC
  · exact (congrArg HomeLine.rts later).trans rtsC
  · have told := completeWrite_replied w r v data ((congrArg HomeLine.map line :).trans unread.1)
      ((congrArg HomeLine.acks line :).trans unread.2) hd
    rw [rts, put.nextId, came.nextId] at told
    exact told

end

/-! ### The obligation -/

theorem readAtHome {s : State} {n : Nat} {r : Req} (h : AtHome s n r r.size) (hk : r.kind ∈ [ReqKind.load, .loadM, .pref, .filln]) :
    let rts := if (homeOf s r).rts < r.pts + r.lease then r.pts + r.lease else (homeOf s r).rts
    ∃ t v, exec .coherentLoadRenewal s = .next t ∧ Replied t s.nextId r v ∧ v.line = s.lineAt (s.reqKey r) (offOf r.pa) ∧ v.fault = none ∧
      (r.nc = false → v.wts = (homeOf s r).wts ∧ v.rts = rts ∧ (homeOf t r).rts = rts ∧ (homeOf t r).wts = (homeOf s r).wts) ∧
      (r.nc = true → v.wts = (homeOf s r).wts) ∧ t.mem = s.mem := by
  intro rts
  have kind : r.kind.addressed = true ∧ r.kind.loadsTile = false := by
    simp only [List.mem_cons, List.not_mem_nil, or_false] at hk
    rcases hk with hk | hk | hk | hk <;> rw [hk] <;> exact ⟨rfl, rfl⟩
  obtain ⟨addressed, noTile⟩ := kind
  have came : Tends s ((s.visitReq r).dropMsg n) := (Tends.visitReq s r).trans (Tends.dropMsg _ n)
  have mem : ((s.visitReq r).dropMsg n).mem = s.mem := (mem_dropMsg _ n).trans (mem_visitReq s r)
  have at' : ((s.visitReq r).dropMsg n).homeLine (offOf r.pa / 128) = homeOf s r := homeLine_visited s n r
  have run : exec .coherentLoadRenewal s = .next (((s.visitReq r).dropMsg n).serveLoad r) := by
    have serve := (h.serve_eq fun s r => s.serveRow r fun s r => s.serveLoad r).trans (h.serveRow_eq _ _)
    show Host.Outcome.next (s.serve s.arg.n _) = _
    rw [h.arg, serve]
  have line : ((s.visitReq r).dropMsg n).lineAt (((s.visitReq r).dropMsg n).reqKey r) (offOf r.pa) = s.lineAt (s.reqKey r) (offOf r.pa) := by
    have tier : isTier (offOf r.pa / 128 * 128) = true := by
      have := h.tier
      unfold isTier isHbm isCap at this ⊢
      simp only [Bool.or_eq_true, Bool.and_eq_true, decide_eq_true_eq] at this ⊢
      omega
    unfold State.lineAt
    rw [reqKey_congr came.jobs, memRead_tier tier, memRead_tier tier, tierRead_congr mem came.devnum]
  obtain ⟨u, v, served, lineV, fault, wts, nc, coherent⟩ := serveLoad_tier (s := (s.visitReq r).dropMsg n) h.tier hk
  rw [at'] at wts coherent
  rw [served] at run
  have replies := Sends.replyTo u (u.atHome r) r v true
  have ids : u.nextId = s.nextId ∧ u.mem = s.mem := by
    cases hn : r.nc with
    | true => rw [nc hn]; exact ⟨came.nextId, mem⟩
    | false => rw [(coherent hn).2]; exact ⟨came.nextId, mem⟩
  refine ⟨_, v, run, ids.1 ▸ replied_replyTo u _ r v (by rw [noTile]; rfl), lineV.trans line, fault, fun hn => ?_, fun _ => wts, replies.mem.trans ids.2⟩
  obtain ⟨rtsV, hu⟩ := coherent hn
  have updated : u.homeLine (offOf r.pa / 128) = { homeOf s r with rts := rts } := by
    rw [hu, State.homeLine_updLine, at']
    rw [at']
    exact h.homeOf_way addressed
  have after : (u.replyTo (u.atHome r) r v true).homeLine (offOf r.pa / 128) = { homeOf s r with rts := rts } :=
    (replies.homeLine _).trans updated
  have dev : u.devnum = s.devnum := by rw [hu]; exact came.devnum
  have later := h.homeOf_later (t := u.replyTo (u.atHome r) r v true) addressed (replies.devnum.trans dev) (by rw [after]; exact h.homeOf_way addressed)
  rw [after] at later
  exact ⟨wts, rtsV, (congrArg HomeLine.rts later :), (congrArg HomeLine.wts later :)⟩

theorem storeAtHome {s : State} {n : Nat} {r : Req} (h : AtHome s n r r.size) (hk : r.kind = .store ∨ r.kind = .storeM) :
    ∃ t, exec .coherentStoreAtHome s = .next t ∧ homeBytes t r r.size = r.bytes ∧ Stamped s t r ∧
      (∀ y, y / 128 ≠ offOf r.pa / 128 → Memory.get t.mem y = Memory.get s.mem y) ∧
      (Unwalked s r → ∃ v, Replied t s.nextId r v ∧ (r.nc = false → v.wts = (homeOf t r).wts) ∧ v.fault = none) := by
  have kind : r.kind.addressed = true ∧ r.bytes.length = r.size := by
    unfold Req.bytes
    rcases hk with hk | hk <;> rw [hk] <;> exact ⟨rfl, length_bytesOf _ _⟩
  obtain ⟨addressed, size⟩ := kind
  have fits : offOf r.pa % 128 + r.bytes.length ≤ 128 := by
    rw [size]
    exact h.line
  have came : Tends s ((s.visitReq r).dropMsg n) := (Tends.visitReq s r).trans (Tends.dropMsg _ n)
  have run : exec .coherentStoreAtHome s = .next ((((s.visitReq r).dropMsg n).putAtHome r 0 r.bytes).completeWrite (offOf r.pa / 128) r {} false) := by
    have serve := (h.serveWrite_eq fun s r => s.serveRow r fun s r => s.serveStore r).trans (h.serveRow_eq _ _)
    show Host.Outcome.next (s.serveWrite s.arg.n _) = _
    rw [h.arg, serve, serveStore_tier h.tier (came.poisons.trans h.sound.1) hk fits]
  obtain ⟨bytes, key, others, wts, rts, replied⟩ := wroteAtHome h addressed 0 {} false fits
  refine ⟨_, run, ?_, fun _ => ⟨wts, rts⟩, others, fun unread => ⟨_, replied unread rfl, fun _ => wts.symm, rfl⟩⟩
  unfold homeBytes
  rw [key, ← size]
  exact bytes

theorem writebackAtHome {s : State} {n : Nat} {r : Req} (h : AtHome s n r 128) (hk : r.kind = .writeback) (hp : r.pois = 0) :
    ∃ t, exec .noncoherentWriteback s = .next t ∧
      (∀ i, i < 128 → (t.memRead (s.reqKey r) (offOf r.pa) 128)[i]? =
        if r.mask.getLsbD i then some (r.line.extractLsb' (8 * i) 8) else (homeBytes s r 128)[i]?) ∧
      (homeOf t r).wts = (if r.pts < (homeOf s r).rts + 1 then (homeOf s r).rts + 1 else r.pts) ∧
      (∀ y, y / 128 ≠ offOf r.pa / 128 → Memory.get t.mem y = Memory.get s.mem y) := by
  have addressed : r.kind.addressed = true := by rw [hk]; rfl
  have aligned : 128 * (offOf r.pa / 128) = offOf r.pa := by
    have := h.line
    omega
  have came : Tends s ((s.visitReq r).dropMsg n) := (Tends.visitReq s r).trans (Tends.dropMsg _ n)
  have mem : ((s.visitReq r).dropMsg n).mem = s.mem := (mem_dropMsg _ n).trans (mem_visitReq s r)
  have old : ((s.visitReq r).dropMsg n).memRead (((s.visitReq r).dropMsg n).reqKey r) (offOf r.pa) 128 = homeBytes s r 128 := by
    unfold homeBytes
    rw [reqKey_congr came.jobs, memRead_tier h.tier, memRead_tier h.tier, tierRead_congr mem came.devnum]
  have whole : (homeBytes s r 128).length = 128 := by
    unfold homeBytes
    rw [memRead_tier h.tier]
    exact length_tierRead s _ h.line
  have run : exec .noncoherentWriteback s = .next ((((s.visitReq r).dropMsg n).putAtHome r 1
      (bytesOf 128 (mergeLine (leBits 1024 (homeBytes s r 128)) r.line r.mask))).completeWrite (offOf r.pa / 128) r {} false) := by
    show Host.Outcome.next (s.serveWrite s.arg.n _) = _
    rw [h.arg, h.serveWrite_eq, serveWriteback_tier h.tier (came.poisons.trans h.sound.1) hp aligned, old]
  have fits : offOf r.pa % 128 + (bytesOf 128 (mergeLine (leBits 1024 (homeBytes s r 128)) r.line r.mask)).length ≤ 128 := by
    rw [length_bytesOf]
    exact h.line
  obtain ⟨bytes, -, others, wts, -, -⟩ := wroteAtHome h addressed 1 {} false fits
  refine ⟨_, run, fun i hi => ?_, wts, others⟩
  rw [length_bytesOf] at bytes
  rw [bytes, List.getElem?_eq_getElem (by rw [length_bytesOf]; exact hi), getElem_bytesOf, extractLsb'_mergeLine _ _ _ hi,
    extractLsb'_leBits (n := 128) whole (by rw [whole]; exact hi), List.getElem?_eq_getElem (by rw [whole]; exact hi)]
  split <;> rfl

/-- A write of a line that the host holds waits (R68). -/
theorem writeWaits {s : State} {n : Nat} {r : Req} (ha : s.arg.n = n) (h : s.msgReq n = some r) (own : devOf r.pa = s.devnum)
    (held : s.hostHolds (offOf r.pa) = true) {i : Instr}
    (hi : i ∈ [Instr.coherentStoreAtHome, .noncoherentWriteback, .amoAtHome, .reductionAtHome, .fullEmptyAtHome, .iterationClaim]) :
    exec i s = .next (s.askHost (offOf r.pa / 128) n) := by
  have first : s.hostHolds (128 * (offOf r.pa / 128)) = true := by
    unfold State.hostHolds isTier isHbm isCap at held ⊢
    rw [Nat.mul_div_cancel_left _ (by decide)]
    simp only [Bool.or_eq_true, Bool.and_eq_true, decide_eq_true_eq] at held ⊢
    refine ⟨?_, held.2⟩
    omega
  have waits : ∀ f, s.serveWrite n f = s.askHost (offOf r.pa / 128) n := by
    intro f
    unfold State.serveWrite State.written
    rw [h]
    simp [own, first]
  simp only [List.mem_cons, List.not_mem_nil, or_false] at hi
  have writes : ∀ f, (Host.Outcome.next (s.serveWrite s.arg.n f) : Host.Outcome State Fault Refusal) = .next (s.askHost (offOf r.pa / 128) n) := by
    intro f
    rw [ha, waits f]
  rcases hi with rfl | rfl | rfl | rfl | rfl | rfl
  · exact writes _
  · exact writes _
  · exact writes _
  · exact writes _
  · show execFullEmptyAtHome s = _
    unfold execFullEmptyAtHome
    rw [ha, h]
    exact congrArg _ (if_pos ⟨own, held⟩)
  · exact writes _

/-- Settles O41: what the home of a line does with reads, stores and write-backs, and that a write of a line that the host holds waits. -/
theorem loadsAndStoresAtHome : Obligations.LoadsAndStoresAtHome := by
  intro s n r
  refine ⟨fun h hk => readAtHome h hk, fun h hk _ => storeAtHome h hk, fun h hk hp => writebackAtHome h hk hp, fun ha h own held i hi => ?_⟩
  rw [writeWaits ha h own held hi]
  unfold State.askHost
  simp only [List.contains_iff_mem]

end Sys2Proof

/-! ## RESIZE at its slice (spec/08_isa_scalar.md R157; spec/09_memory.md R186, R194) -/

namespace Sys2Proof.Machine

theorem le_wmax_left (a b : Word) : a ≤ wmax a b := by
  unfold wmax
  split
  · exact BitVec.le_of_lt ‹_›
  · exact BitVec.le_refl a

theorem le_wmax_right (a b : Word) : b ≤ wmax a b := by
  unfold wmax
  split
  · exact BitVec.le_refl b
  · exact BitVec.not_lt.1 ‹_›

/-- A line that leaves its slice is held in no way, and the slice-wide time takes in its times; other lines stay as they are. -/
theorem Cluster.evictLine_spec (v : Cluster) (ln : Nat) :
    { v.evictLine ln with mts := v.mts, lines := v.lines } = v ∧ v.mts ≤ (v.evictLine ln).mts ∧
      (Tab.get {} (v.evictLine ln).lines ln).way = none ∧ (∀ x, x ≠ ln → Tab.get {} (v.evictLine ln).lines x = Tab.get {} v.lines x) ∧
      ((Tab.get {} v.lines ln).way.isSome → (Tab.get {} v.lines ln).rts ≤ (v.evictLine ln).mts ∧ (Tab.get {} v.lines ln).wts ≤ (v.evictLine ln).mts) := by
  unfold Cluster.evictLine
  dsimp only
  split
  · next none' =>
    refine ⟨rfl, BitVec.le_refl _, by simpa using none', fun _ _ => rfl, fun w => ?_⟩
    rw [Option.isNone_iff_eq_none.1 none'] at w
    cases w
  · refine ⟨rfl, le_wmax_left _ _, ?_, fun x hx => ?_, fun _ => ⟨?_, ?_⟩⟩
    · dsimp only
      split
      · rw [Tab.get_del, if_pos rfl]
      · rw [Tab.get_put_same]
    · dsimp only
      split
      · rw [Tab.get_del, if_neg hx]
      · rw [Tab.get_put_ne _ _ _ hx]
    · exact BitVec.le_trans (le_wmax_left _ _) (le_wmax_right _ _)
    · exact BitVec.le_trans (le_wmax_right _ _) (le_wmax_right _ _)

/-- The lines that leave a slice one after another. -/
theorem Cluster.evictLines_spec (es : List (Nat × HomeLine)) (v : Cluster) :
    let t := es.foldl (fun v e => v.evictLine e.1) v
    { t with mts := v.mts, lines := v.lines } = v ∧ v.mts ≤ t.mts ∧
      (∀ ln w, (Tab.get {} t.lines ln).way = some w → (Tab.get {} v.lines ln).way = some w ∧ ln ∉ es.map (·.1)) ∧
      ∀ ln ∈ es.map (·.1), (Tab.get {} v.lines ln).way.isSome → (Tab.get {} v.lines ln).rts ≤ t.mts ∧ (Tab.get {} v.lines ln).wts ≤ t.mts := by
  induction es generalizing v with
  | nil => exact ⟨rfl, BitVec.le_refl _, fun _ _ h => ⟨h, by simp⟩, by simp⟩
  | cons e r ih =>
    obtain ⟨rest1, up1, gone, others, times⟩ := v.evictLine_spec e.1
    obtain ⟨rest2, up2, held, left⟩ := ih (v.evictLine e.1)
    rw [List.foldl_cons]
    refine ⟨?_, BitVec.le_trans up1 up2, fun ln w h => ?_, fun ln h w => ?_⟩
    · exact (congrArg (fun c : Cluster => { c with mts := v.mts, lines := v.lines }) rest2 :).trans rest1
    · obtain ⟨before, notLater⟩ := held ln w h
      have ne : ln ≠ e.1 := by
        rintro rfl
        rw [gone] at before
        cases before
      rw [others ln ne] at before
      exact ⟨before, by simp [ne, notLater]⟩
    · by_cases first : ln = e.1
      · subst first
        obtain ⟨rts, wts⟩ := times w
        exact ⟨BitVec.le_trans rts up2, BitVec.le_trans wts up2⟩
      · have later : ln ∈ r.map (·.1) := by simpa [first] using h
        have same := others ln first
        rw [← same] at w ⊢
        exact left ln later w

theorem Tab.mem_of_get_ne {α : Type} {d : α} {t : Tab α} {k : Nat} (h : Tab.get d t k ≠ d) : (k, Tab.get d t k) ∈ t := by
  induction t with
  | nil => exact absurd rfl h
  | cons e r ih =>
    obtain ⟨n, v⟩ := e
    unfold Tab.get at h ⊢
    split at h
    · next eq => rw [if_pos eq, eq]; exact List.mem_cons_self
    · next ne => rw [if_neg ne]; exact List.mem_cons_of_mem _ (ih h)

/-- The lines that stand in some ways leave one after another. -/
theorem Cluster.evictWays_eq (v : Cluster) (ws : List Nat) : ∃ es : List (Nat × HomeLine),
    v.evictWays ws = es.foldl (fun v e => v.evictLine e.1) v ∧
      ∀ ln w, (Tab.get {} v.lines ln).way = some w → w ∈ ws → ln ∈ es.map (·.1) := by
  refine ⟨_, rfl, fun ln w h hw => List.mem_map.2 ⟨(ln, Tab.get {} v.lines ln), List.mem_filter.2 ⟨Tab.mem_of_get_ne fun e => ?_, ?_⟩, rfl⟩⟩
  · rw [e] at h
    cases h
  · dsimp only
    rw [h]
    simpa using hw

/-- The lines of some ways have left the slice. -/
theorem Cluster.evictWays_spec (v : Cluster) (ws : List Nat) :
    { v.evictWays ws with mts := v.mts, lines := v.lines } = v ∧
      (∀ ln w, (Tab.get {} (v.evictWays ws).lines ln).way = some w → w ∉ ws) ∧
      ∀ ln w, (Tab.get {} v.lines ln).way = some w → w ∈ ws →
        (Tab.get {} v.lines ln).rts ≤ (v.evictWays ws).mts ∧ (Tab.get {} v.lines ln).wts ≤ (v.evictWays ws).mts := by
  obtain ⟨es, eq, listed⟩ := v.evictWays_eq ws
  obtain ⟨rest, -, held, left⟩ := Cluster.evictLines_spec es v
  rw [eq]
  refine ⟨rest, fun ln w h hw => ?_, fun ln w h hw => left ln (listed ln w h hw) (by rw [h]; rfl)⟩
  obtain ⟨before, out⟩ := held ln w h
  exact out (listed ln w before hw)

/-- A slice without some of its near versions: nothing but where versions stand differs, and a version that is near was near before, in its way. -/
structure Thinned (v t : Cluster) : Prop where
  rest : { t with vers := v.vers, vways := v.vways } = v
  tiles : t.vers.map (·.tile) = v.vers.map (·.tile)
  near : ∀ x ∈ t.vers, x.near = true → x ∈ v.vers

theorem Thinned.refl (v : Cluster) : Thinned v v := ⟨rfl, rfl, fun _ h _ => h⟩

theorem Thinned.trans {v t u : Cluster} (h : Thinned v t) (g : Thinned t u) : Thinned v u where
  rest := by
    have h1 := h.rest
    have h2 := g.rest
    rw [← h1, ← h2]
  tiles := g.tiles.trans h.tiles
  near x hx hn := h.near x (g.near x hx hn) hn

/-- A version that moves out is near no longer. -/
def Version.movedIf (x y : Version) : Version := if y.is x.job x.name x.ver then { y with near := false, vway := 0 } else y

theorem Version.near_movedIf {x y : Version} (h : (x.movedIf y).near = true) : x.movedIf y = y ∧ y.is x.job x.name x.ver = false := by
  unfold Version.movedIf at h ⊢
  split at h
  · cases h
  · next away => exact ⟨if_neg away, by simpa using away⟩

theorem Cluster.moveOut_spec (xs : List Version) : ∀ {v t : Cluster}, v.moveOut xs = some t →
    Thinned v t ∧ t.vways = v.vways ∧ ∀ y ∈ t.vers, y.near = true → ∀ x ∈ xs, y.is x.job x.name x.ver = false := by
  induction xs with
  | nil =>
    intro v t h
    obtain rfl : v = t := Option.some.inj h
    exact ⟨Thinned.refl v, rfl, by simp⟩
  | cons x r ih =>
    intro v t h
    unfold Cluster.moveOut at h
    split at h
    · obtain ⟨later, ways, away⟩ := ih h
      have first : Thinned v { v with vers := v.vers.map x.movedIf } := by
        refine ⟨rfl, ?_, fun y hy hn => ?_⟩
        · rw [List.map_map]
          refine List.map_congr_left fun y _ => ?_
          show (x.movedIf y).tile = y.tile
          unfold Version.movedIf
          split <;> rfl
        · obtain ⟨z, hz, rfl⟩ := List.mem_map.1 hy
          rw [(Version.near_movedIf hn).1]
          exact hz
      refine ⟨first.trans later, ways, fun y hy hn z hz => ?_⟩
      rcases List.mem_cons.1 hz with rfl | hz
      · obtain ⟨u, -, rfl⟩ : ∃ u ∈ v.vers, z.movedIf u = y := List.mem_map.1 (later.near y hy hn)
        obtain ⟨same, other⟩ := Version.near_movedIf hn
        rw [same]
        exact other
      · exact away y hy hn z hz
    · cases h

/-- Ways given up one after another, as many as can be. -/
theorem Cluster.shrink_spec (n : Nat) : ∀ v : Cluster, Thinned v (v.shrink n) ∧ v.vways - n ≤ (v.shrink n).vways ∧ (v.shrink n).vways ≤ v.vways ∧
    (∀ x ∈ (v.shrink n).vers, x.near = true → ¬(16 - v.vways ≤ x.vway ∧ x.vway < 16 - (v.shrink n).vways)) ∧
    ((∀ x ∈ v.vers, x.near = false) → (v.shrink n).vways = v.vways - n) := by
  induction n with
  | zero => exact fun v => ⟨Thinned.refl v, Nat.le_refl _, Nat.le_refl _, fun _ _ _ => by show ¬(16 - v.vways ≤ _ ∧ _ < 16 - v.vways); omega, fun _ => rfl⟩
  | succ n ih =>
    intro v
    have stays : Thinned v v ∧ v.vways - (n + 1) ≤ v.vways ∧ v.vways ≤ v.vways ∧
        (∀ x ∈ v.vers, x.near = true → ¬(16 - v.vways ≤ x.vway ∧ x.vway < 16 - v.vways)) :=
      ⟨Thinned.refl v, Nat.sub_le _ _, Nat.le_refl _, fun _ _ _ => by omega⟩
    obtain ⟨same, low, high, out⟩ := stays
    unfold Cluster.shrink
    split
    · next zero => exact ⟨same, low, high, out, fun _ => by omega⟩
    · next some' =>
      split
      · next u moved =>
        obtain ⟨thin, ways, away⟩ := Cluster.moveOut_spec _ moved
        obtain ⟨more, low, high, out, all⟩ := ih { u with vways := v.vways - 1 }
        dsimp only at low high out all
        have thinner : Thinned v ({ u with vways := v.vways - 1 } : Cluster) := ⟨thin.rest, thin.tiles, thin.near⟩
        refine ⟨thinner.trans more, by omega, by omega, fun x hx hn => ?_, fun far => ?_⟩
        · have kept := out x hx hn
          have stood : x ∈ u.vers := more.near x hx hn
          have elsewhere : x.vway ≠ 16 - v.vways := by
            intro here
            have mine : x ∈ v.inWay (16 - v.vways) := List.mem_filter.2 ⟨thin.near x stood hn, by simp [hn, here]⟩
            have no := away x stood hn x mine
            simp [Version.is] at no
          omega
        · rw [all fun x hx => ?_]
          · omega
          · cases hn : x.near with
            | false => rfl
            | true => exact (far x (thin.near x hx hn)).symm.trans hn |>.symm ▸ rfl
      · next full =>
        refine ⟨same, low, high, out, fun far => ?_⟩
        have none' : v.inWay (16 - v.vways) = [] := by
          refine List.filter_eq_nil_iff.2 fun x hx => ?_
          simp [far x hx]
        rw [none'] at full
        cases full

/-- What a slice does with a RESIZE to n ways. -/
theorem Cluster.resize_spec (v : Cluster) {n : Nat} (hn : n ≤ 15) :
    { v.resize n with vers := v.vers, vways := v.vways, mts := v.mts, lines := v.lines } = v ∧ (v.resize n).vers.map (·.tile) = v.vers.map (·.tile) ∧
    (v.vways < n → (v.resize n).vways = n ∧ (v.resize n).vers = v.vers ∧
      (∀ ln w, (Tab.get {} (v.resize n).lines ln).way = some w → ¬(16 - n ≤ w ∧ w ≤ 15 - v.vways)) ∧
      ∀ ln w, (Tab.get {} v.lines ln).way = some w → 16 - n ≤ w → w ≤ 15 - v.vways →
        (Tab.get {} v.lines ln).rts ≤ (v.resize n).mts ∧ (Tab.get {} v.lines ln).wts ≤ (v.resize n).mts) ∧
    (n ≤ v.vways → n ≤ (v.resize n).vways ∧ (v.resize n).vways ≤ v.vways ∧ (v.resize n).lines = v.lines ∧
      (∀ x ∈ (v.resize n).vers, x.near = true → ¬(16 - v.vways ≤ x.vway ∧ x.vway < 16 - (v.resize n).vways)) ∧
      ((∀ x ∈ v.vers, x.near = false) → (v.resize n).vways = n)) := by
  by_cases grows : v.vways < n
  · have eq : v.resize n = { v.evictWays ((List.range (n - v.vways)).map fun i => 15 - v.vways - i) with vways := n } := if_pos grows
    obtain ⟨rest, out, times⟩ := v.evictWays_spec ((List.range (n - v.vways)).map fun i => 15 - v.vways - i)
    have ways : ∀ w, w ∈ ((List.range (n - v.vways)).map fun i => 15 - v.vways - i) ↔ 16 - n ≤ w ∧ w ≤ 15 - v.vways := by
      intro w
      simp only [List.mem_map, List.mem_range]
      exact ⟨by rintro ⟨i, hi, rfl⟩; omega, fun h => ⟨15 - v.vways - w, by omega, by omega⟩⟩
    simp only [ways] at out times
    have vers := (congrArg Cluster.vers rest :)
    rw [eq]
    refine ⟨?_, congrArg (List.map _) vers, fun _ => ⟨rfl, vers, out, fun ln w h lo hi => times ln w h ⟨lo, hi⟩⟩, fun h => by omega⟩
    exact (congrArg (fun c : Cluster => { c with vers := v.vers, vways := v.vways, mts := v.mts, lines := v.lines }) rest :)
  · have eq : v.resize n = v.shrink (v.vways - n) := if_neg grows
    obtain ⟨thin, low, high, out, all⟩ := Cluster.shrink_spec (v.vways - n) v
    have back : v.vways - (v.vways - n) = n := by omega
    rw [back] at low all
    rw [eq]
    refine ⟨?_, thin.tiles, fun h => absurd h grows, fun _ => ⟨low, high, (congrArg Cluster.lines thin.rest :), out, all⟩⟩
    exact (congrArg (fun c : Cluster => { c with vers := v.vers, vways := v.vways, mts := v.mts, lines := v.lines }) thin.rest :)

/-- Where no request waits for a tile or for storage nothing waits to be decided. -/
theorem State.versionsChanged_idle {s : State} {cl : ClusterId} {j : JobId} {nm : Word}
    (h : ∀ q ∈ (s.cluster cl).vwait, q.kind ≠ .verst ∧ ¬(q.job = j ∧ q.w0 = nm)) : s.versionsChanged cl j nm = s := by
  have none' : ((s.cluster cl).vwait.filter fun r => r.kind == .verst || (r.job == j && r.w0 == nm)) = [] := by
    refine List.filter_eq_nil_iff.2 fun q hq => ?_
    obtain ⟨kind, other⟩ := h q hq
    simp only [Bool.or_eq_true, beq_iff_eq, Bool.and_eq_true, not_or]
    exact ⟨kind, other⟩
  unfold State.versionsChanged State.serveVersions
  rw [none']
  rfl

end Sys2Proof.Machine

namespace Sys2Proof

open Machine

theorem resizes {s : State} {r : Req} (h : s.msgReq s.arg.n = some r) (hk : r.kind = .resize) (hn : r.w0.toNat ≤ 15) :
    let cl := clusterOf r.core
    let a := s.cluster cl
    (∀ q ∈ a.vwait, q.kind ≠ .verst ∧ ¬(q.job = r.job ∧ q.w0 = 0#64)) →
    ∃ t v, exec .resizeAtSlice s = .next t ∧ Replied t s.nextId r v ∧ v.w0 = BitVec.ofNat 64 (t.cluster cl).vways ∧ v.fault = none ∧
      t.mem = s.mem ∧ (t.cluster cl).vers.map (·.tile) = a.vers.map (·.tile) ∧
      (a.vways < r.w0.toNat → (t.cluster cl).vways = r.w0.toNat ∧ (t.cluster cl).vers = a.vers ∧
        (∀ ln w, (Tab.get {} (t.cluster cl).lines ln).way = some w → ¬(16 - r.w0.toNat ≤ w ∧ w ≤ 15 - a.vways)) ∧
        (∀ ln w, (Tab.get {} a.lines ln).way = some w → 16 - r.w0.toNat ≤ w → w ≤ 15 - a.vways →
          (Tab.get {} a.lines ln).rts ≤ (t.cluster cl).mts ∧ (Tab.get {} a.lines ln).wts ≤ (t.cluster cl).mts)) ∧
      (r.w0.toNat ≤ a.vways → r.w0.toNat ≤ (t.cluster cl).vways ∧ (t.cluster cl).vways ≤ a.vways ∧ (t.cluster cl).lines = a.lines ∧
        (∀ x ∈ (t.cluster cl).vers, x.near = true → ¬(16 - a.vways ≤ x.vway ∧ x.vway < 16 - (t.cluster cl).vways)) ∧
        ((∀ x ∈ a.vers, x.near = false) → (t.cluster cl).vways = r.w0.toNat)) := by
  intro cl a idle
  have dropped := Sends.dropMsg s s.arg.n
  have came := Tends.dropMsg s s.arg.n
  generalize hu : s.dropMsg s.arg.n = u at dropped came
  let w := u.updCluster cl fun v => v.resize r.w0.toNat
  have own := dropped.cluster cl
  have resized : w.cluster cl = (u.cluster cl).resize r.w0.toNat := State.cluster_updCluster_same _ _ _
  obtain ⟨rest, tiles, grows, shrinks⟩ := (u.cluster cl).resize_spec hn
  have waits : (w.cluster cl).vwait = a.vwait := by
    rw [resized]
    exact (congrArg Cluster.vwait rest :).trans (congrArg Cluster.vwait own :)
  have run : exec .resizeAtSlice s = .next (w.replyTo (w.servedAt r) r { w0 := BitVec.ofNat 64 (w.cluster cl).vways } true) := by
    have stays : s.visitReq r = s := by
      unfold State.visitReq
      rw [hk]
      rfl
    refine congrArg _ ((serve_of h _).trans ?_)
    rw [stays, hu]
    unfold State.serveResize
    dsimp only
    rw [State.versionsChanged_idle (s := w) (by rw [waits]; exact idle)]
  have sent := Sends.replyTo w (w.servedAt r) r { w0 := BitVec.ofNat 64 (w.cluster cl).vways } true
  have replied := replied_replyTo w (w.servedAt r) r { w0 := BitVec.ofNat 64 (w.cluster cl).vways } (data := true) (by rw [hk]; rfl)
  generalize w.replyTo (w.servedAt r) r { w0 := BitVec.ofNat 64 (w.cluster cl).vways } true = t at run sent replied
  have at' := sent.cluster cl
  have vways : (t.cluster cl).vways = ((u.cluster cl).resize r.w0.toNat).vways := (congrArg Cluster.vways at' :).trans (congrArg Cluster.vways resized)
  have vers : (t.cluster cl).vers = ((u.cluster cl).resize r.w0.toNat).vers := (congrArg Cluster.vers at' :).trans (congrArg Cluster.vers resized)
  have lines : (t.cluster cl).lines = ((u.cluster cl).resize r.w0.toNat).lines := (congrArg Cluster.lines at' :).trans (congrArg Cluster.lines resized)
  have mts : (t.cluster cl).mts = ((u.cluster cl).resize r.w0.toNat).mts := (congrArg Cluster.mts at' :).trans (congrArg Cluster.mts resized)
  have vwaysA : (u.cluster cl).vways = a.vways := (congrArg Cluster.vways own :)
  have versA : (u.cluster cl).vers = a.vers := (congrArg Cluster.vers own :)
  have linesA : (u.cluster cl).lines = a.lines := (congrArg Cluster.lines own :)
  have idW : w.nextId = s.nextId := came.nextId
  rw [idW] at replied
  rw [versA] at tiles
  rw [versA, linesA, vwaysA] at grows shrinks
  refine ⟨t, _, run, replied, ?_, rfl, sent.mem.trans dropped.mem, ?_, ?_, ?_⟩
  · rw [vways, resized]
  · rw [vers]
    exact tiles
  · rw [vways, vers, lines, mts]
    exact grows
  · rw [vways, vers, lines]
    exact shrinks

end Sys2Proof

/-! ## The host's accesses to the tiers (spec/04_launch.md R68; spec/24_retire.md R420) -/

namespace Sys2Proof

open Machine

section

variable {s t u : State}

theorem hostKey_congr (hostjob : t.hostjob = s.hostjob) (jobs : t.jobs = s.jobs) : t.hostKey = s.hostKey := by
  unfold State.hostKey State.job
  rw [hostjob, jobs]

theorem poisons_clearPoison_rest (s : State) (a n : Nat) : { s.clearPoison a n with poisons := s.poisons } = s := by
  unfold State.clearPoison State.setPoison
  split <;> rfl

/-- Bytes of one line of a tier written under a key: read as they were written, the other lines as they were. -/
theorem memWrite_line {a : Nat} {bs : List Byte} (tier : isTier a = true) (fits : a % 128 + bs.length ≤ 128) (s : State) (key : Option Key) :
    (s.memWrite key a bs).memRead key a bs.length = bs ∧ (∀ y, y / 128 ≠ a / 128 → Memory.get (s.memWrite key a bs).mem y = Memory.get s.mem y) ∧
      { s.memWrite key a bs with mem := s.mem, poisons := s.poisons } = s := by
  have eq : s.memWrite key a bs = (s.tierWrite key a bs).clearPoison a bs.length := if_pos tier
  have cleared := poisons_clearPoison_rest (s.tierWrite key a bs) a bs.length
  have mem : ((s.tierWrite key a bs).clearPoison a bs.length).mem = (s.tierWrite key a bs).mem := State.clearPoison_mem _ _ _
  have dev : ((s.tierWrite key a bs).clearPoison a bs.length).devnum = (s.tierWrite key a bs).devnum := (congrArg State.devnum cleared :)
  rw [eq]
  refine ⟨?_, fun y hy => (congrArg (Memory.get · y) mem).trans (get_tierWrite_outside fits s key hy), ?_⟩
  · rw [memRead_tier tier, tierRead_congr mem dev]
    exact tierRead_tierWrite fits s key
  · exact (congrArg (fun x : State => { x with mem := s.mem, poisons := s.poisons }) cleared :).trans
      (congrArg (fun x : State => { x with poisons := s.poisons }) (tierWrite_rest fits s key) :)

theorem memRead_of_tier {a : Nat} (tier : isTier a = true) (mem : t.mem = s.mem) (dev : t.devnum = s.devnum) (key : Option Key) (n : Nat) :
    t.memRead key a n = s.memRead key a n := by
  rw [memRead_tier tier, memRead_tier tier]
  exact tierRead_congr mem dev key a n

end

/-- The line of an access of the host noted as the host's, and visited at its home. -/
def Machine.State.hostVisits (s : State) (a : Nat) : State :=
  ({ s with hostLines := if s.hostLines.contains (a / 128) then s.hostLines else s.hostLines ++ [a / 128] } : State).visit none a
    (if s.hostKey.isSome then s.hostjob.toNat else 16)

theorem hostVisits_spec (s : State) (a : Nat) : a / 128 ∈ (s.hostVisits a).hostLines ∧
    { s.hostVisits a with hostLines := s.hostLines, clusters := s.clusters, frames := s.frames, frameHits := s.frameHits } = s := by
  have visited := (Visits.visit ({ s with hostLines := if s.hostLines.contains (a / 128) then s.hostLines else s.hostLines ++ [a / 128] } : State) none a
    (if s.hostKey.isSome then s.hostjob.toNat else 16)).rest
  have lines := (congrArg State.hostLines visited :)
  refine ⟨?_, (congrArg (fun x : State => { x with hostLines := s.hostLines }) visited :)⟩
  show a / 128 ∈ (State.visit _ _ _ _).hostLines
  rw [lines]
  split
  · next h => exact List.contains_iff_mem.1 h
  · simp

/-- The bytes that a store of the host leaves in a line, at their time; what it has the walkers of the line told is still to come. -/
def Machine.State.hostWrites (s : State) (a : Nat) (bs : List Byte) : State :=
  let u := ((s.hostVisits a).traceOwn a 0).soil ((s.hostVisits a).hostjob.extractLsb' 0 4) (s.hostVisits a).hostKey.isNone a
  ((u.memWrite u.hostKey a bs).stamp (a / 128) 0).1

/-- The answer of a store of the host waits for the acknowledgements of the line. -/
def Machine.State.hostAnswer (s : State) (a : Nat) : State :=
  let (u, w) := s.invalidate (a / 128)
  if w then
    ({ u with msgs := Tab.put u.msgs u.nextId { src := u.epSlice (homeSlice a), dst := u.epHost, kind := 0x21#6 } } : State).bumpId.updLine (a / 128)
      fun h => { h with held := h.held ++ [u.nextId] }
  else u

theorem hostWrites_spec {s : State} {a : Nat} {bs : List Byte} (tier : isTier a = true) (fits : a % 128 + bs.length ≤ 128) :
    (s.hostWrites a bs).memRead s.hostKey a bs.length = bs ∧
      (∀ y, y / 128 ≠ a / 128 → Memory.get (s.hostWrites a bs).mem y = Memory.get s.mem y) ∧ (s.hostWrites a bs).hostLines = (s.hostVisits a).hostLines := by
  have visited := (hostVisits_spec s a).2
  let u := ((s.hostVisits a).traceOwn a 0).soil ((s.hostVisits a).hostjob.extractLsb' 0 4) (s.hostVisits a).hostKey.isNone a
  have key : u.hostKey = s.hostKey := hostKey_congr (congrArg State.hostjob visited :) (congrArg State.jobs visited :)
  obtain ⟨same, other, rest⟩ := memWrite_line tier fits u u.hostKey
  rw [key] at same other rest
  have eq : s.hostWrites a bs = ((u.memWrite s.hostKey a bs).stamp (a / 128) 0).1 := by rw [← key]; rfl
  rw [eq]
  refine ⟨?_, fun y hy => (other y hy).trans (congrArg (Memory.get · y) (congrArg State.mem visited :)), (congrArg State.hostLines rest :)⟩
  exact (memRead_of_tier tier rfl rfl _ _).trans same

theorem invalidate_rest (s : State) (ln : Nat) :
    { (s.invalidate ln).1 with agenda := s.agenda, nextId := s.nextId, clusters := s.clusters, msgs := s.msgs } = s := by
  unfold State.invalidate
  dsimp only
  split
  · rfl
  · have sent := (foldl_keeps Sends.refl Sends.trans (fun (u : State) (cl : Nat) => Sends.sendNew u
      { src := u.epSlice (homeSlice (128 * ln)), dst := u.epSlice (BitVec.ofNat 6 cl), kind := 0x26#6, body := .invalidate ln })
      (s.homeLine ln).map (s.updLine ln fun h => { h with map := [], acks := h.acks ++ h.map })).rest
    exact (congrArg (fun x : State => { x with clusters := s.clusters }) sent :)

theorem hostAnswer_rest (s : State) (a : Nat) :
    { s.hostAnswer a with agenda := s.agenda, nextId := s.nextId, clusters := s.clusters, msgs := s.msgs } = s := by
  unfold State.hostAnswer
  dsimp only
  split <;> exact invalidate_rest s (a / 128)

theorem hostRead_eq {s : State} (tier : isTier s.arg.w0.toNat = true) (ok : s.stackOk s.arg.w0.toNat = true) (hr : s.arg.ok = false) :
    exec .hostCxlMemoryAccess s = .next { s.hostVisits s.arg.w0.toNat with
      hostData := (s.hostVisits s.arg.w0.toNat).memRead (s.hostVisits s.arg.w0.toNat).hostKey s.arg.w0.toNat (min s.arg.n (128 - s.arg.w0.toNat % 128)) } := by
  show Host.Outcome.next (s.hostAccess s.arg.ok s.arg.w0.toNat s.arg.n s.arg.line) = _
  unfold State.hostAccess
  rw [tier, ok, hr]
  rfl

theorem hostWrite_eq {s : State} (tier : isTier s.arg.w0.toNat = true) (ok : s.stackOk s.arg.w0.toNat = true) (hw : s.arg.ok = true) :
    exec .hostCxlMemoryAccess s = .next
      ((s.hostWrites s.arg.w0.toNat ((bytesOf 128 s.arg.line).take (min s.arg.n (128 - s.arg.w0.toNat % 128)))).hostAnswer s.arg.w0.toNat) := by
  show Host.Outcome.next (s.hostAccess s.arg.ok s.arg.w0.toNat s.arg.n s.arg.line) = _
  unfold State.hostAccess
  rw [tier, ok, hw]
  rfl

/-- A host access to a line of the tiers holds it; a read answers with the bytes under the HOSTJOB key, a write leaves them there (R68, R420). -/
theorem hostAccesses {s : State} (tier : isTier s.arg.w0.toNat = true) (ok : s.stackOk s.arg.w0.toNat = true) :
    ∃ t, exec .hostCxlMemoryAccess s = .next t ∧ s.arg.w0.toNat / 128 ∈ t.hostLines ∧
    (s.arg.ok = false → t.mem = s.mem ∧
      t.hostData = s.memRead s.hostKey s.arg.w0.toNat (min s.arg.n (128 - s.arg.w0.toNat % 128))) ∧
    (s.arg.ok = true → s.arg.w0.toNat % 128 + s.arg.n ≤ 128 →
      t.memRead s.hostKey s.arg.w0.toNat s.arg.n = (bytesOf 128 s.arg.line).take s.arg.n ∧
      ∀ y, y / 128 ≠ s.arg.w0.toNat / 128 → Memory.get t.mem y = Memory.get s.mem y) := by
  obtain ⟨held, visited⟩ := hostVisits_spec s s.arg.w0.toNat
  cases way : s.arg.ok with
  | false =>
    refine ⟨_, hostRead_eq tier ok way, held, fun _ => ⟨(congrArg State.mem visited :), ?_⟩, nofun⟩
    show (s.hostVisits _).memRead (s.hostVisits _).hostKey _ _ = _
    have key : (s.hostVisits s.arg.w0.toNat).hostKey = s.hostKey := hostKey_congr (congrArg State.hostjob visited :) (congrArg State.jobs visited :)
    rw [key]
    exact memRead_of_tier tier (congrArg State.mem visited :) (congrArg State.devnum visited :) _ _
  | true =>
    let bs := (bytesOf 128 s.arg.line).take (min s.arg.n (128 - s.arg.w0.toNat % 128))
    have answered := hostAnswer_rest (s.hostWrites s.arg.w0.toNat bs) s.arg.w0.toNat
    have len : bs.length = min s.arg.n (128 - s.arg.w0.toNat % 128) := by
      rw [List.length_take, length_bytesOf]
      omega
    obtain ⟨same, other, lines⟩ := hostWrites_spec (s := s) (bs := bs) tier (by omega)
    refine ⟨_, hostWrite_eq tier ok way, ?_, nofun, fun _ fits => ⟨?_, fun y hy => ?_⟩⟩
    · rw [(congrArg State.hostLines answered : _ = (s.hostWrites s.arg.w0.toNat bs).hostLines), lines]
      exact held
    · have all : min s.arg.n (128 - s.arg.w0.toNat % 128) = s.arg.n := Nat.min_eq_left (by omega)
      rw [len] at same
      simp only [bs, all] at same answered ⊢
      exact (memRead_of_tier tier (congrArg State.mem answered :) (congrArg State.devnum answered :) _ _).trans same
    · exact (congrArg (Memory.get · y) (congrArg State.mem answered :)).trans (other y hy)

/-- A host access outside the tiers, or to a stack that is not trained, does nothing. -/
theorem hostAccess_outside {s : State} (h : isTier s.arg.w0.toNat = false ∨ s.stackOk s.arg.w0.toNat = false) : exec .hostCxlMemoryAccess s = .next s := by
  show Host.Outcome.next (s.hostAccess s.arg.ok s.arg.w0.toNat s.arg.n s.arg.line) = _
  unfold State.hostAccess
  rw [if_pos (by obtain h | h := h <;> simp [h])]

/-- The response of the host releases the line, and the writes that waited for it go on (R68). -/
theorem backInvalidated_spec (s : State) (ln : Nat) : ln ∉ (s.backInvalidated ln).hostLines ∧ (∀ e ∈ (s.backInvalidated ln).backInv, e.1 ≠ ln) ∧
    (∀ i, (ln, i) ∈ s.backInv → i ≠ 0 → (s.now, Instr.packetReassembled, ({ n := i } : StepArg)) ∈ (s.backInvalidated ln).agenda) ∧
    { s.backInvalidated ln with hostLines := s.hostLines, backInv := s.backInv, agenda := s.agenda } = s := by
  let u : State := { s with hostLines := s.hostLines.filter fun x => x ≠ ln, backInv := s.backInv.filter fun e => e.1 ≠ ln }
  let go := (s.backInv.filter fun e => e.1 = ln).filter fun e => decide (e.2 ≠ 0)
  have eq : s.backInvalidated ln = go.foldl (fun s e => s.soon .packetReassembled { n := e.2 }) u := by
    rw [List.foldl_filter (p := fun e : Nat × Nat => decide (e.2 ≠ 0))]
    show List.foldl _ u _ = _
    congr 1
    funext t e
    by_cases none : e.2 = 0 <;> simp [none]
  obtain ⟨rest, due⟩ := foldl_soon .packetReassembled (fun e : Nat × Nat => { n := e.2 }) go u
  rw [eq]
  refine ⟨?_, ?_, fun i hi hz => (due _).2 (.inl ⟨(ln, i), ?_, rfl⟩),
    (congrArg (fun x : State => { x with hostLines := s.hostLines, backInv := s.backInv }) rest :)⟩
  · rw [(congrArg State.hostLines rest : _ = u.hostLines)]
    simp [u]
  · rw [(congrArg State.backInv rest : _ = u.backInv)]
    simp [u]
  · simp [go, hi, hz]

theorem slicesAndHost : SlicesAndHost := by
  intro s
  refine ⟨fun r hr hk hn => resizes hr hk hn, ⟨hostAccess_outside, fun tier ok => hostAccesses tier ok⟩, ?_⟩
  exact ⟨_, rfl, backInvalidated_spec s s.arg.n⟩

/-! ## The exchange of frames (spec/09_memory.md R196, R197) -/

theorem frameExchanges : FrameExchanges := by
  intro s
  dsimp only
  have run : exec .frameExchange s = .next (s.exchange s.arg.v s.arg.n) := rfl
  rw [run]
  unfold State.exchange
  dsimp only
  refine ⟨fun unfit => ?_, fun m fit other chosen least => ?_⟩
  · rw [if_pos]
    by_contra fits
    exact unfit (by simpa [and_assoc] using fits)
  · obtain ⟨on, cap, full, recent, kept⟩ := fit
    rw [if_neg (by simp [on, cap, full, kept]; exact recent), chosen]
    dsimp only
    rw [if_pos (by simpa using least)]
    have get : ∀ (d : Frame) (f g : Frame) (x : Nat), Tab.get d (Tab.put (Tab.put s.frames s.arg.n f) m g) x =
        if x = m then g else if x = s.arg.n then f else Tab.get d s.frames x :=
      fun d f g x => by rw [Tab.get_put, Tab.get_put]
    refine ⟨_, rfl, ?_, ?_, fun x hn hm => ?_, rfl⟩ <;> unfold State.frame <;> dsimp only <;> rw [get]
    · rw [if_neg other.symm, if_pos rfl]
    · rw [if_pos rfl]
    · rw [if_neg hm, if_neg hn]

/-- Settles O43: the ways of a slice by what its eviction and its shrinking leave, the accesses of the host by the bytes of one line, the exchange by
the two entries that it writes. -/
theorem slicesFramesAndHost : Obligations.SlicesFramesAndHost := ⟨slicesAndHost, frameExchanges⟩

end Sys2Proof

/-! ## Stops: what is asked, and what the flip of a leaf does (spec/21_preempt.md R391 to R394) -/

namespace Sys2Proof

open Machine

/-! ### Steps and messages that a stop gives out -/

theorem foldl_push {α : Type} (n : Nat) (i : Instr) (x : α → StepArg) (l : List α) : ∀ s : State,
    { l.foldl (fun s e => s.push n i (x e)) s with agenda := s.agenda } = s ∧
    ∀ e, e ∈ (l.foldl (fun s e => s.push n i (x e)) s).agenda ↔ (∃ y ∈ l, e = (s.now + n, i, x y)) ∨ e ∈ s.agenda := by
  induction l with
  | nil => exact fun s => ⟨rfl, fun e => by simp⟩
  | cons y r ih =>
    intro s
    obtain ⟨rest, due⟩ := ih (s.push n i (x y))
    refine ⟨(congrArg (fun t : State => { t with agenda := s.agenda }) rest :), fun e => (due e).trans ?_⟩
    rw [State.mem_agenda_push, List.exists_mem_cons_iff, or_assoc, or_left_comm]
    rfl

/-- A message given to a link leaves on it, or waits there for a credit (R321). -/
theorem linkOut_sent (s : State) (p : Nat) (m : Msg) : m ∈ ((s.linkOut p m).port p).out ∨ m ∈ ((s.linkOut p m).port p).hold := by
  unfold State.linkOut
  have port : ∀ f : Port → Port, (s.updPort p f).port p = f (s.port p) := fun _ => Tab.get_put_same _ _ _ _
  rw [port]
  split
  · exact .inl (by simp)
  · exact .inr (by simp)

theorem sendTree_sent {s : State} {dev p : Nat} (h : s.portTo (BitVec.ofNat 6 dev) 0 0 = some p) (j : JobId) (t : Tree) :
    ∃ m : Msg, (m ∈ ((s.sendTree dev j t).port p).out ∨ m ∈ ((s.sendTree dev j t).port p).hold) ∧ m.body = .tree t ∧ m.job = j := by
  unfold State.sendTree
  rw [h]
  exact ⟨_, linkOut_sent s p _, rfl, rfl⟩

/-- The flips of a round that opens are due at every leaf that holds something of the job (R359, R394). -/
theorem openRound_flips (s : State) (j : JobId) (stop : Bool) : ∀ n ∈ s.liveLeaves j,
    (s.now + 16, (if stop then Instr.stopFlip else .colourFlip), ({ j := j, leaf := leafOf n, ok := !(s.job j).rootColour } : StepArg)) ∈
      (s.openRound j stop).agenda := by
  intro n hn
  let u := (s.dropRoundStart j).updJob j (s.roundOpens (!(s.job j).rootColour) stop)
  have leaves : u.liveLeaves j = s.liveLeaves j := by
    unfold State.liveLeaves
    rw [State.job_updJob_same]
    rfl
  obtain ⟨-, due⟩ := foldl_push 16 (if stop then .stopFlip else .colourFlip)
    (fun n => ({ j := j, leaf := leafOf n, ok := !(s.job j).rootColour } : StepArg)) (u.liveLeaves j) u
  have later := (Links.sendDomain (s.openHere j (!(s.job j).rootColour) stop) j (.flip (!(s.job j).rootColour) stop)).trans
    (Links.push _ 32 .gvtWaveStart { j := j })
  exact later.agenda _ ((due _).2 (.inl ⟨n, leaves ▸ hn, rfl⟩))

/-! ### PRECTL_STOP -/

/-- The end of an operation of PRECTL that is refused: ERR and DONE, and nothing else (R391). -/
theorem endCut_refused {s : State} (hc : s.cut = none) : ∀ t, t = ({ s with prestat := 0 } : State).endCut true →
    { t with prectl := s.prectl, prestat := s.prestat } = s ∧
      t.prectl.getLsbD 7 = true ∧ t.prectl.getLsbD 8 = false ∧ t.prectl.getLsbD 9 = true ∧ t.prestat = 0 := by
  rintro t rfl
  have same : { ({ s with prestat := 0 } : State).endCut true with prectl := s.prectl, prestat := s.prestat } = { s with cut := none } := rfl
  refine ⟨same.trans (by rw [← hc]), ?_, ?_, ?_, rfl⟩ <;> simp [State.endCut]

/-- The stop that PRECTL asks for, in a phase. -/
def Machine.State.cutAsked (s : State) (phase : Nat) : State :=
  { s with prestat := 0, cut := some { scope := s.prectl.getLsbD 4, job := s.prectl.extractLsb' 0 4, phase := phase } }

/-- What PRECTL_STOP does while no operation runs (R393). -/
theorem stopJob_eq {s : State} {j : JobId} (hj : s.prectl.extractLsb' 0 4 = j) (hc : s.cut = none) : s.stopJob =
    if !(s.job j).resident || (s.job j).stopped then ({ s with prestat := 0 } : State).endCut true
    else if !s.isRoot then (s.cutAsked 0).sendTree s.root j .ask
    else if (s.job j).round.active then s.cutAsked 0 else (s.cutAsked 1).openRound j true := by
  subst hj
  unfold State.stopJob
  rw [hc]
  rfl

theorem stopsAsked {s : State} {j : JobId} (hj : s.prectl.extractLsb' 0 4 = j) (hc : s.cut = none) :
    let v := s.job j
    (v.resident = false ∨ v.stopped = true → ∃ t, exec .prectlStop s = .next t ∧ { t with prectl := s.prectl, prestat := s.prestat } = s ∧
      t.prectl.getLsbD 7 = true ∧ t.prectl.getLsbD 8 = false ∧ t.prectl.getLsbD 9 = true ∧ t.prestat = 0) ∧
    (v.resident = true → v.stopped = false → s.root ≠ s.devnum.toNat → ∃ t, exec .prectlStop s = .next t ∧
      t.cut = some { scope := s.prectl.getLsbD 4, job := j } ∧ t.mem = s.mem ∧ t.cores = s.cores ∧
      ∀ p, s.portTo (BitVec.ofNat 6 s.root) 0 0 = some p → ∃ m : Msg, (m ∈ (t.port p).out ∨ m ∈ (t.port p).hold) ∧ m.body = .tree .ask ∧ m.job = j) ∧
    (v.resident = true → v.stopped = false → s.root = s.devnum.toNat → v.round.active = true → exec .prectlStop s =
      .next { s with prestat := 0, cut := some { scope := s.prectl.getLsbD 4, job := j } }) ∧
    (v.resident = true → v.stopped = false → s.root = s.devnum.toNat → v.round.active = false → ∃ t, exec .prectlStop s = .next t ∧
      t.cut = some { scope := s.prectl.getLsbD 4, job := j, phase := 1 } ∧ (t.job j).round.active = true ∧ (t.job j).round.stop = true ∧
      (∀ n ∈ s.liveLeaves j, (s.now + 16, Instr.stopFlip, ({ j := j, leaf := leafOf n, ok := !v.rootColour } : StepArg)) ∈ t.agenda) ∧
      t.mem = s.mem ∧ t.cores = s.cores) := by
  have run : exec .prectlStop s = .next s.stopJob := rfl
  have step := stopJob_eq hj hc
  dsimp only
  refine ⟨fun refused => ?_, fun resident live other => ?_, fun resident live root active => ?_, fun resident live root idle => ?_⟩
  · rw [if_pos (by obtain h | h := refused <;> simp [h])] at step
    exact ⟨_, run, endCut_refused hc _ step⟩
  · rw [if_neg (by simp [resident, live]), if_pos (by simpa [← isRoot_iff] using other)] at step
    have links := Links.sendTree (s.cutAsked 0) s.root j .ask
    rw [← step] at links
    refine ⟨_, run, ?_, (congrArg State.mem links.rest :), (congrArg State.cores links.rest :), fun p hp => ?_⟩
    · exact (congrArg State.cut links.rest :).trans (by rw [← hj]; rfl)
    · rw [step]
      exact sendTree_sent (s := s.cutAsked 0) hp j .ask
  · rw [if_neg (by simp [resident, live]), if_neg (by simp [(isRoot_iff s).2 root]), if_pos active] at step
    rw [run, step, ← hj]
    rfl
  · rw [if_neg (by simp [resident, live]), if_neg (by simp [(isRoot_iff s).2 root]), if_neg (by simp [idle])] at step
    have links := openRound_links (s.cutAsked 1) j true
    have flips := openRound_flips (s.cutAsked 1) j true
    rw [← step] at links flips
    have round := (links.job j).trans (State.job_updJob_same _ _ _)
    refine ⟨_, run, (congrArg State.cut links.rest :).trans (by rw [← hj]; rfl), ?_, ?_, flips, (congrArg State.mem links.rest :),
      (congrArg State.cores links.rest :)⟩ <;> rw [round] <;> rfl

/-! ### STOP_FLIP -/

theorem isOpen_flip (v : LeafSt) (k : Bool) : (v.flip k).isOpen = true := by
  unfold LeafSt.flip
  split
  · assumption
  · rfl

theorem leaf_updLeaf_same (s : State) (j : JobId) (x : Leaf) (f : LeafSt → LeafSt) : ((s.updLeaf j x f).job j).leaf x = f ((s.job j).leaf x) := by
  unfold State.updLeaf
  rw [State.job_updJob_same]
  exact Tab.get_put_same _ _ _ _

/-- A leaf of the management core, of a port or of a decoder that is not its die's first only flips and stops. -/
theorem stopFlip_plain {s : State} {j : JobId} {x : Leaf} (active : (s.job j).round.active = true) (stop : (s.job j).round.stop = true)
    (hx : x = .mgmt ∨ (∃ p, x = .port p) ∨ ∃ d : BitVec 5, x = .decoder d ∧ d.toNat % 8 ≠ 0) :
    s.stopFlip j x = s.updLeaf j x fun v => { v.flip (s.job j).round.k with stopped := true } := by
  unfold State.stopFlip
  rw [if_neg (by simp [active, stop])]
  obtain rfl | ⟨p, rfl⟩ | ⟨d, rfl, other⟩ := hx
  · rfl
  · rfl
  · exact if_neg other

theorem stopFlip_idle {s : State} {j : JobId} (h : (s.job j).round.active = false ∨ (s.job j).round.stop = false) (x : Leaf) : s.stopFlip j x = s :=
  if_pos (by obtain h | h := h <;> simp [h])

theorem closeCut_idle {s : State} {j : JobId} (h : (s.job j).round.active = false ∨ (s.job j).round.stop = false) (g : Option Word) :
    s.closeCut j g = s := if_pos (by obtain h | h := h <;> simp [h])

theorem stopRequests : StopRequests := by
  intro s j
  refine ⟨stopsAsked, fun hj idle => ⟨?_, ?_⟩, fun hj active stop hx => ?_⟩
  · exact congrArg Host.Outcome.next (hj ▸ stopFlip_idle idle _)
  · exact congrArg Host.Outcome.next (hj ▸ closeCut_idle idle _)
  · subst hj
    have leaf := leaf_updLeaf_same s s.arg.j s.arg.leaf fun v => { v.flip (s.job s.arg.j).round.k with stopped := true }
    refine ⟨_, congrArg Host.Outcome.next (stopFlip_plain active stop hx), ?_, ?_, rfl, rfl⟩ <;> rw [leaf]
    exact isOpen_flip _ _

end Sys2Proof

/-! ## The close of the cut, and the saves that follow one another (spec/21_preempt.md R394, R398) -/

namespace Sys2Proof

open Machine

/-- A save has ended and the next is due, or the stop has ended: of the machine's parts only the agenda, the operation of PRECTL and the bind records
may differ. -/
structure SavesGoOn (s t : State) : Prop where
  rest : { t with agenda := s.agenda, cut := s.cut, prectl := s.prectl, slotTable := s.slotTable, jobs := s.jobs } = s
  job : ∀ i, { t.job i with launches := (s.job i).launches } = s.job i

theorem SavesGoOn.refl (s : State) : SavesGoOn s s := ⟨rfl, fun _ => rfl⟩

theorem SavesGoOn.trans {s t u : State} (h : SavesGoOn s t) (g : SavesGoOn t u) : SavesGoOn s u where
  rest := by
    have h1 := h.rest
    have h2 := g.rest
    rw [← h1, ← h2]
  job i := by
    have h1 := h.job i
    have h2 := g.job i
    rw [← h1, ← h2]

theorem SavesGoOn.unbind (s : State) (j : JobId) (l : Lslot) : SavesGoOn s (s.unbind j l) := by
  unfold State.unbind
  split
  · refine ⟨rfl, fun i => ?_⟩
    unfold State.updLaunch
    rw [State.job_updJob]
    split
    · subst i; rfl
    · rfl
  · exact SavesGoOn.refl s

theorem SavesGoOn.nextSaves (s : State) : SavesGoOn s s.nextSaves := by
  have push : ∀ (u : State) (n : Nat) (i : Instr) (x : StepArg), SavesGoOn u (u.push n i x) := fun _ _ _ _ => ⟨rfl, fun _ => rfl⟩
  have ends : ∀ (u : State) (e : Bool), SavesGoOn u (u.endCut e) := fun _ _ => ⟨rfl, fun _ => rfl⟩
  unfold State.nextSaves
  split
  · exact SavesGoOn.refl s
  · split
    · exact (foldl_keeps SavesGoOn.refl SavesGoOn.trans (fun s (e : Nat × Launch) => SavesGoOn.unbind s _ (BitVec.ofNat 16 e.1)) _ s).trans (ends _ _)
    · exact push s _ _ _
    · exact push s _ _ _

theorem SavesGoOn.saved {s t : State} (h : SavesGoOn s t) (j : JobId) : (t.job j).saved = (s.job j).saved := (congrArg Job.saved (h.job j) :)

/-- While something is left to save the operation stands. -/
theorem cut_nextSaves {s : State} {x : Cut} (hc : s.cut = some x) (more : x.cores ≠ []) : s.nextSaves.cut = some x := by
  unfold State.nextSaves
  rw [hc]
  dsimp only
  split
  · contradiction
  · exact hc
  · exact hc

/-! ### ECLIPSE_CUT_CLOSE -/

/-- The record of a job as a broadcast value leaves it (R362). -/
def Machine.Job.hears (v : Job) (g : Word) : Job :=
  { v with gvt := wmax g v.gvt, rootColour := v.round.k, round := { v.round with active := false, stop := false, reps := [], due := [] },
           idleLeaf := { v.idleLeaf with gvt := wmax g v.gvt, isOpen := false } }

theorem broadcast_spec (s : State) (j : JobId) (g : Word) : (s.broadcast j g).job j = (s.job j).hears g ∧
    { s.broadcast j g with agenda := s.agenda, jobs := s.jobs, treectl := s.treectl } = s := by
  unfold State.broadcast
  dsimp only
  obtain ⟨rest, -⟩ := foldl_push 32 .gvtBroadcastReceive (fun n => ({ j := j, leaf := leafOf n, w0 := wmax g (s.job j).gvt } : StepArg)) (s.liveLeaves j)
    { s.updJob j (fun v => v.hears g) with
      treectl := (if s.treectl.extractLsb' 32 32 = BitVec.allOnes 32 then s.treectl.extractLsb' 32 32 else s.treectl.extractLsb' 32 32 + 1) ++ s.treectl.extractLsb' 0 32 }
  exact ⟨Eq.trans (b := (s.updJob j fun v => v.hears g).job j) (congrArg (fun x : State => x.job j) rest :) (State.job_updJob_same _ _ _),
    (congrArg (fun x : State => { x with jobs := s.jobs, treectl := s.treectl }) rest :)⟩

theorem job_sendDomain (s : State) (j : JobId) (t : Tree) (i : JobId) : (s.sendDomain j t).job i = s.job i := (Links.sendDomain s j t).job i

theorem cut_sendDomain (s : State) (j : JobId) (t : Tree) : (s.sendDomain j t).cut = s.cut := (congrArg State.cut (Links.sendDomain s j t).rest :)

/-- The stop that a device's own PRECTL has asked for. -/
def Machine.State.asksStop (s : State) (j : JobId) : Bool := match s.cut with | some x => x.job == j && !x.restore | none => false

/-- At the root, the other devices are told of the final value, and those that have asked for the stop hold the rounds. -/
def Machine.State.tellsFinal (s : State) (j : JobId) (own : Bool) : State :=
  if !s.isRoot then s
  else (s.sendDomain j (.gvt (s.job j).gvt true)).updJob j fun v =>
    { v with round := { v.round with held := v.round.asked ++ (if own then [s.devnum.toNat] else []), asked := [] } }

/-- The registrations of a job withdrawn from every slice. -/
def Machine.State.dropWaits (s : State) (j : JobId) : State :=
  { s with clusters := s.clusters.map fun (e : Nat × Cluster) => (e.1, { e.2 with waitw := e.2.waitw.filter fun r => r.job != j }) }

/-- The job stops, and what waits is kept for the restore (R393). -/
def Machine.State.stopsJob (s : State) (j : JobId) : State :=
  (s.dropWaits j).updJob j fun v => { v with stopped := true, saved :=
    { whole := match (s.dropWaits j).cut with | some x => x.scope | none => false
      waits := s.clusters.flatMap fun (e : Nat × Cluster) => e.2.waitw.filter fun r => r.job == j } }

/-- The saves of a job that begin (R394, R396, R398). -/
def Machine.State.savesBegin (s : State) (j : JobId) (x : Cut) : State :=
  { s with cut := some { x with phase := 2, cores := s.boundCores j,
                                strands := (s.boundCores j).flatMap fun c => (s.strandsOf c j).map fun k => (c, k) } }

/-- What follows the stop: the saves, on a device that has asked for it. -/
def Machine.State.thenSaves (s : State) (j : JobId) (own : Bool) : State :=
  match if own then s.cut else none with
  | none => s
  | some x => (s.savesBegin j x).nextSaves

section

variable {s : State} {j : JobId} {x : Cut} (active : (s.job j).round.active = true) (stop : (s.job j).round.stop = true)

include active stop

theorem closeCut_waits (h : (s.job j).round.due ≠ []) : s.closeCut j none = s.push 64 .eclipseCutClose { j := j } := by
  unfold State.closeCut
  dsimp only
  rw [if_neg (by simp [active, stop]), if_pos (by simp [h])]

variable (root : s.root = s.devnum.toNat)

include root

theorem closeCut_again (h : (s.job j).round.due = []) (unbalanced : (s.job j).round.sum ≠ 0 ∨ (s.job j).round.out ≠ 0) :
    s.closeCut j none = s.push 64 .gvtWaveStart { j := j } := by
  unfold State.closeCut
  dsimp only
  rw [if_neg (by simp [active, stop]), if_neg (by simp [h]), if_neg (by simp [(isRoot_iff s).2 root]), if_pos (by simpa using unbalanced)]

theorem closeCut_final (h : (s.job j).round.due = []) (sum : (s.job j).round.sum = 0) (out : (s.job j).round.out = 0) :
    let b := s.broadcast j (s.job j).round.least
    s.closeCut j none = ((b.tellsFinal j (b.asksStop j)).stopsJob j).thenSaves j (b.asksStop j) := by
  unfold State.closeCut
  refine (if_neg (by simp [active, stop])).trans ((if_neg (by simp [h])).trans ((if_neg (by simp [(isRoot_iff s).2 root])).trans
    ((if_neg (by simp [sum, out])).trans ?_)))
  rw [Option.getD_none]
  rfl

end

theorem tellsFinal_spec {s : State} (root : s.isRoot = true) (j : JobId) (own : Bool) :
    { s.tellsFinal j own with agenda := s.agenda, jobs := s.jobs, ports := s.ports } = s ∧
      { (s.tellsFinal j own).job j with round := (s.job j).round } = s.job j ∧ ((s.tellsFinal j own).job j).round.active = (s.job j).round.active := by
  have links := Links.sendDomain s j (.gvt (s.job j).gvt true)
  unfold State.tellsFinal
  rw [if_neg (by simp [root])]
  refine ⟨(congrArg (fun x : State => { x with jobs := s.jobs }) links.rest :), ?_, ?_⟩ <;> rw [State.job_updJob_same, links.job]

theorem cluster_stopsJob (s : State) (j : JobId) (cl : ClusterId) :
    (s.stopsJob j).cluster cl = { s.cluster cl with waitw := (s.cluster cl).waitw.filter fun r => r.job != j } :=
  get_map (g := fun v : Cluster => { v with waitw := v.waitw.filter fun r => r.job != j }) rfl s.clusters cl.toNat

theorem job_stopsJob (s : State) (j : JobId) :
    { (s.stopsJob j).job j with stopped := (s.job j).stopped, saved := (s.job j).saved } = s.job j ∧ ((s.stopsJob j).job j).stopped = true ∧
      ((s.stopsJob j).job j).saved.waits = s.clusters.flatMap fun (e : Nat × Cluster) => e.2.waitw.filter fun r => r.job == j := by
  unfold State.stopsJob
  rw [State.job_updJob_same]
  exact ⟨rfl, rfl, rfl⟩

/-- What waits at a slice stands in the table of slices. -/
theorem mem_waitw_of_cluster {s : State} {cl : ClusterId} {r : Req} (h : r ∈ (s.cluster cl).waitw) : ∃ e ∈ s.clusters, r ∈ e.2.waitw := by
  unfold State.cluster at h
  generalize cl.toNat = k at h
  generalize s.clusters = l at h ⊢
  induction l with
  | nil => cases h
  | cons e l ih =>
    by_cases he : e.1 = k
    · exact ⟨e, List.mem_cons_self .., by rwa [Tab.get, if_pos he] at h⟩
    · rw [Tab.get, if_neg he] at h
      obtain ⟨y, hy, hr⟩ := ih h
      exact ⟨y, List.mem_cons_of_mem _ hy, hr⟩

theorem thenSaves_own {s : State} {x : Cut} (h : s.cut = some x) (j : JobId) : s.thenSaves j true = (s.savesBegin j x).nextSaves := by
  unfold State.thenSaves
  rw [if_pos rfl, h]

/-- A balanced stop that the device's own PRECTL has asked for (R394). -/
theorem cutShuts {s : State} {j : JobId} {x : Cut} (active : (s.job j).round.active = true) (stop : (s.job j).round.stop = true)
    (root : s.root = s.devnum.toNat) (hc : s.cut = some x) (hj : x.job = j) (hr : x.restore = false) (h : (s.job j).round.due = [])
    (sum : (s.job j).round.sum = 0) (out : (s.job j).round.out = 0) : ∃ t, s.closeCut j none = t ∧
    (t.job j).stopped = true ∧ (t.job j).round.active = false ∧
      (s.job j).gvt ≤ (t.job j).gvt ∧ (s.boundCores j ≠ [] → t.mem = s.mem ∧ t.cores = s.cores) ∧
      (∀ cl, (∀ r ∈ (t.cluster cl).waitw, r.job ≠ j) ∧ ∀ r ∈ (s.cluster cl).waitw, r.job = j → r ∈ (t.job j).saved.waits) ∧
      (∀ c, c ∈ s.boundCores j → ∀ k ∈ s.strandsOf c j, ∃ y, t.cut = some y ∧ y.phase = 2 ∧ (c, k) ∈ y.strands ∧ c ∈ y.cores) := by
  have run := closeCut_final active stop root h sum out
  obtain ⟨bjob, brest⟩ := broadcast_spec s j (s.job j).round.least
  dsimp only at run
  generalize s.broadcast j (s.job j).round.least = b at run bjob brest
  have bcut : b.cut = some x := (congrArg State.cut brest :).trans hc
  have own : b.asksStop j = true := by
    unfold State.asksStop
    rw [bcut]
    simp [hj, hr]
  obtain ⟨frest, fjob, factive⟩ := tellsFinal_spec (s := b) ((congrArg State.isRoot brest :).trans ((isRoot_iff s).2 root)) j true
  rw [own] at run
  generalize b.tellsFinal j true = f at run frest fjob factive
  have fcut : f.cut = some x := (congrArg State.cut frest :).trans bcut
  obtain ⟨gjob, gstopped, gwaits⟩ := job_stopsJob f j
  have on := SavesGoOn.nextSaves ((f.stopsJob j).savesBegin j x)
  have kept := on.job j
  have fclusters : f.clusters = s.clusters := (congrArg State.clusters frest :).trans (congrArg State.clusters brest :)
  have bound : (f.stopsJob j).boundCores j = s.boundCores j := by
    unfold State.boundCores
    rw [(congrArg Job.launches gjob : _ = (f.job j).launches), (congrArg Job.launches fjob : _ = (b.job j).launches), bjob]
    rfl
  have strands : ∀ c, (f.stopsJob j).strandsOf c j = s.strandsOf c j := fun c =>
    (congrArg (fun t : State => t.strandsOf c j) frest :).trans (congrArg (fun t : State => t.strandsOf c j) brest :)
  rw [thenSaves_own (s := f.stopsJob j) fcut] at run
  have cut : s.boundCores j ≠ [] → ((f.stopsJob j).savesBegin j x).nextSaves.cut = ((f.stopsJob j).savesBegin j x).cut :=
    fun some => cut_nextSaves rfl (bound.symm ▸ some)
  generalize ((f.stopsJob j).savesBegin j x).nextSaves = t at run on kept cut
  refine ⟨_, run, (congrArg Job.stopped kept :).trans gstopped, ?_, ?_, fun _ => ⟨?_, ?_⟩, fun cl => ⟨?_, ?_⟩, fun c hb k hk => ?_⟩
  · have round : (t.job j).round = (f.job j).round := (congrArg Job.round kept :).trans (congrArg Job.round gjob :)
    rw [round, factive, bjob]
    rfl
  · have gvt : (t.job j).gvt = wmax (s.job j).round.least (s.job j).gvt :=
      (congrArg Job.gvt kept :).trans ((congrArg Job.gvt gjob :).trans ((congrArg Job.gvt fjob :).trans (congrArg Job.gvt bjob :)))
    rw [gvt]
    exact le_wmax_right _ _
  · exact (congrArg State.mem on.rest :).trans ((congrArg State.mem frest :).trans (congrArg State.mem brest :))
  · exact (congrArg State.cores on.rest :).trans ((congrArg State.cores frest :).trans (congrArg State.cores brest :))
  · have left : (t.cluster cl).waitw = (f.cluster cl).waitw.filter fun r => r.job != j :=
      (congrArg (fun u : State => (u.cluster cl).waitw) on.rest :).trans (congrArg Cluster.waitw (cluster_stopsJob f j cl) :)
    rw [left]
    exact fun r hr => by simpa using (List.mem_filter.1 hr).2
  · intro r hr hj
    rw [(congrArg Job.saved kept :).trans (Eq.refl ((f.stopsJob j).job j).saved), gwaits, fclusters]
    obtain ⟨e, he, hw⟩ := mem_waitw_of_cluster hr
    exact List.mem_flatMap.2 ⟨e, he, List.mem_filter.2 ⟨hw, by simp [hj]⟩⟩
  · refine ⟨_, cut (List.ne_nil_of_mem hb), rfl, ?_, ?_⟩
    · refine List.mem_flatMap.2 ⟨c, bound.symm ▸ hb, List.mem_map.2 ⟨k, ?_, rfl⟩⟩
      rw [strands]
      exact hk
    · exact (bound.symm ▸ hb :)

theorem cutCloses : CutCloses := by
  intro s j x hj hv root active stop hc hx hr
  have run : exec .eclipseCutClose s = .next (s.closeCut j none) := by
    rw [← hj]
    exact congrArg (fun g => Host.Outcome.next (s.closeCut s.arg.j g)) (if_neg hv)
  dsimp only
  rw [run]
  refine ⟨fun due => congrArg _ (closeCut_waits active stop due), fun due unbalanced => congrArg _ (closeCut_again active stop root due unbalanced),
    fun due sum out => ?_⟩
  obtain ⟨t, ht, rest⟩ := cutShuts active stop root hc hx hr due sum out
  exact ⟨t, congrArg _ ht, rest⟩

end Sys2Proof

/-! ## The saves of strands and cores (spec/21_preempt.md R395 to R400) -/

namespace Sys2Proof

open Machine

theorem whenSaved_clear {s : State} {j : JobId} {vas : List (BitVec 48)} (h : s.jobClear j vas = true) (i : Instr) (x : StepArg) (f : State → State) :
    s.whenSaved j vas i x f = f s := if_pos h

theorem whenSaved_unclear {s : State} {j : JobId} {vas : List (BitVec 48)} (h : s.jobClear j vas = false) (i : Instr) (x : StepArg) (f : State → State) :
    s.whenSaved j vas i x f = (s.clearJob j vas).push 64 i x := if_neg (by simp [h])

theorem SavesGoOn.withCut (s : State) (y : Option Cut) : SavesGoOn s ({ s with cut := y } : State).nextSaves :=
  SavesGoOn.trans (t := { s with cut := y }) ⟨rfl, fun _ => rfl⟩ (SavesGoOn.nextSaves _)

theorem SavesGoOn.strandSaved (s : State) (c : CoreId) (k : StrandId) : SavesGoOn s (s.strandSaved c k) := SavesGoOn.withCut s _

theorem SavesGoOn.mem {s t : State} (h : SavesGoOn s t) : t.mem = s.mem := (congrArg State.mem h.rest :)
theorem SavesGoOn.cores {s t : State} (h : SavesGoOn s t) : t.cores = s.cores := (congrArg State.cores h.rest :)
theorem SavesGoOn.core {s t : State} (h : SavesGoOn s t) (c : CoreId) : t.core c = s.core c := (congrArg (fun x : State => x.core c) h.rest :)
theorem SavesGoOn.strand {s t : State} (h : SavesGoOn s t) (c : CoreId) (k : StrandId) : t.strand c k = s.strand c k :=
  (congrArg (fun x : State => x.strand c k) h.rest :)
theorem SavesGoOn.prestat {s t : State} (h : SavesGoOn s t) : t.prestat = s.prestat := (congrArg State.prestat h.rest :)

/-! ### The counts of PRESTAT -/

theorem prestat_countSaved (s : State) : s.countSaved.prestat.extractLsb' 32 32 = s.prestat.extractLsb' 32 32 + 1 ∧
    s.countSaved.prestat.extractLsb' 0 32 = s.prestat.extractLsb' 0 32 := by
  unfold State.countSaved
  constructor
  · exact BitVec.extractLsb'_append_eq_left
  · exact BitVec.extractLsb'_append_eq_right

theorem prestat_countAbandon (s : State) : s.countAbandon.prestat.extractLsb' 16 16 = s.prestat.extractLsb' 16 16 + 1 := by
  unfold State.countAbandon
  exact (BitVec.extractLsb'_append_eq_of_le (by decide)).trans BitVec.extractLsb'_append_eq_right

/-! ### STRAND_SAVE -/

/-- A strand among those that have been saved, with its generation. -/
def Machine.Job.keepsStrand (v : Job) (e : CoreId × StrandId × Nat) : Job := { v with saved := { v.saved with strands := v.saved.strands ++ [e] } }

/-- A strand saved with a new generation: recorded, and SAVED counted (R399, R400). -/
def Machine.State.strandKept (s : State) (c : CoreId) (k : StrandId) (j : JobId) (g : Nat) : State :=
  (s.updJob j fun v => v.keepsStrand (c, k, g)).countSaved

/-- A strand whose save is abandoned: its packet is sent, ABANDON counts, and it stands frozen (R400). -/
def Machine.State.strandGivenUp (s : State) (c : CoreId) (k : StrandId) (f : Fault') : State :=
  ((s.sendPacket (s.strandPacket c k f)).countAbandon).updStrand c k fun t =>
    if t.st = .frozen then t else { t with st := .frozen, froze := some (s.strandPacket c k f) }

section

variable {s : State} {c : CoreId} {k : StrandId} {x : Cut} (hc : s.cut = some x)

include hc

theorem saveStrand_other (h : x.phase ≠ 2 ∨ (c, k) ∉ x.strands) : s.saveStrand c k = s := by
  unfold State.saveStrand
  rw [hc]
  exact if_pos (by simpa using h)

variable (hp : x.phase = 2) (hs : (c, k) ∈ x.strands)

include hp hs

theorem saveStrand_again (h : s.canSave c k x.job = false) : s.saveStrand c k = s.push 64 .strandSave { c := c, k := k } := by
  unfold State.saveStrand
  rw [hc]
  exact (if_neg (by simp [hp, hs])).trans (if_pos (by simp [h]))

variable (can : s.canSave c k x.job = true)

include can

theorem saveStrand_unclear (h : s.jobClear x.job (linesOf (s.strandVa c k) 0x1000) = false) :
    s.saveStrand c k = (s.clearJob x.job (linesOf (s.strandVa c k) 0x1000)).push 64 .strandSave { c := c, k := k } := by
  unfold State.saveStrand
  rw [hc]
  exact (if_neg (by simp [hp, hs])).trans ((if_neg (by simp [can])).trans (whenSaved_unclear h _ _ _))

variable (clear : s.jobClear x.job (linesOf (s.strandVa c k) 0x1000) = true)

include clear

theorem saveStrand_stored {u w : State} {g : Nat} (parts : s.saveParts x.job [(s.strandVa c k, s.strandArea c k)] = .inl u)
    (sealed : u.sealArea x.job (s.strandVa c k) (s.strandVa c k + 0xFC0) (s.strandVa c k + 0xFF8) 24 (s.strandArea c k) = .inl (w, g)) :
    s.saveStrand c k = (w.strandKept c k x.job g).strandSaved c k := by
  unfold State.saveStrand
  rw [hc]
  refine (if_neg (by simp [hp, hs])).trans ((if_neg (by simp [can])).trans ((whenSaved_clear clear _ _ _).trans ?_))
  dsimp only
  rw [parts]
  dsimp only
  rw [sealed]
  rfl

theorem saveStrand_faults {u : State} {f : Fault'} (parts : s.saveParts x.job [(s.strandVa c k, s.strandArea c k)] = .inr (u, f)) :
    s.saveStrand c k = (u.strandGivenUp c k f).strandSaved c k := by
  unfold State.saveStrand
  rw [hc]
  refine (if_neg (by simp [hp, hs])).trans ((if_neg (by simp [can])).trans ((whenSaved_clear clear _ _ _).trans ?_))
  dsimp only
  rw [parts]
  rfl

end

theorem strandGivenUp_spec (u : State) (c : CoreId) (k : StrandId) (f : Fault') : (u.strandGivenUp c k f).mem = u.mem ∧
    ((u.strandGivenUp c k f).core c).pktq = (u.core c).pktq ++ [u.strandPacket c k f] ∧ ((u.strandGivenUp c k f).strand c k).st = .frozen ∧
    ((u.strandGivenUp c k f).strand c k).froze = (if (u.strand c k).st = .frozen then (u.strand c k).froze else some (u.strandPacket c k f)) ∧
    (u.strandGivenUp c k f).prestat.extractLsb' 16 16 = u.prestat.extractLsb' 16 16 + 1 := by
  let v := u.sendPacket (u.strandPacket c k f)
  have core : v.core c = { u.core c with pktq := (u.core c).pktq ++ [u.strandPacket c k f] } := core_sendPacket u (u.strandPacket c k f)
  have strand : v.strand c k = u.strand c k := (congrArg (fun w : Core => w.strand k) core :)
  have strand' : (u.strandGivenUp c k f).strand c k =
      if (u.strand c k).st = .frozen then u.strand c k else { u.strand c k with st := .frozen, froze := some (u.strandPacket c k f) } := by
    rw [← strand]
    exact State.strand_updStrand_same v.countAbandon c k _
  refine ⟨rfl, ?_, ?_, ?_, prestat_countAbandon v⟩
  · exact (congrArg Core.pktq (State.core_setCore_same v.countAbandon c _) :).trans (congrArg Core.pktq core :)
  · rw [strand']
    split
    · assumption
    · rfl
  · rw [strand']
    split <;> rfl

theorem strandSaves : StrandSaves := by
  intro s c k x hcore hk hc
  have run : exec .strandSave s = .next (s.saveStrand c k) := by rw [← hcore, ← hk]; rfl
  dsimp only
  rw [run]
  refine ⟨fun other => congrArg _ (saveStrand_other hc other), fun hp hs cannot => congrArg _ (saveStrand_again hc hp hs cannot),
    fun hp hs can unclear => congrArg _ (saveStrand_unclear hc hp hs can unclear), fun hp hs can clear => ⟨fun u w g parts sealed => ?_, fun u f parts => ?_⟩⟩
  · have on := SavesGoOn.strandSaved (w.strandKept c k x.job g) c k
    refine ⟨_, congrArg _ (saveStrand_stored hc hp hs can clear parts sealed), on.mem, ?_, ?_⟩
    · rw [on.saved]
      exact congrArg (fun v : Job => v.saved.strands) (State.job_updJob_same w x.job fun v => v.keepsStrand (c, k, g))
    · rw [on.prestat]
      exact prestat_countSaved _
  · have on := SavesGoOn.strandSaved (u.strandGivenUp c k f) c k
    obtain ⟨mem, pktq, st, froze, abandon⟩ := strandGivenUp_spec u c k f
    refine ⟨_, u.strandPacket c k f, congrArg _ (saveStrand_faults hc hp hs can clear parts), on.mem.trans mem, ?_, rfl, rfl, rfl, rfl, rfl, ?_, ?_, ?_⟩
    · rw [on.core, pktq]
    · rw [on.strand, st]
    · rw [on.strand, froze]
    · rw [on.prestat, abandon]

/-! ### CORE_SAVE -/

/-- A task of the job commits or rolls back, or an engine of the core holds something of the job (R395). -/
def coreBusy (s : State) (c : CoreId) (j : JobId) : Prop :=
  s.committing j = true ∨ (∃ m ∈ (s.core c).mq ++ (s.core c).mrun.toList, m.job = j) ∨ (∃ e ∈ (s.core c).copies, e.job = j) ∨
    ∃ r ∈ (s.core c).reqs, r.job = j ∧ r.kind.isRow = true

theorem coreBusy_iff {s : State} {c : CoreId} {j : JobId} : (s.committing j || ((s.core c).mq ++ (s.core c).mrun.toList).any (fun m => m.job == j) ||
    (s.core c).copies.any (fun e => e.job == j) || (s.core c).reqs.any (fun r => r.job == j && r.kind.isRow)) = true ↔ coreBusy s c j := by
  simp only [coreBusy, Bool.or_eq_true, List.any_eq_true, beq_iff_eq, Bool.and_eq_true, or_assoc]

/-- The lines that the save of a core writes (R398, R399). -/
def Machine.State.coreLines (s : State) (c : CoreId) (j : JobId) (whole : Bool) : List (BitVec 48) :=
  (s.coreParts c j whole).flatMap (fun p => linesOf p.1 p.2.length) ++ linesOf (s.coreVa c + 0xC7FC0#48) 64

/-- A core done: the next save is due. -/
def Machine.State.coreSaved (s : State) (c : CoreId) : State :=
  ({ s with cut := s.cut.map fun x => { x with cores := x.cores.filter fun d => d != c } } : State).nextSaves

theorem SavesGoOn.coreSaved (s : State) (c : CoreId) : SavesGoOn s (s.coreSaved c) := SavesGoOn.withCut s _

/-- A core among those that have been saved, with its generation. -/
def Machine.Job.keepsCore (v : Job) (e : CoreId × Nat) : Job := { v with saved := { v.saved with cores := v.saved.cores ++ [e] } }

/-- An area of a number of bytes stored part by part, read back and sealed: its new generation, or the fault (R398, R399). -/
def Machine.State.storesArea (s : State) (j : JobId) (parts : List (BitVec 48 × List Byte)) (va : BitVec 48) (n : Nat) (tagAt validAt : BitVec 48) :
    (State × Nat) ⊕ (State × Fault') :=
  match s.saveParts j parts with
  | .inr e => .inr e
  | .inl u =>
    match u.jobRead 0 j va n with
    | .inr f => .inr (u, f)
    | .inl (bs, _) => u.sealArea j va tagAt validAt 0 bs

/-- The end of the save of a core: recorded, or given up (R398, R400). -/
def Machine.State.coreEnds (c : CoreId) (x : Cut) (r : (State × Nat) ⊕ (State × Fault')) : State :=
  match r with
  | .inr (u, f) => ((u.sendPacket (u.corePacket c x.job f)).countAbandon).coreSaved c
  | .inl (w, g) =>
    let t := w.updJob x.job fun v => v.keepsCore (c, g)
    (if x.scope && !((t.strandsOf c x.job).any fun k => !((t.job x.job).saved.strands.any fun e => e.1 == c && e.2.1 == k)) then t.takeCore c x.job
      else t).coreSaved c

section

variable {s u w : State} {j : JobId} {parts : List (BitVec 48 × List Byte)} {va tagAt validAt : BitVec 48} {n g : Nat} {bs : List Byte} {bad : List Nat}
  {f : Fault'}

theorem storesArea_sealed (stored : s.saveParts j parts = .inl u) (read : u.jobRead 0 j va n = .inl (bs, bad))
    (sealed : u.sealArea j va tagAt validAt 0 bs = .inl (w, g)) : s.storesArea j parts va n tagAt validAt = .inl (w, g) := by
  unfold State.storesArea
  rw [stored]
  dsimp only
  rw [read]
  exact sealed

theorem storesArea_faults (faults : s.saveParts j parts = .inr (u, f)) : s.storesArea j parts va n tagAt validAt = .inr (u, f) := by
  unfold State.storesArea
  rw [faults]

end

section

variable {s : State} {c : CoreId} {x : Cut} (hc : s.cut = some x)

include hc

theorem saveCore_other (h : x.phase ≠ 2 ∨ x.strands ≠ [] ∨ c ∉ x.cores) : s.saveCore c = s := by
  unfold State.saveCore
  rw [hc]
  exact if_pos (by simpa [or_assoc] using h)

variable (hp : x.phase = 2) (hs : x.strands = []) (hk : c ∈ x.cores)

include hp hs hk

theorem saveCore_busy (busy : coreBusy s c x.job) : s.saveCore c = s.push 64 .coreSave { c := c } := by
  unfold State.saveCore
  rw [hc]
  refine (if_neg (by simp [hp, hs, hk])).trans (if_pos (coreBusy_iff.2 busy))

variable (idle : ¬coreBusy s c x.job)

include idle

theorem saveCore_unclear (h : (s.scrub c).jobClear x.job ((s.scrub c).coreLines c x.job x.scope) = false) :
    s.saveCore c = ((s.scrub c).clearJob x.job ((s.scrub c).coreLines c x.job x.scope)).push 64 .coreSave { c := c } := by
  unfold State.saveCore
  rw [hc]
  refine (if_neg (by simp [hp, hs, hk])).trans ((if_neg (coreBusy_iff.not.2 idle)).trans (whenSaved_unclear h _ _ _))

variable (clear : (s.scrub c).jobClear x.job ((s.scrub c).coreLines c x.job x.scope) = true)

include clear

theorem saveCore_ends : s.saveCore c = State.coreEnds c x ((s.scrub c).storesArea x.job ((s.scrub c).coreParts c x.job x.scope)
    ((s.scrub c).coreVa c) 0xC7FC0 ((s.scrub c).coreVa c + 0xC7FC0) ((s.scrub c).coreVa c + 0xC7FF8)) := by
  unfold State.saveCore
  rw [hc]
  exact (if_neg (by simp [hp, hs, hk])).trans ((if_neg (coreBusy_iff.not.2 idle)).trans (whenSaved_clear clear _ _ _))

end

theorem coreSaves : CoreSaves := by
  intro s c x hcore hc
  have run : exec .coreSave s = .next (s.saveCore c) := by rw [← hcore]; rfl
  have va : (s.scrub c).coreVa c = s.coreVa c := (congrArg (fun t : State => t.coreVa c) (Shares.scrub s c).rest :)
  dsimp only
  rw [run]
  refine ⟨fun other => congrArg _ (saveCore_other hc other), fun hp hs hk busy => congrArg _ (saveCore_busy hc hp hs hk busy),
    fun hp hs hk idle unclear => congrArg _ (saveCore_unclear hc hp hs hk idle unclear),
    fun hp hs hk idle clear part u w bs bad g parts read sealed => ?_, fun hp hs hk idle clear u f parts => ?_⟩
  · rw [← va] at read sealed
    have ends := saveCore_ends hc hp hs hk idle clear
    rw [storesArea_sealed (part.symm ▸ parts) read sealed] at ends
    have on := SavesGoOn.coreSaved (w.updJob x.job fun v => v.keepsCore (c, g)) c
    refine ⟨_, congrArg _ (ends.trans ?_), on.mem, on.cores, ?_, on.prestat⟩
    · unfold State.coreEnds
      dsimp only
      rw [part, Bool.false_and, if_neg Bool.false_ne_true]
    · exact (congrArg Saved.cores (on.saved x.job)).trans
        (congrArg (fun v : Job => v.saved.cores) (State.job_updJob_same w x.job fun v => v.keepsCore (c, g)))
  · have ends := saveCore_ends hc hp hs hk idle clear
    rw [storesArea_faults parts] at ends
    have on := SavesGoOn.coreSaved ((u.sendPacket (u.corePacket c x.job f)).countAbandon) c
    have core := core_sendPacket u (u.corePacket c x.job f)
    refine ⟨_, u.corePacket c x.job f, congrArg _ ends, on.mem, ?_, rfl, rfl, ?_, ?_⟩
    · exact (congrArg Core.pktq (on.core c)).trans (congrArg Core.pktq core :)
    · exact (congrArg Core.installed (on.core c)).trans (congrArg Core.installed core :)
    · exact (congrArg (BitVec.extractLsb' 16 16) on.prestat).trans (prestat_countAbandon _)

end Sys2Proof

/-! ## Restores (spec/21_preempt.md R401, R402) -/

namespace Sys2Proof

open Machine

/-! ### The strand of a saved area -/

@[simp] theorem Machine.Strand.pc_putX (t : Strand) (r : XReg) (v : Word) : (t.putX r v).pc = t.pc := by unfold Strand.putX; split <;> rfl
@[simp] theorem Machine.Strand.prog_putX (t : Strand) (r : XReg) (v : Word) : (t.putX r v).prog = t.prog := by unfold Strand.putX; split <;> rfl
@[simp] theorem Machine.Strand.pc_putM (t : Strand) (r : BitVec 3) (v : BitVec 128) : (t.putM r v).pc = t.pc := by unfold Strand.putM; split <;> rfl
@[simp] theorem Machine.Strand.prog_putM (t : Strand) (r : BitVec 3) (v : BitVec 128) : (t.putM r v).prog = t.prog := by unfold Strand.putM; split <;> rfl
@[simp] theorem Machine.Strand.pc_putA (t : Strand) (r : BitVec 4) (v : Word) : (t.putA r v).pc = t.pc := rfl
@[simp] theorem Machine.Strand.prog_putA (t : Strand) (r : BitVec 4) (v : Word) : (t.putA r v).prog = t.prog := rfl
@[simp] theorem Machine.Strand.pc_putI (t : Strand) (r : BitVec 2) (v : Word) : (t.putI r v).pc = t.pc := rfl
@[simp] theorem Machine.Strand.prog_putI (t : Strand) (r : BitVec 2) (v : Word) : (t.putI r v).prog = t.prog := rfl
@[simp] theorem Machine.Strand.pc_ctlWrite (t : Strand) (n : BitVec 9) (v : Word) : (t.ctlWrite n v).pc = t.pc := by unfold Strand.ctlWrite; split <;> rfl
@[simp] theorem Machine.Strand.prog_ctlWrite (t : Strand) (n : BitVec 9) (v : Word) : (t.ctlWrite n v).prog = t.prog := by
  unfold Strand.ctlWrite; split <;> rfl

@[simp] theorem Machine.Strand.vt_putX (t : Strand) (r : XReg) (v : Word) : (t.putX r v).vt = t.vt := by unfold Strand.putX; split <;> rfl
@[simp] theorem Machine.Strand.pc_fillX (t : Strand) (r : XReg) : (t.setF (.x r) true).pc = t.pc := by
  show (if r = 0 then _ else _ : Strand).pc = _
  split <;> rfl
@[simp] theorem Machine.Strand.prog_fillX (t : Strand) (r : XReg) : (t.setF (.x r) true).prog = t.prog := by
  show (if r = 0 then _ else _ : Strand).prog = _
  split <;> rfl
@[simp] theorem Machine.Strand.vt_fillX (t : Strand) (r : XReg) : (t.setF (.x r) true).vt = t.vt := by
  show (if r = 0 then _ else _ : Strand).vt = _
  split <;> rfl

/-- Of the context only the word at 0x210 sets the pc (R378). -/
theorem pc_ctxWrite (t : Strand) (o : Nat) (v : Word) : (t.ctxWrite o v).pc = if o = 0x210 then v.extractLsb' 0 48 &&& 0xFFFFFFFFFFFE#48 else t.pc := by
  by_cases here : o = 0x210
  · subst here; rfl
  · rw [if_neg here]
    unfold Strand.ctxWrite
    simp only [apply_ite Strand.pc, if_neg here, Strand.pc_putX, Strand.pc_putA, Strand.pc_putM, Strand.pc_putI, Strand.pc_ctlWrite, ite_self]

/-- Of the context only the word at 0x218 sets PROG (R378). -/
theorem prog_ctxWrite (t : Strand) (o : Nat) (v : Word) : (t.ctxWrite o v).prog = if o = 0x218 then v else t.prog := by
  by_cases here : o = 0x218
  · subst here; rfl
  · rw [if_neg here]
    unfold Strand.ctxWrite
    simp only [apply_ite Strand.prog, if_neg here, Strand.prog_putX, Strand.prog_putA, Strand.prog_putM, Strand.prog_putI, Strand.prog_ctlWrite, ite_self]

/-- A part of a strand that one word of the context sets, after the words of some offsets have been written. -/
theorem foldl_ctxWrite {β : Type} {part : Strand → β} {bs : List Byte} {i : Nat} {b : β}
    (write : ∀ (t : Strand) (n : Nat), part (t.ctxWrite (8 * n) (wordAt bs (8 * n))) = if n = i then b else part t) (l : List Nat) :
    ∀ t : Strand, part (l.foldl (fun (t : Strand) n => t.ctxWrite (8 * n) (wordAt bs (8 * n))) t) = if i ∈ l then b else part t := by
  induction l with
  | nil => exact fun t => rfl
  | cons n r ih =>
    intro t
    rw [List.foldl_cons, ih, write]
    by_cases later : i ∈ r
    · simp [later]
    · by_cases now : n = i
      · simp [now]
      · simp [later, now, Ne.symm now]

theorem withContext_spec (t : Strand) (bs : List Byte) : (t.withContext bs).pc = (wordAt bs 0x210).extractLsb' 0 48 &&& 0xFFFFFFFFFFFE#48 ∧
    (t.withContext bs).prog = wordAt bs 0x218 ∧ (t.withContext bs).vt = wordAt bs 0x360 := by
  have pc := foldl_ctxWrite (part := Strand.pc) (bs := bs) (i := 66) (b := (wordAt bs 0x210).extractLsb' 0 48 &&& 0xFFFFFFFFFFFE#48) (fun t n => by
    rw [pc_ctxWrite]
    by_cases here : n = 66
    · subst here; rfl
    · rw [if_neg (by omega), if_neg here]) (List.range 126) t
  have prog := foldl_ctxWrite (part := Strand.prog) (bs := bs) (i := 67) (b := wordAt bs 0x218) (fun t n => by
    rw [prog_ctxWrite]
    by_cases here : n = 67
    · subst here; rfl
    · rw [if_neg (by omega), if_neg here]) (List.range 126) t
  rw [if_pos (List.mem_range.2 (by decide))] at pc prog
  unfold Strand.withContext
  dsimp only
  exact ⟨pc, prog, rfl⟩

/-- The replies that a saved directory holds change the pc, PROG and the time of no strand. -/
theorem withReplies_keeps (t : Strand) (bs : List Byte) :
    (t.withReplies bs).pc = t.pc ∧ (t.withReplies bs).prog = t.prog ∧ (t.withReplies bs).vt = t.vt := by
  unfold Strand.withReplies
  refine List.foldlRecOn (motive := fun u : Strand => u.pc = t.pc ∧ u.prog = t.prog ∧ u.vt = t.vt) _ _ ⟨rfl, rfl, rfl⟩ fun u h n _ => ?_
  dsimp only
  split
  · simpa using h
  · exact h

/-- The state of a strand as a saved area holds it (R380). -/
theorem frozen_iff_state (w : Word) : (if w.extractLsb' 0 2 = 0 then StrandSt.idle else if w.extractLsb' 0 2 = 1 then .ready else
    if w.extractLsb' 0 2 = 2 then .parked else .frozen) = .frozen ↔ w.toNat % 4 = 3 := by
  have low : (w.extractLsb' 0 2).toNat = w.toNat % 4 := by simp [BitVec.extractLsb'_toNat]
  rw [← low]
  generalize w.extractLsb' 0 2 = st
  revert st
  decide

/-- A strand restored from its area where a stop did not take its core: the strand of the area, and its packet where a fault had frozen it. -/
theorem restoreStrand_spec (s : State) (c : CoreId) (k : StrandId) (j : JobId) (bs : List Byte) : ∃ (t : Strand) (p : Packet),
    s.restoreStrand c k j bs false = (if (wordAt bs 0x3F0).extractLsb' 0 2 = 3 then (s.setStrand c k t).sendPacket p else s.setStrand c k t) ∧
    t.pc = (wordAt bs 0x210).extractLsb' 0 48 &&& 0xFFFFFFFFFFFE#48 ∧ t.prog = wordAt bs 0x218 ∧ t.vt = wordAt bs 0x360 ∧
    (t.st = .frozen ↔ (wordAt bs 0x3F0).toNat % 4 = 3) := by
  obtain ⟨pc, prog, vt⟩ := withReplies_keeps ((s.strand c k).withContext bs) bs
  obtain ⟨pc', prog', vt'⟩ := withContext_spec (s.strand c k) bs
  exact ⟨_, _, rfl, pc.trans pc', prog.trans prog', vt.trans vt', frozen_iff_state _⟩

/-! ### PRECTL_RESTORE -/

/-- The areas marked as damaged and the job cancelled (R402). -/
def Machine.State.marksDamage (s : State) (j : JobId) (bad : List (BitVec 48)) : State :=
  s.whenSaved j bad .prectlRestore {} fun s =>
    let s := bad.foldl (fun s va => match s.saveBytes j va (bytesOf 4 0x44474D44#32) 2 with | .inl s => s | .inr (s, _) => s) s
    let s : State := { s with prestat := s.prestat.extractLsb' 16 48 ++ BitVec.ofNat 16 bad.length }
    ((s.cancelJob j).1).endCut true

/-- The job runs again, from areas that all verify (R401). -/
def Machine.State.resumesFrom (s : State) (j : JobId) (v : Job) (cores : List (CoreId × BitVec 48 × Option (List Byte)))
    (strands : List (CoreId × StrandId × BitVec 48 × Option (List Byte))) : State :=
  let (s, ready) := s.reinstall j
  if !ready then s.push 64 .prectlRestore {} else
  let strands := strands.filter fun (_, _, _, b) => match b with | some bs => v.live ((wordAt bs 0x3F8).extractLsb' 48 16) | none => false
  let s := cores.foldl (fun s (c, _, b) => match b with
    | some bs => s.restoreCore c j bs v.saved.whole ((strands.filter fun e => e.1 == c).map (·.2.1))
    | none => s) s
  let s := if v.saved.whole then
      v.saved.rings.foldl (fun s (e : CoreId × Block) => s.updCore e.1 fun x => { x with rings := x.rings ++ [e.2] })
        (v.saved.reqs.foldl (fun s r => s.updCore r.core fun x => { x with reqs := x.reqs ++ [r] }) s)
    else s
  let s := strands.foldl (fun s (c, k, _, b) => match b with | some bs => (s.restoreStrand c k j bs v.saved.whole).countSaved | none => s) s
  ((((s.remakeWaits j).updJob j fun v => { v with saved := {} }).unstop j).endCut false)

/-- What a restore does once the areas of the cores and strands have been read (R401, R402). -/
def Machine.State.restoresFrom (s : State) (j : JobId) (v : Job) (cores : List (CoreId × BitVec 48 × Option (List Byte)))
    (strands : List (CoreId × StrandId × BitVec 48 × Option (List Byte))) : State :=
  let bad := (cores.filter fun e => e.2.2.isNone).map (·.2.1) ++ (strands.filter fun e => e.2.2.2.isNone).map (·.2.2.1)
  if bad ≠ [] then s.marksDamage j bad else s.resumesFrom j v cores strands

section

variable {s : State} {j : JobId} {v : Job} {c : CoreId} {k : StrandId} {a : BitVec 48}

theorem restoresFrom_bad : s.restoresFrom j v [] [(c, k, a, none)] = s.marksDamage j [a] := by
  unfold State.restoresFrom
  exact if_pos (List.cons_ne_nil a [])

theorem restoresFrom_unclear (h : s.jobClear j [a] = false) :
    s.restoresFrom j v [] [(c, k, a, none)] = (s.clearJob j [a]).push 64 .prectlRestore {} :=
  restoresFrom_bad.trans (whenSaved_unclear h _ _ _)

/-- An area that does not verify is marked, and its job cancelled (R402). -/
theorem restoresFrom_damaged {u : State} (h : s.jobClear j [a] = true) (marked : s.saveBytes j a (bytesOf 4 0x44474D44#32) 2 = .inl u) :
    s.restoresFrom j v [] [(c, k, a, none)] = (({ u with prestat := u.prestat.extractLsb' 16 48 ++ 1#16 } : State).cancelJob j).1.endCut true := by
  refine restoresFrom_bad.trans ((whenSaved_clear h _ _ _).trans ?_)
  have fold : [a].foldl (fun s va => match s.saveBytes j va (bytesOf 4 0x44474D44#32) 2 with | .inl s => s | .inr (s, _) => s) s = u := by
    rw [List.foldl_cons, List.foldl_nil, marked]
  exact congrArg (fun t : State => ((({ t with prestat := t.prestat.extractLsb' 16 48 ++ 1#16 } : State).cancelJob j).1).endCut true) fold

theorem reinstall_nothing (h : (s.job j).saved.inst = []) : s.reinstall j = (s, true) := by
  unfold State.reinstall
  rw [h]
  rfl

/-- The one strand of a job whose area verifies runs again, unless its launch has ended (R401). -/
theorem restoresFrom_verified {bs : List Byte} (inst : (s.job j).saved.inst = []) (whole : v.saved.whole = false)
    (live : v.live ((wordAt bs 0x3F8).extractLsb' 48 16) = true) : s.restoresFrom j v [] [(c, k, a, some bs)] =
      (((((s.restoreStrand c k j bs false).countSaved.remakeWaits j).updJob j fun v => { v with saved := {} }).unstop j).endCut false) := by
  have good : s.restoresFrom j v [] [(c, k, a, some bs)] = s.resumesFrom j v [] [(c, k, a, some bs)] := by
    unfold State.restoresFrom
    exact if_neg (by simp)
  rw [good]
  unfold State.resumesFrom
  simp only [reinstall_nothing inst, whole, List.filter_cons, List.filter_nil, live, if_true, List.foldl_cons, List.foldl_nil, Bool.not_true,
    Bool.false_eq_true, if_false]

end

/-- The areas of a job read, for their lines' times (R401). -/
def Machine.State.readsAreas (s : State) (j : JobId) : State :=
  ((s.job j).saved.cores.map (fun (e : CoreId × Nat) => (s.coreVa e.1, 0xC8000)) ++
    (s.job j).saved.strands.map fun (e : CoreId × StrandId × Nat) => (s.strandVa e.1 e.2.1, 0x1000)).foldl
      (fun (s : State) (e : BitVec 48 × Nat) => s.visitRead 0 j e.1 e.2) s

/-- The areas of a job's cores and strands verified, and what follows (R401, R402). -/
def Machine.State.verifiesAreas (s : State) (j : JobId) (v : Job) : State :=
  s.restoresFrom j v
    (v.saved.cores.map fun (e : CoreId × Nat) => (e.1, s.coreVa e.1 + 0xC7FF8, s.verified j (s.coreVa e.1) 0xC7FC0 0xC7FF8 0xC8000 e.2))
    (v.saved.strands.map fun (e : CoreId × StrandId × Nat) =>
      (e.1, e.2.1, s.strandVa e.1 e.2.1 + 0xFF8, s.verified j (s.strandVa e.1 e.2.1) 0xFC0 0xFF8 0x1000 e.2.2))

theorem restore_busy {s : State} (h : s.cut ≠ none) : s.restore = s := if_pos (Option.isSome_iff_ne_none.2 h)

section

variable {s : State} {j : JobId} (hj : s.prectl.extractLsb' 0 4 = j) (hc : s.cut = none)

include hj hc

theorem restore_refused (h : (s.job j).resident = false ∨ (s.job j).stopped = false ∨
      ∃ e ∈ (s.job j).saved.cores, ({ s with prestat := 0 } : State).recordsAgree e.1 j = false) :
    s.restore = ({ s with prestat := 0 } : State).endCut true := by
  subst hj
  refine (if_neg (by simp [hc])).trans ?_
  by_cases live : (s.job (s.prectl.extractLsb' 0 4)).resident = true ∧ (s.job (s.prectl.extractLsb' 0 4)).stopped = true
  · obtain ⟨resident, stopped⟩ := live
    obtain ⟨e, he, differs⟩ := (h.resolve_left (by simp [resident])).resolve_left (by simp [stopped])
    refine (if_neg ?_).trans (if_pos ?_)
    · show ¬(!(s.job _).resident || !(s.job _).stopped) = true
      rw [resident, stopped]
      decide
    · simp only [Bool.not_eq_true', List.all_eq_false]
      exact ⟨e, he, ne_of_eq_of_ne differs Bool.false_ne_true⟩
  · refine if_pos ?_
    show (!(s.job _).resident || !(s.job _).stopped) = true
    obtain h | h := Decidable.not_and_iff_or_not.1 live <;> simp [h]

theorem restore_eq (hr : (s.job j).resident = true) (hs : (s.job j).stopped = true)
    (agree : (s.job j).saved.cores.all (fun (e : CoreId × Nat) => ({ s with prestat := 0 } : State).recordsAgree e.1 j) = true) :
    s.restore = (({ s with prestat := 0 } : State).readsAreas j).verifiesAreas j (s.job j) := by
  subst hj
  refine (if_neg (by simp [hc])).trans ((if_neg ?_).trans ((if_neg ?_).trans ?_))
  · show ¬(!(s.job _).resident || !(s.job _).stopped) = true
    rw [hr, hs]
    decide
  · show ¬(!((s.job _).saved.cores.all _)) = true
    rw [agree]
    decide
  · rfl

theorem restore_reads (hr : (s.job j).resident = true) (hs : (s.job j).stopped = true) (cores : (s.job j).saved.cores = []) {c : CoreId} {k : StrandId} {g : Nat}
    (strands : (s.job j).saved.strands = [(c, k, g)]) :
    let s1 := ({ s with prestat := 0 } : State).visitRead 0 j (s.strandVa c k) 0x1000
    s.restore = s1.restoresFrom j (s.job j) [] [(c, k, s.strandVa c k + 0xFF8, s1.verified j (s.strandVa c k) 0xFC0 0xFF8 0x1000 g)] := by
  intro s1
  have va : s1.strandVa c k = s.strandVa c k :=
    (congrArg (fun t : State => t.strandVa c k) (Visits.visitRead { s with prestat := 0 } 0 j (s.strandVa c k) 0x1000).rest :)
  refine (restore_eq hj hc hr hs (by rw [cores]; rfl)).trans ?_
  have read : ({ s with prestat := 0 } : State).readsAreas j = s1 := by
    have job : ({ s with prestat := 0 } : State).job j = s.job j := rfl
    unfold State.readsAreas
    rw [job, cores, strands, List.map_nil, List.nil_append, List.map_singleton, List.foldl_cons, List.foldl_nil]
    rfl
  unfold State.verifiesAreas
  rw [read, cores, strands, List.map_nil, List.map_singleton, va]

end

end Sys2Proof

/-! ### The job goes on -/

namespace Sys2Proof

open Machine

/-- What the end of a stop leaves: requests go out, messages of the tree and the decoders' steps with them; memory, strands and the registers of PRECTL stay. -/
structure StopLeaves (s t : State) : Prop where
  rest : { t with
    agenda := s.agenda, nextId := s.nextId, clusters := s.clusters, msgs := s.msgs, cores := s.cores, jobs := s.jobs, decQueues := s.decQueues,
    decoders := s.decoders, ports := s.ports } = s
  strand : ∀ c k, t.strand c k = s.strand c k

theorem StopLeaves.refl (s : State) : StopLeaves s s := ⟨rfl, fun _ _ => rfl⟩

theorem StopLeaves.trans {s t u : State} (h : StopLeaves s t) (g : StopLeaves t u) : StopLeaves s u where
  rest := by
    have h1 := h.rest
    have h2 := g.rest
    rw [← h1, ← h2]
  strand c k := (g.strand c k).trans (h.strand c k)

theorem StopLeaves.updJob (s : State) (j : JobId) (f : Job → Job) : StopLeaves s (s.updJob j f) := ⟨rfl, fun _ _ => rfl⟩

theorem StopLeaves.request (s : State) (r : Req) : StopLeaves s (s.request r) where
  rest := (congrArg (fun x : State => { x with jobs := s.jobs, decQueues := s.decQueues, decoders := s.decoders, ports := s.ports })
    (SendsFrom.request s (r := r) rfl).rest :)
  strand := (SendsFrom.request s rfl).strand

theorem StopLeaves.links {s t : State} (h : Links s t) : StopLeaves s t where
  rest := by
    have h1 := h.rest
    rw [← h1]
  strand c k := (congrArg (fun x : State => x.strand c k) h.rest :)

theorem StopLeaves.remakeWaits (s : State) (j : JobId) : StopLeaves s (s.remakeWaits j) :=
  (StopLeaves.updJob s j _).trans (foldl_keeps StopLeaves.refl StopLeaves.trans (fun s r => StopLeaves.request s r) _ _)

theorem round_remakeWaits (s : State) (j : JobId) : ((s.remakeWaits j).job j).round = (s.job j).round := by
  have sent := foldl_keeps (R := fun s t => t.job j = s.job j) (fun _ => rfl) (fun h g => g.trans h)
    (fun s (r : Req) => (SendsFrom.request s (r := r) rfl).job j) (s.job j).saved.waits
    (s.updJob j fun v => { v with saved := { v.saved with waits := [] } })
  have kept := State.job_updJob_same s j fun v => { v with saved := { v.saved with waits := [] } }
  exact (congrArg Job.round sent :).trans (congrArg Job.round kept :)

/-- The record of a job that goes on. -/
def Machine.Job.goesOn (v : Job) : Job :=
  { v with stopped := false, idleLeaf := { v.idleLeaf with stopped := false },
           leaves := v.leaves.map fun (e : Nat × LeafSt) => (e.1, { e.2 with stopped := false }) }

/-- The requests of a job at the decoders go on. -/
def Machine.State.decodesGoOn (s : State) (j : JobId) : State :=
  { s.updJob j Job.goesOn with
    decQueues := s.decQueues.map fun (e : Nat × List DecReq) => (e.1, e.2.map fun r => if r.job == j then { r with paused := false } else r)
    decoders := s.decoders.map fun (e : Nat × Decoder) => (e.1, { e.2 with run := e.2.run.map fun r => if r.job == j then { r with paused := false } else r }) }

theorem Links.soon (s : State) (i : Instr) (x : StepArg) : Links s (s.soon i x) := Links.push s 0 i x

theorem goHere_links (s : State) (j : JobId) : Links (s.decodesGoOn j) (s.goHere j) := by
  have runs := foldl_keeps Links.refl Links.trans (fun s (e : Nat × Decoder) => Links.soon s .frameDecoded { n := e.1 })
    (s.decoders.filter fun (e : Nat × Decoder) => e.2.run.any fun r => r.job == j && r.paused) (s.decodesGoOn j)
  refine runs.trans ?_
  unfold State.goHere
  exact foldl_keeps Links.refl Links.trans (fun s (d : Nat) => Links.soon s .decodeRequestStart { n := d }) (List.range 4) _

theorem job_goHere (s : State) (j : JobId) : (s.goHere j).job j = (s.job j).goesOn :=
  ((goHere_links s j).job j).trans (State.job_updJob_same s j Job.goesOn)

theorem StopLeaves.goHere (s : State) (j : JobId) : StopLeaves s (s.goHere j) :=
  StopLeaves.trans (t := s.decodesGoOn j) ⟨rfl, fun _ _ => rfl⟩ (StopLeaves.links (goHere_links s j))

theorem StopLeaves.stopEnds (s : State) (j : JobId) (dev : Nat) : StopLeaves s (s.stopEnds j dev) := by
  unfold State.stopEnds
  dsimp only
  split
  · exact (StopLeaves.updJob s j _).trans (StopLeaves.links ((Links.sendDomain _ j .go).trans (Links.push _ 64 .gvtRoundStart { j := j })))
  · exact StopLeaves.updJob s j _

theorem StopLeaves.unstop (s : State) (j : JobId) : StopLeaves s (s.unstop j) := by
  unfold State.unstop
  dsimp only
  split
  · exact (StopLeaves.goHere s j).trans (StopLeaves.stopEnds _ j _)
  · exact (StopLeaves.goHere s j).trans (StopLeaves.links (Links.sendTree _ _ j .go))

theorem stopped_unstop (s : State) (j : JobId) : ((s.unstop j).job j).stopped = false := by
  have here := congrArg Job.stopped (job_goHere s j)
  unfold State.unstop State.stopEnds
  dsimp only
  split
  · split
    · rw [((Links.sendDomain _ j .go).trans (Links.push _ 64 .gvtRoundStart { j := j })).job, State.job_updJob_same]
      exact here
    · rw [State.job_updJob_same]
      exact here
  · rw [(Links.sendTree _ _ j .go).job]
    exact here

theorem now_sendDomain (s : State) (j : JobId) (t : Tree) : (s.sendDomain j t).now = s.now := (congrArg State.now (Links.sendDomain s j t).rest :)

/-- At the root, once no stop of another device stands, the rounds resume (R402). -/
theorem unstop_resumes {s : State} {j : JobId} (root : s.root = s.devnum.toNat) (last : (s.job j).round.held.erase s.devnum.toNat = []) :
    (s.now + 64, Instr.gvtRoundStart, ({ j := j } : StepArg)) ∈ (s.unstop j).agenda := by
  have kept := (StopLeaves.goHere s j).rest
  have here : (s.goHere j).isRoot = true := (congrArg State.isRoot kept :).trans ((isRoot_iff s).2 root)
  have held : (s.goHere j).devnum = s.devnum := (congrArg State.devnum kept :)
  unfold State.unstop State.stopEnds
  dsimp only
  rw [if_pos here, State.job_updJob_same, job_goHere, held]
  rw [if_pos (show (s.job j).goesOn.round.held.erase s.devnum.toNat = [] from last)]
  refine State.mem_agenda_push.2 (.inl ?_)
  rw [now_sendDomain]
  exact congrArg (fun n => (n + 64, Instr.gvtRoundStart, ({ j := j } : StepArg))) (congrArg State.now kept : _ = s.now).symm

/-! ### What a restore leaves -/

theorem strand_sendPacket (s : State) (p : Packet) (d : CoreId) (i : StrandId) : (s.sendPacket p).strand d i = s.strand d i := by
  show ((s.updCore p.core fun v => { v with pktq := v.pktq ++ [p] }).core d).strand i = _
  rw [State.core_updCore]
  split
  · next same => subst same; rfl
  · rfl

/-- The strand of an area stands in its place, and nothing else of the machine has changed but the packets of its core. -/
theorem restoreStrand_leaves (s : State) (c : CoreId) (k : StrandId) (j : JobId) (bs : List Byte) : ∃ x : Strand,
    (s.restoreStrand c k j bs false).strand c k = x ∧ (∀ d i, ¬(d = c ∧ i = k) → (s.restoreStrand c k j bs false).strand d i = s.strand d i) ∧
    { s.restoreStrand c k j bs false with cores := s.cores, agenda := s.agenda } = s ∧
    x.pc = (wordAt bs 0x210).extractLsb' 0 48 &&& 0xFFFFFFFFFFFE#48 ∧ x.prog = wordAt bs 0x218 ∧ x.vt = wordAt bs 0x360 ∧
    (x.st = .frozen ↔ (wordAt bs 0x3F0).toNat % 4 = 3) := by
  obtain ⟨x, p, restored, area⟩ := restoreStrand_spec s c k j bs
  have set : (s.setStrand c k x).strand c k = x := State.strand_updStrand_same s c k fun _ => x
  have others : ∀ d i, ¬(d = c ∧ i = k) → (s.setStrand c k x).strand d i = s.strand d i := fun d i h => State.strand_updStrand_ne s (fun _ => x) h
  rw [restored]
  split
  · exact ⟨x, (strand_sendPacket _ p c k).trans set, fun d i h => (strand_sendPacket _ p d i).trans (others d i h), rfl, area⟩
  · exact ⟨x, set, others, rfl, area⟩

theorem prectl_endCut_done (s : State) : (s.endCut false).prectl.getLsbD 8 = false ∧ (s.endCut false).prectl.getLsbD 9 = true := by
  unfold State.endCut
  constructor <;> simp

/-- The end of a restore (R402). -/
def Machine.State.afterRestore (s : State) (j : JobId) : State := ((s.remakeWaits j).updJob j fun v => { v with saved := {} }).unstop j

theorem afterRestore_spec (s : State) (j : JobId) : StopLeaves s (s.afterRestore j) ∧ ((s.afterRestore j).job j).stopped = false ∧
    (s.root = s.devnum.toNat → (s.job j).round.held.erase s.devnum.toNat = [] →
      (s.now + 64, Instr.gvtRoundStart, ({ j := j } : StepArg)) ∈ (s.afterRestore j).agenda) := by
  have left : StopLeaves s ((s.remakeWaits j).updJob j fun v => { v with saved := {} }) :=
    (StopLeaves.remakeWaits s j).trans (StopLeaves.updJob _ j _)
  have round : (((s.remakeWaits j).updJob j fun v => { v with saved := {} }).job j).round = (s.job j).round := by
    rw [State.job_updJob_same]
    exact round_remakeWaits s j
  unfold State.afterRestore
  generalize (s.remakeWaits j).updJob j (fun v => { v with saved := {} }) = b at left round ⊢
  refine ⟨left.trans (StopLeaves.unstop b j), stopped_unstop b j, fun root held => ?_⟩
  have now : b.now = s.now := (congrArg State.now left.rest :)
  have dev : b.devnum = s.devnum := (congrArg State.devnum left.rest :)
  have root' : b.root = s.root := (congrArg State.root left.rest :)
  rw [← now]
  exact unstop_resumes (by rw [root', dev]; exact root) (by rw [round, dev]; exact held)

/-- A strand whose area verifies is restored, and its job goes on (R401, R402). -/
theorem restoresStrand {s t : State} {j : JobId} {c : CoreId} {k : StrandId} {bs : List Byte} (prestat : s.prestat = 0)
    (ht : t = ((s.restoreStrand c k j bs false).countSaved.afterRestore j).endCut false) : (t.job j).stopped = false ∧
      (t.strand c k).pc = (wordAt bs 0x210).extractLsb' 0 48 &&& 0xFFFFFFFFFFFE#48 ∧ (t.strand c k).prog = wordAt bs 0x218 ∧
      (t.strand c k).vt = wordAt bs 0x360 ∧ ((t.strand c k).st = .frozen ↔ (wordAt bs 0x3F0).toNat % 4 = 3) ∧ t.mem = s.mem ∧
      t.prectl.getLsbD 8 = false ∧ t.prectl.getLsbD 9 = true ∧ t.prestat.extractLsb' 32 32 = 1#32 ∧
      (∀ d i, ¬(d = c ∧ i = k) → t.strand d i = s.strand d i) ∧
      (s.root = s.devnum.toNat → (s.job j).round.held.erase s.devnum.toNat = [] →
        (s.now + 64, Instr.gvtRoundStart, ({ j := j } : StepArg)) ∈ t.agenda) := by
  obtain ⟨x, strand, others, set, pc, prog, vt, st⟩ := restoreStrand_leaves s c k j bs
  generalize s.restoreStrand c k j bs false = a at ht strand others set
  obtain ⟨left, stopped, resumes⟩ := afterRestore_spec a.countSaved j
  obtain ⟨saved, -⟩ := prestat_countSaved a
  generalize a.countSaved.afterRestore j = w at ht left stopped resumes
  obtain ⟨op, done⟩ := prectl_endCut_done w
  rw [← ht] at op done
  have here : t.strand c k = x := by rw [ht]; exact (left.strand c k).trans strand
  rw [here]
  refine ⟨by rw [ht]; exact stopped, pc, prog, vt, st, ?_, op, done, ?_, fun d i other => ?_, fun root held => ?_⟩
  · rw [ht]
    exact (congrArg State.mem left.rest :).trans (congrArg State.mem set :)
  · have count : t.prestat = a.countSaved.prestat := by rw [ht]; exact (congrArg State.prestat left.rest :)
    have before : a.prestat = 0 := (congrArg State.prestat set :).trans prestat
    rw [count, saved, before]
    decide
  · rw [ht]
    exact (left.strand d i).trans (others d i other)
  · have now : a.now = s.now := (congrArg State.now set :)
    have dev : a.devnum = s.devnum := (congrArg State.devnum set :)
    have root' : a.root = s.root := (congrArg State.root set :)
    have job : a.job j = s.job j := (congrArg (fun u : State => u.job j) set :)
    rw [ht, ← now]
    exact resumes (root'.trans (root.trans (by rw [← dev]; rfl))) (by rw [← dev, ← job] at held; exact held)

theorem restores : Restores := by
  intro s j hj
  have run : exec .prectlRestore s = .next s.restore := rfl
  dsimp only
  rw [run]
  refine ⟨fun busy => congrArg _ (restore_busy busy), fun hc refused => ?_, fun hc resident stopped cores whole inst c k g strands => ?_⟩
  · exact ⟨_, congrArg _ (restore_refused hj hc refused), endCut_refused hc _ rfl⟩
  · have reads := restore_reads hj hc resident stopped cores strands
    have visited := (Visits.visitRead { s with prestat := 0 } 0 j (s.strandVa c k) 0x1000).rest
    dsimp only at reads
    generalize ({ s with prestat := 0 } : State).visitRead 0 j (s.strandVa c k) 0x1000 = s1 at reads visited ⊢
    have job : s1.job j = s.job j := (congrArg (fun t : State => t.job j) visited :)
    refine ⟨fun none unclear => ?_, fun none clear u marked => ?_, fun bs some live => ?_⟩
    · rw [reads, none, restoresFrom_unclear unclear]
    · rw [reads, none, restoresFrom_damaged clear marked]
    · rw [some, restoresFrom_verified (by rw [job]; exact inst) whole live] at reads
      obtain ⟨live', pc, prog, vt, st, mem, op, done, saved, others, resumes⟩ :=
        restoresStrand (s := s1) (j := j) (c := c) (k := k) (bs := bs) (congrArg State.prestat visited :) rfl
      refine ⟨_, congrArg _ reads, live', pc, prog, vt, st, mem.trans (congrArg State.mem visited :), op, done, saved, fun d i other => ?_, fun root held => ?_⟩
      · exact (others d i other).trans (congrArg (fun t : State => t.strand d i) visited :)
      · have now : s1.now = s.now := (congrArg State.now visited :)
        have dev : s1.devnum = s.devnum := (congrArg State.devnum visited :)
        have root' : s1.root = s.root := (congrArg State.root visited :)
        rw [← now]
        exact resumes (by rw [root', dev]; exact root) (by rw [job, dev]; exact held)

/-- Settles O53: the refusals by what PRECTL is left as, a stop by the flips that its round makes due, the cut, the saves and the restore by what each
step leaves once the next one is due. -/
theorem stopsSavesRestores : Obligations.StopsSavesRestores := ⟨stopRequests, cutCloses, strandSaves, coreSaves, restores⟩

end Sys2Proof

/-! PROOF. The device steps together: each answers at every state, and the steps of the host and of the slices have their effect. -/

namespace Sys2Proof

open Machine

theorem hasWord_deviceSteps : (deviceSteps.all fun i => !hasWord i) = true := by decide

theorem deviceStepsAnswer : DeviceStepsAnswer := by
  intro i hi
  refine ⟨by simpa using List.all_eq_true.1 hasWord_deviceSteps i hi, fun s => ?_⟩
  -- each of them runs a function that answers a state outright
  fin_cases hi <;> exact ⟨_, rfl⟩

theorem hostStepsAct : HostStepsAct := by
  intro s
  refine ⟨fun tier ok => ?_, ⟨_, rfl, (backInvalidated_spec s s.arg.n).1⟩, fun r hr hk hn idle => ?_, fun m on cap full recent kept other chosen least => ?_⟩
  · obtain ⟨t, run, held, -⟩ := hostAccesses tier ok
    exact ⟨t, run, held⟩
  · obtain ⟨t, v, run, replied, ways, -⟩ := resizes hr hk hn (by rw [idle]; exact fun _ h => nomatch h)
    exact ⟨t, v, run, replied, ways⟩
  · obtain ⟨t, run, place, -⟩ := (frameExchanges s).2 m ⟨on, cap, full, recent, kept⟩ other chosen (.inl least)
    exact ⟨t, run, place⟩

end Sys2Proof

/-! PROOF. The steps of a barrel where their conditions hold (R126, R127, R130, R132): the cycle, the wake, the reply that ends a request, the fill. -/

namespace Sys2Proof

open Machine

/-! ### The cycle -/

/-- The slot's offer and the position of the rotation of core c stand as they were. -/
def SlotKept (c : CoreId) (s t : State) : Prop := t.offer = s.offer ∧ (t.core c).p = (s.core c).p

theorem SlotKept.refl (c : CoreId) (s : State) : SlotKept c s s := ⟨rfl, rfl⟩

theorem SlotKept.trans {c : CoreId} {s t u : State} (h : SlotKept c s t) (g : SlotKept c t u) : SlotKept c s u :=
  ⟨g.1.trans h.1, g.2.trans h.2⟩

theorem SlotKept.updStrand (c : CoreId) (s : State) (k : StrandId) (f : Strand → Strand) : SlotKept c s (s.updStrand c k f) :=
  ⟨rfl, (congrArg Core.p (State.core_setCore_same s c ((s.core c).setStrand k (f (s.strand c k)))) :)⟩

theorem SlotKept.raise (c : CoreId) (s : State) (k : StrandId) (f : Fault') : SlotKept c s (s.raise c k f) := by
  refine ⟨?_, by rw [State.core_raise, if_pos rfl]; rfl⟩
  rw [State.raise_eq]
  split <;> rfl

theorem SlotKept.unholdDispense (c : CoreId) (s : State) (k : StrandId) : SlotKept c s (s.unholdDispense c k) := by
  unfold State.unholdDispense
  split
  · split
    · exact SlotKept.updStrand c s k _
    · exact SlotKept.refl c s
  · exact SlotKept.refl c s

theorem SlotKept.dropAnnulled (c : CoreId) (s : State) (k : StrandId) : SlotKept c s (s.dropAnnulled c k) := by
  unfold State.dropAnnulled
  dsimp only
  split
  · split
    · exact SlotKept.refl c s
    · exact SlotKept.raise c s k _
    · split
      · exact SlotKept.refl c s
      · exact SlotKept.updStrand c s k _
  · exact SlotKept.refl c s

theorem SlotKept.fetchFor (c : CoreId) (s : State) (k : StrandId) : SlotKept c s (s.fetchFor c k) := by
  unfold State.fetchFor State.wantFetch
  dsimp only
  split
  · split
    · exact SlotKept.refl c s
    · exact SlotKept.updStrand c s k fun t => { t with filling := true }
  · exact SlotKept.refl c s

theorem barrel_offers {s : State} (c : CoreId) (free : s.offer = none) :
    ((s.barrel c).offer = none ∧ ((s.barrel c).core c).p = (s.core c).p) ∨ (s.barrel c).offer = some (c, ((s.barrel c).core c).p) := by
  obtain ⟨offer, p⟩ := foldl_keeps (R := SlotKept c) (f := fun s k => ((s.unholdDispense c k).dropAnnulled c k).fetchFor c k) (SlotKept.refl c) SlotKept.trans
    (fun s k => ((SlotKept.unholdDispense c s k).trans (SlotKept.dropAnnulled c _ k)).trans (SlotKept.fetchFor c _ k))
    ((List.range 16).map (BitVec.ofNat 4)) s
  unfold State.barrel
  dsimp only
  generalize List.foldl _ s _ = u at offer p ⊢
  split
  · next k _ => exact .inr (congrArg (fun v : Core => some (c, v.p)) (State.core_updCore_same u c fun v => { v with p := k }).symm :)
  · exact .inl ⟨offer.trans free, p⟩

/-! ### The wake -/

/-- A write of registers alone leaves what a strand waits for. -/
def SameWait (a b : Strand) : Prop := b.st = a.st ∧ b.park = a.park

theorem sameWait_putX (a : Strand) (r : XReg) (v : Word) : SameWait a (a.putX r v) := by
  unfold Strand.putX
  split <;> exact ⟨rfl, rfl⟩

theorem sameWait_setF_x (a : Strand) (r : XReg) (v : Bool) : SameWait a (a.setF (.x r) v) := by
  simp only [Strand.setF]
  split <;> exact ⟨rfl, rfl⟩

theorem sameWait_applyFills (a : Strand) (r : XReg) : SameWait a (a.applyFills r) := by
  have fills : ∀ (l : List (XReg × Word × Nat)) (a : Strand), SameWait a (l.foldl (fun t f => t.putX r f.2.1) a) := by
    intro l
    induction l with
    | nil => exact fun a => ⟨rfl, rfl⟩
    | cons f l ih =>
      intro a
      obtain ⟨st, park⟩ := sameWait_putX a r f.2.1
      obtain ⟨st', park'⟩ := ih (a.putX r f.2.1)
      exact ⟨st'.trans st, park'.trans park⟩
  exact fills (a.fills.filter fun f => f.1 == r) a

theorem sameWait_resultX (s : State) (c d : CoreId) (k n : StrandId) (r : XReg) (v : Word) :
    SameWait (s.strand d n) ((s.resultX c k r v).strand d n) := by
  unfold State.resultX
  split
  · exact ⟨rfl, rfl⟩
  · rw [State.strand_updStrand]
    split
    · next same =>
      rw [same.1, same.2]
      obtain ⟨st, park⟩ := sameWait_putX (s.strand c (destStrand k r)) r v
      obtain ⟨st', park'⟩ := sameWait_setF_x ((s.strand c (destStrand k r)).putX r v) r true
      obtain ⟨st'', park''⟩ := sameWait_applyFills (((s.strand c (destStrand k r)).putX r v).setF (.x r) true) r
      exact ⟨st''.trans (st'.trans st), park''.trans (park'.trans park)⟩
    · exact ⟨rfl, rfl⟩

theorem wake_ready {s : State} {c : CoreId} {k : StrandId} (parked : (s.strand c k).st = .parked)
    (cleared : s.parkOver c k (s.strand c k).park = true) : ((s.wake c k).strand c k).st = .ready ∧ ((s.wake c k).strand c k).park = .none := by
  unfold State.wake
  dsimp only
  rw [if_pos (by rw [cleared, parked]; rfl)]
  split
  · next h _ d _ =>
    obtain ⟨st, park⟩ := sameWait_resultX (s.updStrand c k fun t => { (t.advance 4) with st := .ready, park := .none }) c c k k d
      ((Tab.get {} (s.core c).bars h).gen.setWidth 64)
    rw [State.strand_updStrand_same] at st park
    exact ⟨st, park⟩
  · rw [State.strand_updStrand_same]
    exact ⟨rfl, rfl⟩
  · rw [State.strand_updStrand_same]
    exact ⟨rfl, rfl⟩

end Sys2Proof

namespace Sys2Proof

open Machine

/-! ### The reply that ends a request -/

theorem Sends.dropParts (s : State) (n : Nat) : Sends s (s.dropParts n) :=
  foldl_keeps Sends.refl Sends.trans (fun s (e : Nat × Msg) => Sends.dropMsg s e.1) _ s

/-- The requests that settleId leaves are those that stood, some of them without what they waited for. -/
theorem ids_settleId (s : State) (c : CoreId) (id : Nat) (by' : Option Nat) :
    ((s.settleId c id by').core c).reqs.map (·.id) = (s.core c).reqs.map (·.id) := by
  unfold State.settleId
  dsimp only
  have departed := (foldl_keeps Sends.refl Sends.trans (f := fun s (e : SendEntry) => s.soon .sendBufferDeparture { c := c, n := e.m })
    (fun s e => Sends.push s _ _ _))
  have launched := (foldl_keeps Sends.refl Sends.trans (f := fun s (r : Req) => s.launchReq { r with after := [] }) (fun s r => Sends.launchReq s _))
  rw [(departed _ _).core c, (launched _ _).core c, State.core_setCore_same, List.map_map]
  rfl

/-- The end of a request takes it from the list of its core, and touches no memory. -/
theorem endReq_over (s : State) (c : CoreId) (id : Nat) :
    (∀ x ∈ ((s.endReq c id).core c).reqs, x.id ≠ id) ∧ (s.endReq c id).mem = s.mem := by
  have dropped := (Sends.dropMsg s id).trans (Sends.dropParts _ id)
  unfold State.endReq
  generalize (s.dropMsg id).dropParts id = u at dropped ⊢
  refine ⟨fun x hx same => ?_, (SendsFrom.settleId _ c id none).mem.trans dropped.mem⟩
  have listed := List.mem_map_of_mem (f := fun r : Req => r.id) hx
  rw [ids_settleId, State.core_updCore_same] at listed
  obtain ⟨y, hy, eq⟩ := List.mem_map.1 listed
  simpa [eq, same] using (List.mem_filter.1 hy).2

theorem finishReq_over (s : State) (c : CoreId) (id cls : Nat) :
    (∀ x ∈ ((s.finishReq c id cls).core c).reqs, x.id ≠ id) ∧ (s.finishReq c id cls).mem = s.mem := by
  unfold State.finishReq
  dsimp only
  have resumed := foldl_keeps Sends.refl Sends.trans (f := fun s (b : Block) => s.soon .commitStep { c := c, t := b.t.t.ident })
    (fun s b => Sends.push s _ _ _)
  obtain ⟨ended, mem⟩ := endReq_over (((s.core c).rings.filter fun b => b.wait == some id).foldl
    (fun s b => s.soon .commitStep { c := c, t := b.t.t.ident })
    (match (s.core c).slog.find? fun e => e.2.st == 2 && e.2.ord == id with
      | some e => s.soon .replayEntryResult { c := c, n := e.1, v := cls }
      | none => s)) c id
  refine ⟨ended, mem.trans ((resumed _ _).mem.trans ?_)⟩
  split <;> rfl

theorem mem_storeReply (s : State) (r : Req) (v : Rep) : (s.storeReply r v).mem = s.mem := by
  unfold State.storeReply
  split <;> rfl

/-- The logical time of a core takes in that of a reply. -/
def Machine.State.tookTime (s : State) (c : CoreId) (v : Rep) : State := if v.wts = 0 then s else s.updCore c fun x => { x with pts := wmax x.pts v.wts }

theorem tookTime_keeps (s : State) (c : CoreId) (v : Rep) : (s.tookTime c v).mem = s.mem ∧ ((s.tookTime c v).core c).slog = (s.core c).slog ∧
    ((s.tookTime c v).core c).rings = (s.core c).rings := by
  unfold State.tookTime
  split
  · exact ⟨rfl, rfl, rfl⟩
  · rw [State.core_updCore_same]
    exact ⟨rfl, rfl, rfl⟩

/-- Neither a replay nor a commit waits for a request of a core. -/
def Machine.State.ownReq (s : State) (c : CoreId) (id : Nat) : Prop :=
  (∀ e ∈ (s.core c).slog, ¬(e.2.st = 2 ∧ e.2.ord = id)) ∧ ∀ b ∈ (s.core c).rings, b.wait ≠ some id

theorem replyArrives_ends {s : State} {r : Req} {v : Rep} (own : s.ownReq r.core r.id) (sound : v.fault = none) (kept : v.withdrawn = false) :
    (r.kind = .store → s.replyArrives r v = ((s.tookTime r.core v).storeReply r v).finishReq r.core r.id 0) ∧
    ((∃ op, r.kind = .red op) → s.replyArrives r v = (s.tookTime r.core v).finishReq r.core r.id 0) := by
  obtain ⟨-, slog, rings⟩ := tookTime_keeps s r.core v
  have strand : ((((s.tookTime r.core v).core r.core).slog.any fun e => e.2.st == 2 && e.2.ord == r.id) ||
      ((s.tookTime r.core v).core r.core).rings.any fun b => b.wait == some r.id) = false := by
    rw [slog, rings]
    simpa [State.ownReq, not_and] using own
  have engine := fun h => Bool.false_ne_true (strand.symm.trans h)
  have stays : ¬(v.withdrawn && !r.kind.reissues) = true := by simp [kept]
  refine ⟨fun hk => (if_neg engine).trans ((if_neg stays).trans ?_), fun ⟨op, hk⟩ => (if_neg engine).trans ((if_neg stays).trans ?_)⟩
  · rw [hk, sound]
    unfold State.stored
    rw [hk]
    rfl
  · rw [hk, sound]
    rfl

theorem replyMsg_of {s : State} {n : Nat} {c : CoreId} {r : Req} {v : Rep} (h : Answers s n c r v) :
    s.replyMsg n = (s.dropMsg n).replyArrives r v := by
  obtain ⟨m, r', found, brings, core, id, elsewhere⟩ := h.arrived
  have found : Tab.find s.msgs n = some m := found
  unfold State.replyMsg
  rw [found]
  dsimp only
  rw [brings]
  dsimp only
  rw [if_neg elsewhere, core_dropMsg, core, id, h.held]

/-- The reply to a store or to a reduction ends its request (R130, R314). -/
theorem replyMsg_over {s : State} {n : Nat} {c : CoreId} {r : Req} {v : Rep} (h : Answers s n c r v) (sound : v.fault = none)
    (kept : v.withdrawn = false) (hk : r.kind = .store ∨ ∃ op, r.kind = .red op) : Over s (s.replyMsg n) c r := by
  have core := h.core
  subst core
  have own : (s.dropMsg n).ownReq r.core r.id := by
    unfold State.ownReq
    rw [core_dropMsg]
    exact h.strand
  have dropped := (Sends.dropMsg s n).mem
  rw [replyMsg_of h]
  generalize s.dropMsg n = u at own dropped ⊢
  obtain ⟨stores, reduces⟩ := replyArrives_ends own sound kept
  have taken := (tookTime_keeps u r.core v).1.trans dropped
  rcases hk with store | red
  · rw [stores store]
    obtain ⟨ended, mem⟩ := finishReq_over ((u.tookTime r.core v).storeReply r v) r.core r.id 0
    exact ⟨ended, fun y => congrArg (Memory.get · y) (mem.trans ((mem_storeReply _ r v).trans taken))⟩
  · rw [reduces red]
    obtain ⟨ended, mem⟩ := finishReq_over (u.tookTime r.core v) r.core r.id 0
    exact ⟨ended, fun y => congrArg (Memory.get · y) (mem.trans taken)⟩

/-! ### The fill of a PUTREG -/

theorem full_applyFill (a : Strand) {x : XReg} (hx : x ≠ 0#6) (v : Word) (at' : Nat) : (a.applyFill x v at').full (.x x) = true :=
  Strand.full_setF_same _ (.x x) true (by simpa using hx) (by simp)

/-- A fill that nothing outstanding holds up sets its register full. -/
theorem full_fillX {s : State} {c : CoreId} {k : StrandId} {x : XReg} (hx : x ≠ 0#6)
    (free : (s.strand c k).full (.x x) = true ∨ s.producing c k x = false) (v : Word) (src : BitVec 16) :
    ((s.fillX c k x v src).strand c k).full (.x x) = true := by
  unfold State.fillX
  dsimp only
  rw [if_pos (by simpa using free), State.strand_updStrand_same]
  exact full_applyFill _ hx v _

theorem putregFill_full {s : State} {n : Nat} {r : Req} (h : s.msgReq n = some r) {c : CoreId} {k : StrandId} {x : XReg}
    (hc : r.w1.extractLsb' 4 12 = c) (hk : r.w1.extractLsb' 0 4 = k) (hr : r.w1.extractLsb' 24 6 = x)
    (idle : (s.agenda.any fun e => decide (e.1 ≤ s.now) && e.2.1 == .barrelCycle && e.2.2.c == c) = false)
    (resident : (s.strand c k).res = some (r.job, r.lslot)) (hx : x ≠ 0#6) (has : x.toNat ≤ (s.launch r.job r.lslot).nreg)
    (free : (s.strand c k).full (.x x) = true ∨ s.producing c k x = false) : ((s.putregFill n).strand c k).full (.x x) = true := by
  subst hc hk hr
  unfold State.putregFill
  rw [h]
  dsimp only
  rw [if_neg (by rw [idle]; exact Bool.false_ne_true), if_pos ⟨resident, has⟩]
  have sent : ∀ u : State, Sends u ((u.dropMsg n).replyTo (u.servedAt r) r {} false) := fun u => (Sends.dropMsg u n).trans (Sends.replyTo _ _ _ _ _)
  have same := ((sent (s.fillX (r.w1.extractLsb' 4 12) (r.w1.extractLsb' 0 4) (r.w1.extractLsb' 24 6) r.w0 (r.core ++ r.strand))).from
    (r.w1.extractLsb' 4 12)).strand (r.w1.extractLsb' 4 12) (r.w1.extractLsb' 0 4)
  rw [same]
  exact full_fillX hx free _ _

theorem barrelStepsAct : BarrelStepsAct := by
  intro s c k
  refine ⟨fun hc free => ?_, fun hc hk parked cleared => ?_, fun n r v h sound kept kind => ?_, fun r h hc hk idle resident hx has free => ?_⟩
  · subst hc
    exact ⟨_, rfl, barrel_offers _ free⟩
  · subst hc hk
    exact ⟨_, rfl, wake_ready parked cleared⟩
  · refine ⟨_, rfl, ?_⟩
    rw [h.arg]
    exact replyMsg_over h sound kept kind
  · exact ⟨_, rfl, putregFill_full h hc hk rfl idle resident hx has free⟩

end Sys2Proof

/-! PROOF. The steps of the network where their conditions hold (R311, R316, R317, R321, R322). -/

namespace Sys2Proof

open Machine

theorem sentMsg_dropMsg_ne (s : State) {n k : Nat} (h : k ≠ n) : sentMsg (s.dropMsg n) k = sentMsg s k := by
  unfold sentMsg State.dropMsg State.freePool
  split
  · dsimp only
    split <;> exact find_del_ne s.msgs h
  · rfl

theorem port_updPort_same (s : State) (p : Nat) (f : Port → Port) : (s.updPort p f).port p = f (s.port p) := Tab.get_put_same _ _ _ _

theorem ports_of_sends {s t : State} (h : Sends s t) : t.ports = s.ports := (congrArg State.ports h.rest :)

/-- A RETRY makes the packet that it names wait (R316). -/
theorem retried_waits {s : State} {n k : Nat} {m r : Msg} (h : sentMsg s n = some m) (names : m.body = .retry k) (other : k ≠ n)
    (kept : sentMsg s k = some r) : sentMsg (s.retried n) k = some { r with refused := true, retries := r.retries + 1 } := by
  have kept : Tab.find (s.dropMsg n).msgs k = some r := (sentMsg_dropMsg_ne s other).trans kept
  have h : Tab.find s.msgs n = some m := h
  unfold State.retried
  rw [h]
  dsimp only
  rw [names]
  dsimp only
  rw [kept]
  exact Tab.find_put_same _ _ _

/-- The end of the wait sends the packet whole again (R309, R316). -/
theorem backoffExpiry_sends {s : State} {m : Msg} (h : sentMsg s s.arg.n = some m) (refused : m.refused = true) (gone : s.inMesh s.arg.n = false) :
    exec .backoffExpiry s = .next (s.inject s.arg.n m) := by
  have h : Tab.find s.msgs s.arg.n = some m := h
  refine congrArg Host.Outcome.next ?_
  rw [h]
  dsimp only
  rw [refused, if_neg (by decide), if_neg (by rw [gone]; exact Bool.false_ne_true)]

theorem isReplyKind_ne_tree {k : BitVec 6} (h : isReplyKind k = true) : (k == 0x30#6) = false := by
  by_contra tree
  rw [eq_of_beq (Bool.eq_true_of_not_eq_false tree)] at h
  exact absurd h (by decide)

/-- An answer that comes over a link enters the mesh as a packet of the port (R321, R322). -/
theorem linkArrival_enters {s : State} {p n : Nat} {m : Msg} (h : sentMsg s n = some m) (sound : (s.port p).failed = false)
    (reply : isReplyKind m.kind = true) :
    ∃ q, sentMsg (s.linkArrival p n) n = some q ∧ q.src = { dev := s.devnum, router := portRouter p, ep := 68 } := by
  have h : Tab.find s.msgs n = some m := h
  unfold State.linkArrival
  rw [h]
  dsimp only
  rw [sound, isReplyKind_ne_tree reply, reply, if_neg Bool.false_ne_true, if_neg Bool.false_ne_true, if_neg (by simp), if_pos rfl]
  generalize State.passPort _ p m = passed
  obtain ⟨u, m'⟩ := passed
  exact ⟨_, find_inject _ _ _, rfl⟩

/-- An answer that ends at the port or goes on leaves the ports as they are. -/
theorem ports_answerOn (s : State) (ends tile : Bool) (n : Nat) (m : Msg) :
    (if ends then s.dropMsg n else if tile then (s.inject n { m with parts := 5 }).sendParts n m else s.inject n m).ports = s.ports := by
  split
  · exact ports_of_sends (Sends.dropMsg s n)
  · split
    · exact ports_of_sends ((Sends.inject s n _).trans (Sends.sendParts _ n m))
    · exact ports_of_sends (Sends.inject s n m)

/-- An answer to a request that a port has proxied frees its entry (R322). -/
theorem answerReturn_frees {s : State} {p n : Nat} {m : Msg} {e : Proxy} (h : sentMsg s n = some m)
    (matched : (s.port p).proxies.find? (fun x => x.new == some m.answers) = some e) (answer : ∀ k, m.body ≠ .retry k) :
    ((s.answerReturn p n).port p).proxies = (s.port p).proxies.filter fun x => x.m ≠ e.m := by
  have h : Tab.find s.msgs n = some m := h
  unfold State.answerReturn
  rw [h]
  dsimp only
  rw [matched]
  dsimp only
  rw [if_neg fun waits => ?_]
  · have freed : (State.freeTag (s.updPort p fun x => { x with proxies := x.proxies.filter fun y => y.m ≠ e.m })
        { src := { dev := s.devnum, router := portRouter p, ep := 68 }, tag := m.answers }).port p =
        { s.port p with proxies := (s.port p).proxies.filter fun y => y.m ≠ e.m } := port_updPort_same s p fun x => { x with proxies := x.proxies.filter fun y => y.m ≠ e.m }
    generalize State.freeTag _ _ = u at freed ⊢
    have ports : ∀ t : State, t.ports = u.ports → (t.port p).proxies = (s.port p).proxies.filter fun y => y.m ≠ e.m := fun t same =>
      congrArg Port.proxies ((congrArg (fun x => Tab.get {} x p) same :).trans freed)
    refine ports _ ?_
    refine (ports_answerOn _ _ _ n _).trans ?_
    split
    · split
      · next k names => exact absurd names (answer k)
      · rw [if_neg Bool.false_ne_true]
        split
        · exact ports_of_sends (Sends.dropMsg _ _)
        · rfl
    · rfl
  · have retries := (Bool.and_eq_true_iff.1 waits).1
    split at retries
    · next k names => exact answer k names
    · exact Bool.false_ne_true retries

theorem networkStepsAct : NetworkStepsAct := by
  intro s n m hn h
  subst hn
  refine ⟨rfl, ⟨_, rfl, ?_⟩, fun k r names other kept => ?_, fun refused gone => ?_, fun sound reply => ?_, fun e matched answer => ?_,
    fun q waits => ?_, rfl⟩
  · rw [State.cluster_updCluster_same]
    exact ⟨rfl, rfl⟩
  · exact ⟨_, _, rfl, retried_waits h names other kept, rfl, rfl⟩
  · exact ⟨_, _, backoffExpiry_sends h refused gone, find_inject _ _ _, rfl, rfl⟩
  · obtain ⟨q, enters, src⟩ := linkArrival_enters h sound reply
    exact ⟨_, q, rfl, enters, src⟩
  · exact ⟨_, rfl, answerReturn_frees h matched answer⟩
  · refine ⟨_, rfl, ?_⟩
    rw [port_updPort_same]
    unfold Port.credit
    rw [waits]

end Sys2Proof

/-! PROOF. The steps of a stop and of a restore where their conditions hold (spec/21_preempt.md R393 to R402). -/

namespace Sys2Proof

open Machine

theorem SavesGoOn.thenSaves (s : State) (j : JobId) (own : Bool) : SavesGoOn s (s.thenSaves j own) := by
  unfold State.thenSaves
  split
  · exact SavesGoOn.refl s
  · next x _ => exact SavesGoOn.trans (t := s.savesBegin j x) ⟨rfl, fun _ => rfl⟩ (SavesGoOn.nextSaves _)

/-- A balanced stop shuts the job down, whoever has asked for it (R394). -/
theorem closeCut_stops {s : State} {j : JobId} (active : (s.job j).round.active = true) (stop : (s.job j).round.stop = true)
    (root : s.root = s.devnum.toNat) (h : (s.job j).round.due = []) (sum : (s.job j).round.sum = 0) (out : (s.job j).round.out = 0) :
    ((s.closeCut j none).job j).stopped = true ∧ ((s.closeCut j none).job j).round.active = false := by
  have run := closeCut_final active stop root h sum out
  obtain ⟨bjob, brest⟩ := broadcast_spec s j (s.job j).round.least
  dsimp only at run
  rw [run]
  generalize s.broadcast j (s.job j).round.least = b at bjob brest ⊢
  generalize b.asksStop j = own
  obtain ⟨-, -, factive⟩ := tellsFinal_spec (s := b) ((congrArg State.isRoot brest :).trans ((isRoot_iff s).2 root)) j own
  generalize b.tellsFinal j own = f at factive ⊢
  obtain ⟨gjob, gstopped, -⟩ := job_stopsJob f j
  have kept := (SavesGoOn.thenSaves (f.stopsJob j) j own).job j
  have round : (((f.stopsJob j).thenSaves j own).job j).round = (f.job j).round :=
    (congrArg Job.round kept :).trans (congrArg Job.round gjob :)
  refine ⟨(congrArg Job.stopped kept :).trans gstopped, ?_⟩
  rw [round, factive, bjob]
  rfl

/-- A strand of a launch that has ended does not run again, though its area verifies (R401). -/
theorem restoresFrom_ended {s : State} {j : JobId} {v : Job} {c : CoreId} {k : StrandId} {a : BitVec 48} {bs : List Byte}
    (inst : (s.job j).saved.inst = []) (whole : v.saved.whole = false) (ended : v.live ((wordAt bs 0x3F8).extractLsb' 48 16) = false) :
    s.restoresFrom j v [] [(c, k, a, some bs)] = (s.afterRestore j).endCut false := by
  have good : s.restoresFrom j v [] [(c, k, a, some bs)] = s.resumesFrom j v [] [(c, k, a, some bs)] := by
    unfold State.restoresFrom
    exact if_neg (by simp)
  rw [good]
  unfold State.resumesFrom
  simp only [reinstall_nothing inst, whole, List.filter_cons, List.filter_nil, ended, List.foldl_nil, Bool.not_true, Bool.false_eq_true, if_false]
  rfl

theorem job_endCut (s : State) (e : Bool) (j : JobId) : (s.endCut e).job j = s.job j := rfl

/-- A job whose one area verifies is no longer stopped, whether its strand runs again or its launch has ended (R401, R402). -/
theorem stopped_restoresFrom {s : State} {j : JobId} {v : Job} {c : CoreId} {k : StrandId} {a : BitVec 48} {bs : List Byte}
    (inst : (s.job j).saved.inst = []) (whole : v.saved.whole = false) :
    ((s.restoresFrom j v [] [(c, k, a, some bs)]).job j).stopped = false := by
  have goesOn : ∀ t : State, (((t.afterRestore j).endCut false).job j).stopped = false := fun t => by
    rw [job_endCut]
    exact (afterRestore_spec t j).2.1
  cases runs : v.live ((wordAt bs 0x3F8).extractLsb' 48 16) with
  | true =>
    rw [restoresFrom_verified inst whole runs]
    exact goesOn _
  | false =>
    rw [restoresFrom_ended inst whole runs]
    exact goesOn s

theorem stopStepsAct : StopStepsAct := by
  intro s j c k x
  refine ⟨fun hj hc resident stopped inactive root => ?_, fun hj active stop leaf => ?_, fun hj hv root active stop due sum out => ?_,
    fun hcore hk hc hp hs can clear u w g parts sealed => ?_,
    fun hcore hc hp hs hk scope mq mrun copies reqs freed committing clear u w bs bad g parts read sealed => ?_,
    fun hj hc resident stopped cores whole inst g bs strands verifies => ?_⟩
  · obtain ⟨t, run, -, active, stop, -⟩ := (stopsAsked hj hc).2.2.2 resident stopped root inactive
    exact ⟨t, run, active, stop⟩
  · obtain ⟨t, run, held, -⟩ := (stopRequests s j).2.2 hj active stop (.inl leaf)
    rw [leaf] at held
    exact ⟨t, run, held⟩
  · subst hj
    exact ⟨_, congrArg (fun g => Host.Outcome.next (s.closeCut s.arg.j g)) (if_neg hv), closeCut_stops active stop root due sum out⟩
  · obtain ⟨t, run, -, recorded, -⟩ := ((strandSaves s c k x hcore hk hc).2.2.2 hp hs can clear).1 u w g parts sealed
    exact ⟨t, run, by simp [recorded]⟩
  · have nothing := scrub_nothing freed
    have idle : ¬coreBusy s c x.job := by
      unfold coreBusy
      rw [committing, mq, mrun, copies, reqs]
      simp
    obtain ⟨t, run, -, -, recorded, -⟩ := (coreSaves s c x hcore hc).2.2.2.1 hp hs hk idle (by rw [nothing, scope]; exact clear) scope u w bs bad g
      (by rw [nothing]; exact parts) read sealed
    exact ⟨t, run, by simp [recorded]⟩
  · have reads := restore_reads hj hc resident stopped cores strands
    dsimp only at reads
    have visited := (Visits.visitRead { s with prestat := 0 } 0 j (s.strandVa c k) 0x1000).rest
    generalize ({ s with prestat := 0 } : State).visitRead 0 j (s.strandVa c k) 0x1000 = s1 at reads visited verifies
    have job : s1.job j = s.job j := (congrArg (fun t : State => t.job j) visited :)
    rw [verifies] at reads
    exact ⟨_, congrArg Host.Outcome.next reads, stopped_restoresFrom (by rw [job]; exact inst) whole⟩

/-- Settles O37: that each device step answers from the form of its function, and what the steps do by the part of the machine that they serve. -/
theorem deviceStepsComplete : Obligations.DeviceStepsComplete :=
  ⟨deviceStepsAnswer, hostStepsAct, barrelStepsAct, networkStepsAct, stopStepsAct⟩

end Sys2Proof
